-- ==== Sys2Proof/Word.lean ====
section
/-! DEFINITION. The word types of the NHM-0816: scalar words, parcels and bytes (00 R3, 09 R113). -/

namespace Sys2Proof

/-- A scalar register value (07 R89). -/
abbrev Word := BitVec 64
/-- The unit of instruction storage (09 R113). -/
abbrev Parcel := BitVec 32
/-- One byte of memory. -/
abbrev Byte := BitVec 8
/-- A vector register: 2048 bits (07 R89). -/
abbrev VWord := BitVec 2048
/-- A scale register: sixteen scale bytes (07 R89). -/
abbrev KWord := BitVec 128
/-- A mask register (07 R89). -/
abbrev MWord := BitVec 256

/-- Bits hi down to lo of x as a number (00 R3). -/
def bitsNat (x hi lo : Nat) : Nat := (x >>> lo) % 2 ^ (hi + 1 - lo)

end Sys2Proof
end

