-- ==== Sys2Proof/Machine/Num.lean ====
section
/-! DEFINITION. Number formats, rounding and exact arithmetic (05). Exact reals of the manual that occur are
rational, but for the functions of R81 and R87, whose values are taken to far more bits than rounding needs (log 8). -/

namespace Sys2Proof.Machine

/-- The five rounding modes (R74). -/
inductive Rnd where
  | rne | rtz | rdn | rup | rna
  deriving DecidableEq, Repr

/-- A rounding mode with its saturate bit (R74). -/
structure RMode where
  rnd : Rnd
  sat : Bool
  deriving DecidableEq, Repr

/-- The floating-point formats (R65). -/
inductive Fmt where
  | f32 | bf16 | f16 | e5m2 | e4m3
  deriving DecidableEq, Repr

/-- Bits of the fraction field (R65). -/
def Fmt.mb : Fmt → Nat
  | .f32 => 23 | .bf16 => 7 | .f16 => 10 | .e5m2 => 2 | .e4m3 => 3
/-- Bits of the exponent field (R65). -/
def Fmt.eb : Fmt → Nat
  | .f32 => 8 | .bf16 => 8 | .f16 => 5 | .e5m2 => 5 | .e4m3 => 4
/-- Exponent bias (R65). -/
def Fmt.bias : Fmt → Nat
  | .f32 => 127 | .bf16 => 127 | .f16 => 15 | .e5m2 => 15 | .e4m3 => 7
/-- Width in bits (R65). -/
def Fmt.width (f : Fmt) : Nat := 1 + f.eb + f.mb
/-- The canonical NaN (R65). -/
def Fmt.nan : Fmt → Nat
  | .f32 => 0x7FC00000 | .bf16 => 0x7FC0 | .f16 => 0x7E00 | .e5m2 => 0x7E | .e4m3 => 0x7F
/-- The magnitude bits of the largest finite value (R65). -/
def Fmt.maxBits : Fmt → Nat
  | .f32 => 0x7F7FFFFF | .bf16 => 0x7F7F | .f16 => 0x7BFF | .e5m2 => 0x7B | .e4m3 => 0x7E
/-- e4m3 alone has no infinity (R65). -/
def Fmt.hasInf : Fmt → Bool
  | .e4m3 => false | _ => true
/-- The magnitude bits of infinity, where the format has one. -/
def Fmt.infBits (f : Fmt) : Nat := (2 ^ f.eb - 1) <<< f.mb

/-- Sticky flags in the bit order of VFLAGS (R79): TRN, SAT, NV, DZ, OF, UF, NX from bit 6 to bit 0. -/
abbrev Flags := BitVec 7
def fNX : Flags := 1
def fUF : Flags := 2
def fOF : Flags := 4
def fDZ : Flags := 8
def fNV : Flags := 16
def fSAT : Flags := 32
def fTRN : Flags := 64

/-- An exact value: NaN, a signed infinity, or a rational whose zero carries a sign. -/
inductive XR where
  | nan
  | inf (neg : Bool)
  | num (zneg : Bool) (q : Rat)
  deriving DecidableEq, Repr

/-- The sign of a value that is not NaN. -/
def XR.neg? : XR → Bool
  | .nan => false
  | .inf n => n
  | .num z q => if q = 0 then z else decide (q < 0)

/-- 2^e as a rational. -/
def pow2 (e : Int) : Rat :=
  match e with
  | .ofNat n => ((2 ^ n : Nat) : Rat)
  | .negSucc n => mkRat 1 (2 ^ (n + 1))

/-- The value of a bit pattern (R65). -/
def Fmt.decode (f : Fmt) (b : Nat) : XR :=
  let s := (b >>> (f.eb + f.mb)) % 2 = 1
  let e := (b >>> f.mb) % 2 ^ f.eb
  let m := b % 2 ^ f.mb
  let sg : Rat := if s then -1 else 1
  if f.hasInf && e == 2 ^ f.eb - 1 then
    if m = 0 then .inf s else .nan
  else if !f.hasInf && e == 15 && m == 7 then .nan
  else if e = 0 then .num s (sg * m * pow2 (1 - (f.bias : Int) - f.mb))
  else .num s (sg * ((2 ^ f.mb + m : Nat) : Rat) * pow2 ((e : Int) - f.bias - f.mb))

/-- ⌊log2 (n/d)⌋ for positive n and d. -/
def flog2 (n d : Nat) : Int :=
  let k : Int := (n.log2 : Int) - d.log2
  let ge := match k with
    | .ofNat j => decide (d <<< j ≤ n)
    | .negSucc j => decide (d ≤ n <<< (j + 1))
  if ge then k else k - 1

/-- RoundF32 of a positive magnitude n/d (R75): the magnitude bits and the flags. `neg` is the sign of the value. -/
def roundMag (f : Fmt) (m : RMode) (neg : Bool) (n d : Nat) : Nat × Flags :=
  let emin : Int := 1 - (f.bias : Int)
  let e := max (flog2 n d) emin
  let sh : Int := e - f.mb
  let (nn, dd) := match sh with
    | .ofNat j => (n, d <<< j)
    | .negSucc j => (n <<< (j + 1), d)
  let lo := nn / dd
  let r := nn % dd
  let up : Bool := r != 0 && (match m.rnd with
    | .rne => decide (dd < 2 * r) || (2 * r == dd && lo % 2 == 1)
    | .rna => decide (dd ≤ 2 * r)
    | .rtz => false
    | .rup => !neg
    | .rdn => neg)
  let k := if up then lo + 1 else lo
  let bits := ((e - emin).toNat <<< f.mb) + k
  let fl : Flags := (if r != 0 then fNX else 0) |||
    (if decide (flog2 n d < emin) && r != 0 then fUF else 0)
  if bits > f.maxBits then
    let fl := fl ||| fOF ||| fNX
    if m.sat then (f.maxBits, fl)
    else if m.rnd == .rtz || (m.rnd == .rup && neg) || (m.rnd == .rdn && !neg) then (f.maxBits, fl)
    else if f.hasInf then (f.infBits, fl)
    else (2 ^ (f.width), fl)          -- e4m3: the caller answers its canonical NaN
  else (bits, fl)

/-- RoundF32(x, m, fmt) (R75): the bit pattern and the flags raised. -/
def roundTo (f : Fmt) (m : RMode) (x : XR) : Nat × Flags :=
  let sb (neg : Bool) := if neg then 2 ^ (f.eb + f.mb) else 0
  match x with
  | .nan => (f.nan, 0)
  | .inf neg =>
    if f.hasInf then (sb neg + f.infBits, 0)
    else if m.sat then (sb neg + f.maxBits, fNV) else (f.nan, fNV)
  | .num z q =>
    if q = 0 then (sb z, 0)
    else
      let neg := decide (q < 0)
      let (b, fl) := roundMag f m neg q.num.natAbs q.den
      if b = 2 ^ f.width then (f.nan, fl) else (sb neg + b, fl)

/-- The rounding mode RNE without saturation. -/
def rne : RMode := { rnd := .rne, sat := false }

/-- RoundF32 to f32 in RNE, the flags dropped: the r(x) of R219 and of the A engine (19 R279). -/
def r32 (x : XR) : XR := Fmt.f32.decode (roundTo .f32 rne x).1

/-- Exact negation. -/
def XR.negate : XR → XR
  | .nan => .nan
  | .inf n => .inf (!n)
  | .num z q => .num (!z) (-q)

/-- Exact sum; the sign of a zero sum by R76; NV for ∞ − ∞ (R215). -/
def XR.add (rd : Rnd) : XR → XR → XR × Flags
  | .nan, _ => (.nan, 0)
  | _, .nan => (.nan, 0)
  | .inf a, .inf b => if a = b then (.inf a, 0) else (.nan, fNV)
  | .inf a, _ => (.inf a, 0)
  | _, .inf b => (.inf b, 0)
  | .num z q, .num z' q' =>
    let s := q + q'
    if s = 0 then
      if q = 0 && z == z' then (.num z 0, 0) else (.num (rd == .rdn) 0, 0)
    else (.num false s, 0)

/-- Exact product; NV for 0 × ∞ (R215). -/
def XR.mul : XR → XR → XR × Flags
  | .nan, _ => (.nan, 0)
  | _, .nan => (.nan, 0)
  | .num z q, .num z' q' =>
    (.num (XR.neg? (.num z q) != XR.neg? (.num z' q')) (q * q'), 0)
  | .inf a, .inf b => (.inf (a != b), 0)
  | .inf a, .num z q => if q = 0 then (.nan, fNV) else (.inf (a != XR.neg? (.num z q)), 0)
  | .num z q, .inf b => if q = 0 then (.nan, fNV) else (.inf (b != XR.neg? (.num z q)), 0)

/-- Exact quotient; NV for 0/0 and ∞/∞, DZ for a finite non-zero value over zero (R215). -/
def XR.div : XR → XR → XR × Flags
  | .nan, _ => (.nan, 0)
  | _, .nan => (.nan, 0)
  | .inf _, .inf _ => (.nan, fNV)
  | .inf a, .num z q => (.inf (a != XR.neg? (.num z q)), 0)
  | .num z q, .inf b => (.num (b != XR.neg? (.num z q)) 0, 0)
  | .num z q, .num z' q' =>
    let s := XR.neg? (.num z q) != XR.neg? (.num z' q')
    if q' = 0 then (if q = 0 then (.nan, fNV) else (.inf s, fDZ))
    else (.num s (q / q'), 0)

/-- A × B + C exactly. A NaN operand gives NaN and by itself no flag (R66); 0 × ∞ sets NV whatever C is (R215). -/
def XR.fma (rd : Rnd) (a b c : XR) : XR × Flags :=
  let (p, f) := XR.mul a b
  let (s, g) := XR.add rd p c
  (s, f ||| g)

/-- x ranks strictly below y (R80): NaN < −∞ < finite < +∞, −0 = +0, all NaNs equal. -/
def XR.rankLt : XR → XR → Bool
  | .nan, .nan => false
  | .nan, _ => true
  | _, .nan => false
  | .inf a, .inf b => a && !b
  | .inf a, .num _ _ => a
  | .num _ _, .inf b => !b
  | .num _ q, .num _ q' => decide (q < q')

/-- x is a zero. -/
def XR.isZero : XR → Bool
  | .num _ q => decide (q = 0)
  | _ => false

/-- The maximum by rank; +0 when −0 and +0 both rank highest (15 R216, 19 R279). -/
def XR.rankMax (a b : XR) : XR :=
  if a.rankLt b then b else if b.rankLt a then a
  else if a.isZero then .num (a.neg? && b.neg?) 0 else a

/-- The minimum by rank; −0 when −0 and +0 both rank lowest (15 R216). -/
def XR.rankMin (a b : XR) : XR :=
  if a.rankLt b then a else if b.rankLt a then b
  else if a.isZero then .num (a.neg? || b.neg?) 0 else a

/-- |x|. -/
def XR.abs : XR → XR
  | .nan => .nan
  | .inf _ => .inf false
  | .num _ q => .num false (if q < 0 then -q else q)

/-! ### The correctly rounded functions (R81, R87). Values are computed in fixed point of 256 fraction bits and more;
an irrational value is replaced by a dyadic one nearer to it than any rounding boundary (log 8). -/

/-- Newton's iteration for the integer square root, started above the root. -/
def isqrtGo : Nat → Nat → Nat → Nat
  | 0, _, x => x
  | f + 1, n, x => let y := (x + n / x) / 2
    if y < x then isqrtGo f n y else x

/-- ⌊√n⌋. -/
def isqrt (n : Nat) : Nat := if n = 0 then 0 else isqrtGo 1200 n (2 ^ (n.log2 / 2 + 1))

/-- Fraction bits of the fixed point used below. -/
def fxp : Nat := 320

/-- The product of 2^(2^-i) over the set bits of a fraction with `n` bits left, the constant `c` standing for 2^(2^-(i-1)). -/
def exp2Frac : Nat → Nat → Nat → Nat → Nat
  | 0, _, _, acc => acc
  | n + 1, fr, c, acc =>
    let c' := isqrt (c <<< fxp)
    let acc' := if (fr >>> n) % 2 = 1 then (acc * c') >>> fxp else acc
    exp2Frac n fr c' acc'

/-- 2^x for a finite x: exact for an integer x, else a dyadic value within 2^-250 of it, never on a rounding boundary. -/
def exp2Q (q : Rat) : Rat :=
  let fl := q.num / (q.den : Int)
  let fr := q - fl
  if fr = 0 then pow2 fl
  else
    let frb := (fr * ((2 ^ 200 : Nat) : Rat)).num / (fr * ((2 ^ 200 : Nat) : Rat)).den
    let v := exp2Frac 200 frb.toNat (2 <<< fxp) (1 <<< fxp)
    mkRat ((2 * v + 1 : Nat) : Int) (2 <<< fxp) * pow2 fl

/-- 2^x (R81). Beyond ±2,000 the exponent is clamped: the result overflows or underflows to the same bits and flags. -/
def XR.exp2 : XR → XR
  | .nan => .nan
  | .inf true => .num false 0
  | .inf false => .inf false
  | .num _ q => if q > 2000 then .num false (pow2 2000) else if q < -2000 then .num false (pow2 (-2000))
    else .num false (exp2Q q)

/-- Bits of log2 of a mantissa y/2^fxp in [1, 2), by repeated squaring. -/
def log2Bits : Nat → Nat → Nat → Nat
  | 0, _, acc => acc
  | n + 1, y, acc =>
    let y2 := (y * y) >>> (2 * fxp)
    if y2 < 2 <<< (2 * fxp) then log2Bits n y2 (2 * acc)
    else log2Bits n (y2 >>> 1) (2 * acc + 1)

/-- log2 x for a positive x: exact for a power of two, else a dyadic value within 2^-200 of it. -/
def log2Q (q : Rat) : Rat :=
  let e := flog2 q.num.natAbs q.den
  let m := q / pow2 e
  if m = 1 then (e : Rat)
  else
    let y := (m * ((2 ^ (2 * fxp) : Nat) : Rat)).num / (m * ((2 ^ (2 * fxp) : Nat) : Rat)).den
    let b := log2Bits 200 y.toNat 0
    (e : Rat) + mkRat ((2 * b + 1 : Nat) : Int) (2 ^ 201)

/-- log2 x with its flags (R81). -/
def XR.log2 : XR → XR × Flags
  | .nan => (.nan, 0)
  | .inf true => (.nan, fNV)
  | .inf false => (.inf false, 0)
  | .num _ q => if q = 0 then (.inf true, fDZ) else if q < 0 then (.nan, fNV) else (.num false (log2Q q), 0)

/-- 1/x with its flags (R81). -/
def XR.rcp : XR → XR × Flags
  | .nan => (.nan, 0)
  | .inf n => (.num n 0, 0)
  | .num z q => if q = 0 then (.inf z, fDZ) else (.num false (1 / q), 0)

/-- 1/√q for a positive q: exact when it is rational, else a dyadic value within 2^-300 of it relatively. -/
def rsqrtQ (q : Rat) : Rat :=
  let n := q.den
  let d := q.num.natAbs
  let rn := isqrt n
  let rd := isqrt d
  if rn * rn = n ∧ rd * rd = d then mkRat rn rd
  else
    -- 1/√(d/n) = √(n·d)/d; scale the radicand by 2^(2·800)
    let r := isqrt ((n * d) <<< 1600)
    mkRat ((2 * r + 1 : Nat) : Int) (d <<< 801)

/-- 1/√x with its flags (R81). -/
def XR.rsqrt : XR → XR × Flags
  | .nan => (.nan, 0)
  | .inf true => (.nan, fNV)
  | .inf false => (.num false 0, 0)
  | .num z q => if q = 0 then (.inf z, fDZ) else if q < 0 then (.nan, fNV) else (.num false (rsqrtQ q), 0)

/-- cos and sin of 2π/2^j, in fixed point, from those of 2π/2^(j-1) by the half-angle formulas. -/
def halfAngle (cs : Int × Int) : Int × Int :=
  let one : Int := (1 <<< fxp : Nat)
  let c := isqrt (((one + cs.1).toNat <<< fxp) / 2)
  let s := isqrt (((one - cs.1).toNat <<< fxp) / 2)
  ((c : Int), (s : Int))

/-- The product of e^(2πi/2^j) over the set bits of a fraction with `n` bits left. -/
def rotFrac : Nat → Nat → Int × Int → Int × Int → Int × Int
  | 0, _, _, acc => acc
  | n + 1, fr, cs, acc =>
    let cs' := halfAngle cs
    let sc : Int := (1 <<< fxp : Nat)
    let acc' := if (fr >>> n) % 2 = 1
      then ((acc.1 * cs'.1 - acc.2 * cs'.2) / sc, (acc.1 * cs'.2 + acc.2 * cs'.1) / sc) else acc
    rotFrac n fr cs' acc'

/-- cos and sin of 2π·ph/2^24 (R87): exact at the quarter turns, where a zero is +0 (log 8), else within 2^-250. -/
def cosSin (ph : Nat) : XR × XR :=
  let quad := ph / 2 ^ 22
  let fr := ph % 2 ^ 22
  let one : Int := (1 <<< fxp : Nat)
  -- the angle within the quadrant; half angles start from a quarter turn: cos 0, sin 1
  let (c, s) := if fr = 0 then (one, 0) else rotFrac 22 fr (0, one) (one, 0)
  let (c, s) := match quad with
    | 0 => (c, s) | 1 => (-s, c) | 2 => (-c, -s) | _ => (s, -c)
  (.num false (mkRat c (1 <<< fxp)), .num false (mkRat s (1 <<< fxp)))

/-! ### The 4-bit block format and t3 (R69 to R73, R88) -/

/-- The value of a b4 code in sixteenths of its unit times 16, that is eight times the value, without scale (R70). -/
def b4Eighths (ty c : Nat) : Int :=
  let j := c % 8
  let v : Int := match ty with
    | 0 => 0
    | 1 => [0, 4, 8, 12, 16, 24, 32, 48].getD j 0
    | 2 => if j = 0 then 0 else (2 ^ (j - 1) : Nat)
    | _ => [0, 8, 16, 24, 32, 48, 64, 96].getD j 0
  if ty = 0 then (if c < 8 then 8 * (c : Int) else 8 * ((c : Int) - 16))
  else if c ≥ 8 then -v else v

/-- DecodeB4(c, sb) (R88). -/
def decodeB4 (c sb : Nat) : Rat :=
  mkRat (b4Eighths (sb / 64 % 4) (c % 16)) 8 * pow2 ((sb % 64 : Nat) - 40)

/-- The five ternary weights of a t3 byte, and whether it is legal (R73). -/
def decodeT3 (b : Nat) : List Int × Bool :=
  if b ≥ 243 then ([0, 0, 0, 0, 0], false)
  else
    let q : List Nat := [b, (b * 21846) >>> 16, (b * 7282) >>> 16, (b * 2428) >>> 16, (b * 810) >>> 16, 0]
    ((List.range 5).map fun i => ((q.getD i 0 : Int) - 3 * q.getD (i + 1) 0) - 1, true)

/-! ### Integer types, saturation and conversions (R68, R77, R88) -/

/-- The numeric element types of R124. -/
inductive Ty where
  | none | i8 | i16 | i32 | i64 | n8 | n16 | n32 | n64 | f16 | bf16 | f32 | e4m3 | e5m2 | b4 | t3
  deriving DecidableEq, Repr

/-- TY codes (R124). -/
def Ty.code : Ty → Nat
  | .none => 0 | .i8 => 1 | .i16 => 2 | .i32 => 3 | .i64 => 4 | .n8 => 5 | .n16 => 6 | .n32 => 7 | .n64 => 8
  | .f16 => 9 | .bf16 => 10 | .f32 => 11 | .e4m3 => 12 | .e5m2 => 13 | .b4 => 14 | .t3 => 15

/-- The type of a TY code; none for a reserved code (R124). -/
def Ty.ofCode : Nat → Option Ty
  | 0 => some .none | 1 => some .i8 | 2 => some .i16 | 3 => some .i32 | 4 => some .i64 | 5 => some .n8
  | 6 => some .n16 | 7 => some .n32 | 8 => some .n64 | 9 => some .f16 | 10 => some .bf16 | 11 => some .f32
  | 12 => some .e4m3 | 13 => some .e5m2 | 14 => some .b4 | 15 => some .t3 | _ => Option.none

/-- Element width in bits (15 R209); b4, t3 and none have no element view. -/
def Ty.width : Ty → Nat
  | .i8 | .n8 | .e4m3 | .e5m2 | .t3 => 8
  | .i16 | .n16 | .f16 | .bf16 => 16
  | .i32 | .n32 | .f32 => 32
  | .i64 | .n64 => 64
  | .b4 => 4 | .none => 32

/-- Signed integer types. -/
def Ty.signed : Ty → Bool
  | .i8 | .i16 | .i32 | .i64 => true | _ => false
/-- Integer types. -/
def Ty.isInt : Ty → Bool
  | .i8 | .i16 | .i32 | .i64 | .n8 | .n16 | .n32 | .n64 => true | _ => false
/-- The format of a float type. -/
def Ty.fmt? : Ty → Option Fmt
  | .f32 => some .f32 | .bf16 => some .bf16 | .f16 => some .f16 | .e4m3 => some .e4m3 | .e5m2 => some .e5m2
  | _ => Option.none
/-- The format of a float type; f32 for any other type. -/
def Ty.fmt (t : Ty) : Fmt := t.fmt?.getD .f32

/-- Lowest and highest value of an integer type (R68). -/
def Ty.minI (t : Ty) : Int := if t.signed then -((2 ^ (t.width - 1) : Nat) : Int) else 0
def Ty.maxI (t : Ty) : Int :=
  if t.signed then ((2 ^ (t.width - 1) : Nat) : Int) - 1 else ((2 ^ t.width : Nat) : Int) - 1

/-- Sat(x, ty) with its flag (R88). -/
def satI (t : Ty) (x : Int) : Int × Flags :=
  if x > t.maxI then (t.maxI, fSAT) else if x < t.minI then (t.minI, fSAT) else (x, 0)

/-- The bit pattern of an integer in w bits. -/
def toBits (w : Nat) (x : Int) : Nat := (x % ((2 ^ w : Nat) : Int)).toNat

/-- A w-bit pattern read as signed. -/
def sgn (w b : Nat) : Int := if b % 2 ^ w ≥ 2 ^ (w - 1) then (b % 2 ^ w : Nat) - ((2 ^ w : Nat) : Int) else (b % 2 ^ w : Nat)

/-- An element of integer type ty read as its type reads it. -/
def Ty.toInt (t : Ty) (b : Nat) : Int := if t.signed then sgn t.width b else (b % 2 ^ t.width : Nat)

/-- An integer result of type ty: wrapped, or clamped with SAT when `sat` holds (R68, R213). -/
def Ty.fromInt (t : Ty) (sat : Bool) (x : Int) : Nat × Flags :=
  if sat then let (y, f) := satI t x; (toBits t.width y, f) else (toBits t.width x, 0)

/-- A rational rounded to an integer under a mode; whether a fraction was discarded. -/
def roundInt (rd : Rnd) (q : Rat) : Int × Bool :=
  let lo := q.num / (q.den : Int)
  let r := q - lo
  if r = 0 then (lo, false)
  else
    let half : Rat := mkRat 1 2
    let hi := lo + 1
    (match rd with
      | .rne => if r < half then lo else if half < r then hi else if lo % 2 = 0 then lo else hi
      | .rna => if r < half then lo else if half < r then hi else if q > 0 then hi else lo
      | .rtz => if q > 0 then lo else hi
      | .rdn => lo
      | .rup => hi, true)

/-- Float to integer (R77). -/
def floatToInt (t : Ty) (rd : Rnd) (x : XR) : Nat × Flags :=
  match x with
  | .nan => (0, fNV)
  | .inf n => (toBits t.width (if n then t.minI else t.maxI), fNV)
  | .num _ q =>
    let (i, fr) := roundInt rd q
    let nx := if fr then fNX else 0
    if i > t.maxI then (toBits t.width t.maxI, fNV ||| nx)
    else if i < t.minI then (toBits t.width t.minI, fNV ||| nx)
    else (toBits t.width i, nx)

/-- One conversion cv of VCVT (15 R228). -/
def convert (dst src : Ty) (m : RMode) (b : Nat) : Nat × Flags :=
  match src.fmt?, dst.fmt? with
  | some fs, some fd => roundTo fd m (fs.decode b)
  | some fs, Option.none => floatToInt dst m.rnd (fs.decode b)
  | Option.none, some fd => roundTo fd m (.num false (src.toInt b))
  | Option.none, Option.none => dst.fromInt m.sat (src.toInt b)

/-! ### Rounding mode fields (R74) -/

/-- The queue mode as VMODE and MMODE hold it: [3] saturate, [2:0] mode coded as MD (07 R109). -/
def modeOfCode (c : Nat) : RMode :=
  { rnd := match c % 8 with | 2 => .rtz | 3 => .rdn | 4 => .rup | 5 => .rna | _ => .rne, sat := c / 8 % 2 == 1 }

/-- The mode an instruction uses: its MD, or the queue mode (R74). -/
def modeOf (md queue : Nat) : RMode :=
  if md % 8 = 0 then { modeOfCode queue with sat := (modeOfCode queue).sat || md / 8 % 2 == 1 }
  else modeOfCode md

/-! ### CRC-64/XZ (23 R317, 25 R338) -/

/-- One byte into the reflected CRC register. -/
def crcByte (c : Nat) (b : Nat) : Nat :=
  (List.range 8).foldl (fun c _ => if c % 2 = 1 then (c >>> 1) ^^^ 0xC96C5795D7870F42 else c >>> 1) (c ^^^ b)

/-- CRC-64/XZ of a list of bytes: initial value and final XOR all ones. -/
def crc64 (bs : List Byte) : BitVec 64 :=
  BitVec.ofNat 64 (bs.foldl (fun c b => crcByte c b.toNat) (2 ^ 64 - 1) ^^^ (2 ^ 64 - 1))

end Sys2Proof.Machine
end

