-- ==== Sys2Proof/Syntax.lean ====
section
/-! DEFINITION. The instructions: one constructor for each row of spec/opcode_table.json. A row that is a word of an
engine's stream carries its decoded fields (09 R119); a row that is a step of the module carries the step's inputs. -/

namespace Sys2Proof

open Sys2Proof.Machine (Ty)

/-- An operand, decoded from its 11-bit specifier (09 R123). -/
inductive Opnd where
  | v (i : BitVec 9)
  | s (i : BitVec 6)
  | b (i : BitVec 3)
  | p (i : BitVec 3)
  | vm (i : BitVec 4)
  | k (i : BitVec 8)
  | q (peek : Bool) (i : BitVec 4)
  | null
  deriving DecidableEq, Repr

/-- The fields of a Form A word (09 R119). -/
structure AForm where
  sub : BitVec 4
  gn : Bool
  gp : BitVec 3
  dst : Opnd
  sa : Opnd
  sb : Opnd
  sc : Opnd
  ft : BitVec 3
  ty : Ty
  md : BitVec 4
  imm : BitVec 24
  deriving DecidableEq, Repr

/-- The fields of a Form B word (09 R119). -/
structure BForm where
  sub : BitVec 4
  gn : Bool
  gp : BitVec 3
  dst : Opnd
  sa : Opnd
  ft : Bool
  ty : Ty
  md : BitVec 4
  imm : BitVec 48
  deriving DecidableEq, Repr

/-- The fields of a Form C word (09 R119). -/
structure CForm where
  sub : BitVec 4
  gn : Bool
  gp : BitVec 3
  dst : Opnd
  sa : Opnd
  lv : BitVec 3
  cf : BitVec 7
  off : BitVec 48
  deriving DecidableEq, Repr

/-- A Form P instruction: a Form A head and twelve parameter fields, field i in bits [32i + 31 : 32i] (09 R121). -/
structure PForm where
  head : AForm
  par : BitVec 384
  deriving DecidableEq, Repr

/-- The answer of another module to an access or a message: taken; not taken (no such memory, 27 R361; every receive slot occupied, 13 R205);
refused (27 R351); a write to a granule whose RO bit is set (27 R362). -/
inductive FarAns where
  | ok | no | refused | readOnly
  deriving DecidableEq, Repr

/-- The answers of other modules to an access, by the 64-byte granule of the physical address; a granule that is not listed is taken. -/
abbrev FarMap := List (Nat × FarAns)

/-- The answer for an address. -/
def FarMap.at (m : FarMap) (pa : Nat) : FarAns := ((m.find? fun e => e.1 == pa / 64).map (·.2)).getD .ok

/-- What other modules answer to a MSGSEND: to the message, and to the reads of its payload (13 R182, R205). -/
structure MsgAns where
  target : FarAns := .ok
  payload : FarMap := []
  deriving DecidableEq, Repr

/-- A context whose transfer has waited 2 ms: the accesses of it, counted from 0, that have no answer, each with its first part that has none,
and the answers of other modules to the rest (13 R183); and the accesses of the cluster that were accepted and have no answer (21 R316), by
number and part. -/
structure Unanswered where
  x : Nat
  late : List (Nat × Nat)
  far : FarMap := []
  lost : List (Nat × Nat) := []
  deriving DecidableEq, Repr

/-- What a request on the physical map asks (27 R350, 31 R385): a read, a write, an addition, a message; an atomic (13 R195; its operands in
the data, one above the other); a reducing store (R198); a push or a pop on a queue (R204), with the physical address of its BASE; a hub
core's fence (21 R293); ATTR.set or ATTR.clr of a range (11 R177). -/
inductive ReqKind where
  | read | write | atomicAdd | message
  | atom (op : Nat) (ty : Ty)
  | reduce (op : Nat) (ty : Ty)
  | qpush (base : Nat)
  | qpop (base : Nat)
  | fence
  | attrSet
  | attrClr
  deriving DecidableEq, Repr

/-- A request by a hub core or a host: physical address or BAR offset, width in bytes, data; and how other modules answer it. -/
structure BusReq where
  kind : ReqKind
  addr : Nat
  len : Nat
  data : BitVec 64
  far : FarMap := []
  deriving DecidableEq, Repr

/-- A request that arrives through the Gateway from another module (27 R351). For a message, `addr` is the target
cluster, `hnd` the handler and `asid` the sender task's ASID (13 R205). -/
structure RemoteReq where
  srcMod : BitVec 6
  srcMaster : BitVec 12
  kind : ReqKind
  addr : Nat
  bytes : List Byte
  hnd : Parcel
  asid : BitVec 8
  deriving DecidableEq, Repr

/-- One image of a boot-flash bank: what a verifying stage finds (31 R388). -/
structure FlashImage where
  present : Bool
  readable : Bool
  sigOk : Bool
  svn : Nat
  digest : BitVec 512
  deriving DecidableEq, Repr

/-- A register write that an item of the configuration record becomes (31 R390): hub configuration offset and value. -/
structure CfgWrite where
  off : Nat
  val : BitVec 64
  deriving DecidableEq, Repr

/-- A capability that boot firmware lists (01 R22, R23): identifier, version, and what the configuration gives of its payload. -/
structure Cap where
  id : BitVec 16
  ver : BitVec 8
  given : List (BitVec 64)
  deriving DecidableEq, Repr

/-- A boot-flash bank: stage-1 image, hub firmware, OS loader, and the configuration record with its bytes; whether the reserved fields of
its items' payloads are zero, whose layout the manual does not give, and what the payloads become: the register writes, the ranges of item 4
(A-die, base, length) and the bases of item 8 (A-die, base); the record keys that the stage-1 image accepts, and the key that signed the OS
loader (31 R387 to R391). -/
structure FlashBank where
  stage1 : FlashImage
  record : FlashImage
  firmware : FlashImage
  loader : FlashImage
  recordBytes : List Byte
  acceptedKeys : List (BitVec 64)
  loaderKey : BitVec 64
  recordOk : Bool
  writes : List CfgWrite
  cxl : List (Nat × Nat × Nat)
  modNo : BitVec 6
  caps : List Cap
  shadow : List (Nat × Nat)
  deriving DecidableEq, Repr

/-- What a reset or a wake meets outside the model: whether the PUF helper data passes its check, which links fail to train, the
peer modules of the Gateway ports whose peer completes its session, the CXL ports with the width and rate they trained at, and the digests
of what stage 3 loads (31 R388, R393, R394, 27 R349, 25 R340). -/
structure ResetEnv where
  pufOk : Bool
  failed : List Nat
  peers : List (Nat × BitVec 6) := []
  cxlPorts : List (Nat × BitVec 64) := []
  loaded : List (BitVec 512) := []
  deriving DecidableEq, Repr

/-- A record that a hub core submits, and the index range of a launch (03 R44, R49). -/
structure Submission where
  rcd : BitVec 1024
  range : Option (BitVec 64 × BitVec 64)
  deriving DecidableEq, Repr

/-- The number of an access, and the scope with respect to which it is performed, CLUS (1) to SYSTEM (11), before its home performs it; any
other number for its home (21 R294). -/
structure Performed where
  id : Nat
  scope : Nat
  deriving DecidableEq, Repr

/-- A message between modules of one ring: an election result, a launch split, with the master that submitted the launch (07 R112), or a
reissue (03 R49); whether every member in the other modules reports RUN (31 R394). A die d of module m is 256 (m + 1) + d, one of this module
its number. -/
inductive DistMsg where
  | ringRun (on : Bool)
  | election (t : Nat) (master : Nat)
  | launch (t : Nat) (rec : BitVec 1024) (src : BitVec 12) (first count : BitVec 64)
  | reissue (t : Nat) (rec : BitVec 1024) (first count : BitVec 64)
  deriving DecidableEq, Repr

/-- The instructions and steps of the module, one constructor for each row of the opcode table. -/
inductive Instr where
  /-- NOP (R143): Occupies one issue cycle and does nothing else. -/
  | nop (w : AForm)
  /-- END (R143): Arrives the engine at the rendezvous, retires the task on the C engine's task context, or returns a handler context to dormant. -/
  | endI (w : AForm)
  /-- BRI (R144): Branches to this parcel plus OFF48, checking the target against the section-header rules. -/
  | bri (w : CForm)
  /-- BR (R144): Branches to the parcel address held in a b register, delayed by max(0, 3 - d) cycles. -/
  | br (w : AForm)
  /-- PBR (R144): Writes this parcel plus OFF48 into a b register without changing the PC. -/
  | pbr (w : CForm)
  /-- JTAB (R146): Reads a 32-bit target from a table of n+1 entries, with the index clamped to the default, and jumps to it. -/
  | jtab (w : AForm)
  /-- CALL (R144): Writes the link into a b register and branches to this parcel plus OFF48. -/
  | call (w : CForm)
  /-- RET (R144): Branches to the value of a b register, exactly as BR does. -/
  | ret (w : AForm)
  /-- LOOP (R147): Opens a counted loop, or skips its body when the count is zero, optionally rotating VRB at each back-branch. -/
  | loop (w : CForm)
  /-- LBRK (R149): Pops the n innermost loop entries and continues at the end of the outermost entry popped. -/
  | lbrk (w : CForm)
  /-- LIDX (R149): Writes the index of the loop entry n levels out into an s register. -/
  | lidx (w : CForm)
  /-- POST (R151): Adds a count to an event counter at the end of the cycle, trapping EVOVER on overflow. -/
  | post (w : AForm)
  /-- AWAIT (R151): Blocks until an event counter reaches the count, then subtracts the count. -/
  | await (w : AForm)
  /-- AWAIT_NB (R151): Subtracts the count when the counter reaches it and writes the predicate, without blocking. -/
  | awaitNb (w : AForm)
  /-- WSEG (R153): Waits mid-stream for a segment key and then acts on a hit or on its miss action. -/
  | wseg (w : AForm)
  /-- TRAP (R154): Traps SWTRAP with TRAPINFO set to n. -/
  | trapI (w : AForm)
  /-- ADD (R156): Writes A + B modulo 2^64, or the saturated sum when MD[3] is set. -/
  | addI (w : AForm)
  /-- SUB (R156): Writes A - B modulo 2^64. -/
  | subI (w : AForm)
  /-- AND (R156): Writes the bitwise AND of two s values. -/
  | andI (w : AForm)
  /-- OR (R156): Writes the bitwise OR of two s values. -/
  | orI (w : AForm)
  /-- XOR (R156): Writes the bitwise XOR of two s values. -/
  | xorI (w : AForm)
  /-- SHL (R156): Shifts A left by B. -/
  | shl (w : AForm)
  /-- SHR (R156): Shifts A right logically by B. -/
  | shr (w : AForm)
  /-- SAR (R156): Shifts A right arithmetically by B. -/
  | sar (w : AForm)
  /-- MIN (R156): Writes the signed minimum of two s values. -/
  | minI (w : AForm)
  /-- MAX (R156): Writes the signed maximum of two s values. -/
  | maxI (w : AForm)
  /-- MINN (R156): Writes the unsigned minimum of two s values. -/
  | minn (w : AForm)
  /-- MAXN (R156): Writes the unsigned maximum of two s values. -/
  | maxn (w : AForm)
  /-- CLZ (R156): Counts the leading zeros of A. -/
  | clz (w : AForm)
  /-- POPC (R156): Counts the ones in A. -/
  | popc (w : AForm)
  /-- BEXT (R156): Extracts a bit field of A at position p and length l. -/
  | bext (w : AForm)
  /-- BINS (R156): Inserts the low bits of A into a field of sC. -/
  | bins (w : AForm)
  /-- ADD_IMM (R156): Adds the sign-extended IMM48 to A (Form B, OPC 0x11). -/
  | addImm (w : BForm)
  /-- SUB_IMM (R156): Subtracts the sign-extended IMM48 from A. -/
  | subImm (w : BForm)
  /-- AND_IMM (R156): ANDs A with the sign-extended IMM48. -/
  | andImm (w : BForm)
  /-- OR_IMM (R156): ORs A with the sign-extended IMM48. -/
  | orImm (w : BForm)
  /-- XOR_IMM (R156): XORs A with the sign-extended IMM48. -/
  | xorImm (w : BForm)
  /-- SHL_IMM (R156): Shifts A left by the zero-extended IMM48. -/
  | shlImm (w : BForm)
  /-- SHR_IMM (R156): Shifts A right logically by the zero-extended IMM48. -/
  | shrImm (w : BForm)
  /-- SAR_IMM (R156): Shifts A right arithmetically by the zero-extended IMM48. -/
  | sarImm (w : BForm)
  /-- MIN_IMM (R156): Writes the signed minimum of A and the sign-extended IMM48. -/
  | minImm (w : BForm)
  /-- MAX_IMM (R156): Writes the signed maximum of A and the sign-extended IMM48. -/
  | maxImm (w : BForm)
  /-- MINN_IMM (R156): Writes the unsigned minimum of A and the zero-extended IMM48. -/
  | minnImm (w : BForm)
  /-- MAXN_IMM (R156): Writes the unsigned maximum of A and the zero-extended IMM48. -/
  | maxnImm (w : BForm)
  /-- MUL (R157): Writes the low 64 bits of A × B. -/
  | mulI (w : AForm)
  /-- MULH (R157): Writes the high 64 bits of the signed 128-bit product. -/
  | mulh (w : AForm)
  /-- MULHN (R157): Writes the high 64 bits of the unsigned 128-bit product. -/
  | mulhn (w : AForm)
  /-- MADD (R157): Writes A × B + C modulo 2^64. -/
  | madd (w : AForm)
  /-- DIV (R157): Writes the signed quotient as a long-latency result. -/
  | divI (w : AForm)
  /-- DIVN (R157): Writes the unsigned quotient as a long-latency result. -/
  | divn (w : AForm)
  /-- REM (R157): Writes the signed remainder. -/
  | rem (w : AForm)
  /-- REMN (R157): Writes the unsigned remainder. -/
  | remn (w : AForm)
  /-- CMP (R158): Compares two s registers under a condition and writes a predicate. -/
  | cmp (w : AForm)
  /-- CMPI (R158): Compares an s register with IMM48 under a condition and writes a predicate. -/
  | cmpi (w : BForm)
  /-- SEL (R159): Selects one of two s registers by a predicate. -/
  | sel (w : AForm)
  /-- LI (R159): Loads the sign-extended IMM48 into an s register. -/
  | li (w : BForm)
  /-- LI_HI (R159): Replaces the top 16 bits of an s register. -/
  | liHi (w : BForm)
  /-- MOV (R159): Copies between s, p and b registers in the permitted class pairs. -/
  | mov (w : AForm)
  /-- PLOG (R159): Combines two predicates through a 4-bit truth table. -/
  | plog (w : AForm)
  /-- LEA (R159): Writes sA plus the sign-extended immediate, modulo 2^56, without any access. -/
  | lea (w : BForm)
  /-- LEA_PC (R159): Writes the byte address of this parcel plus the immediate. -/
  | leaPc (w : BForm)
  /-- SPLD (R160): Loads a register from the engine's own spill store. -/
  | spld (w : AForm)
  /-- SPST (R160): Stores a register's data into the engine's own spill store. -/
  | spst (w : AForm)
  /-- GETC (R161): Reads one control register into an s register. -/
  | getc (w : AForm)
  /-- SETC (R161): Writes a control register: W1C for VFLAGS, under the BANKCTL and VRB rules. -/
  | setc (w : AForm)
  /-- FORK (R164): Starts an idle engine at ENTRY[X] plus the offset. -/
  | fork (w : CForm)
  /-- RDV (R32): Blocks the C engine until every engine forked in the period has arrived. -/
  | rdv (w : AForm)
  /-- QCFG (R165): Names the producer and consumer of a queue register. -/
  | qcfg (w : AForm)
  /-- TSPAWN (R166): Publishes a copy of a task record to this die's Distributor and writes whether it was accepted. -/
  | tspawn (w : AForm)
  /-- TSIG (R167): Decrements a task's dependence count, or records an early signal. -/
  | tsig (w : AForm)
  /-- TYIELD (R168): Saves the task and yields the cluster when a ready task of the same or a higher class waits. -/
  | tyield (w : AForm)
  /-- GBAR (R169): Arrives at a group barrier and advances PHASE when the last member arrives. -/
  | gbar (w : AForm)
  /-- GWAIT (R169): Waits until the group's PHASE differs from the given phase. -/
  | gwait (w : AForm)
  /-- PROG (R170): Writes PROGC for the pre-emption estimator. -/
  | prog (w : AForm)
  /-- WREL (R171): Releases the task from its keyed window once its nests have read it. -/
  | wrel (w : AForm)
  /-- TRET (R172): Clears a trapped engine's cause and resumes it at TRAPPC. -/
  | tret (w : AForm)
  /-- TRET_SKIP (R172): Resumes a trapped engine as if the trapping word had completed, or past a skipped header. -/
  | tretSkip (w : AForm)
  /-- CTXSAVE (R174): Writes a halted cluster's whole context image to memory. -/
  | ctxsave (w : AForm)
  /-- CTXLOAD (R174): Loads a context image into a halted cluster, trapping PARAM on a bad image. -/
  | ctxload (w : AForm)
  /-- LTTW (R175): Writes a 128-bit LTT entry unless the old or new ASID belongs to a running task. -/
  | lttw (w : AForm)
  /-- BANK (R176): Sets a run of vector banks to one power state in a single BANKCTL write. -/
  | bank (w : AForm)
  /-- ATTR_SET (R177): Grants the RO attribute on a range once earlier writes are performed. -/
  | attrSet (w : AForm)
  /-- ATTR_CLR (R177): Revokes RO on a range by a fabric-wide shoot-down. -/
  | attrClr (w : AForm)
  /-- HALT (R173): Stops every engine of another cluster of this die at its next issue point. -/
  | halt (w : AForm)
  /-- HALT_GO (R173): Lets a halted cluster issue again. -/
  | haltGo (w : AForm)
  /-- LD (R187): Loads an s register from memory. -/
  | ld (w : AForm)
  /-- ST (R187): Stores the low bytes of an s register. -/
  | st (w : AForm)
  /-- LDA (R187): Loads with acquire ordering at a scope. -/
  | lda (w : AForm)
  /-- STL (R187): Stores with release ordering at a scope. -/
  | stl (w : AForm)
  /-- VLD (R188): Loads 256 bytes into the lanes of a v register, under an optional mask. -/
  | vld (w : AForm)
  /-- VST (R188): Stores the lanes of a v register, under an optional mask. -/
  | vst (w : AForm)
  /-- LDQ (R189): Loads b4 data and its scales as two streams into a v and a k register, or into a queue entry. -/
  | ldq (w : AForm)
  /-- STQ (R190): Checks the binding and stores b4 data and its scales as two streams. -/
  | stq (w : AForm)
  /-- KLD (R191): Loads 16 scale bytes into a k register. -/
  | kld (w : AForm)
  /-- KST (R191): Stores a k register's scale bytes. -/
  | kst (w : AForm)
  /-- GATH (R192): Gathers one bounded element per lane. -/
  | gath (w : AForm)
  /-- SCAT (R193): Scatters lanes whose index lies below the bound, in ascending lane order. -/
  | scat (w : AForm)
  /-- COPY (R194): Copies bytes in ascending 64-byte granules. -/
  | copy (w : AForm)
  /-- FILL (R194): Writes a repeated 64-bit pattern over a range. -/
  | fill (w : AForm)
  /-- ATOM (R195): Reads, modifies and writes one location indivisibly, with an order kind and scope. -/
  | atom (w : AForm)
  /-- REDST (R198): Combines a vector element by element into memory, or into the cluster SRAM of every group member. -/
  | redst (w : AForm)
  /-- MCST (R197): Writes one value into the cluster SRAM of every member of a group. -/
  | mcst (w : AForm)
  /-- FENCE_ACQ (R303): Waits for earlier reads of the covered queues and holds back later accesses, then writes its status. -/
  | fenceAcq (w : AForm)
  /-- FENCE_REL (R303): Waits for every earlier access of the covered queues and holds back later writes. -/
  | fenceRel (w : AForm)
  /-- FENCE_AR (R303): Waits for every earlier access and holds back every later access. -/
  | fenceAr (w : AForm)
  /-- FENCE_SC (R304): Acts as an ar fence that is also totally ordered with the other sc fences of overlapping instances. -/
  | fenceSc (w : AForm)
  /-- QFENCE (R202): Holds back the later accesses of its own queue until the named queues' earlier accesses are performed. -/
  | qfence (w : AForm)
  /-- QPUSH (R204): Pushes an entry into a memory queue at its home when the queue has room. -/
  | qpush (w : AForm)
  /-- QPOP (R204): Pops an entry from a memory queue at its home when the queue has one. -/
  | qpop (w : AForm)
  /-- MSGSEND (R205): Reads a payload and sends it to a cluster's receive slot. -/
  | msgsend (w : AForm)
  /-- PREF (R208): Asks for read-only remote granules to be brought into the Die Cache. -/
  | pref (w : AForm)
  /-- VADD (R215): Adds floating-point elements with one rounding. -/
  | vadd (w : AForm)
  /-- VSUB (R215): Subtracts floating-point elements. -/
  | vsub (w : AForm)
  /-- VMUL (R215): Multiplies floating-point elements. -/
  | vmul (w : AForm)
  /-- VFMA (R215): Computes a fused multiply-add with one rounding. -/
  | vfma (w : AForm)
  /-- VMIN (R216): Writes the element of lower rank or value. -/
  | vmin (w : AForm)
  /-- VMAX (R216): Writes the element of higher rank or value. -/
  | vmax (w : AForm)
  /-- VABS (R217): Writes the absolute value of each element. -/
  | vabs (w : AForm)
  /-- VDIV (R215): Divides elements as a long-latency result. -/
  | vdiv (w : AForm)
  /-- VRCP (R218): Writes the correctly rounded reciprocal. -/
  | vrcp (w : AForm)
  /-- VRSQ (R218): Writes the correctly rounded reciprocal square root. -/
  | vrsq (w : AForm)
  /-- VEXP (R218): Writes the correctly rounded 2^x. -/
  | vexp (w : AForm)
  /-- VLOG (R218): Writes the correctly rounded log2 x. -/
  | vlog (w : AForm)
  /-- VACT (R219): Applies RELU, SIGMOID, SILU, TANH or GELU as a fixed sequence of rounded steps. -/
  | vact (w : AForm)
  /-- VIADD (R220): Adds integer elements. -/
  | viadd (w : AForm)
  /-- VISUB (R220): Subtracts integer elements. -/
  | visub (w : AForm)
  /-- VIMUL (R220): Writes the low or the high half of integer products. -/
  | vimul (w : AForm)
  /-- VIMAC (R221): Accumulates integer products into the destination, or 4-byte dot products with .dot4. -/
  | vimac (w : AForm)
  /-- VBIT (R222): Applies a bitwise operation, population count or leading-zero count. -/
  | vbit (w : AForm)
  /-- VSH (R223): Shifts each element left, right or arithmetically. -/
  | vsh (w : AForm)
  /-- VIMM (R224): Writes an immediate pattern into every element. -/
  | vimm (w : BForm)
  /-- VCMP (R225): Compares elements into a mask register. -/
  | vcmp (w : AForm)
  /-- VSEL (R226): Selects elements by a mask. -/
  | vsel (w : AForm)
  /-- VMSK (R227): Combines, sets or counts mask registers. -/
  | vmsk (w : AForm)
  /-- VCVT (R228): Converts one part of a register between element types. -/
  | vcvt (w : AForm)
  /-- VRND (R229): Sets the V queue rounding mode. -/
  | vrnd (w : AForm)
  /-- VQNT (R230): Quantises f32 elements to b4, e4m3 or e5m2, binding the destination for b4. -/
  | vqnt (w : AForm)
  /-- VDQ (R231): Decodes b4 codes exactly to f32 or bf16. -/
  | vdq (w : AForm)
  /-- VUNP3 (R232): Unpacks 51 t3 bytes into i8 weights, with a validity mask. -/
  | vunp3 (w : AForm)
  /-- VTMAC (R233): Accumulates sign-times-activation ternary products into i32 lanes. -/
  | vtmac (w : AForm)
  /-- VRED (R234): Reduces groups of G elements. -/
  | vred (w : AForm)
  /-- VSCAN (R235): Writes inclusive prefix results within groups. -/
  | vscan (w : AForm)
  /-- VTOPK (R239): Selects the K highest-ranked elements of a register run, with their indices. -/
  | vtopk (w : PForm)
  /-- VPERM (R240): Permutes elements by indices. -/
  | vperm (w : AForm)
  /-- VBCST (R240): Broadcasts one element or an s value. -/
  | vbcst (w : AForm)
  /-- VSLD (R240): Slides elements across two registers. -/
  | vsld (w : AForm)
  /-- VILV (R240): Interleaves or de-interleaves two registers. -/
  | vilv (w : AForm)
  /-- VXPOSE (R240): Transposes elements within a register. -/
  | vxpose (w : AForm)
  /-- VMOVS (R241): Moves one element between a v register and an s register. -/
  | vmovs (w : AForm)
  /-- VSMX (R237): Forms the unnormalised softmax exponentials of each group. -/
  | vsmx (w : AForm)
  /-- VROPE (R243): Rotates f32 pairs by rotary phases. -/
  | vrope (w : AForm)
  /-- VSTAT (R236): Writes the sum and the sum of squares of each group. -/
  | vstat (w : AForm)
  /-- VMOV (R242): Copies whole registers or queue entries, with the binding rules of each form. -/
  | vmov (w : AForm)
  /-- KMOV (R245): Copies 16 scale bytes from a k register or a queue entry's SB. -/
  | kmov (w : AForm)
  /-- KSET (R245): Sets every scale byte to b. -/
  | kset (w : AForm)
  /-- KSET_ONE (R245): Sets one scale byte. -/
  | ksetOne (w : AForm)
  /-- KSET_S (R245): Sets the scale bytes from two s registers. -/
  | ksetS (w : AForm)
  /-- KADD (R246): Adds n to each included exponent, with clamping. -/
  | kadd (w : AForm)
  /-- KMAX (R246): Takes the larger exponent byte by byte. -/
  | kmax (w : AForm)
  /-- KMIN (R246): Takes the smaller exponent byte by byte. -/
  | kmin (w : AForm)
  /-- KTYPE (R246): Sets the decoding type of the included bytes. -/
  | ktype (w : AForm)
  /-- KBIND (R248): Binds a v register to a k register at its current generation. -/
  | kbind (w : AForm)
  /-- KUNB (R248): Clears a v register's binding. -/
  | kunb (w : AForm)
  /-- KGEN (R249): Reads a k register's generation. -/
  | kgen (w : AForm)
  /-- KGEN_B (R249): Reads a v register's binding record. -/
  | kgenB (w : AForm)
  /-- KFROM (R247): Derives scale bytes from the block maxima of a register. -/
  | kfrom (w : AForm)
  /-- MNEST (R258): Writes two levels of the nest table from a parameter block. -/
  | mnest (w : PForm)
  /-- MSRC (R255): Sets the A source of the matrix engine. -/
  | msrc (w : AForm)
  /-- MBSEL_WIN (R256): Makes the window slice the B source. -/
  | mbselWin (w : AForm)
  /-- MBSEL_SCR (R256): Makes stacked scratch the B source. -/
  | mbselScr (w : AForm)
  /-- MFMT (R257): Sets the scratch format bytes. -/
  | mfmt (w : AForm)
  /-- MGO (R260): Copies the set-up, checks it and queues a nest, or counts a miss for a keyed task. -/
  | mgo (w : AForm)
  /-- MGO_GRP (R260): Queues a nest over the ragged group record. -/
  | mgoGrp (w : AForm)
  /-- MDRAIN (R267): Shifts accumulator rows out into v registers with conversion, optionally zeroing them. -/
  | mdrain (w : AForm)
  /-- MZERO (R268): Zeroes accumulator rows of a bank. -/
  | mzero (w : AForm)
  /-- MLOAD (R269): Writes accumulator rows from v registers. -/
  | mload (w : AForm)
  /-- MRND (R270): Sets the M queue rounding mode. -/
  | mrnd (w : AForm)
  /-- MGRP (R259): Loads the ragged-batch group record from cluster SRAM. -/
  | mgrp (w : PForm)
  /-- MSTAT (R271): Reads the M status word, optionally after the queue empties and clearing the flags. -/
  | mstat (w : AForm)
  /-- AQSET (R276): Reads an attention context record and copies the query run into the query buffer. -/
  | aqset (w : AForm)
  /-- ASTEP (R278): Reads one page under its sequence counter and folds it into the softmax state. -/
  | astep (w : PForm)
  /-- AMERGE (R281): Merges two softmax state blocks row by row. -/
  | amerge (w : AForm)
  /-- AFIN (R282): Writes acc / l for each row. -/
  | afin (w : AForm)
  /-- KVAPP (R286): Appends one token to a block-table row, allocating or copying pages as needed. -/
  | kvapp (w : AForm)
  /-- KVAPP_BEAM (R286): Appends one token through a Beam Map entry, completing a pending fork first. -/
  | kvappBeam (w : AForm)
  /-- KVGATH (R285): Gathers page numbers for block indices from a row or a Beam Map entry. -/
  | kvgath (w : PForm)
  /-- PGALLOC (R287): Asks the Page Allocator for one page, subject to the reserve. -/
  | pgalloc (w : AForm)
  /-- PGFREE (R287): Lowers a page's REFC by one. -/
  | pgfree (w : AForm)
  /-- PXLOOK (R288): Walks the Prefix Index and pins the pages of matching chunks. -/
  | pxlook (w : PForm)
  /-- PXINS (R289): Inserts nodes for missing chunks into the Prefix Index. -/
  | pxins (w : AForm)
  /-- PXREL (R290): Lowers REFC for a run of page lanes. -/
  | pxrel (w : AForm)
  /-- BMAP_RO (R284): Reorders Beam Map entries by parents, adjusting REFC and assigning spare rows. -/
  | bmapRo (w : AForm)
  /-- BMAP_SET (R283): Writes a valid Beam Map entry. -/
  | bmapSet (w : AForm)
  /-- BMAP_RDLO (R283): Reads the low 64 bits of an entry. -/
  | bmapRdlo (w : AForm)
  /-- BMAP_RDHI (R283): Reads the high 64 bits of an entry. -/
  | bmapRdhi (w : AForm)
  /-- BMAP_CLR (R283): Invalidates an entry. -/
  | bmapClr (w : AForm)
  /-- TIERIN (R291): Starts a move of a page from CXL to HBM. -/
  | tierin (w : AForm)
  /-- TIEROUT (R291): Starts a move of a page from HBM to CXL. -/
  | tierout (w : AForm)
  /-- SEQRD (R292): Reads a page's descriptor fields with acquire. -/
  | seqrd (w : AForm)
  /-- TIER_MOVE_END (R291): At the end of a tier move, updates ADDR and TIER, frees the source and pushes a completion. -/
  | tierMoveEnd (a : Nat)
  /-- HEADER_REACHED (R118): The engine reaches a section header, checks it and reads its key word. -/
  | headerReached (c : Nat) (x : Nat)
  /-- SECTION_START (R35): A section starts once its four AFT waits and its key allow it. -/
  | sectionStart (c : Nat) (x : Nat)
  /-- SEGMENT_KEY_HIT (R324): A waiting keyed section or WSEG finds a matching generation in the window and proceeds. -/
  | segmentKeyHit (c : Nat) (x : Nat)
  /-- SECTION_RETIRE (R34): A section retires once its instructions complete and its accesses are performed at CLUS scope. -/
  | sectionRetire (c : Nat) (x : Nat)
  /-- RESULT_LANDS (R93): A long-latency result lands and marks its destination full. -/
  | resultLands (c : Nat) (n : Nat) (ext : List Byte)
  /-- LDQ_SCALES_LAND (R189): The scale stream of an LDQ lands in kB and advances its generation. -/
  | ldqScalesLand (c : Nat) (n : Nat) (ext : List Byte)
  /-- LDQ_DATA_LANDS (R189): Once both streams have landed, the data lands in vD with its binding, or the queue entry becomes visible. -/
  | ldqDataLands (c : Nat) (n : Nat) (ext : List Byte)
  /-- ACCEPTANCE_TIMEOUT (R183): After 2 ms without an answer, or behind a dead link, the access is treated as accepted and failed. -/
  | acceptanceTimeout (c : Nat) (x : Unanswered)
  /-- FENCE_WAIT_EXPIRY (R200): An access that has held a fence for 2 ms counts as failed and stops holding it. -/
  | fenceWaitExpiry (c : Nat) (x : Nat)
  /-- BANK_WAKE (R104): A bank in retention or waking becomes ON and its stalled instruction proceeds. -/
  | bankWake (c : Nat) (bank : Nat)
  /-- TASK_TRAP_HANDLER_START (R368): A dormant handler context starts at TVEC for a trapped engine. -/
  | taskTrapHandlerStart (c : Nat)
  /-- MESSAGE_ARRIVAL (R206): A message is taken into the lowest free receive slot, or refused when all slots are full. -/
  | messageArrival (c : Nat) (far : MsgAns)
  /-- ARRIVAL_HANDLER_START (R206): A dormant handler context starts at HND for a written message. -/
  | arrivalHandlerStart (c : Nat)
  /-- HUB_SUBMISSION (R40): A hub core publishes a task record through the submission port. -/
  | hubSubmission (core : Nat) (t : Nat) (r : Submission)
  /-- EARLY_SIGNAL_EXPIRY (R48): An unconsumed early-signal entry is freed after 2^22 ticks, with an EARLYEXP fault record. -/
  | earlySignalExpiry (t : Nat) (tid : BitVec 32)
  /-- TASK_RELEASE (R53): The Escapement releases a task at the first tick at or past RELT, with its tag in the window when keyed. -/
  | taskRelease (t : Nat) (tid : BitVec 32)
  /-- TASK_ISSUE (R56): The Distributor issues the ready task that heads the order to a free cluster and sets it up. -/
  | taskIssue (t : Nat) (c : Nat)
  /-- TASK_RETIREMENT (R33): A task retires once its accesses are performed at DIE scope, and its dependants become ready. -/
  | taskRetirement (c : Nat)
  /-- TIMING_SOURCE_CHANGE (R52): An A-die's Distributor switches timing source and shifts its deadlines. -/
  | timingSourceChange (a : Nat)
  /-- TICK_END (R322): At the end of each tick, the window state machine advances TICK, stalls, skips or releases. -/
  | tickEnd (d : Nat)
  /-- FRAME_START (R320): The incoming window becomes current, ROT and the generation advance, and the format bytes are latched. -/
  | frameStart (d : Nat)
  /-- SEGMENT_ARRIVAL (R318): A segment arrives from the predecessor and goes to the FIFO tail, or is rejected as lost. -/
  | segmentArrival (d : Nat) (ext : List Byte)
  /-- SEGMENT_FORWARD (R320): The Ring Forwarder forwards a released buffer once the successor has slot credit. -/
  | segmentForward (d : Nat)
  /-- SEGMENT_REFETCH (R325): A lost or corrupt segment is fetched again from the backing image. -/
  | segmentRefetch (d : Nat) (pos : Nat)
  /-- HEARTBEAT_TIMEOUT (R326): A neighbour receives no heartbeat for HBTO ticks, and the member is lost. -/
  | heartbeatTimeout (d : Nat) (lost : Nat)
  /-- REPAIR_COMPLETE (R326): REPAIRING clears once the last lost position is written. -/
  | repairComplete (d : Nat)
  /-- NEST_START (R251): A queued nest starts once its issue cycle, the previous nest and its bank's transfers are done. -/
  | nestStart (c : Nat)
  /-- NEST_STEP (R261): One step of a nest checks the window generation and adds its contributions. -/
  | nestStep (c : Nat)
  /-- NEST_END (R266): A nest finishes after its last step. -/
  | nestEnd (c : Nat)
  /-- MDRAIN_ROW_LANDS (R267): The registers of one drained row land. -/
  | mdrainRowLands (c : Nat)
  /-- BACKGROUND_EVICTION (R337): While FREEH is below WMARK, the allocator evicts one evictable leaf at a time. -/
  | backgroundEviction (a : Nat)
  /-- PREEMPTION_CHECK (R374): At each tick, the Distributor looks for a blocked deadline task and picks a victim team. -/
  | preemptionCheck (t : Nat)
  /-- SAVE_IMAGE_COMPLETE (R377): A cluster whose engines have all stopped has its image saved into a shadow slot. -/
  | saveImageComplete (c : Nat)
  /-- SAVE_DRAIN_FALLBACK (R377): A Save not finished within 4,096 ticks becomes Drain. -/
  | saveDrainFallback (t : Nat)
  /-- CONTEXT_RESTORE (R377): A saved task is restored onto a free cluster and resumes. -/
  | contextRestore (t : Nat) (c : Nat)
  /-- RETRY (R372): Clears ESC and resumes the trapped engines at TRAPPC. -/
  | retry (core : Nat) (t : Nat) (cl : BitVec 5)
  /-- SKIP (R372): Clears ESC and resumes the trapped engines after TRAPPC. -/
  | skip (core : Nat) (t : Nat) (cl : BitVec 5)
  /-- KILL (R372): Halts the cluster, waits for its accesses, retires its task and frees the cluster. -/
  | kill (core : Nat) (t : Nat) (cl : BitVec 5)
  /-- SAVE (R372): Pre-empts a team by Save, with no fallback to Drain. -/
  | saveTeam (core : Nat) (t : Nat) (team : BitVec 16)
  /-- SWAPOUT (R382): Halts every cluster of the die and saves all images into the shadow slots. -/
  | swapout (core : Nat) (t : Nat)
  /-- SWAPIN (R382): After the supervisor's tasks retire, restores every image and lets the clusters issue. -/
  | swapin (core : Nat) (t : Nat)
  /-- FRZ (R370): A write of 1 releases a frozen cluster or hub core by clearing its FRZ bit. -/
  | frz (core : Nat) (t : Nat) (v : BitVec 32)
  /-- AGFRZ (R371): A write of 1 releases the die's frozen Ring Forwarder or copy engine. -/
  | agfrz (core : Nat) (t : Nat) (v : BitVec 1)
  /-- ESTCLR (R48): Frees one early-signal entry, or every entry, without a fault record. -/
  | estclr (core : Nat) (t : Nat) (all : Bool) (tid : BitVec 32)
  /-- ALLOC (R344): Allocates a page for the hub with limit 0. -/
  | alloc (core : Nat) (a : Nat) (arg : BitVec 28) (page : BitVec 30)
  /-- REF (R344): Raises a page's REFC by ARG. -/
  | refPage (core : Nat) (a : Nat) (arg : BitVec 28) (page : BitVec 30)
  /-- UNREF (R344): Lowers a page's REFC by ARG. -/
  | unref (core : Nat) (a : Nat) (arg : BitVec 28) (page : BitVec 30)
  /-- SETRO (R344): Sets the descriptor's RO bit. -/
  | setro (core : Nat) (a : Nat) (arg : BitVec 28) (page : BitVec 30)
  /-- CLRRO (R342): Clears RO unless a granule of the frame still holds the RO attribute. -/
  | clrro (core : Nat) (a : Nat) (arg : BitVec 28) (page : BitVec 30)
  /-- SETPIN (R344): Sets PINNED. -/
  | setpin (core : Nat) (a : Nat) (arg : BitVec 28) (page : BitVec 30)
  /-- CLRPIN (R344): Clears PINNED. -/
  | clrpin (core : Nat) (a : Nat) (arg : BitVec 28) (page : BitVec 30)
  /-- EVICT (R344): Evicts up to ARG evictable leaves, oldest first. -/
  | evict (core : Nat) (a : Nat) (arg : BitVec 28) (page : BitVec 30)
  /-- PUBLISH (R344): Sets FILL and advances SEQ by 2, releasing the hub's writes to the frame. -/
  | publish (core : Nat) (a : Nat) (arg : BitVec 28) (page : BitVec 30)
  /-- PAGE_ALLOCATOR_ENABLE (R336): Setting EN initialises the descriptor table, the free lists and the node store. -/
  | pageAllocatorEnable (core : Nat) (a : Nat) (v : BitVec 64)
  /-- PAGE_ALLOCATOR_INIT_DONE (R336): Initialisation completes and allocations may then be granted. -/
  | pageAllocatorInitDone (a : Nat)
  /-- PARTCFG (R21): Writes the partition shape while the module is halted, else is ignored with a fault record. -/
  | partcfg (core : Nat) (v : BitVec 32)
  /-- PARTSUP (R21): Assigns hub cores to partitions under the PARTCFG write rule. -/
  | partsup (core : Nat) (v : BitVec 64)
  /-- ACCESS_TABLE_WRITE (R25): A hub core writes an access-table entry; any other master is refused and frozen. -/
  | accessTableWrite (master : BitVec 12) (t : Nat) (m : BitVec 12) (v : BitVec 8)
  /-- GROUP_TABLE_WRITE (R43): Writes a group entry, resetting PHASE and ARRIVED when MASK changes, unless it gives a fifth membership. -/
  | groupTableWrite (core : Nat) (i : Nat) (mask : BitVec 320)
  /-- RFCFG (R329): Writes the ring configuration, where setting RUN starts the ring. -/
  | rfcfg (core : Nat) (d : Nat) (v : BitVec 64)
  /-- BYPASS (R329): Sets a die's bypass bit; while RUN = 1 this starts repair and clearing is ignored. -/
  | bypass (core : Nat) (d : Nat) (v : BitVec 8)
  /-- FABCFG (R364): Sets LEASE for grants made after the write. -/
  | fabcfg (core : Nat) (v : BitVec 64)
  /-- HOSTWIN (R385): Sets the BAR2 window base and enable. -/
  | hostwin (core : Nat) (v : BitVec 64)
  /-- PWRCAP (R395): Sets the power cap and thermal limits. -/
  | pwrcap (core : Nat) (v : BitVec 64)
  /-- CONFIG_REGISTER_WRITE (R7): A write to a configuration register with no behaviour of its own sets its RW fields, subject to its limits. -/
  | configRegisterWrite (core : Nat) (off : Nat) (v : BitVec 64)
  /-- FLIT_RECEIVED (R348): A received flit is checked against its tag and its slot-return counts are accepted. -/
  | flitReceived (link : Nat) (dir : Bool) (hdr : BitVec 128) (tagOk : Bool)
  /-- KEY_UPDATE (R353): An SPDM KEY_UPDATE installs a new key and the link switches banks without draining. -/
  | keyUpdate (link : Nat) (dir : Bool)
  /-- LINK_DECLARED_DEAD (R355): A locked link, one untrained for 100 µs, or one silent for 100 µs is declared dead. -/
  | linkDeclaredDead (link : Nat)
  /-- LINK_UP (R355): A link comes back after retraining and a new SPDM session. -/
  | linkUp (link : Nat) (peer : BitVec 6)
  /-- REMOTE_ACCESS_ARRIVAL (R351): An off-module access arrives through the Gateway and is checked against GWRMT and the access table. -/
  | remoteAccessArrival (req : RemoteReq)
  /-- LEASE_EXPIRY (R363): A Die Cache line is dropped when its lease ends. -/
  | leaseExpiry (d : Nat) (line : Nat)
  /-- SHOOT_DOWN (R365): A holder drops its lines for a range and answers the home. -/
  | shootDown (home : Nat) (die : Nat)
  /-- RO_CLEAR_AT_HOME (R365): The home clears RO bits once every die has answered or LEASE has passed. -/
  | roClearAtHome (home : Nat)
  /-- HOST_BAR_ACCESS (R385): A host request to BAR0 or BAR2 reaches configuration space or LPDDR6 through the window. -/
  | hostBarAccess (bar2 : Bool) (req : BusReq)
  /-- MODULE_RESET (R394): Runs the boot stages, link training, register writes and ring start in order. -/
  | moduleReset (env : ResetEnv)
  /-- PLDM_FIRMWARE_UPDATE (R386): Writes the inactive flash bank, or either bank in the management state. -/
  | pldmFirmwareUpdate (bank : Bool) (img : FlashBank)
  /-- GET_CERTIFICATE (R393): The Hub Security Core returns the identity certificate chain. -/
  | getCertificate
  /-- CHALLENGE (R393): The Hub Security Core signs a challenge with the PUF-derived key. -/
  | challenge (nonce : Nat)
  /-- GET_MEASUREMENTS (R393): The Hub Security Core returns M0-M4 and the record digest, signed. -/
  | getMeasurements (nonce : Nat)
  /-- KEY_EXCHANGE (R393): The Hub Security Core opens an SPDM session. -/
  | keyExchange (nonce : Nat)
  /-- P1_ENTRY (R396): Average power over CAPW or a die over TWARN limits new issue to MAXCL clusters. -/
  | p1Entry
  /-- P1_EXIT (R396): Once both causes have cleared for 1 ms, normal issue resumes. -/
  | p1Exit
  /-- THERMAL_HALT (R396): A die over TCRIT or lost coolant flow halts every ring and writes a HALTPWR record. -/
  | thermalHalt (target : Nat) (temp : BitVec 8) (coolant : Bool)
  /-- SUSPEND (R396): A software request turns off the dies and puts LPDDR6 in self-refresh. -/
  | suspend
  /-- WAKE (R396): A wake from S runs steps 3-6 of the reset order. -/
  | wake (env : ResetEnv)
  /-- POWER_REMOVED (R396): Removing power enters the Off state. -/
  | powerRemoved
  /-- ACCESS_ACCEPTED (R182): The answer of every target of a transfer arrives at the issuing engine, letting it issue its next word or, for a group store, take its REFUSED trap. -/
  | accessAccepted (c : Nat) (x : Nat) (far : FarMap)
  /-- ACCESS_PERFORMED (R294): A queued store, atomic, copy granule, queue operation or group-store destination is performed at its home and at the scopes fences wait for. -/
  | accessPerformed (c : Nat) (a : Performed)
  /-- HUB_CORE_ACCESS (R26): A hub application core makes a load, store or atomic to a target of the module, which may refuse it and freeze the core. -/
  | hubCoreAccess (core : Nat) (req : BusReq)
  /-- SEGMENT_STORE_ERROR (R326): An uncorrectable error strikes a ring die's Segment Store control state, so the die is lost and repair begins. -/
  | segmentStoreError (d : Nat)
  /-- LINK_LOSES_TRAINING (R355): A link loses training, starting the 100 µs interval after which it is declared dead unless it retrains. -/
  | linkLosesTraining (link : Nat)
  /-- DISTRIBUTOR_MESSAGE_ARRIVAL (R49): An election, launch split or reissue from a Distributor of another module arrives through the Gateway and is acted on by the local Distributor. -/
  | distributorMessageArrival (msg : DistMsg)
  deriving DecidableEq, Repr

end Sys2Proof
end

