-- ==== Sys2Proof/WellFormed.lean ====
section
/-! DEFINITION. What a word of an engine's stream may hold: step 3 of 09 R126. -/

namespace Sys2Proof

open Sys2Proof.Machine (Ty)

/-- Operand classes as an instruction's entry accepts them (09 R123); `qpk` is a queue register with the peek mark. -/
inductive Cls where
  | v | s | b | p | vm | k | q | qpk | null
  deriving DecidableEq, Repr

/-- The class of an operand. -/
def Opnd.cls : Opnd → Cls
  | .v _ => .v | .s _ => .s | .b _ => .b | .p _ => .p | .vm _ => .vm | .k _ => .k
  | .q false _ => .q | .q true _ => .qpk | .null => .null

/-- How MD is read (09 R125): a rounding field (R74), a scope (R64), a mode to set (15 R229), or reserved. -/
inductive MdKind where
  | round | scope | mode | zero
  deriving DecidableEq, Repr

/-- How the immediate is laid out: bits the entry defines, or the mask field of 15 R211 with its AUX bits. -/
inductive ImmKind where
  | bits (mask : Nat)
  | vec (aux : Nat) (masked : Bool)
  deriving DecidableEq, Repr

/-- One instruction's row of the encoding tables (11 R142, R162; 13 R179; 15 R214, R244; 17 R254; 19 R274). -/
structure Row where
  opc : Nat
  subs : List Nat
  dst : List Cls
  sa : List Cls
  sb : List Cls
  sc : List Cls
  tys : List Ty
  md : MdKind
  imm : ImmKind
  lvMax : Nat
  cfMask : Nat
  deriving DecidableEq, Repr

/-- The four forms (09 R119, R121). -/
inductive Body where
  | a (w : AForm)
  | b (w : BForm)
  | c (w : CForm)
  | p (w : PForm)
  deriving DecidableEq, Repr

/-- f32, bf16 and f16: the F of 15 R214. -/
def fltTys : List Ty := [.f32, .bf16, .f16]
/-- i8 to i64 and n8 to n64: the I of 15 R214. -/
def intTys : List Ty := [.i8, .i16, .i32, .i64, .n8, .n16, .n32, .n64]
/-- F and I. -/
def numTys : List Ty := fltTys ++ intTys
/-- Any type of 15 R209: the W of 15 R214. -/
def anyW : List Ty := [.i8, .n8, .e4m3, .e5m2, .i16, .n16, .f16, .bf16, .i32, .n32, .f32, .i64, .n64]

/-- The row of a word of an engine's stream; none for a step of the module. -/
def Instr.row : Instr → Option Row
  | .nop _ => some ⟨0x00, [0], [.null], [.null], [.null], [.null], [.none], .zero, .bits 0, 0, 0⟩
  | .endI _ => some ⟨0x01, [0], [.null], [.null], [.null], [.null], [.none], .zero, .bits 0, 0, 0⟩
  | .bri _ => some ⟨0x02, [0], [.null], [.null], [.null], [.null], [.none], .zero, .bits 0, 0, 0⟩
  | .br _ => some ⟨0x03, [0], [.null], [.b], [.null], [.null], [.none], .zero, .bits 0, 0, 0⟩
  | .pbr _ => some ⟨0x04, [0], [.b], [.null], [.null], [.null], [.none], .zero, .bits 0, 0, 0⟩
  | .jtab _ => some ⟨0x05, [0], [.null], [.s], [.s], [.null], [.none], .zero, .bits 0xFFFFFF, 0, 0⟩
  | .call _ => some ⟨0x06, [0], [.b], [.null], [.null], [.null], [.none], .zero, .bits 0, 0, 0⟩
  | .ret _ => some ⟨0x07, [0], [.null], [.b], [.null], [.null], [.none], .zero, .bits 0, 0, 0⟩
  | .loop _ => some ⟨0x08, [0], [.null], [.s], [.null], [.null], [.none], .zero, .bits 0, 0, 1⟩
  | .lbrk _ => some ⟨0x09, [0], [.null], [.null], [.null], [.null], [.none], .zero, .bits 0, 5, 0⟩
  | .lidx _ => some ⟨0x0A, [0], [.s], [.null], [.null], [.null], [.none], .zero, .bits 0, 5, 0⟩
  | .post _ => some ⟨0x0B, [0], [.null], [.s, .null], [.null], [.null], [.none], .zero, .bits 0xFFFF3F, 0, 0⟩
  | .await _ => some ⟨0x0C, [0], [.null], [.s, .null], [.null], [.null], [.none], .zero, .bits 0xFFFF3F, 0, 0⟩
  | .awaitNb _ => some ⟨0x0C, [1], [.p], [.s, .null], [.null], [.null], [.none], .zero, .bits 0xFFFF3F, 0, 0⟩
  | .wseg _ => some ⟨0x0E, [0, 1, 2, 3], [.p, .null], [.s, .null], [.null], [.null], [.none], .zero, .bits 0xFFFFFF, 0, 0⟩
  | .trapI _ => some ⟨0x0F, [0], [.null], [.null], [.null], [.null], [.none], .zero, .bits 0xFFFFFF, 0, 0⟩
  | .addI _ => some ⟨0x10, [0], [.s], [.s], [.s], [.null], [.none], .round, .bits 0, 0, 0⟩
  | .subI _ => some ⟨0x10, [1], [.s], [.s], [.s], [.null], [.none], .round, .bits 0, 0, 0⟩
  | .andI _ => some ⟨0x10, [2], [.s], [.s], [.s], [.null], [.none], .round, .bits 0, 0, 0⟩
  | .orI _ => some ⟨0x10, [3], [.s], [.s], [.s], [.null], [.none], .round, .bits 0, 0, 0⟩
  | .xorI _ => some ⟨0x10, [4], [.s], [.s], [.s], [.null], [.none], .round, .bits 0, 0, 0⟩
  | .shl _ => some ⟨0x10, [5], [.s], [.s], [.s], [.null], [.none], .round, .bits 0, 0, 0⟩
  | .shr _ => some ⟨0x10, [6], [.s], [.s], [.s], [.null], [.none], .round, .bits 0, 0, 0⟩
  | .sar _ => some ⟨0x10, [7], [.s], [.s], [.s], [.null], [.none], .round, .bits 0, 0, 0⟩
  | .minI _ => some ⟨0x10, [8], [.s], [.s], [.s], [.null], [.none], .round, .bits 0, 0, 0⟩
  | .maxI _ => some ⟨0x10, [9], [.s], [.s], [.s], [.null], [.none], .round, .bits 0, 0, 0⟩
  | .minn _ => some ⟨0x10, [10], [.s], [.s], [.s], [.null], [.none], .round, .bits 0, 0, 0⟩
  | .maxn _ => some ⟨0x10, [11], [.s], [.s], [.s], [.null], [.none], .round, .bits 0, 0, 0⟩
  | .clz _ => some ⟨0x10, [12], [.s], [.s], [.null], [.null], [.none], .round, .bits 0, 0, 0⟩
  | .popc _ => some ⟨0x10, [13], [.s], [.s], [.null], [.null], [.none], .round, .bits 0, 0, 0⟩
  | .bext _ => some ⟨0x10, [14], [.s], [.s], [.s], [.null], [.none], .round, .bits 0, 0, 0⟩
  | .bins _ => some ⟨0x10, [15], [.s], [.s], [.s], [.s], [.none], .round, .bits 0, 0, 0⟩
  | .addImm _ => some ⟨0x11, [0], [.s], [.s], [.null], [.null], [.none], .round, .bits 0xFFFFFFFFFFFF, 0, 0⟩
  | .subImm _ => some ⟨0x11, [1], [.s], [.s], [.null], [.null], [.none], .round, .bits 0xFFFFFFFFFFFF, 0, 0⟩
  | .andImm _ => some ⟨0x11, [2], [.s], [.s], [.null], [.null], [.none], .round, .bits 0xFFFFFFFFFFFF, 0, 0⟩
  | .orImm _ => some ⟨0x11, [3], [.s], [.s], [.null], [.null], [.none], .round, .bits 0xFFFFFFFFFFFF, 0, 0⟩
  | .xorImm _ => some ⟨0x11, [4], [.s], [.s], [.null], [.null], [.none], .round, .bits 0xFFFFFFFFFFFF, 0, 0⟩
  | .shlImm _ => some ⟨0x11, [5], [.s], [.s], [.null], [.null], [.none], .round, .bits 0xFFFFFFFFFFFF, 0, 0⟩
  | .shrImm _ => some ⟨0x11, [6], [.s], [.s], [.null], [.null], [.none], .round, .bits 0xFFFFFFFFFFFF, 0, 0⟩
  | .sarImm _ => some ⟨0x11, [7], [.s], [.s], [.null], [.null], [.none], .round, .bits 0xFFFFFFFFFFFF, 0, 0⟩
  | .minImm _ => some ⟨0x11, [8], [.s], [.s], [.null], [.null], [.none], .round, .bits 0xFFFFFFFFFFFF, 0, 0⟩
  | .maxImm _ => some ⟨0x11, [9], [.s], [.s], [.null], [.null], [.none], .round, .bits 0xFFFFFFFFFFFF, 0, 0⟩
  | .minnImm _ => some ⟨0x11, [10], [.s], [.s], [.null], [.null], [.none], .round, .bits 0xFFFFFFFFFFFF, 0, 0⟩
  | .maxnImm _ => some ⟨0x11, [11], [.s], [.s], [.null], [.null], [.none], .round, .bits 0xFFFFFFFFFFFF, 0, 0⟩
  | .mulI _ => some ⟨0x12, [0], [.s], [.s], [.s], [.null], [.none], .round, .bits 0, 0, 0⟩
  | .mulh _ => some ⟨0x12, [1], [.s], [.s], [.s], [.null], [.none], .round, .bits 0, 0, 0⟩
  | .mulhn _ => some ⟨0x12, [2], [.s], [.s], [.s], [.null], [.none], .round, .bits 0, 0, 0⟩
  | .madd _ => some ⟨0x12, [3], [.s], [.s], [.s], [.s], [.none], .round, .bits 0, 0, 0⟩
  | .divI _ => some ⟨0x12, [4], [.s], [.s], [.s], [.null], [.none], .round, .bits 0, 0, 0⟩
  | .divn _ => some ⟨0x12, [5], [.s], [.s], [.s], [.null], [.none], .round, .bits 0, 0, 0⟩
  | .rem _ => some ⟨0x12, [6], [.s], [.s], [.s], [.null], [.none], .round, .bits 0, 0, 0⟩
  | .remn _ => some ⟨0x12, [7], [.s], [.s], [.s], [.null], [.none], .round, .bits 0, 0, 0⟩
  | .cmp _ => some ⟨0x13, [0, 1, 2, 3, 4, 5, 6, 7, 8, 9], [.p], [.s], [.s], [.null], [.none], .zero, .bits 0, 0, 0⟩
  | .cmpi _ => some ⟨0x14, [0, 1, 2, 3, 4, 5, 6, 7, 8, 9], [.p], [.s], [.null], [.null], [.none], .zero, .bits 0xFFFFFFFFFFFF, 0, 0⟩
  | .sel _ => some ⟨0x15, [0], [.s], [.s], [.s], [.p], [.none], .zero, .bits 0, 0, 0⟩
  | .li _ => some ⟨0x16, [0], [.s], [.null], [.null], [.null], [.none], .zero, .bits 0xFFFFFFFFFFFF, 0, 0⟩
  | .liHi _ => some ⟨0x16, [1], [.s], [.null], [.null], [.null], [.none], .zero, .bits 0xFFFF, 0, 0⟩
  | .mov _ => some ⟨0x17, [0], [.s, .p, .b], [.s, .p, .b], [.null], [.null], [.none], .zero, .bits 0, 0, 0⟩
  | .plog _ => some ⟨0x18, [0], [.p], [.p], [.p], [.null], [.none], .zero, .bits 0xF, 0, 0⟩
  | .lea _ => some ⟨0x19, [0], [.s], [.s], [.null], [.null], [.none], .zero, .bits 0xFFFFFFFFFFFF, 0, 0⟩
  | .leaPc _ => some ⟨0x19, [1], [.s], [.null], [.null], [.null], [.none], .zero, .bits 0xFFFFFFFFFFFF, 0, 0⟩
  | .spld _ => some ⟨0x1A, [0], [.s, .b, .k, .vm, .v], [.null], [.null], [.null], [.none], .zero, .bits 0xFFFFFF, 0, 0⟩
  | .spst _ => some ⟨0x1B, [0], [.null], [.s, .b, .k, .vm, .v], [.null], [.null], [.none], .zero, .bits 0xFFFFFF, 0, 0⟩
  | .getc _ => some ⟨0x1C, [0], [.s], [.null], [.null], [.null], [.none], .zero, .bits 0xFFF, 0, 0⟩
  | .setc _ => some ⟨0x1D, [0], [.null], [.s], [.null], [.null], [.none], .zero, .bits 0xFFF, 0, 0⟩
  | .fork _ => some ⟨0x20, [0], [.null], [.null], [.null], [.null], [.none], .zero, .bits 0, 0, 7⟩
  | .rdv _ => some ⟨0x21, [0], [.null], [.null], [.null], [.null], [.none], .zero, .bits 0, 0, 0⟩
  | .qcfg _ => some ⟨0x22, [0], [.q], [.null], [.null], [.null], [.none], .zero, .bits 0x77, 0, 0⟩
  | .tspawn _ => some ⟨0x23, [0], [.p], [.s], [.null], [.null], [.none], .zero, .bits 0, 0, 0⟩
  | .tsig _ => some ⟨0x24, [0], [.p], [.s], [.null], [.null], [.none], .zero, .bits 0, 0, 0⟩
  | .tyield _ => some ⟨0x25, [0], [.p], [.null], [.null], [.null], [.none], .zero, .bits 0, 0, 0⟩
  | .gbar _ => some ⟨0x26, [0], [.s, .null], [.null], [.null], [.null], [.none], .zero, .bits 3, 0, 0⟩
  | .gwait _ => some ⟨0x27, [0], [.null], [.s], [.null], [.null], [.none], .zero, .bits 3, 0, 0⟩
  | .prog _ => some ⟨0x28, [0], [.null], [.s, .null], [.null], [.null], [.none], .zero, .bits 0xFFFF, 0, 0⟩
  | .wrel _ => some ⟨0x29, [0], [.null], [.null], [.null], [.null], [.none], .zero, .bits 0, 0, 0⟩
  | .tret _ => some ⟨0x2A, [0], [.null], [.null], [.null], [.null], [.none], .zero, .bits 7, 0, 0⟩
  | .tretSkip _ => some ⟨0x2A, [1], [.null], [.null], [.null], [.null], [.none], .zero, .bits 7, 0, 0⟩
  | .ctxsave _ => some ⟨0x2B, [0], [.null], [.s], [.null], [.null], [.none], .zero, .bits 0x1F, 0, 0⟩
  | .ctxload _ => some ⟨0x2C, [0], [.null], [.s], [.null], [.null], [.none], .zero, .bits 0x1F, 0, 0⟩
  | .lttw _ => some ⟨0x2D, [0], [.p], [.s], [.s], [.s], [.none], .zero, .bits 0, 0, 0⟩
  | .bank _ => some ⟨0x2E, [0], [.null], [.null], [.null], [.null], [.none], .zero, .bits 0xFFF, 0, 0⟩
  | .attrSet _ => some ⟨0x2F, [0], [.s], [.s], [.s], [.null], [.none], .zero, .bits 1, 0, 0⟩
  | .attrClr _ => some ⟨0x2F, [1], [.s], [.s], [.s], [.null], [.none], .zero, .bits 1, 0, 0⟩
  | .halt _ => some ⟨0x30, [0], [.null], [.null], [.null], [.null], [.none], .zero, .bits 0x1F, 0, 0⟩
  | .haltGo _ => some ⟨0x30, [1], [.null], [.null], [.null], [.null], [.none], .zero, .bits 0x1F, 0, 0⟩
  | .ld _ => some ⟨0x40, [0], [.s], [.s], [.null], [.null], intTys, .zero, .bits 0xFFFFFF, 0, 0⟩
  | .st _ => some ⟨0x41, [0], [.null], [.s], [.s], [.null], intTys, .zero, .bits 0xFFFFFF, 0, 0⟩
  | .lda _ => some ⟨0x42, [0], [.s], [.s], [.null], [.null], intTys, .scope, .bits 0xFFFFFF, 0, 0⟩
  | .stl _ => some ⟨0x43, [0], [.null], [.s], [.s], [.null], intTys, .scope, .bits 0xFFFFFF, 0, 0⟩
  | .vld _ => some ⟨0x44, [0], [.v], [.s], [.null], [.vm, .null], [.none], .zero, .bits 0xFFFFFF, 0, 0⟩
  | .vst _ => some ⟨0x45, [0], [.null], [.s], [.v], [.vm, .null], [.none], .zero, .bits 0xFFFFFF, 0, 0⟩
  | .ldq _ => some ⟨0x46, [0], [.v, .q], [.s], [.k, .null], [.s], [.b4], .zero, .bits 0xFFFFFF, 0, 0⟩
  | .stq _ => some ⟨0x47, [0], [.null], [.s], [.v], [.s], [.b4], .zero, .bits 0xFFFFFF, 0, 0⟩
  | .kld _ => some ⟨0x48, [0], [.k], [.s], [.null], [.null], [.none], .zero, .bits 0xFFFFFF, 0, 0⟩
  | .kst _ => some ⟨0x49, [0], [.null], [.s], [.k], [.null], [.none], .zero, .bits 0xFFFFFF, 0, 0⟩
  | .gath _ => some ⟨0x4A, [0], [.v], [.s], [.v], [.vm, .null], [.i8, .n8, .i16, .n16, .f16, .bf16, .i32, .n32, .f32], .zero, .bits 0xFFFFFF, 0, 0⟩
  | .scat _ => some ⟨0x4B, [0], [.null], [.s], [.v], [.v], [.i8, .n8, .i16, .n16, .f16, .bf16, .i32, .n32, .f32], .zero, .bits 0xFFFFFF, 0, 0⟩
  | .copy _ => some ⟨0x4C, [0], [.null], [.s], [.s], [.s], [.none], .zero, .bits 0, 0, 0⟩
  | .fill _ => some ⟨0x4D, [0], [.null], [.s], [.s], [.s], [.none], .zero, .bits 0, 0, 0⟩
  | .atom _ => some ⟨0x4E, [0, 1, 2, 3, 4, 5, 6, 7, 8, 9, 10], [.s, .null], [.s], [.s], [.s, .null], [.i32, .i64, .n32, .n64, .f32], .scope, .bits 3, 0, 0⟩
  | .redst _ => some ⟨0x4F, [0, 1, 2], [.null], [.s], [.v], [.vm, .null], [.f32, .bf16, .i32], .zero, .bits 0x103, 0, 0⟩
  | .mcst _ => some ⟨0x50, [0], [.null], [.s], [.s, .v], [.null], [.none], .zero, .bits 3, 0, 0⟩
  | .fenceAcq _ => some ⟨0x51, [0], [.s, .null], [.null], [.null], [.null], [.none], .scope, .bits 0x3F, 0, 0⟩
  | .fenceRel _ => some ⟨0x51, [1], [.s, .null], [.null], [.null], [.null], [.none], .scope, .bits 0x3F, 0, 0⟩
  | .fenceAr _ => some ⟨0x51, [2], [.s, .null], [.null], [.null], [.null], [.none], .scope, .bits 0x3F, 0, 0⟩
  | .fenceSc _ => some ⟨0x51, [3], [.s, .null], [.null], [.null], [.null], [.none], .scope, .bits 0x3F, 0, 0⟩
  | .qfence _ => some ⟨0x52, [0], [.null], [.null], [.null], [.null], [.none], .scope, .bits 0x3F, 0, 0⟩
  | .qpush _ => some ⟨0x53, [0], [.p], [.s], [.s, .v], [.null], [.none], .scope, .bits 0, 0, 0⟩
  | .qpop _ => some ⟨0x54, [0], [.s, .v], [.s], [.null], [.null], [.none], .scope, .bits 7, 0, 0⟩
  | .msgsend _ => some ⟨0x55, [0], [.p], [.s], [.s], [.s], [.none], .zero, .bits 0, 0, 0⟩
  | .pref _ => some ⟨0x56, [0], [.null], [.s], [.s], [.null], [.none], .zero, .bits 0, 0, 0⟩
  | .vadd _ => some ⟨0x70, [0], [.v, .q], [.v, .q, .qpk], [.v, .q, .qpk], [.null], fltTys, .round, .vec 0 true, 0, 0⟩
  | .vsub _ => some ⟨0x71, [0], [.v, .q], [.v, .q, .qpk], [.v, .q, .qpk], [.null], fltTys, .round, .vec 0 true, 0, 0⟩
  | .vmul _ => some ⟨0x72, [0], [.v, .q], [.v, .q, .qpk], [.v, .q, .qpk], [.null], fltTys, .round, .vec 0 true, 0, 0⟩
  | .vfma _ => some ⟨0x73, [0], [.v, .q], [.v, .q, .qpk], [.v, .q, .qpk], [.v, .q, .qpk], fltTys, .round, .vec 0 true, 0, 0⟩
  | .vmin _ => some ⟨0x74, [0], [.v, .q], [.v, .q, .qpk], [.v, .q, .qpk], [.null], numTys, .round, .vec 0 true, 0, 0⟩
  | .vmax _ => some ⟨0x75, [0], [.v, .q], [.v, .q, .qpk], [.v, .q, .qpk], [.null], numTys, .round, .vec 0 true, 0, 0⟩
  | .vabs _ => some ⟨0x76, [0], [.v, .q], [.v, .q, .qpk], [.null], [.null], [.f32, .bf16, .f16, .i8, .i16, .i32, .i64], .round, .vec 0 true, 0, 0⟩
  | .vdiv _ => some ⟨0x77, [0], [.v, .q], [.v, .q, .qpk], [.v, .q, .qpk], [.null], fltTys, .round, .vec 0 true, 0, 0⟩
  | .vrcp _ => some ⟨0x78, [0], [.v, .q], [.v, .q, .qpk], [.null], [.null], fltTys, .round, .vec 0 true, 0, 0⟩
  | .vrsq _ => some ⟨0x79, [0], [.v, .q], [.v, .q, .qpk], [.null], [.null], fltTys, .round, .vec 0 true, 0, 0⟩
  | .vexp _ => some ⟨0x7A, [0], [.v, .q], [.v, .q, .qpk], [.null], [.null], fltTys, .round, .vec 0 true, 0, 0⟩
  | .vlog _ => some ⟨0x7B, [0], [.v, .q], [.v, .q, .qpk], [.null], [.null], fltTys, .round, .vec 0 true, 0, 0⟩
  | .vact _ => some ⟨0x7C, [0, 1, 2, 3, 4], [.v, .q], [.v, .q, .qpk], [.null], [.null], [.f32], .round, .vec 0 true, 0, 0⟩
  | .viadd _ => some ⟨0x7D, [0], [.v, .q], [.v, .q, .qpk], [.v, .q, .qpk], [.null], intTys, .round, .vec 0 true, 0, 0⟩
  | .visub _ => some ⟨0x7E, [0], [.v, .q], [.v, .q, .qpk], [.v, .q, .qpk], [.null], intTys, .round, .vec 0 true, 0, 0⟩
  | .vimul _ => some ⟨0x7F, [0, 1], [.v, .q], [.v, .q, .qpk], [.v, .q, .qpk], [.null], intTys, .round, .vec 0 true, 0, 0⟩
  | .vimac _ => some ⟨0x80, [0, 1], [.v], [.v, .q, .qpk], [.v, .q, .qpk], [.null], intTys, .round, .vec 0 true, 0, 0⟩
  | .vbit _ => some ⟨0x81, [0, 1, 2, 3, 4, 5, 6], [.v, .q], [.v, .q, .qpk], [.v, .q, .qpk, .null], [.null], intTys, .zero, .vec 0 true, 0, 0⟩
  | .vsh _ => some ⟨0x82, [0, 1, 2], [.v, .q], [.v, .q, .qpk], [.v, .q, .qpk, .s, .null], [.null], intTys, .round, .vec 0x7F00 true, 0, 0⟩
  | .vimm _ => some ⟨0x83, [0], [.v, .q], [.null], [.null], [.null], anyW, .zero, .bits 0xFFFFFFFFFFFF, 0, 0⟩
  | .vcmp _ => some ⟨0x84, [0, 1, 2, 3, 4, 5, 6], [.vm], [.v, .q, .qpk], [.v, .q, .qpk], [.null], numTys, .zero, .vec 0 true, 0, 0⟩
  | .vsel _ => some ⟨0x85, [0], [.v, .q], [.v, .q, .qpk], [.v, .q, .qpk], [.vm], anyW, .zero, .vec 0 false, 0, 0⟩
  | .vmsk _ => some ⟨0x86, [0, 1, 2, 3, 4, 5, 6, 7], [.vm, .s], [.vm, .null], [.vm, .null], [.null], [.none], .zero, .vec 0x1FF00 false, 0, 0⟩
  | .vcvt _ => some ⟨0x87, [0], [.v, .q], [.v, .q, .qpk], [.null], [.null], anyW, .round, .vec 0x7F00 true, 0, 0⟩
  | .vrnd _ => some ⟨0x88, [0], [.null], [.null], [.null], [.null], [.none], .mode, .bits 0, 0, 0⟩
  | .vqnt _ => some ⟨0x89, [0], [.v], [.v, .q, .qpk], [.k, .null], [.null], [.b4, .e4m3, .e5m2], .round, .vec 0x700 true, 0, 0⟩
  | .vdq _ => some ⟨0x8A, [0], [.v, .q], [.v, .q, .qpk], [.null], [.null], [.f32, .bf16], .zero, .vec 0x700 true, 0, 0⟩
  | .vunp3 _ => some ⟨0x8B, [0], [.v], [.v], [.null], [.vm, .null], [.t3], .zero, .vec 0xFF00 false, 0, 0⟩
  | .vtmac _ => some ⟨0x8C, [0], [.v], [.v], [.v], [.null], [.i8], .round, .vec 0 true, 0, 0⟩
  | .vred _ => some ⟨0x8D, [0, 1, 2, 3], [.v, .q], [.v, .q, .qpk], [.null], [.null], numTys, .round, .vec 0x1FF00 true, 0, 0⟩
  | .vscan _ => some ⟨0x8E, [0, 1, 2], [.v, .q], [.v, .q, .qpk], [.null], [.null], numTys, .round, .vec 0x1FF00 true, 0, 0⟩
  | .vtopk _ => some ⟨0x8F, [0], [.v], [.v], [.v], [.v, .null], [.f32, .bf16, .i32], .zero, .bits 0, 0, 0⟩
  | .vperm _ => some ⟨0x90, [0], [.v, .q], [.v, .q, .qpk], [.v, .q, .qpk], [.null], anyW, .zero, .vec 0 true, 0, 0⟩
  | .vbcst _ => some ⟨0x91, [0], [.v, .q], [.v, .q, .qpk, .s], [.null], [.null], anyW, .zero, .vec 0xFF00 true, 0, 0⟩
  | .vsld _ => some ⟨0x92, [0], [.v, .q], [.v, .q, .qpk], [.v, .q, .qpk], [.null], anyW, .zero, .vec 0x1FF00 true, 0, 0⟩
  | .vilv _ => some ⟨0x93, [0, 1, 2, 3], [.v, .q], [.v, .q, .qpk], [.v, .q, .qpk], [.null], anyW, .zero, .vec 0 true, 0, 0⟩
  | .vxpose _ => some ⟨0x94, [0], [.v, .q], [.v, .q, .qpk], [.null], [.null], anyW, .zero, .vec 0 false, 0, 0⟩
  | .vmovs _ => some ⟨0x95, [0, 1], [.s, .v], [.v, .q, .qpk, .s], [.null], [.null], anyW, .zero, .vec 0xFF00 false, 0, 0⟩
  | .vsmx _ => some ⟨0x96, [0], [.v, .q], [.v, .q, .qpk], [.s], [.null], [.f32], .round, .vec 0x1FF00 true, 0, 0⟩
  | .vrope _ => some ⟨0x97, [0], [.v, .q], [.v, .q, .qpk], [.v, .q, .qpk], [.v, .q, .qpk], [.f32], .round, .vec 0 true, 0, 0⟩
  | .vstat _ => some ⟨0x98, [0], [.v, .q], [.v, .q, .qpk], [.null], [.null], [.f32], .round, .vec 0x1FF00 false, 0, 0⟩
  | .vmov _ => some ⟨0x99, [0], [.v, .vm, .q], [.v, .vm, .q, .qpk], [.k, .null], [.null], [.none, .b4], .zero, .vec 0 false, 0, 0⟩
  | .kmov _ => some ⟨0xA0, [0], [.k], [.k, .q, .qpk], [.null], [.null], [.none], .zero, .bits 0, 0, 0⟩
  | .kset _ => some ⟨0xA1, [0], [.k], [.null], [.null], [.null], [.none], .zero, .bits 0xFF, 0, 0⟩
  | .ksetOne _ => some ⟨0xA1, [1], [.k], [.null], [.null], [.null], [.none], .zero, .bits 0xFFF, 0, 0⟩
  | .ksetS _ => some ⟨0xA1, [2], [.k], [.s], [.s], [.null], [.none], .zero, .bits 0, 0, 0⟩
  | .kadd _ => some ⟨0xA2, [0], [.k], [.k], [.s, .null], [.null], [.none], .zero, .bits 0xFFFFFF, 0, 0⟩
  | .kmax _ => some ⟨0xA3, [0], [.k], [.k], [.k], [.null], [.none], .zero, .bits 0xFFFF00, 0, 0⟩
  | .kmin _ => some ⟨0xA3, [1], [.k], [.k], [.k], [.null], [.none], .zero, .bits 0xFFFF00, 0, 0⟩
  | .ktype _ => some ⟨0xA4, [0], [.k], [.k], [.null], [.null], [.none], .zero, .bits 0xFFFF03, 0, 0⟩
  | .kbind _ => some ⟨0xA5, [0], [.v], [.k], [.null], [.null], [.none], .zero, .bits 0, 0, 0⟩
  | .kunb _ => some ⟨0xA6, [0], [.v], [.null], [.null], [.null], [.none], .zero, .bits 0, 0, 0⟩
  | .kgen _ => some ⟨0xA7, [0], [.s], [.k], [.null], [.null], [.none], .zero, .bits 0, 0, 0⟩
  | .kgenB _ => some ⟨0xA7, [1], [.s], [.v], [.null], [.null], [.none], .zero, .bits 0, 0, 0⟩
  | .kfrom _ => some ⟨0xA8, [0], [.k], [.v], [.null], [.null], [.f32, .bf16], .zero, .bits 0x703, 0, 0⟩
  | .mnest _ => some ⟨0xB0, [0, 1, 2], [.null], [.null], [.null], [.null], [.none], .zero, .bits 0, 0, 0⟩
  | .msrc _ => some ⟨0xB1, [0], [.null], [.s], [.s], [.s, .null], [.b4, .e4m3, .e5m2, .i8, .bf16], .zero, .bits 1, 0, 0⟩
  | .mbselWin _ => some ⟨0xB2, [0], [.null], [.null], [.null], [.null], [.none], .zero, .bits 0, 0, 0⟩
  | .mbselScr _ => some ⟨0xB2, [1], [.null], [.s], [.s], [.s, .null], [.none], .zero, .bits 0, 0, 0⟩
  | .mfmt _ => some ⟨0xB3, [0], [.null], [.s], [.null], [.null], [.none], .zero, .bits 0, 0, 0⟩
  | .mgo _ => some ⟨0xB4, [0], [.null], [.null], [.null], [.null], [.none], .zero, .bits 1, 0, 0⟩
  | .mgoGrp _ => some ⟨0xB4, [1], [.null], [.null], [.null], [.null], [.none], .zero, .bits 1, 0, 0⟩
  | .mdrain _ => some ⟨0xB5, [0, 1], [.v], [.null], [.null], [.null], [.i8, .i16, .i32, .f32, .bf16, .f16, .e4m3, .e5m2], .round, .bits 0x17F7F, 0, 0⟩
  | .mzero _ => some ⟨0xB6, [0], [.null], [.null], [.null], [.null], [.none], .zero, .bits 0x17F7F, 0, 0⟩
  | .mload _ => some ⟨0xB7, [0], [.null], [.v], [.null], [.null], [.f32, .i32, .bf16], .zero, .bits 0x17F7F, 0, 0⟩
  | .mrnd _ => some ⟨0xB8, [0], [.null], [.null], [.null], [.null], [.none], .mode, .bits 0, 0, 0⟩
  | .mgrp _ => some ⟨0xB9, [0], [.null], [.null], [.null], [.null], [.none], .zero, .bits 0, 0, 0⟩
  | .mstat _ => some ⟨0xBA, [0, 1, 2, 3], [.s], [.null], [.null], [.null], [.none], .zero, .bits 0, 0, 0⟩
  | .aqset _ => some ⟨0xD0, [0], [.null], [.v], [.s], [.s], [.none], .zero, .bits 0, 0, 0⟩
  | .astep _ => some ⟨0xD1, [0], [.p], [.v], [.v], [.s, .null], [.none], .zero, .bits 0, 0, 0⟩
  | .amerge _ => some ⟨0xD2, [0], [.v], [.v], [.v], [.null], [.none], .zero, .bits 0, 0, 0⟩
  | .afin _ => some ⟨0xD3, [0], [.v], [.v], [.null], [.null], [.f32, .bf16], .round, .bits 0, 0, 0⟩
  | .kvapp _ => some ⟨0xD4, [0], [.p], [.s], [.s], [.v], [.none], .zero, .bits 0xFFFF, 0, 0⟩
  | .kvappBeam _ => some ⟨0xD4, [1], [.p], [.s], [.s], [.v], [.none], .zero, .bits 0xFFFF, 0, 0⟩
  | .kvgath _ => some ⟨0xD5, [0], [.v], [.s], [.v], [.vm, .null], [.none], .zero, .bits 0, 0, 0⟩
  | .pgalloc _ => some ⟨0xD6, [0], [.p], [.null], [.null], [.s], [.none], .zero, .bits 1, 0, 0⟩
  | .pgfree _ => some ⟨0xD7, [0], [.null], [.s], [.null], [.null], [.none], .zero, .bits 0, 0, 0⟩
  | .pxlook _ => some ⟨0xD8, [0], [.v], [.v], [.null], [.s], [.none], .zero, .bits 0, 0, 0⟩
  | .pxins _ => some ⟨0xD9, [0], [.s], [.v], [.v], [.s], [.none], .zero, .bits 0, 0, 0⟩
  | .pxrel _ => some ⟨0xDA, [0], [.null], [.v], [.s], [.null], [.none], .zero, .bits 0, 0, 0⟩
  | .bmapRo _ => some ⟨0xDB, [0], [.null], [.s], [.v], [.null], [.none], .zero, .bits 0x3F, 0, 0⟩
  | .bmapSet _ => some ⟨0xDB, [1], [.null], [.s], [.s], [.s], [.none], .zero, .bits 0, 0, 0⟩
  | .bmapRdlo _ => some ⟨0xDB, [2], [.s], [.s], [.null], [.null], [.none], .zero, .bits 0, 0, 0⟩
  | .bmapRdhi _ => some ⟨0xDB, [3], [.s], [.s], [.null], [.null], [.none], .zero, .bits 0, 0, 0⟩
  | .bmapClr _ => some ⟨0xDB, [4], [.null], [.s], [.null], [.null], [.none], .zero, .bits 0, 0, 0⟩
  | .tierin _ => some ⟨0xDC, [0], [.p], [.s], [.s], [.null], [.none], .zero, .bits 0, 0, 0⟩
  | .tierout _ => some ⟨0xDD, [0], [.p], [.s], [.s], [.null], [.none], .zero, .bits 0, 0, 0⟩
  | .seqrd _ => some ⟨0xDE, [0], [.s], [.s], [.null], [.null], [.none], .zero, .bits 0, 0, 0⟩
  | .tierMoveEnd _ => none
  | .headerReached _ _ => none
  | .sectionStart _ _ => none
  | .segmentKeyHit _ _ => none
  | .sectionRetire _ _ => none
  | .resultLands _ _ _ => none
  | .ldqScalesLand _ _ _ => none
  | .ldqDataLands _ _ _ => none
  | .acceptanceTimeout _ _ => none
  | .fenceWaitExpiry _ _ => none
  | .bankWake _ _ => none
  | .taskTrapHandlerStart _ => none
  | .messageArrival _ _ => none
  | .arrivalHandlerStart _ => none
  | .hubSubmission _ _ _ => none
  | .earlySignalExpiry _ _ => none
  | .taskRelease _ _ => none
  | .taskIssue _ _ => none
  | .taskRetirement _ => none
  | .timingSourceChange _ => none
  | .tickEnd _ => none
  | .frameStart _ => none
  | .segmentArrival _ _ => none
  | .segmentForward _ => none
  | .segmentRefetch _ _ => none
  | .heartbeatTimeout _ _ => none
  | .repairComplete _ => none
  | .nestStart _ => none
  | .nestStep _ => none
  | .nestEnd _ => none
  | .mdrainRowLands _ => none
  | .backgroundEviction _ => none
  | .preemptionCheck _ => none
  | .saveImageComplete _ => none
  | .saveDrainFallback _ => none
  | .contextRestore _ _ => none
  | .retry _ _ _ => none
  | .skip _ _ _ => none
  | .kill _ _ _ => none
  | .saveTeam _ _ _ => none
  | .swapout _ _ => none
  | .swapin _ _ => none
  | .frz _ _ _ => none
  | .agfrz _ _ _ => none
  | .estclr _ _ _ _ => none
  | .alloc _ _ _ _ => none
  | .refPage _ _ _ _ => none
  | .unref _ _ _ _ => none
  | .setro _ _ _ _ => none
  | .clrro _ _ _ _ => none
  | .setpin _ _ _ _ => none
  | .clrpin _ _ _ _ => none
  | .evict _ _ _ _ => none
  | .publish _ _ _ _ => none
  | .pageAllocatorEnable _ _ _ => none
  | .pageAllocatorInitDone _ => none
  | .partcfg _ _ => none
  | .partsup _ _ => none
  | .accessTableWrite _ _ _ _ => none
  | .groupTableWrite _ _ _ => none
  | .rfcfg _ _ _ => none
  | .bypass _ _ _ => none
  | .fabcfg _ _ => none
  | .hostwin _ _ => none
  | .pwrcap _ _ => none
  | .configRegisterWrite _ _ _ => none
  | .flitReceived _ _ _ _ => none
  | .keyUpdate _ _ => none
  | .linkDeclaredDead _ => none
  | .linkUp _ _ => none
  | .remoteAccessArrival _ => none
  | .leaseExpiry _ _ => none
  | .shootDown _ _ => none
  | .roClearAtHome _ => none
  | .hostBarAccess _ _ => none
  | .moduleReset _ => none
  | .pldmFirmwareUpdate _ _ => none
  | .getCertificate => none
  | .challenge _ => none
  | .getMeasurements _ => none
  | .keyExchange _ => none
  | .p1Entry => none
  | .p1Exit => none
  | .thermalHalt _ _ _ => none
  | .suspend => none
  | .wake _ => none
  | .powerRemoved => none
  | .accessAccepted _ _ _ => none
  | .accessPerformed _ _ => none
  | .hubCoreAccess _ _ => none
  | .segmentStoreError _ => none
  | .linkLosesTraining _ => none
  | .distributorMessageArrival _ => none

/-- The fields of a word of an engine's stream; none for a step of the module. -/
def Instr.body : Instr → Option Body
  | .nop w => some (.a w)
  | .endI w => some (.a w)
  | .bri w => some (.c w)
  | .br w => some (.a w)
  | .pbr w => some (.c w)
  | .jtab w => some (.a w)
  | .call w => some (.c w)
  | .ret w => some (.a w)
  | .loop w => some (.c w)
  | .lbrk w => some (.c w)
  | .lidx w => some (.c w)
  | .post w => some (.a w)
  | .await w => some (.a w)
  | .awaitNb w => some (.a w)
  | .wseg w => some (.a w)
  | .trapI w => some (.a w)
  | .addI w => some (.a w)
  | .subI w => some (.a w)
  | .andI w => some (.a w)
  | .orI w => some (.a w)
  | .xorI w => some (.a w)
  | .shl w => some (.a w)
  | .shr w => some (.a w)
  | .sar w => some (.a w)
  | .minI w => some (.a w)
  | .maxI w => some (.a w)
  | .minn w => some (.a w)
  | .maxn w => some (.a w)
  | .clz w => some (.a w)
  | .popc w => some (.a w)
  | .bext w => some (.a w)
  | .bins w => some (.a w)
  | .addImm w => some (.b w)
  | .subImm w => some (.b w)
  | .andImm w => some (.b w)
  | .orImm w => some (.b w)
  | .xorImm w => some (.b w)
  | .shlImm w => some (.b w)
  | .shrImm w => some (.b w)
  | .sarImm w => some (.b w)
  | .minImm w => some (.b w)
  | .maxImm w => some (.b w)
  | .minnImm w => some (.b w)
  | .maxnImm w => some (.b w)
  | .mulI w => some (.a w)
  | .mulh w => some (.a w)
  | .mulhn w => some (.a w)
  | .madd w => some (.a w)
  | .divI w => some (.a w)
  | .divn w => some (.a w)
  | .rem w => some (.a w)
  | .remn w => some (.a w)
  | .cmp w => some (.a w)
  | .cmpi w => some (.b w)
  | .sel w => some (.a w)
  | .li w => some (.b w)
  | .liHi w => some (.b w)
  | .mov w => some (.a w)
  | .plog w => some (.a w)
  | .lea w => some (.b w)
  | .leaPc w => some (.b w)
  | .spld w => some (.a w)
  | .spst w => some (.a w)
  | .getc w => some (.a w)
  | .setc w => some (.a w)
  | .fork w => some (.c w)
  | .rdv w => some (.a w)
  | .qcfg w => some (.a w)
  | .tspawn w => some (.a w)
  | .tsig w => some (.a w)
  | .tyield w => some (.a w)
  | .gbar w => some (.a w)
  | .gwait w => some (.a w)
  | .prog w => some (.a w)
  | .wrel w => some (.a w)
  | .tret w => some (.a w)
  | .tretSkip w => some (.a w)
  | .ctxsave w => some (.a w)
  | .ctxload w => some (.a w)
  | .lttw w => some (.a w)
  | .bank w => some (.a w)
  | .attrSet w => some (.a w)
  | .attrClr w => some (.a w)
  | .halt w => some (.a w)
  | .haltGo w => some (.a w)
  | .ld w => some (.a w)
  | .st w => some (.a w)
  | .lda w => some (.a w)
  | .stl w => some (.a w)
  | .vld w => some (.a w)
  | .vst w => some (.a w)
  | .ldq w => some (.a w)
  | .stq w => some (.a w)
  | .kld w => some (.a w)
  | .kst w => some (.a w)
  | .gath w => some (.a w)
  | .scat w => some (.a w)
  | .copy w => some (.a w)
  | .fill w => some (.a w)
  | .atom w => some (.a w)
  | .redst w => some (.a w)
  | .mcst w => some (.a w)
  | .fenceAcq w => some (.a w)
  | .fenceRel w => some (.a w)
  | .fenceAr w => some (.a w)
  | .fenceSc w => some (.a w)
  | .qfence w => some (.a w)
  | .qpush w => some (.a w)
  | .qpop w => some (.a w)
  | .msgsend w => some (.a w)
  | .pref w => some (.a w)
  | .vadd w => some (.a w)
  | .vsub w => some (.a w)
  | .vmul w => some (.a w)
  | .vfma w => some (.a w)
  | .vmin w => some (.a w)
  | .vmax w => some (.a w)
  | .vabs w => some (.a w)
  | .vdiv w => some (.a w)
  | .vrcp w => some (.a w)
  | .vrsq w => some (.a w)
  | .vexp w => some (.a w)
  | .vlog w => some (.a w)
  | .vact w => some (.a w)
  | .viadd w => some (.a w)
  | .visub w => some (.a w)
  | .vimul w => some (.a w)
  | .vimac w => some (.a w)
  | .vbit w => some (.a w)
  | .vsh w => some (.a w)
  | .vimm w => some (.b w)
  | .vcmp w => some (.a w)
  | .vsel w => some (.a w)
  | .vmsk w => some (.a w)
  | .vcvt w => some (.a w)
  | .vrnd w => some (.a w)
  | .vqnt w => some (.a w)
  | .vdq w => some (.a w)
  | .vunp3 w => some (.a w)
  | .vtmac w => some (.a w)
  | .vred w => some (.a w)
  | .vscan w => some (.a w)
  | .vtopk w => some (.p w)
  | .vperm w => some (.a w)
  | .vbcst w => some (.a w)
  | .vsld w => some (.a w)
  | .vilv w => some (.a w)
  | .vxpose w => some (.a w)
  | .vmovs w => some (.a w)
  | .vsmx w => some (.a w)
  | .vrope w => some (.a w)
  | .vstat w => some (.a w)
  | .vmov w => some (.a w)
  | .kmov w => some (.a w)
  | .kset w => some (.a w)
  | .ksetOne w => some (.a w)
  | .ksetS w => some (.a w)
  | .kadd w => some (.a w)
  | .kmax w => some (.a w)
  | .kmin w => some (.a w)
  | .ktype w => some (.a w)
  | .kbind w => some (.a w)
  | .kunb w => some (.a w)
  | .kgen w => some (.a w)
  | .kgenB w => some (.a w)
  | .kfrom w => some (.a w)
  | .mnest w => some (.p w)
  | .msrc w => some (.a w)
  | .mbselWin w => some (.a w)
  | .mbselScr w => some (.a w)
  | .mfmt w => some (.a w)
  | .mgo w => some (.a w)
  | .mgoGrp w => some (.a w)
  | .mdrain w => some (.a w)
  | .mzero w => some (.a w)
  | .mload w => some (.a w)
  | .mrnd w => some (.a w)
  | .mgrp w => some (.p w)
  | .mstat w => some (.a w)
  | .aqset w => some (.a w)
  | .astep w => some (.p w)
  | .amerge w => some (.a w)
  | .afin w => some (.a w)
  | .kvapp w => some (.a w)
  | .kvappBeam w => some (.a w)
  | .kvgath w => some (.p w)
  | .pgalloc w => some (.a w)
  | .pgfree w => some (.a w)
  | .pxlook w => some (.p w)
  | .pxins w => some (.a w)
  | .pxrel w => some (.a w)
  | .bmapRo w => some (.a w)
  | .bmapSet w => some (.a w)
  | .bmapRdlo w => some (.a w)
  | .bmapRdhi w => some (.a w)
  | .bmapClr w => some (.a w)
  | .tierin w => some (.a w)
  | .tierout w => some (.a w)
  | .seqrd w => some (.a w)
  | .tierMoveEnd _ => none
  | .headerReached _ _ => none
  | .sectionStart _ _ => none
  | .segmentKeyHit _ _ => none
  | .sectionRetire _ _ => none
  | .resultLands _ _ _ => none
  | .ldqScalesLand _ _ _ => none
  | .ldqDataLands _ _ _ => none
  | .acceptanceTimeout _ _ => none
  | .fenceWaitExpiry _ _ => none
  | .bankWake _ _ => none
  | .taskTrapHandlerStart _ => none
  | .messageArrival _ _ => none
  | .arrivalHandlerStart _ => none
  | .hubSubmission _ _ _ => none
  | .earlySignalExpiry _ _ => none
  | .taskRelease _ _ => none
  | .taskIssue _ _ => none
  | .taskRetirement _ => none
  | .timingSourceChange _ => none
  | .tickEnd _ => none
  | .frameStart _ => none
  | .segmentArrival _ _ => none
  | .segmentForward _ => none
  | .segmentRefetch _ _ => none
  | .heartbeatTimeout _ _ => none
  | .repairComplete _ => none
  | .nestStart _ => none
  | .nestStep _ => none
  | .nestEnd _ => none
  | .mdrainRowLands _ => none
  | .backgroundEviction _ => none
  | .preemptionCheck _ => none
  | .saveImageComplete _ => none
  | .saveDrainFallback _ => none
  | .contextRestore _ _ => none
  | .retry _ _ _ => none
  | .skip _ _ _ => none
  | .kill _ _ _ => none
  | .saveTeam _ _ _ => none
  | .swapout _ _ => none
  | .swapin _ _ => none
  | .frz _ _ _ => none
  | .agfrz _ _ _ => none
  | .estclr _ _ _ _ => none
  | .alloc _ _ _ _ => none
  | .refPage _ _ _ _ => none
  | .unref _ _ _ _ => none
  | .setro _ _ _ _ => none
  | .clrro _ _ _ _ => none
  | .setpin _ _ _ _ => none
  | .clrpin _ _ _ _ => none
  | .evict _ _ _ _ => none
  | .publish _ _ _ _ => none
  | .pageAllocatorEnable _ _ _ => none
  | .pageAllocatorInitDone _ => none
  | .partcfg _ _ => none
  | .partsup _ _ => none
  | .accessTableWrite _ _ _ _ => none
  | .groupTableWrite _ _ _ => none
  | .rfcfg _ _ _ => none
  | .bypass _ _ _ => none
  | .fabcfg _ _ => none
  | .hostwin _ _ => none
  | .pwrcap _ _ => none
  | .configRegisterWrite _ _ _ => none
  | .flitReceived _ _ _ _ => none
  | .keyUpdate _ _ => none
  | .linkDeclaredDead _ => none
  | .linkUp _ _ => none
  | .remoteAccessArrival _ => none
  | .leaseExpiry _ _ => none
  | .shootDown _ _ => none
  | .roClearAtHome _ => none
  | .hostBarAccess _ _ => none
  | .moduleReset _ => none
  | .pldmFirmwareUpdate _ _ => none
  | .getCertificate => none
  | .challenge _ => none
  | .getMeasurements _ => none
  | .keyExchange _ => none
  | .p1Entry => none
  | .p1Exit => none
  | .thermalHalt _ _ _ => none
  | .suspend => none
  | .wake _ => none
  | .powerRemoved => none
  | .accessAccepted _ _ _ => none
  | .accessPerformed _ _ => none
  | .hubCoreAccess _ _ => none
  | .segmentStoreError _ => none
  | .linkLosesTraining _ => none
  | .distributorMessageArrival _ => none

/-- The MD values a row admits (09 R125, 05 R74). -/
def mdOk : MdKind → BitVec 4 → Bool
  | .round, m => m.toNat % 8 < 6
  | .scope, m => m.toNat < 12
  | .mode, m => decide (1 ≤ m.toNat % 8) && decide (m.toNat % 8 < 6)
  | .zero, m => m == 0

/-- The immediates a row admits: no reserved bit, and the mask field of 15 R211. -/
def immOk : ImmKind → Nat → Bool
  | .bits m, x => x &&& m == x
  | .vec aux masked, x =>
    let me := x / 128 % 2
    (x - x % 256) &&& aux == x - x % 256 && x / 16 % 4 == 0 &&
      (if me = 0 then x % 128 == 0 else masked)

/-- The index of a v operand. -/
def opndIdx : Opnd → Nat
  | .v i => i.toNat
  | _ => 0

/-- Conditions on the fields of a single entry that depend on the encoding alone. The row and register ranges of MDRAIN, MZERO and MLOAD are
among them: they are judged before the guard (09 R126 step 3; log 71). -/
def extraOk : Instr → Bool
  -- an event count comes from IMM24[23:8] only when SA is null (11 R142)
  | .post w | .await w | .awaitNb w => w.sa == .null || w.imm.toNat / 256 == 0
  | .prog w => w.sa == .null || w.imm == 0
  -- MOV's class pairs (11 R159)
  | .mov w => match w.dst.cls, w.sa.cls with
    | .s, .s | .p, .p | .b, .b | .s, .p | .s, .b | .p, .s | .b, .s => true
    | _, _ => false
  -- engine codes 0 to 4 (11 R162)
  | .qcfg w => w.imm.toNat % 8 ≤ 4 && w.imm.toNat / 16 % 8 ≤ 4
  | .tret w | .tretSkip w => w.imm.toNat % 8 ≤ 4
  | .fork w => 1 ≤ w.cf.toNat && w.cf.toNat ≤ 4
  -- LBRK and LIDX use no offset (11 R142)
  | .lbrk w | .lidx w => w.off == 0
  -- 13 R189: SB is null exactly when the destination is a queue register
  | .ldq w => (w.dst.cls == .v && w.sb.cls == .k) || (w.dst.cls == .q && w.sb == .null)
  -- 13 R195
  | .atom w =>
    (w.sub == 9 && w.sc != .null || w.sub != 9 && w.sc == .null) &&
    (if w.sub == 10 then w.ty == .f32
     else if w.sub == 8 || w.sub == 9 then true else w.ty != .f32)
  -- 13 R198
  | .redst w => w.imm.toNat / 256 == 1 || w.imm.toNat % 4 == 0
  | .vimac w => w.sub == 0 || w.ty == .i8 || w.ty == .n8
  | .vbit w => (w.sub.toNat < 4) == (w.sb != .null)
  | .vsh w => w.sb == .null || w.imm.toNat / 256 == 0
  | .vimm w => w.ft == false && (w.ty.width == 64 || w.imm.toNat < 2 ^ w.ty.width)
  | .vcmp w => w.sub != 6 || w.ty.fmt?.isSome
  | .vmsk w =>
    let c := w.imm.toNat / 256
    (match w.sub.toNat with
     | 0 | 1 | 2 | 3 => w.dst.cls == .vm && w.sa.cls == .vm && w.sb.cls == .vm && c == 0
     | 4 | 5 => w.dst.cls == .vm && w.sa.cls == .vm && w.sb == .null && c == 0
     | 6 => w.dst.cls == .vm && w.sa == .null && w.sb == .null && c ≤ 256
     | _ => w.dst.cls == .s && w.sa.cls == .vm && w.sb == .null && c == 0)
  | .vcvt w =>
    match Ty.ofCode (w.imm.toNat / 256 % 32) with
    | some st => anyW.contains st &&
        decide (w.imm.toNat / 8192 % 4 < max st.width w.ty.width / min st.width w.ty.width) &&
        !(w.ty.width < st.width && w.dst.cls == .q)
    | none => false
  | .vqnt w => if w.ty == .b4 then w.sb.cls == .k else w.sb == .null && w.imm.toNat / 256 < 4
  | .vdq w => w.ty == .f32 || w.imm.toNat / 256 < 4
  | .vunp3 w => w.imm.toNat / 256 ≤ 205
  | .vred w =>
    let g := w.imm.toNat / 256
    1 ≤ g && g ≤ 2048 / w.ty.width && w.imm.toNat / 64 % 2 == 0 && (w.sub != 3 || w.ty.fmt?.isSome)
  | .vscan w | .vsmx w => 1 ≤ w.imm.toNat / 256 && w.imm.toNat / 256 ≤ 2048 / w.ty.width
  | .vstat w => 2 ≤ w.imm.toNat / 256 && w.imm.toNat / 256 ≤ 64
  | .vbcst w => if w.sa.cls == .s then w.imm.toNat / 256 == 0 else w.imm.toNat / 256 < 2048 / w.ty.width
  | .vsld w => w.imm.toNat / 256 ≤ 2048 / w.ty.width
  | .vmovs w =>
    w.imm.toNat / 256 < 2048 / w.ty.width &&
    (if w.sub == 0 then w.dst.cls == .s && w.sa.cls != .s else w.dst.cls == .v && w.sa.cls == .s)
  -- 15 R242: the class pairs of VMOV
  | .vmov w => match w.dst.cls, w.sa.cls, w.sb.cls, w.ty with
    | .v, .v, .null, .none | .vm, .vm, .null, .none | .q, .v, .null, .none | .q, .v, .null, .b4 => true
    | .v, .q, .null, .none | .v, .qpk, .null, .none | .v, .q, .k, .b4 | .v, .qpk, .k, .b4 => true
    | _, _, _, _ => false
  | .kadd w => w.sb == .null || w.imm.toNat % 256 == 0
  | .kfrom w => w.ty == .f32 || w.imm.toNat / 256 % 8 < 4
  | .msrc w => (w.ty == .b4) == (w.sc != .null) && (w.imm == 0 || w.ty != .i8 && w.ty != .bf16)
  | .kvapp w | .kvappBeam w => w.imm.toNat ≠ 0
  -- 17 R267 to R269: rows within the bank, registers within the file
  | .mdrain w => w.imm.toNat % 128 + w.imm.toNat / 256 % 128 + 1 ≤ 128 &&
      opndIdx w.dst + w.ty.width / 8 * (w.imm.toNat / 256 % 128 + 1) ≤ 512
  | .mzero w => w.imm.toNat % 128 + w.imm.toNat / 256 % 128 + 1 ≤ 128
  | .mload w => w.imm.toNat % 128 + w.imm.toNat / 256 % 128 + 1 ≤ 128 &&
      opndIdx w.sa + w.ty.width / 8 * (w.imm.toNat / 256 % 128 + 1) ≤ 512
  | _ => true

/-- The same non-peek queue register named twice, or a queue destination whose masked-off elements would be kept
(15 R210). -/
def queueOk (r : Row) (w : AForm) : Bool :=
  let qs := [w.dst, w.sa, w.sb, w.sc].filter fun o => o.cls == .q
  qs.Nodup && (match r.imm with
    | .vec _ _ => !(w.dst.cls == .q && w.imm.toNat / 64 % 4 == 2)
    | .bits _ => true)

/-- The operand at fault where a word breaks `extraOk` (07 R109): 0 where it is no operand's class that breaks it. -/
def extraOpnd : Instr → BitVec 4
  | .mov _ => 2
  | .ldq _ => 3
  | .atom w => if (w.sub == 9) == (w.sc != .null) then 0 else 4
  | .vbit _ => 3
  | .vmsk w =>
    if (w.dst.cls == .s) != decide (7 ≤ w.sub.toNat) then 1
    else if (w.sa == .null) != (w.sub == 6) then 2
    else if (w.sb == .null) != decide (4 ≤ w.sub.toNat) then 3
    else 0
  | .vcvt w => if w.dst.cls == .q && (match Ty.ofCode (w.imm.toNat / 256 % 32) with
      | some st => decide (w.ty.width < st.width)
      | none => false) then 1 else 0
  | .vqnt w => if (w.ty == .b4) == (w.sb.cls == .k) then 0 else 3
  | .vmovs w =>
    if (w.dst.cls == .s) != (w.sub == 0) then 1 else if (w.sa.cls == .s) == (w.sub == 0) then 2 else 0
  | .vmov w =>
    match w.dst.cls, w.sa.cls with
    | .v, .v | .vm, .vm | .q, .v => if w.sb == .null then 0 else 3
    | .v, .q | .v, .qpk => if (w.sb == .null) == (w.ty == .none) then 0 else 3
    | _, _ => 2
  | .msrc w => if (w.ty == .b4) == (w.sc != .null) then 0 else 4
  | _ => 0

/-- The operand at fault where a word breaks `queueOk`: the destination, or the later of the positions that name one queue (log 67). -/
def queueOpnd (w : AForm) : BitVec 4 :=
  if w.dst.cls == .q && !([w.sa, w.sb, w.sc].contains w.dst) then 1
  else if w.sa.cls == .q && w.sa == w.dst && !([w.sb, w.sc].contains w.sa) then 2
  else if w.sc.cls == .q && [w.dst, w.sa, w.sb].contains w.sc then 4
  else 3

/-- The guard field: GN = 1 with GP = 0 is reserved (09 R120). -/
def guardOk (gn : Bool) (gp : BitVec 3) : Bool := !gn || gp != 0

/-- The first fault of the operand positions DST, SA, SB, SC, numbered as TRAPCAUSE.OPND (07 R109). -/
def opndErr (r : Row) (dst sa sb sc : Opnd) : Option (BitVec 4) :=
  if !r.dst.contains dst.cls then some 1
  else if !r.sa.contains sa.cls then some 2
  else if !r.sb.contains sb.cls then some 3
  else if !r.sc.contains sc.cls then some 4
  else none

/-- The checks of step 3 of R126 on a Form A word, in its order: none when the word is well formed, else the operand at
fault (0 for none). -/
def errA (i : Instr) (r : Row) (w : AForm) : Option (BitVec 4) :=
  if !r.subs.contains w.sub.toNat || !guardOk w.gn w.gp then some 0
  else match opndErr r w.dst w.sa w.sb w.sc with
    | some e => some e
    | none =>
      if !(r.tys.contains w.ty && mdOk r.md w.md && immOk r.imm w.imm.toNat) then some 0
      else if !extraOk i then some (extraOpnd i)
      else if !queueOk r w then some (queueOpnd w)
      else none

/-- The checks of step 3 on a Form B word. -/
def errB (i : Instr) (r : Row) (w : BForm) : Option (BitVec 4) :=
  if !r.subs.contains w.sub.toNat || !guardOk w.gn w.gp then some 0
  else match opndErr r w.dst w.sa .null .null with
    | some e => some e
    | none => if r.tys.contains w.ty && mdOk r.md w.md && immOk r.imm w.imm.toNat && extraOk i then none else some 0

/-- The checks of step 3 on a Form C word. -/
def errC (i : Instr) (r : Row) (w : CForm) : Option (BitVec 4) :=
  if !r.subs.contains w.sub.toNat || !guardOk w.gn w.gp then some 0
  else match opndErr r w.dst w.sa .null .null with
    | some e => some e
    | none => if w.lv.toNat ≤ r.lvMax && w.cf.toNat &&& r.cfMask == w.cf.toNat && extraOk i then none else some 0

/-- What is wrong with the form of a word: none when nothing is (R126 step 3). A step of the module has no form. -/
def formErr (i : Instr) : Option (BitVec 4) :=
  match i.row, i.body with
  | some r, some (.a w) => errA i r w
  | some r, some (.b w) => errB i r w
  | some r, some (.c w) => errC i r w
  | some r, some (.p w) => errA i r w.head
  | _, _ => none

/-- A word of an engine's stream whose form breaks no rule of step 3 of R126. -/
def WellFormed (i : Instr) : Prop := i.body.isSome = true ∧ formErr i = none

end Sys2Proof
end

