-- ==== Sys2Proof/Decode.lean ====
section
/-! DEFINITION. The decoder, total on any parcels, and the encoder (09 R113 to R130). -/

namespace Sys2Proof

open Sys2Proof.Machine (Ty)

/-- Why parcels are no instruction: a reserved OPC (R127), a word that breaks its form with the operand at fault (R126 step
3), or too few parcels. -/
inductive DecodeErr where
  | opcReserved
  | form (opnd : BitVec 4)
  | short
  deriving DecidableEq, Repr

/-- An operand of its 11-bit specifier; none for a reserved specifier (R123). -/
def decodeOpnd (x : BitVec 11) : Option Opnd :=
  let n := x.toNat
  if n = 0x7FF then some .null
  else match n / 512 with
    | 0 => some (.v (BitVec.ofNat 9 n))
    | 1 => match n / 64 % 8 with
      | 0 => some (.s (BitVec.ofNat 6 n))
      | 1 => if n / 8 % 8 = 0 then some (.b (BitVec.ofNat 3 n)) else none
      | 2 => if n / 8 % 8 = 0 then some (.p (BitVec.ofNat 3 n)) else none
      | 3 => if n / 16 % 4 = 0 then some (.vm (BitVec.ofNat 4 n)) else none
      | _ => none
    | 2 => if n / 256 % 2 = 0 then some (.k (BitVec.ofNat 8 n)) else none
    | _ => if n / 16 % 16 = 0 then some (.q (decide (n / 256 % 2 = 1)) (BitVec.ofNat 4 n)) else none

/-- The specifier of an operand (R123). -/
def encodeOpnd : Opnd → Nat
  | .v i => i.toNat
  | .s i => 0x200 + i.toNat
  | .b i => 0x240 + i.toNat
  | .p i => 0x280 + i.toNat
  | .vm i => 0x2C0 + i.toNat
  | .k i => 0x400 + i.toNat
  | .q pk i => (if pk then 0x700 else 0x600) + i.toNat
  | .null => 0x7FF

/-- The form of each allocated OPC; none for a reserved OPC (R127, R128). -/
def opcForm (o : Nat) : Option (Fin 4) :=
  if o = 0x0D then none
  else if [0x02, 0x04, 0x06, 0x08, 0x09, 0x0A, 0x20].contains o then some 2
  else if [0x11, 0x14, 0x16, 0x19, 0x83].contains o then some 1
  else if [0x8F, 0xB0, 0xB9, 0xD1, 0xD5, 0xD8].contains o then some 3
  else if o ≤ 0x1D ∨ (0x20 ≤ o ∧ o ≤ 0x30) ∨ (0x40 ≤ o ∧ o ≤ 0x56) ∨ (0x70 ≤ o ∧ o ≤ 0x99) ∨
      (0xA0 ≤ o ∧ o ≤ 0xA8) ∨ (0xB0 ≤ o ∧ o ≤ 0xBA) ∨ (0xD0 ≤ o ∧ o ≤ 0xDE) then some 0
  else none

/-- Which engines accept an OPC on which kind of cluster (R128): engine 0 C, 1 L, 2 M or A, 3 V, 4 S. -/
def opcAccepted (o : Nat) (ring : Bool) (eng : Nat) : Bool :=
  if o ≤ 0x1D then true
  else if o ≤ 0x30 then eng == 0
  else if o ≤ 0x56 then
    if [0x4C, 0x4D, 0x4E, 0x51, 0x52, 0x53, 0x54].contains o then eng == 1 || eng == 4
    else if [0x40, 0x42, 0x44, 0x46, 0x48, 0x4A, 0x56].contains o then eng == 1
    else eng == 4
  else if o ≤ 0xA8 then eng == 3
  else if o ≤ 0xBA then eng == 2 && ring
  else eng == 2 && !ring

/-- OPC of a word's first three parcels. -/
def wordOpc (w : BitVec 96) : Nat := w.toNat / 2 ^ 88

/-- The fields of Form A (R119), with the operand at fault where a specifier is reserved. -/
def unpackA (n : Nat) : Except (BitVec 4) AForm :=
  match decodeOpnd (BitVec.ofNat 11 (n / 2 ^ 69)), decodeOpnd (BitVec.ofNat 11 (n / 2 ^ 58)),
      decodeOpnd (BitVec.ofNat 11 (n / 2 ^ 47)), decodeOpnd (BitVec.ofNat 11 (n / 2 ^ 36)), Ty.ofCode (n / 2 ^ 28 % 32) with
  | none, _, _, _, _ => .error 1
  | _, none, _, _, _ => .error 2
  | _, _, none, _, _ => .error 3
  | _, _, _, none, _ => .error 4
  | _, _, _, _, none => .error 0
  | some d, some a, some b, some c, some ty => .ok
    { sub := BitVec.ofNat 4 (n / 2 ^ 84), gn := decide (n / 2 ^ 83 % 2 = 1), gp := BitVec.ofNat 3 (n / 2 ^ 80)
      dst := d, sa := a, sb := b, sc := c, ft := BitVec.ofNat 3 (n / 2 ^ 33), ty := ty
      md := BitVec.ofNat 4 (n / 2 ^ 24), imm := BitVec.ofNat 24 n }

/-- The fields of Form B (R119). -/
def unpackB (n : Nat) : Except (BitVec 4) BForm :=
  match decodeOpnd (BitVec.ofNat 11 (n / 2 ^ 69)), decodeOpnd (BitVec.ofNat 11 (n / 2 ^ 58)), Ty.ofCode (n / 2 ^ 52 % 32) with
  | none, _, _ => .error 1
  | _, none, _ => .error 2
  | _, _, none => .error 0
  | some d, some a, some ty => .ok
    { sub := BitVec.ofNat 4 (n / 2 ^ 84), gn := decide (n / 2 ^ 83 % 2 = 1), gp := BitVec.ofNat 3 (n / 2 ^ 80)
      dst := d, sa := a, ft := decide (n / 2 ^ 57 % 2 = 1), ty := ty
      md := BitVec.ofNat 4 (n / 2 ^ 48), imm := BitVec.ofNat 48 n }

/-- The fields of Form C (R119). -/
def unpackC (n : Nat) : Except (BitVec 4) CForm :=
  match decodeOpnd (BitVec.ofNat 11 (n / 2 ^ 69)), decodeOpnd (BitVec.ofNat 11 (n / 2 ^ 58)) with
  | none, _ => .error 1
  | _, none => .error 2
  | some d, some a => .ok
    { sub := BitVec.ofNat 4 (n / 2 ^ 84), gn := decide (n / 2 ^ 83 % 2 = 1), gp := BitVec.ofNat 3 (n / 2 ^ 80)
      dst := d, sa := a, lv := BitVec.ofNat 3 (n / 2 ^ 55), cf := BitVec.ofNat 7 (n / 2 ^ 48), off := BitVec.ofNat 48 n }

/-- The bits common to the four forms: OPC, SUB, GN, GP, DST and SA (R119). -/
def packHead (opc : Nat) (sub : BitVec 4) (gn : Bool) (gp : BitVec 3) (dst sa : Opnd) : Nat :=
  ((((opc * 2 ^ 4 + sub.toNat) * 2 + (if gn then 1 else 0)) * 2 ^ 3 + gp.toNat) * 2 ^ 11 + encodeOpnd dst) * 2 ^ 11 +
    encodeOpnd sa

/-- A Form A word (R119). -/
def packA (opc : Nat) (w : AForm) : Nat :=
  (((((packHead opc w.sub w.gn w.gp w.dst w.sa * 2 ^ 11 + encodeOpnd w.sb) * 2 ^ 11 + encodeOpnd w.sc) * 2 ^ 3 +
    w.ft.toNat) * 2 ^ 5 + w.ty.code) * 2 ^ 4 + w.md.toNat) * 2 ^ 24 + w.imm.toNat

/-- A Form B word (R119). -/
def packB (opc : Nat) (w : BForm) : Nat :=
  (((packHead opc w.sub w.gn w.gp w.dst w.sa * 2 + (if w.ft then 1 else 0)) * 2 ^ 5 + w.ty.code) * 2 ^ 4 +
    w.md.toNat) * 2 ^ 48 + w.imm.toNat

/-- A Form C word (R119). -/
def packC (opc : Nat) (w : CForm) : Nat :=
  ((packHead opc w.sub w.gn w.gp w.dst w.sa * 2 ^ 3 + w.lv.toNat) * 2 ^ 7 + w.cf.toNat) * 2 ^ 48 + w.off.toNat

/-- The Form A instruction of an OPC and its fields (R128, R129). -/
def ofA (opc : Nat) (w : AForm) : Option Instr :=
  match opc with
  | 0x00 => some (.nop w)
  | 0x01 => some (.endI w)
  | 0x03 => some (.br w)
  | 0x05 => some (.jtab w)
  | 0x07 => some (.ret w)
  | 0x0B => some (.post w)
  | 0x0C => match w.sub.toNat with
    | 0 => some (.await w)
    | 1 => some (.awaitNb w)
    | _ => none
  | 0x0E => some (.wseg w)
  | 0x0F => some (.trapI w)
  | 0x10 => match w.sub.toNat with
    | 0 => some (.addI w)
    | 1 => some (.subI w)
    | 2 => some (.andI w)
    | 3 => some (.orI w)
    | 4 => some (.xorI w)
    | 5 => some (.shl w)
    | 6 => some (.shr w)
    | 7 => some (.sar w)
    | 8 => some (.minI w)
    | 9 => some (.maxI w)
    | 10 => some (.minn w)
    | 11 => some (.maxn w)
    | 12 => some (.clz w)
    | 13 => some (.popc w)
    | 14 => some (.bext w)
    | 15 => some (.bins w)
    | _ => none
  | 0x12 => match w.sub.toNat with
    | 0 => some (.mulI w)
    | 1 => some (.mulh w)
    | 2 => some (.mulhn w)
    | 3 => some (.madd w)
    | 4 => some (.divI w)
    | 5 => some (.divn w)
    | 6 => some (.rem w)
    | 7 => some (.remn w)
    | _ => none
  | 0x13 => some (.cmp w)
  | 0x15 => some (.sel w)
  | 0x17 => some (.mov w)
  | 0x18 => some (.plog w)
  | 0x1A => some (.spld w)
  | 0x1B => some (.spst w)
  | 0x1C => some (.getc w)
  | 0x1D => some (.setc w)
  | 0x21 => some (.rdv w)
  | 0x22 => some (.qcfg w)
  | 0x23 => some (.tspawn w)
  | 0x24 => some (.tsig w)
  | 0x25 => some (.tyield w)
  | 0x26 => some (.gbar w)
  | 0x27 => some (.gwait w)
  | 0x28 => some (.prog w)
  | 0x29 => some (.wrel w)
  | 0x2A => match w.sub.toNat with
    | 0 => some (.tret w)
    | 1 => some (.tretSkip w)
    | _ => none
  | 0x2B => some (.ctxsave w)
  | 0x2C => some (.ctxload w)
  | 0x2D => some (.lttw w)
  | 0x2E => some (.bank w)
  | 0x2F => match w.sub.toNat with
    | 0 => some (.attrSet w)
    | 1 => some (.attrClr w)
    | _ => none
  | 0x30 => match w.sub.toNat with
    | 0 => some (.halt w)
    | 1 => some (.haltGo w)
    | _ => none
  | 0x40 => some (.ld w)
  | 0x41 => some (.st w)
  | 0x42 => some (.lda w)
  | 0x43 => some (.stl w)
  | 0x44 => some (.vld w)
  | 0x45 => some (.vst w)
  | 0x46 => some (.ldq w)
  | 0x47 => some (.stq w)
  | 0x48 => some (.kld w)
  | 0x49 => some (.kst w)
  | 0x4A => some (.gath w)
  | 0x4B => some (.scat w)
  | 0x4C => some (.copy w)
  | 0x4D => some (.fill w)
  | 0x4E => some (.atom w)
  | 0x4F => some (.redst w)
  | 0x50 => some (.mcst w)
  | 0x51 => match w.sub.toNat with
    | 0 => some (.fenceAcq w)
    | 1 => some (.fenceRel w)
    | 2 => some (.fenceAr w)
    | 3 => some (.fenceSc w)
    | _ => none
  | 0x52 => some (.qfence w)
  | 0x53 => some (.qpush w)
  | 0x54 => some (.qpop w)
  | 0x55 => some (.msgsend w)
  | 0x56 => some (.pref w)
  | 0x70 => some (.vadd w)
  | 0x71 => some (.vsub w)
  | 0x72 => some (.vmul w)
  | 0x73 => some (.vfma w)
  | 0x74 => some (.vmin w)
  | 0x75 => some (.vmax w)
  | 0x76 => some (.vabs w)
  | 0x77 => some (.vdiv w)
  | 0x78 => some (.vrcp w)
  | 0x79 => some (.vrsq w)
  | 0x7A => some (.vexp w)
  | 0x7B => some (.vlog w)
  | 0x7C => some (.vact w)
  | 0x7D => some (.viadd w)
  | 0x7E => some (.visub w)
  | 0x7F => some (.vimul w)
  | 0x80 => some (.vimac w)
  | 0x81 => some (.vbit w)
  | 0x82 => some (.vsh w)
  | 0x84 => some (.vcmp w)
  | 0x85 => some (.vsel w)
  | 0x86 => some (.vmsk w)
  | 0x87 => some (.vcvt w)
  | 0x88 => some (.vrnd w)
  | 0x89 => some (.vqnt w)
  | 0x8A => some (.vdq w)
  | 0x8B => some (.vunp3 w)
  | 0x8C => some (.vtmac w)
  | 0x8D => some (.vred w)
  | 0x8E => some (.vscan w)
  | 0x90 => some (.vperm w)
  | 0x91 => some (.vbcst w)
  | 0x92 => some (.vsld w)
  | 0x93 => some (.vilv w)
  | 0x94 => some (.vxpose w)
  | 0x95 => some (.vmovs w)
  | 0x96 => some (.vsmx w)
  | 0x97 => some (.vrope w)
  | 0x98 => some (.vstat w)
  | 0x99 => some (.vmov w)
  | 0xA0 => some (.kmov w)
  | 0xA1 => match w.sub.toNat with
    | 0 => some (.kset w)
    | 1 => some (.ksetOne w)
    | 2 => some (.ksetS w)
    | _ => none
  | 0xA2 => some (.kadd w)
  | 0xA3 => match w.sub.toNat with
    | 0 => some (.kmax w)
    | 1 => some (.kmin w)
    | _ => none
  | 0xA4 => some (.ktype w)
  | 0xA5 => some (.kbind w)
  | 0xA6 => some (.kunb w)
  | 0xA7 => match w.sub.toNat with
    | 0 => some (.kgen w)
    | 1 => some (.kgenB w)
    | _ => none
  | 0xA8 => some (.kfrom w)
  | 0xB1 => some (.msrc w)
  | 0xB2 => match w.sub.toNat with
    | 0 => some (.mbselWin w)
    | 1 => some (.mbselScr w)
    | _ => none
  | 0xB3 => some (.mfmt w)
  | 0xB4 => match w.sub.toNat with
    | 0 => some (.mgo w)
    | 1 => some (.mgoGrp w)
    | _ => none
  | 0xB5 => some (.mdrain w)
  | 0xB6 => some (.mzero w)
  | 0xB7 => some (.mload w)
  | 0xB8 => some (.mrnd w)
  | 0xBA => some (.mstat w)
  | 0xD0 => some (.aqset w)
  | 0xD2 => some (.amerge w)
  | 0xD3 => some (.afin w)
  | 0xD4 => match w.sub.toNat with
    | 0 => some (.kvapp w)
    | 1 => some (.kvappBeam w)
    | _ => none
  | 0xD6 => some (.pgalloc w)
  | 0xD7 => some (.pgfree w)
  | 0xD9 => some (.pxins w)
  | 0xDA => some (.pxrel w)
  | 0xDB => match w.sub.toNat with
    | 0 => some (.bmapRo w)
    | 1 => some (.bmapSet w)
    | 2 => some (.bmapRdlo w)
    | 3 => some (.bmapRdhi w)
    | 4 => some (.bmapClr w)
    | _ => none
  | 0xDC => some (.tierin w)
  | 0xDD => some (.tierout w)
  | 0xDE => some (.seqrd w)
  | _ => none

/-- The Form B instruction of an OPC and its fields (R128, R129). -/
def ofB (opc : Nat) (w : BForm) : Option Instr :=
  match opc with
  | 0x11 => match w.sub.toNat with
    | 0 => some (.addImm w)
    | 1 => some (.subImm w)
    | 2 => some (.andImm w)
    | 3 => some (.orImm w)
    | 4 => some (.xorImm w)
    | 5 => some (.shlImm w)
    | 6 => some (.shrImm w)
    | 7 => some (.sarImm w)
    | 8 => some (.minImm w)
    | 9 => some (.maxImm w)
    | 10 => some (.minnImm w)
    | 11 => some (.maxnImm w)
    | _ => none
  | 0x14 => some (.cmpi w)
  | 0x16 => match w.sub.toNat with
    | 0 => some (.li w)
    | 1 => some (.liHi w)
    | _ => none
  | 0x19 => match w.sub.toNat with
    | 0 => some (.lea w)
    | 1 => some (.leaPc w)
    | _ => none
  | 0x83 => some (.vimm w)
  | _ => none

/-- The Form C instruction of an OPC and its fields (R128, R129). -/
def ofC (opc : Nat) (w : CForm) : Option Instr :=
  match opc with
  | 0x02 => some (.bri w)
  | 0x04 => some (.pbr w)
  | 0x06 => some (.call w)
  | 0x08 => some (.loop w)
  | 0x09 => some (.lbrk w)
  | 0x0A => some (.lidx w)
  | 0x20 => some (.fork w)
  | _ => none

/-- The Form P instruction of an OPC and its fields (R128, R129). -/
def ofP (opc : Nat) (w : PForm) : Option Instr :=
  match opc with
  | 0x8F => some (.vtopk w)
  | 0xB0 => some (.mnest w)
  | 0xB9 => some (.mgrp w)
  | 0xD1 => some (.astep w)
  | 0xD5 => some (.kvgath w)
  | 0xD8 => some (.pxlook w)
  | _ => none

/-- The number three parcels hold, parcel 0 lowest (R113). -/
def wordNat (p0 p1 p2 : Parcel) : Nat := p0.toNat + 2 ^ 32 * (p1.toNat + 2 ^ 32 * p2.toNat)

/-- The three parcels of a 96-bit number (R113). -/
def natParcels (n : Nat) : List Parcel :=
  [BitVec.ofNat 32 n, BitVec.ofNat 32 (n / 2 ^ 32), BitVec.ofNat 32 (n / 2 ^ 64)]

/-- A number of little-endian parcels. -/
def parcelsNat : List Parcel → Nat
  | [] => 0
  | p :: ps => p.toNat + 2 ^ 32 * parcelsNat ps

/-- `n` little-endian parcels of a number. -/
def toParcels : Nat → Nat → List Parcel
  | 0, _ => []
  | k + 1, n => BitVec.ofNat 32 n :: toParcels k (n / 2 ^ 32)

/-- Check a decoded instruction's form (R126 step 3). -/
def checkForm (i : Option Instr) (rest : List Parcel) : Except DecodeErr (Instr × List Parcel) :=
  match i with
  | none => .error (.form 0)
  | some i => match formErr i with
    | none => .ok (i, rest)
    | some e => .error (.form e)

/-- Decode the instruction at the head of a list of parcels, and the parcels after it. The order is that of R126: OPC, then the
form. A Form P instruction takes fifteen parcels (R121). -/
def decode : List Parcel → Except DecodeErr (Instr × List Parcel)
  | p0 :: p1 :: p2 :: rest =>
    let n := wordNat p0 p1 p2
    let opc := n / 2 ^ 88
    match opcForm opc with
    | none => .error .opcReserved
    | some 1 => match unpackB n with
      | .error e => .error (.form e)
      | .ok w => checkForm (ofB opc w) rest
    | some 2 => match unpackC n with
      | .error e => .error (.form e)
      | .ok w => checkForm (ofC opc w) rest
    | some 3 => match unpackA n with
      | .error e => .error (.form e)
      | .ok w =>
        match checkForm (ofP opc { head := w, par := 0 }) rest with
        | .error e => .error e
        | .ok _ =>
          if rest.length < 12 then .error .short
          else checkForm (ofP opc { head := w, par := BitVec.ofNat 384 (parcelsNat (rest.take 12)) }) (rest.drop 12)
    | some _ => match unpackA n with
      | .error e => .error (.form e)
      | .ok w => checkForm (ofA opc w) rest
  | _ => .error .short

/-- The parcels of a word of an engine's stream, from the same tables; a step of the module has none. -/
def encode (i : Instr) : List Parcel :=
  match i.row, i.body with
  | some r, some (.a w) => natParcels (packA r.opc w)
  | some r, some (.b w) => natParcels (packB r.opc w)
  | some r, some (.c w) => natParcels (packC r.opc w)
  | some r, some (.p w) => natParcels (packA r.opc w.head) ++ toParcels 12 w.par.toNat
  | _, _ => []

/-- Parcels of a word: 3, or 15 for a Form P (11 R141). -/
def Instr.parcels (i : Instr) : Nat :=
  match i.body with
  | some (.p _) => 15
  | _ => 3

/-- The instruction the decoder reads from bits numbered as the opcode table numbers them: the first parcel is bits 31 to 0.
The table gives these rows no bits of their own; an instruction has at most fifteen parcels, and bits above `nbits` are
zero. -/
def decodeTableWord (nbits w : Nat) : Option Instr :=
  match decode (toParcels 15 (w % 2 ^ nbits)) with
  | .ok (i, _) => some i
  | .error _ => none

end Sys2Proof
end

