-- ==== Sys2Proof/Config.lean ====
section
/-! DEFINITION. What the manual fixes once for the module, and the free values: constants with no body, of which
nothing can be proved beyond their type. -/

namespace Sys2Proof.Config

/-- Cycles in a tick (00 R6). -/
def cyclesPerTick : Nat := 64
/-- Cycles in 2 ms of the 1.05 GHz clock: the bound of 13 R183 and R200. -/
def cycles2ms : Nat := 2100000
/-- Cycles in 1 µs of the 1.05 GHz clock (00 R6). -/
def cyclesPerUs : Nat := 1050
/-- Cycles in 100 µs (27 R355). -/
def cycles100us : Nat := 105000
/-- Cycles in 1 ms (27 R364, 31 R396). -/
def cycles1ms : Nat := 1050000
/-- Ticks after which an unconsumed early signal expires (03 R48). -/
def earlyTicks : Nat := 2 ^ 22
/-- Tasks a Distributor holds in flight (03 R44). -/
def maxTasks : Nat := 512
/-- Entries of the early-signal table (03 R47). -/
def maxEarly : Nat := 64
/-- FIFO slots of a ring die (01 R17). -/
def fifoSlots : Nat := 224
/-- Bytes of a context image (29 R379). -/
def imageBytes : Nat := 4726784
/-- Bytes between ring positions of a backing image: 9 MiB (23 R328). -/
def backingStride : Nat := 9 * 1048576
/-- Nodes of a Prefix Index (25 R338). -/
def maxNodes : Nat := 1048576
/-- The number of this module in a ring of modules is the module number the record gives (31 R390). -/
def noPage : BitVec 32 := 0xFFFFFFFF

/-- FREE VALUE (log 9): what the width-tag counter ECNTW reads after counting (07 R107): the manual gives no tag policy. -/
opaque freeCount : Nat → BitVec 64
/-- FREE VALUE (log 65): whether a 32-bit lane of a register that another engine is writing reads as its new value (03 R38): of the
cycle, the reading context, the register and the lane. -/
opaque freeLane : Nat → Nat → Nat → Nat → Bool
/-- Lines of 64 bytes in a Die Cache of 64 MiB (01 R10, R17). -/
def cacheLines : Nat := 2 ^ 20
/-- FREE VALUE (log 68): which line a full Die Cache drops for a new one: no rule states it. -/
opaque freeEvict : Nat → Nat
/-- FREE VALUE (log 15): whether the attention of an A-die leaves a token out in a cycle that another A-die appended since the two last
synchronised (21 R312): of the cycle, the A-die and the token's place. -/
opaque freeToken : Nat → Nat → Nat → Bool
/-- FREE VALUE (log 17): descriptors that an initialisation writes in a cycle (25 R336 states no rate). -/
opaque freeWritten : Nat → Nat
/-- FREE VALUE (log 12): the certificate chain of the identity key, as flash holds it (31 R393). -/
opaque freeCertificate : List (BitVec 8)
/-- FREE VALUE (log 34): the MSI-X vector of a source (31 R385): die 0 to 11 or the hub (12) for an event log, 16 more for a supervisor
interrupt. -/
opaque freeVector : Nat → Nat
/-- FREE VALUE (log 28): how many modules a ring that leaves this module joins (01 R20). -/
opaque ringModules : Nat
/-- FREE VALUE (log 10): whether an aligned 8 bytes of a window being replaced is the new segment's (27 R358). -/
opaque freeNew : Nat → Bool
/-- FREE VALUE (log 11): a byte of another module's memory, read in a cycle. -/
opaque freeRemote : Nat → Nat → BitVec 8
/-- FREE VALUE (log 11): how another module answers a read that the C engine makes at once, in a cycle, of a granule. -/
opaque freeFar : Nat → Nat → Nat
/-- FREE VALUE (log 18): a byte of a unit whose stored word is uncorrectable, as a nest or an agent reads it in a cycle: the
manual states no value. -/
opaque freeBad : Nat → Nat → BitVec 8
/-- FREE VALUE (log 17): where the search for a node number for a new Prefix Index node begins (25 R338 states none). -/
opaque freeNode : Nat → Nat
/-- FREE VALUE (log 18): TRAPINFO of a trap for which the manual states no detail (07 R109). -/
opaque freeInfo : Nat → BitVec 64
/-- FREE VALUE (log 12): a measurement register extended with a digest (31 R388: SHA-512; the manual does not say what the register and
the digest are joined as). -/
opaque freeExtend : BitVec 512 → BitVec 512 → BitVec 512
/-- FREE VALUE (log 12): the signature the Hub Security Core makes over a nonce and a reply (31 R393). -/
opaque freeSignature : Nat → Nat → BitVec 1056

end Sys2Proof.Config
end

