-- ==== Sys2Proof/Machine/Map.lean ====
section
/-! DEFINITION. Sparse tables as plain data: a list of (key, value) pairs with rising keys. A key not listed
has the table's default value. -/

namespace Sys2Proof.Machine

/-- A sparse table: keys rise, an unlisted key has the default. -/
abbrev SMap (α : Type) := List (Nat × α)

/-- The value at a key; `d` for a key that is not listed. -/
def SMap.get {α : Type} (d : α) : SMap α → Nat → α
  | [], _ => d
  | (k', v) :: m, k => if k = k' then v else SMap.get d m k

/-- The entry of a key, if the key is listed. -/
def SMap.get? {α : Type} : SMap α → Nat → Option α
  | [], _ => none
  | (k', v) :: m, k => if k = k' then some v else SMap.get? m k

/-- Write a value at a key. -/
def SMap.set {α : Type} : SMap α → Nat → α → SMap α
  | [], k, v => [(k, v)]
  | (k', v') :: m, k, v =>
    if k < k' then (k, v) :: (k', v') :: m
    else if k = k' then (k, v) :: m
    else (k', v') :: SMap.set m k v

/-- Remove a key. -/
def SMap.del {α : Type} (m : SMap α) (k : Nat) : SMap α := m.filter fun e => e.1 != k

/-- Write a value and keep the canonical form: the default value is never listed. -/
def SMap.put {α : Type} [DecidableEq α] (d : α) (m : SMap α) (k : Nat) (v : α) : SMap α :=
  if v = d then SMap.del m k else SMap.set m k v

/-- Keys rise strictly. -/
def SMap.sorted {α : Type} : SMap α → Bool
  | [] => true
  | [_] => true
  | (a, _) :: (b, v) :: m => decide (a < b) && SMap.sorted ((b, v) :: m)

/-- The canonical form: keys rise strictly and no entry holds the default. -/
def SMap.wf {α : Type} [DecidableEq α] (d : α) (m : SMap α) : Bool :=
  SMap.sorted m && m.all fun e => decide (e.2 ≠ d)

end Sys2Proof.Machine
end

