-- ==== Sys2Proof/Machine/State.lean ====
section
/-! DEFINITION. The state of the module: everything spec/ gives the machine, as plain data. Where the manual states no
reset value the value here is a DESIGN CHOICE (log 2). -/

namespace Sys2Proof.Machine

/-! ### The cluster -/

/-- A window generation: ROT and tag (23 R320). -/
structure Gen where
  rot : BitVec 32
  tag : BitVec 24
  deriving DecidableEq, Repr

/-- Why a register is not full (07 R93, 13 R186): a result is on its way, or it is error-pending with the address of the
error, the engine whose access left the mark, and the target coded as in R112. -/
inductive Hold where
  | empty
  | mark (addr : BitVec 64) (eng : Nat) (tgt : Nat)
  deriving DecidableEq, Repr

/-- A binding record (07 R98). -/
structure Bind where
  kix : BitVec 8
  gen : BitVec 16
  deriving DecidableEq, Repr

/-- An entry of a queue register (07 R96). `resv` names the LDQ that has reserved it and not landed (13 R189). -/
structure QEnt where
  data : VWord
  sb : KWord
  sbv : Bool
  bind : Option Bind
  mark : Option Hold
  resv : Option Nat
  deriving DecidableEq, Repr

/-- A queue register: producer and consumer, when configured, and its entries from the head (03 R37). -/
structure QReg where
  cfg : Option (Nat × Nat)
  ents : List QEnt
  deriving DecidableEq, Repr

/-- A POST of the current cycle (11 R152): its context, the counter, the count, and whether a nest makes it
(17 R261). -/
structure Post where
  x : Nat
  n : Nat
  count : Nat
  nest : Bool
  deriving DecidableEq, Repr

/-- Bytes of an access: at byte `off` of the value, `len` bytes at physical address `pa` (virtual address `va`). -/
structure Piece where
  off : Nat
  va : Nat
  pa : Nat
  len : Nat
  deriving DecidableEq, Repr

/-- What an access of a queue does (13). Registers are physical; data of a write is captured at issue. -/
inductive MemOp where
  /-- LD, LDA (R187). -/
  | loadS (d : BitVec 6) (signed : Bool) (width : Nat)
  /-- VLD (R188), the bits of the active lanes. -/
  | loadV (d : Nat) (mask : VWord)
  /-- KLD (R191). -/
  | loadK (d : Nat)
  /-- The scale stream of an LDQ (R189). -/
  | ldqScale (k : Option Nat) (v : Option Nat)
  /-- The data stream of an LDQ; `q` for a queue destination. -/
  | ldqData (v : Option Nat) (k : Option Nat) (q : Option Nat) (scaleId : Nat)
  /-- GATH (R192): destination, mask register, lanes in bounds, element size, sign extension. -/
  | gath (d : Nat) (vm : Option Nat) (inb : BitVec 64) (sz : Nat) (signed : Bool)
  /-- ST, STL, VST, KST, a stream of STQ, SCAT, FILL, MCST: bytes to write, piece by piece. -/
  | store (bytes : List Byte)
  /-- A granule of a COPY (R194): its source, and the access of the copy's first granule. -/
  | copy (src : List Piece) (first : Nat)
  /-- ATOM (R195). -/
  | atom (d : Option (BitVec 6)) (op : Nat) (ty : Ty) (b c : Word)
  /-- REDST (R198): op, type and the source value; a piece is an element, `off` its byte offset in the value. -/
  | red (op : Nat) (ty : Ty) (val : VWord)
  /-- QPUSH (R204): predicate, entry bytes, whether the source is an s register. -/
  | qpush (p : BitVec 3) (bytes : List Byte) (fromS : Bool)
  /-- QPOP: predicate and destination. -/
  | qpop (p : BitVec 3) (toS : Bool) (d : Nat)
  /-- MSGSEND (R205): predicate, payload, module, cluster, handler. -/
  | msg (p : BitVec 3) (bytes : List Byte) (m : BitVec 6) (cl : Nat) (hnd : Parcel)
  /-- PREF (R208). -/
  | pref
  /-- A token that a KVAPP has written to a page (19 R286), not yet visible to the attention of other A-dies (21 R312). -/
  | token (page slot : Nat)
  deriving DecidableEq, Repr

/-- Whose accesses come after a store in happens-before order (21 R301): a cluster's, or those of every cluster of a die, from an issue
number on. -/
inductive Seer where
  | cluster (c from' : Nat)
  | die (t from' : Nat)
  deriving DecidableEq, Repr

/-- A store that is performed at a scope (21 R294) before its home performs it: the widest such scope, the place in the order in which stores
came to be so performed, the releases it precedes (granule, scope, cluster of each), and what comes after it (R301). -/
structure Shown where
  scope : Nat
  order : Nat
  rels : List (Nat × Nat × Nat)
  seen : List Seer
  deriving DecidableEq, Repr

/-- How an access failed (13 R183, R201, 21 R316). -/
inductive Fail where
  | deadlink | timeout | refused | other
  deriving DecidableEq, Repr

/-- An access of one of a cluster's queues (13 R184, 21 R293). -/
structure Access where
  id : Nat
  x : Nat
  que : Nat
  sec : Nat
  cyc : Nat
  op : MemOp
  /-- The address the instruction names. -/
  va : Nat
  /-- What is still to be performed, in order. -/
  pieces : List Piece
  scope : Nat
  acq : Bool
  rel : Bool
  asid : BitVec 8
  /-- The bytes a read has returned so far, by their offset in the value. -/
  data : SMap Byte
  /-- An uncorrectable error in what it read: address and target (13 R186). -/
  err : Option (BitVec 64 × Nat)
  fail : Option Fail
  /-- A store that is performed at a scope before its home performs it. -/
  vis : Option Shown
  /-- The first access of the instruction, when it is the second stream of an STQ (13 R190). -/
  first : Option Nat
  /-- The scale stream of an LDQ has landed and waits for the data (13 R189). -/
  landed : Bool
  deriving DecidableEq, Repr

/-- A QFENCE in force (13 R202), and whether it has stopped waiting for what has no answer (21 R316). -/
structure QMark where
  id : Nat
  que : Nat
  cyc : Nat
  mask : BitVec 6
  scope : Nat
  expired : Bool
  deriving DecidableEq, Repr

/-- A FENCE in progress (13 R200), and whether it has stopped waiting for the agents' operations (R316); or a TSPAWN that waits for its
cluster's earlier accesses (11 R166: kind 4). -/
structure FenceRec where
  kind : Nat
  scope : Nat
  mask : BitVec 6
  cyc : Nat
  id : Nat
  expired : Bool
  deriving DecidableEq, Repr

/-- The failure record of one queue (13 R200, R201): the stores that have failed, each named by the number of its first access, kinds, first
failing target with the cycle and order of its report. -/
structure FailRec where
  ids : List Nat
  dead : Bool
  tmo : Bool
  ref : Bool
  first : Option (Nat × Nat × Nat)
  deriving DecidableEq, Repr

/-- What lands in a register at the end of a cycle (07 R93, R95): bits written and the binding left on a v destination; or the
register becomes empty; or it becomes error-pending; or a reserved queue entry is filled (15 R210); or a control value is set. -/
inductive LandKind where
  | write (val mask : VWord) (bind : Option Bind)
  | empty
  | mark (addr : BitVec 64) (eng : Nat) (tgt : Nat)
  | push (id : Nat) (e : QEnt)
  /-- A QCFG (11 R165): producer and consumer. -/
  | cfg (p c : Nat)
  /-- A PROG (11 R170). -/
  | prog (v : BitVec 16)
  /-- A binding alone (15 R248). -/
  | rebind (b : Option Bind)
  /-- A binding to a k register at the generation it then has (15 R242). -/
  | bindGen (kix : Nat)
  /-- The head of a queue register is popped (03 R37). -/
  | pop
  /-- A SETC of VFLAGS: the bits written as 1 are cleared (11 R161, 05 R79). -/
  | clrFlags (w : BitVec 32)
  /-- A SETC of ECNTW (11 R161). -/
  | ecnt (v : BitVec 64)
  /-- A VRND (15 R229). -/
  | vmode (m : BitVec 8)
  /-- An MRND (17 R270). -/
  | mmode (m : BitVec 8)
  deriving DecidableEq, Repr

/-- A register change in flight (03 R60, R61, 07 R95): the cycle from which it is readable, context, section, destination (an
operand with a physical index), and flags. -/
structure Land where
  due : Nat
  x : Nat
  sec : Nat
  dst : Opnd
  kind : LandKind
  flags : Flags
  deriving DecidableEq, Repr

/-- A long-latency result that is no memory access (03 R62). -/
structure Pend where
  id : Nat
  x : Nat
  sec : Nat
  dst : Opnd
  val : VWord
  mask : VWord
  flags : Flags
  deriving DecidableEq, Repr

/-- The result of an A-engine word: a scalar result of that engine is another word's (19 R272). -/
def Pend.ofA (p : Pend) : Bool := p.x == 2 && (match p.dst with
  | .s _ => false
  | _ => true)

/-- A receive slot that holds a message (13 R206). -/
structure Slot where
  order : Nat
  len : Nat
  src : BitVec 22
  asid : BitVec 8
  hnd : Parcel
  started : Bool
  deriving DecidableEq, Repr

/-- Run state of a sequencer context (03 R32, 29 R366). -/
inductive Run where
  | idle | running | arrived | trapped | dormant
  deriving DecidableEq, Repr

/-- A section header as read (09 R116), with its key word. -/
structure Header where
  len : Nat
  aft : List (BitVec 10)
  exposed : Bool
  key : Option (BitVec 24 × BitVec 32 × Nat)
  deriving DecidableEq, Repr

/-- A KVAPP that waits for its page to come in (19 R286), with all it has read: its issue number and word, whether it is the beam form,
the Beam Map entry's number and NB, the page, the page allocated for its copy, the checked parts of the row entry when it will be written,
the position and the token image; `fork`: the entry with its fork to make, the checked parts of SPARE and the NB entries read; `moved`: it
has started the move that it waits for. -/
structure Append where
  id : Nat
  cyc : Nat
  word : AForm
  isBeam : Bool
  entry : Option Nat
  page : Nat
  copy : Option Nat
  row : Nat
  rowParts : Option (List Piece)
  blk : Nat
  slot : Nat
  img : List Byte
  fork : Option (BitVec 128 × List Piece × List Byte) := none
  moved : Bool := false
  deriving DecidableEq, Repr

/-- How the section of a header stands to its key (23 R324): it has none; it waits for the key; it waits in rotate; or the key has been
judged, with the p7 that the section starts with. -/
inductive KeyState where
  | free
  | waits
  | rotate
  | judged (p7 : Bool)
  deriving DecidableEq, Repr

/-- Where a context stands: about to reach a header, waiting to start the section of one, in a body, waiting for
acceptance of a transfer (the accesses, whether it is a group store, what a refusal restores, and the queue registers to pop), in a FENCE, held by the delay of a BR, in a WSEG wait, waiting for a shoot-down, at a POST that
completes at the end of the cycle (11 R152), or at a BANKCTL write that waits for pending results (07 R105), with the fields it writes, or
at a KVAPP that waits for its page. -/
inductive Phase where
  | header
  | start (h : Header) (f : Parcel) (key : KeyState)
  | body
  | accept (a : List Access) (grp : Bool) (undo : List (Opnd × Option Hold)) (pops : List Opnd)
  | fence (f : FenceRec)
  | brWait (left : Nat)
  | wseg (rot : Bool)
  | shoot (d : Option (BitVec 6)) (homes : List Nat) (late : Bool)
  | post
  | bank (v mask : BitVec 64)
  | kvapp (r : Append)
  deriving DecidableEq, Repr

/-- An entry of the loop stack (11 R147). -/
structure LoopEnt where
  index : BitVec 32
  limit : BitVec 32
  start : Parcel
  stop : Parcel
  deriving DecidableEq, Repr

/-- What a handler context runs for: a message in a slot, or a trapped engine (13 R206, 29 R368), with the ASID. -/
structure Hnd where
  slot : Option Nat
  eng : Option Nat
  asid : BitVec 8
  /-- The engine has not resumed from the trap the handler was started for (29 R369). -/
  still : Bool
  deriving DecidableEq, Repr

/-- One sequencer context: an engine (0 to 4), or a handler context of the C engine (5, 6). -/
structure Ctx where
  run : Run
  phase : Phase
  pc : Parcel
  secF : Parcel
  secE : Nat
  exposed : Bool
  lastMode : Option Bool
  next : Nat
  last : Option Nat
  openSecs : List Nat
  inSec : Bool
  forked : Bool
  loops : List LoopEnt
  vrb : BitVec 32
  p : BitVec 8
  b : SMap Parcel
  bAge : SMap Nat
  s : SMap Word
  sHold : SMap Hold
  cause : BitVec 32
  tpc : BitVec 32
  tinfo : BitVec 64
  tgt : Nat
  /-- Stopped at a pre-emption point (11 R150, 29 R377). -/
  stopped : Bool
  /-- The model's own: the context has tried to issue in this cycle, and waits (13 R207, 29 R377). -/
  blocked : Bool
  hnd : Option Hnd
  deriving DecidableEq, Repr

/-- A level of the nest table (17 R258). -/
structure Level where
  count : Nat
  astr : BitVec 32
  bstr : BitVec 32
  cend : BitVec 32
  deriving DecidableEq, Repr

/-- The set-up of the M engine that an MGO copies (17 R250, R255 to R259). -/
structure MSet where
  aset : Bool
  abase : Word
  ars : Word
  ascl : Option Word
  afmt : Ty
  aax : Bool
  scr : Bool
  bbase : Word
  bw : Word
  bscl : Option Word
  sfmt : Word
  levels : List Level
  rows : Nat
  grp : List (BitVec 64)
  deriving DecidableEq, Repr

/-- A nest in the M command queue (17 R251, R260): its copy, where it was issued, steps run. -/
structure Nest where
  id : Nat
  cyc : Nat
  pc : Parcel
  sec : Nat
  bank : Nat
  set : MSet
  fmts : BitVec 64
  groups : List (Nat × Nat × Nat × Nat)
  mode : BitVec 8
  gen : Option Gen
  step : Nat
  running : Bool
  deriving DecidableEq, Repr

/-- An MDRAIN or MLOAD moving rows, or an MZERO, whose rows are set in one cycle (17 R267 to R269); `cyc` its issue cycle. -/
structure Mover where
  id : Nat
  cyc : Nat
  sec : Nat
  bank : Nat
  row0 : Nat
  n : Nat
  done : Nat
  regs : List Nat
  ty : Ty
  sat : Bool
  mode : BitVec 8
  zero : Bool
  load : Bool
  atOnce : Bool
  vals : List VWord
  deriving DecidableEq, Repr

/-- A dropped nest whose STALEBIND is unreported (17 R265). -/
structure Drop where
  id : Nat
  bank : Nat
  pc : Parcel
  tag : BitVec 24
  deriving DecidableEq, Repr

/-- The M engine (17). -/
structure MEng where
  acc : SMap (BitVec 32)
  set : MSet
  flags : Flags
  miss : Bool
  abort : Bool
  steps : BitVec 32
  nests : List Nest
  movers : List Mover
  drop : List Drop
  /-- The flags raised in the current cycle, with MISS in bit 7 and ABORT in bit 8 (05 R79, 17 R271). -/
  fresh : BitVec 9
  deriving DecidableEq, Repr

/-- The A engine's set-up (19 R272, R276): the context record, the query buffer, the score constant. -/
structure AEng where
  isSet : Bool
  rcd : BitVec 512
  buf : SMap Byte
  c : BitVec 32
  deriving DecidableEq, Repr

/-- A cluster. -/
structure Cluster where
  v : SMap VWord
  bind : SMap Bind
  k : SMap KWord
  kgen : SMap (BitVec 16)
  vm : SMap MWord
  hold : SMap Hold
  q : SMap QReg
  ev : SMap (BitVec 16)
  posts : List Post
  vflags : BitVec 32
  bankctl : BitVec 64
  waking : BitVec 32
  vmode : BitVec 8
  mmode : BitVec 8
  progc : BitVec 16
  ecntw : BitVec 64
  /-- A lane of a v register has been accessed since ECNTW was last set or read (07 R107). -/
  vAcc : Bool
  task : Option (BitVec 1024)
  tid : BitVec 32
  /-- Halted by an escalation, a swap, a loss of the die or the thermal halt (29 R369, R382). -/
  halted : Bool
  /-- Halted by HALT, until HALT.go (11 R173). -/
  byHalt : Bool
  saving : Bool
  /-- Halted by SWAPOUT, until SWAPIN is done (29 R382). -/
  swapped : Bool
  traps : List Nat
  slots : SMap Slot
  spill : SMap Byte
  land : List Land
  pend : List Pend
  mq : List Access
  qf : List QMark
  fails : SMap FailRec
  m : MEng
  a : AEng
  ctx : SMap Ctx
  issued : List Nat
  /-- The context of the C engine that issued last, in the round of 13 R207. -/
  lastC : Nat
  deriving DecidableEq, Repr

/-! ### Dies -/

/-- Where a task in flight stands (03, 29). -/
inductive Place where
  | waiting
  | running (c : Nat)
  | saving (c : Nat) (yield : Bool)
  | saved (slot : Nat)
  deriving DecidableEq, Repr

/-- A task in flight (03 R44 to R57). -/
structure Task where
  tid : BitVec 32
  rcd : BitVec 1024
  seq : Nat
  waits : List Nat
  cnt : Nat
  released : Bool
  ready : Option (Nat × Nat)
  place : Place
  issued : Nat
  xst : Bool
  wrel : Bool
  holds : Option Gen
  /-- The generations the task is marked missed for (23 R323). -/
  missed : List Gen
  deadline : BitVec 64
  /-- The cluster the task ran on last (03 R55). -/
  ranOn : Option Nat
  /-- Place in the order in which the Distributor issued tasks (29 R374). -/
  issueNo : Nat
  /-- Of a restartable task: its cluster's SRAM as it stood at issue (29 R376, Discard). -/
  sram : SMap Byte
  deriving DecidableEq, Repr

/-- An early-signal entry (03 R47): count and the tick it was created. -/
structure Early where
  count : Nat
  tick : Nat
  deriving DecidableEq, Repr

/-- The actions of the estimator (29 R376). -/
inductive PreAct where
  | drain | discard | save
  deriving DecidableEq, Repr

/-- What a Distributor is doing to a team (29 R374 to R377); `noDrain` for a supervisor's SAVE (R372). -/
structure Preempt where
  team : BitVec 16
  act : PreAct
  noDrain : Bool
  since : Nat
  deriving DecidableEq, Repr

/-- A reissue-safe task's range that the master keeps (03 R49). -/
structure Kept where
  die : Nat
  tid : BitVec 32
  rcd : BitVec 1024
  first : BitVec 64
  count : BitVec 64
  /-- The master that published it: the hub core of a submission, else the Distributor (07 R112). -/
  src : Nat
  deriving DecidableEq, Repr

/-- A saved context: its image as sparse bytes (29 R379), and the state of the task the image has no field for: sequencer state,
failure records of the queues, MSTAT's steps, and the trapped engines that wait for the task trap handler (log 20). -/
structure Saved where
  img : SMap Byte
  ctxs : SMap Ctx
  fails : SMap FailRec
  steps : BitVec 32
  traps : List Nat
  deriving DecidableEq, Repr

/-- A Distributor. -/
structure Dist where
  tasks : List Task
  early : SMap Early
  nseq : Nat
  norder : Nat
  pre : Option Preempt
  shadow : SMap Saved
  kept : List Kept
  /-- Parts of launches and reissues that wait until this Distributor can take them (03 R49, R50). -/
  todo : List Kept
  master : Nat
  /-- A-die only: the timing source (none: the even ring die of its station), whether no ring die qualifies, and the values
  then held (03 R52). -/
  src : Option Nat
  held : Bool
  hframe : BitVec 48
  htick : BitVec 12
  hrot : BitVec 32
  deriving DecidableEq, Repr

/-- A segment: header, image and plane as sparse bytes (23 R317), its ring position and the 8-byte units an error struck. -/
structure Seg where
  pos : Nat
  tag : BitVec 24
  len : Nat
  splen : Nat
  fmt : BitVec 64
  first : Bool
  bytes : SMap Byte
  bad : SMap Bool
  /-- Lost: the Forwarder must fetch it again before the fill (23 R325). -/
  lost : Bool
  /-- The cycle in which the Forwarder started to forward it (21 R297). -/
  moved : Nat
  deriving DecidableEq, Repr

/-- A line of the Die Cache (27 R363): granule, bytes, lease end, home. -/
structure Line where
  gran : Nat
  bytes : List Byte
  leaseEnd : Nat
  home : Nat
  deriving DecidableEq, Repr

/-- A keyed task that held a stalled frame: task, source of its SLIP, ticks over, and whether it holds still (03 R55). -/
structure Staller where
  tid : BitVec 32
  src : Nat
  ticks : Nat
  holding : Bool
  deriving DecidableEq, Repr

/-- A ring die: Escapement, Ring Forwarder and Die Cache (23, 27 R363). -/
structure Ring where
  slackMax : BitVec 16
  flenMin : BitVec 12
  flen : BitVec 12
  slack : BitVec 16
  starveN : BitVec 16
  stall : Bool
  starve : Bool
  tick : BitVec 12
  frame : BitVec 48
  /-- Ticks of 64 cycles that have ended (00 R6), and the count at which the ring was started. -/
  ticks : Nat
  since : Nat
  run : Bool
  rcap : Bool
  nseg : BitVec 20
  succMod : BitVec 6
  succD : BitVec 3
  hbto : BitVec 16
  bkbase : BitVec 52
  bypass : BitVec 8
  rot : BitVec 32
  lastOut : BitVec 20
  lastIn : BitVec 20
  repairing : Bool
  halted : Bool
  haltNext : Bool
  win : Option Seg
  inWin : Bool
  incoming : Option Seg
  /-- Released buffers that wait to be forwarded, oldest first. -/
  fwd : List Seg
  /-- Segments forwarded that have not arrived at the successor. -/
  onWay : List Seg
  fifo : List Seg
  fmts : BitVec 64
  stallers : List Staller
  /-- Lost ring positions still to be written to this die's FIFO tail (23 R326). -/
  lost : List Nat
  lines : List Line
  deriving DecidableEq, Repr

/-- A page descriptor (25 R332). -/
structure Desc where
  addr : BitVec 52
  seq : BitVec 32
  refc : BitVec 32
  fill : Nat
  tier : Nat
  out : Bool
  rev : Bool
  ro : Bool
  shared : Bool
  pinned : Bool
  intree : Bool
  free : Bool
  node : BitVec 32
  deriving DecidableEq, Repr

/-- A completion a tier request wants (19 R291): queue descriptor (0 for none), ASID, direction. -/
structure TierReq where
  queue : BitVec 64
  asid : BitVec 8
  toIn : Bool
  cl : Nat
  deriving DecidableEq, Repr

/-- A tier move in flight (19 R291, 25 R341). -/
structure Move where
  page : Nat
  cyc : Nat
  toIn : Bool
  frame : BitVec 52
  reqs : List TierReq
  rev : List TierReq
  /-- Nothing moves: the page is at its target, and only the completions are pushed, in their turn (21 R309). -/
  still : Bool
  /-- The copy engine performs it: it may end although the engine has been frozen since (29 R370). -/
  going : Bool
  deriving DecidableEq, Repr

/-- A node of the Prefix Index (25 R338); no parent: a child of the root of `ns`. -/
structure PNode where
  ns : BitVec 32
  parent : Option Nat
  toks : BitVec 1024
  page : Nat
  stamp : BitVec 48
  hash : BitVec 64
  deriving DecidableEq, Repr

/-- A pool of frames: base, size, the frames the list was made with, the frames given back (last first, each with the issue number from
which A-engine instructions no longer hold it, 19 R273) and the next that was never taken (25 R336). -/
structure Pool where
  base : BitVec 52
  nf : Nat
  cap : Nat
  back : List (BitVec 52 × Nat)
  fresh : Nat
  deriving DecidableEq, Repr

/-- An A-die (19, 25). -/
structure ADie where
  privBase : BitVec 52
  en : Bool
  big : Bool
  ndesc : Nat
  initing : Bool
  hbm : Pool
  cxl : Pool
  wmark : Nat
  rsv : Nat
  desc : SMap Desc
  /-- The descriptors the free list was made with, those given back as frames are, and the next that was never taken. -/
  dcap : Nat
  dback : List (Nat × Nat)
  dfresh : Nat
  nodes : SMap PNode
  touch : BitVec 48
  moves : List Move
  beam : SMap (BitVec 128)
  /-- Tokens, by page and slot, that other A-dies have appended since this one last synchronised with them (21 R312). -/
  unseen : List (Nat × Nat)
  /-- Descriptors that the initialisation has written so far (25 R336). -/
  written : Nat
  rspDone : Bool
  rspOk : Bool
  rspRes : BitVec 32
  deriving DecidableEq, Repr

/-- A supervisor command that is not done (29 R372). -/
inductive SupCmd where
  | kill (c : Nat)
  | save (team : BitVec 16)
  | swapout
  | swapin
  deriving DecidableEq, Repr

/-- A supervisor block with its event log (29 R371, R373). -/
structure Sup where
  frz : BitVec 32
  esc : BitVec 32
  agfrz : Bool
  rspDone : Bool
  rspOk : Bool
  rspRes : BitVec 32
  evBase : BitVec 52
  lost : BitVec 16
  depth : BitVec 4
  wr : BitVec 20
  rd : BitVec 20
  cmd : Option SupCmd
  /-- The entries that reached the event arbiter in this cycle, in the order it accepts them (01 R27). -/
  evq : List (List Byte)
  /-- The clusters of the die whose images stand swapped out, with the record of the task of each (29 R382). -/
  swap : SMap (Option (BitVec 1024))
  /-- Tasks of the Distributor with a lower sequence number were swapped out (29 R382). -/
  swapSeq : Nat
  deriving DecidableEq, Repr

/-! ### The module -/

/-- An entry of the group table (03 R42). -/
structure Group where
  mask : BitVec 320
  phase : BitVec 16
  arrived : Nat
  marks : BitVec 320
  deriving DecidableEq, Repr

/-- One direction of a link (27 R346 to R355). -/
structure LinkDir where
  sent : List (BitVec 16)
  lastf : List (BitVec 16)
  freed : List (BitVec 16)
  /-- Flits sent under each of the two key banks. -/
  fcnt : List Nat
  kg : Bool
  rekey : Bool
  newFlits : Nat
  /-- The headers of the flits that the receiver has asked to have again, the first asked first. -/
  replay : List (BitVec 128)
  deriving DecidableEq, Repr

/-- A link (27 R356). -/
structure Link where
  tagFail : BitVec 16
  nrekey : BitVec 16
  peer : BitVec 6
  locked : Bool
  dead : Bool
  up : Bool
  lostAt : Option Nat
  lastFlit : Nat
  d0 : LinkDir
  d1 : LinkDir
  deriving DecidableEq, Repr

/-- The power states of 31 R396. -/
inductive Power where
  | p0 | p1 | h | s | off
  deriving DecidableEq, Repr

/-- A reply of the SPDM responder (31 R393). -/
inductive Reply where
  | certificate (chain : List Byte)
  | challenge (nonce : Nat) (sig : BitVec 1056)
  | measurements (nonce : Nat) (vals : List (BitVec 512)) (sig : BitVec 1056)
  | session (nonce : Nat) (sig : BitVec 1056)
  deriving DecidableEq, Repr

/-- The hub (01, 27, 31). -/
structure Hub where
  modNo : BitVec 6
  supv : BitVec 16
  shape : BitVec 2
  sup : BitVec 64
  capptr : BitVec 32
  caps : List (BitVec 64)
  hostBase : BitVec 8
  hostEn : Bool
  rsn0 : BitVec 8
  rsn1 : BitVec 8
  mgmt : BitVec 8
  stage : BitVec 4
  ms : Bool
  booted : Bool
  bank : Bool
  tcrit : BitVec 8
  twarn : BitVec 8
  maxcl : BitVec 6
  capw : BitVec 16
  lease : BitVec 10
  /-- Earlier values of LEASE, each with the cycle of the write that replaced it (27 R364). -/
  oldLeases : List (BitVec 10 × Nat)
  gwroute : SMap (BitVec 4)
  gwrmt : SMap (BitVec 4)
  gwmask : SMap (BitVec 64)
  gwval : SMap Bool
  flash0 : Option FlashBank
  flash1 : Option FlashBank
  svn : Nat
  meas : List (BitVec 512)
  recDigest : BitVec 512
  replies : List Reply
  /-- The identity key's certificate chain, in flash (31 R393). -/
  cert : List Byte
  /-- Messages that each MSI-X vector has sent (31 R385). -/
  msix : SMap Nat
  power : Power
  coresRun : BitVec 16
  irq : BitVec 16
  shadowBase : SMap (BitVec 52)
  notified : Bool
  /-- In state H: every die has cooled below TWARN (31 R396). -/
  cool : Bool
  /-- S was entered from H, which holds still (31 R396). -/
  hot : Bool
  /-- The ATTR.clr requests of masters that are no clusters' engines: the homes that have not answered, and whether one ended on its lease;
  by hub core, 16 and more by module (27 R365). -/
  clears : SMap (List Nat × Bool)
  /-- The fences that hub cores have in progress, with the cycle in which each was issued (21 R293). -/
  fences : SMap Nat
  /-- A-dies whose hub link failed at boot: they stay in reset (31 R394). -/
  held : BitVec 4
  /-- Every member that the module's ring has in other modules reports RUN (31 R394). -/
  farRun : Bool
  deriving DecidableEq, Repr

/-- How the last bus request of a hub core, the host or another module ended (31 R385, 27 R351). -/
inductive BusRes where
  | none
  | done (data : List Byte)
  | refused
  | readOnly
  | failed
  | unsupported
  /-- A submission found its Distributor full (03 R44). -/
  | busy
  deriving DecidableEq, Repr

/-- A shoot-down at a home (27 R365): first granule and count, cycle of step 1, dies that must answer, dies that have, the lease,
and the waiting context. -/
structure Shoot where
  home : Nat
  gran : Nat
  n : Nat
  start : Nat
  need : List Nat
  lease : Nat
  c : Nat
  x : Nat
  /-- It is the request of an ATTR.set to a home in another module (11 R177). -/
  grant : Bool := false
  deriving DecidableEq, Repr

/-- The next thing that happens (the model's own, log 1): a context issues its next word or header, or an event. -/
inductive Turn where
  | issue (c x : Nat)
  | event (i : Instr)
  deriving DecidableEq, Repr

/-- The state of the module. -/
structure State where
  /-- The model's own: what happens next, in order (log 1). -/
  turns : List Turn
  /-- The model's own: counter that free values are applied to (log 9). -/
  free : Nat
  /-- The model's own: number of the next access or result (log 6). -/
  seq : Nat
  /-- The model's own: the issuing cluster and context (log 1). -/
  cur : Nat × Nat
  cycle : BitVec 64
  /-- The model's own: the PCIe port makes the access, as hub core 0 (31 R385, log 34). -/
  host : Bool
  /-- The model's own: the measurements still to come, oldest first, of the average power over 1 ms and of the temperature of the hottest die
  in it, which P1_ENTRY and P1_EXIT read (31 R396, log 38). -/
  meter : List (BitVec 16 × BitVec 8)
  /-- The answer to the last request from outside (a hub core's registers are not part of the model, log 21). -/
  bus : BusRes
  mem : List Host.Cell
  bad : SMap Bool
  ro : SMap Bool
  shoots : List Shoot
  ltt : SMap (BitVec 128)
  /-- LTTW writes of the current cycle, which lookups see from the next (27 R360). -/
  lttNew : List (Nat × BitVec 128)
  access : SMap (BitVec 4)
  groups : SMap Group
  cxl : SMap (List (Nat × Nat))
  clusters : SMap Cluster
  rings : SMap Ring
  adies : SMap ADie
  dists : SMap Dist
  sups : SMap Sup
  links : SMap Link
  hub : Hub
  deriving DecidableEq, Repr

/-- There is no fault: every error the manual describes is a next state. The type has one name for a state that no step reaches.
Safe: nothing raises it. -/
inductive Fault where
  | none
  deriving DecidableEq, Repr

/-- Why an instruction has no meaning here. -/
inductive Refusal where
  /-- Raised by the arm of an instruction the model does not cover. Safe: the run stops. -/
  | notModelled (mnemonic : String)
  deriving DecidableEq, Repr

/-! ### Reset (the values the manual states, and those of log 2) -/

/-- A context at reset. -/
def Ctx.reset : Ctx :=
  { run := .idle, phase := .header, pc := 0, secF := 0, secE := 0, exposed := false, lastMode := none, next := 0
    last := none, openSecs := [], inSec := false, forked := false, loops := [], vrb := 0, p := 0, b := []
    bAge := [], s := [], sHold := [], cause := 0, tpc := 0, tinfo := 0, tgt := 0xFF, stopped := false, blocked := false, hnd := none }

/-- The M engine's set-up at task start (17 R250). -/
def MSet.reset : MSet :=
  { aset := false, abase := 0, ars := 0, ascl := none, afmt := .none, aax := false, scr := false, bbase := 0, bw := 256
    bscl := none, sfmt := 0, levels := List.replicate 6 { count := 1, astr := 0, bstr := 0, cend := 0 }, rows := 128, grp := [] }

/-- The M engine at task start (17 R250). -/
def MEng.reset : MEng :=
  { acc := [], set := MSet.reset, flags := 0, miss := false, abort := false, steps := 0, nests := [], movers := [], drop := [], fresh := 0 }

/-- The A engine at task start (19 R272). -/
def AEng.reset : AEng := { isSet := false, rcd := 0, buf := [], c := 0 }

/-- A cluster at reset. -/
def Cluster.reset : Cluster :=
  { v := [], bind := [], k := [], kgen := [], vm := [], hold := [], q := [], ev := [], posts := [], vflags := 0, bankctl := 0
    waking := 0, vmode := 1, mmode := 1, progc := 0, ecntw := 0, vAcc := false, task := none, tid := 0, halted := false, byHalt := false, saving := false
    swapped := false, traps := [], slots := [], spill := [], land := [], pend := [], mq := [], qf := [], fails := []
    m := MEng.reset, a := AEng.reset, ctx := [], issued := [], lastC := 6 }

/-- A Distributor at reset. -/
def Dist.reset : Dist :=
  { tasks := [], early := [], nseq := 0, norder := 0, pre := none, shadow := [], kept := [], todo := [], master := 0, src := none, held := false
    hframe := 0, htick := 0, hrot := 0 }

/-- A ring die at reset (23 R329). -/
def Ring.reset : Ring :=
  { slackMax := 0, flenMin := 35, flen := 36, slack := 0, starveN := 0, stall := false, starve := false, tick := 0, frame := 0
    ticks := 0, since := 0, run := false, rcap := false, nseg := 0, succMod := 0, succD := 0, hbto := 64, bkbase := 0, bypass := 0, rot := 0
    lastOut := 0, lastIn := 0, repairing := false, halted := false, haltNext := false, win := none, inWin := false
    incoming := none, fwd := [], onWay := [], fifo := [], fmts := 0, stallers := [], lost := [], lines := [] }

/-- A descriptor of all zero bytes. -/
def Desc.zero : Desc :=
  { addr := 0, seq := 0, refc := 0, fill := 0, tier := 0, out := false, rev := false, ro := false, shared := false
    pinned := false, intree := false, free := false, node := 0 }

/-- A frame pool at reset. -/
def Pool.reset : Pool := { base := 0, nf := 0, cap := 0, back := [], fresh := 0 }

/-- An A-die at reset (25 R343). -/
def ADie.reset : ADie :=
  { privBase := 0, en := false, big := false, ndesc := 0, initing := false, hbm := Pool.reset, cxl := Pool.reset, wmark := 0
    rsv := 0, desc := [], dcap := 0, dback := [], dfresh := 0, nodes := [], touch := 0, moves := [], beam := [], unseen := [], written := 0, rspDone := true
    rspOk := false, rspRes := 0 }

/-- A supervisor block at reset (29 R371). -/
def Sup.reset : Sup :=
  { frz := 0, esc := 0, agfrz := false, rspDone := true, rspOk := false, rspRes := 0, evBase := 0, lost := 0, depth := 0
    wr := 0, rd := 0, cmd := none, evq := [], swap := [], swapSeq := 0 }

/-- A group entry at reset. -/
def Group.reset : Group := { mask := 0, phase := 0, arrived := 0, marks := 0 }

/-- A link direction at reset. -/
def LinkDir.reset : LinkDir :=
  { sent := [0, 0, 0, 0], lastf := [0, 0, 0, 0], freed := [0, 0, 0, 0], fcnt := [0, 0], kg := false, rekey := false, newFlits := 0
    replay := [] }

/-- A link at reset (27 R356). -/
def Link.reset : Link :=
  { tagFail := 0, nrekey := 0, peer := 0, locked := false, dead := false, up := false, lostAt := none, lastFlit := 0
    d0 := LinkDir.reset, d1 := LinkDir.reset }

/-- The hub at reset (01 R21, 27 R364, 31). -/
def Hub.reset : Hub :=
  { modNo := 0, supv := 0, shape := 0, sup := 0, capptr := 0, caps := [], hostBase := 0, hostEn := false, rsn0 := 0, rsn1 := 0
    mgmt := 0, stage := 0, ms := false, booted := false, bank := false, tcrit := 105, twarn := 95, maxcl := 32, capw := 6200
    lease := 1000, oldLeases := [], gwroute := [], gwrmt := [], gwmask := [], gwval := [], flash0 := none
    flash1 := none, svn := 0, meas := [0, 0, 0, 0, 0], recDigest := 0, replies := [], cert := [], msix := [], power := .p0, coresRun := 0, irq := 0
    shadowBase := [], notified := false, cool := false, hot := false, clears := [], fences := [], held := 0, farRun := false }

/-- The module right after reset. -/
def State.reset : State :=
  { turns := [], free := 0, seq := 0, cur := (0, 0), cycle := 0, host := false, meter := [], bus := .none, mem := [], bad := [], ro := [], shoots := [], ltt := [], lttNew := []
    access := [], groups := [], cxl := [], clusters := [], rings := [], adies := [], dists := [], sups := [], links := []
    hub := Hub.reset }

end Sys2Proof.Machine
end

