-- ==== Sys2Proof/Machine/CfgRead.lean ====
section
/-! DEFINITION. Accessors of the state, little-endian bytes, and what hub configuration space reads (00 R7): every register of every
block, the capability list, the access tables and the group table. -/

namespace Sys2Proof.Machine

/-! ### Accessors -/

/-- Cluster c (01 R14). -/
def State.cl (s : State) (c : Nat) : Cluster := SMap.get Cluster.reset s.clusters c
def State.setCl (s : State) (c : Nat) (k : Cluster) : State := { s with clusters := SMap.set s.clusters c k }
def State.modCl (s : State) (c : Nat) (f : Cluster → Cluster) : State := s.setCl c (f (s.cl c))
/-- Context x of a cluster: engine 0 to 4, or handler context 5 or 6. -/
def Cluster.cx (k : Cluster) (x : Nat) : Ctx := SMap.get Ctx.reset k.ctx x
def Cluster.setCx (k : Cluster) (x : Nat) (e : Ctx) : Cluster := { k with ctx := SMap.set k.ctx x e }
def Cluster.modCx (k : Cluster) (x : Nat) (f : Ctx → Ctx) : Cluster := k.setCx x (f (k.cx x))
def State.modCx (s : State) (c x : Nat) (f : Ctx → Ctx) : State := s.modCl c fun k => k.modCx x f
/-- The issuing cluster and context. -/
def State.me (s : State) : Cluster := s.cl s.cur.1
def State.ctx (s : State) : Ctx := s.me.cx s.cur.2
def State.modMe (s : State) (f : Cluster → Cluster) : State := s.modCl s.cur.1 f
def State.modCtx (s : State) (f : Ctx → Ctx) : State := s.modCx s.cur.1 s.cur.2 f
def State.ring (s : State) (d : Nat) : Ring := SMap.get Ring.reset s.rings d
def State.modRing (s : State) (d : Nat) (f : Ring → Ring) : State := { s with rings := SMap.set s.rings d (f (s.ring d)) }
def State.adie (s : State) (n : Nat) : ADie := SMap.get ADie.reset s.adies n
def State.modADie (s : State) (n : Nat) (f : ADie → ADie) : State := { s with adies := SMap.set s.adies n (f (s.adie n)) }
def State.dist (s : State) (t : Nat) : Dist := SMap.get Dist.reset s.dists t
def State.modDist (s : State) (t : Nat) (f : Dist → Dist) : State := { s with dists := SMap.set s.dists t (f (s.dist t)) }
def State.sup (s : State) (t : Nat) : Sup := SMap.get Sup.reset s.sups t
def State.modSup (s : State) (t : Nat) (f : Sup → Sup) : State := { s with sups := SMap.set s.sups t (f (s.sup t)) }
def State.link (s : State) (i : Nat) : Link := SMap.get Link.reset s.links i
def State.modLink (s : State) (i : Nat) (f : Link → Link) : State := { s with links := SMap.set s.links i (f (s.link i)) }
def State.modHub (s : State) (f : Hub → Hub) : State := { s with hub := f s.hub }
def State.group (s : State) (i : Nat) : Group := SMap.get Group.reset s.groups i

/-- A ring cluster (01 R14). -/
def isRing (c : Nat) : Bool := decide (c < 256)
/-- The die a cluster sits on, coded as TARGET of R112: 0 to 7 ring dies, 8 to 11 A-dies. -/
def dieOf (c : Nat) : Nat := if c < 256 then c / 32 else 8 + (c - 256) / 16
/-- A cluster's number within its die. -/
def localOf (c : Nat) : Nat := if c < 256 then c % 32 else (c - 256) % 16
/-- Clusters on a die. -/
def clustersOn (t : Nat) : Nat := if t < 8 then 32 else 16
/-- The module-wide number of cluster i of die t. -/
def clusterNo (t i : Nat) : Nat := if t < 8 then t * 32 + i else 256 + (t - 8) * 16 + i
/-- Every cluster of a die. -/
def dieClusters (t : Nat) : List Nat := (List.range (clustersOn t)).map (clusterNo t)
/-- The engine a context belongs to. -/
def engOf (x : Nat) : Nat := if x ≥ 5 then 0 else x
/-- The master ID of a context (01 R24). -/
def masterOf (c x : Nat) : Nat := c * 8 + engOf x
/-- The place of a context in the order of 11 R152: C task, handler 0, handler 1, then the other engines. -/
def orderOf (x : Nat) : Nat := if x = 0 then 0 else if x ≥ 5 then x - 4 else x + 2

/-! ### Bytes -/

/-- n little-endian bytes of a number (00 R4). -/
def natBytes : Nat → Nat → List Byte
  | 0, _ => []
  | n + 1, v => BitVec.ofNat 8 v :: natBytes n (v / 256)

/-- The number little-endian bytes hold. -/
def bytesNat : List Byte → Nat
  | [] => 0
  | b :: bs => b.toNat + 256 * bytesNat bs

/-- Element i of w bits of a register value (15 R209). -/
def elemOf (w i x : Nat) : Nat := (x >>> (w * i)) % 2 ^ w
/-- The number whose w-bit elements are listed, element 0 first. -/
def packElems (w : Nat) : List Nat → Nat
  | [] => 0
  | e :: es => e % 2 ^ w + 2 ^ w * packElems w es

/-! ### Partitions and supervisors (01 R19, R21) -/

/-- Ring dies in a partition. -/
def partSize (shape : BitVec 2) : Nat := if shape = 1 then 4 else if shape = 2 then 2 else 8
/-- The partition of die t (an A-die's is its station's). -/
def State.partOf (s : State) (t : Nat) : Nat := (if t < 8 then t else 2 * (t - 8)) / partSize s.hub.shape
/-- The ring of die d's partition leaves the module; a split module joins no ring of modules (01 R20). -/
def State.ringSpans (s : State) (d : Nat) : Bool :=
  partSize s.hub.shape == 8 && (List.range 8).any fun e => s.partOf e == s.partOf d && (s.ring e).nseg != 0 && (s.ring e).succMod != s.hub.modNo

/-- The ring of die d runs. One that leaves the module starts only when every member has RUN set, those of other modules by their report (31
R394, log 28). -/
def State.ringOn (s : State) (d : Nat) : Bool :=
  let runs (e : Nat) : Bool := (s.ring e).run || (List.range 8).any fun f => (s.ring f).bypass.getLsbD e
  (s.ring d).run && !(s.ring d).halted && (!s.ringSpans d || ((List.range 8).all runs && s.hub.farRun))

/-- The lowest set bit below n. -/
def lowBit (x : Nat) : Nat → Option Nat
  | 0 => none
  | n + 1 => match lowBit x n with
    | some i => some i
    | none => if x.testBit n then some n else none
/-- The supervisor of a partition. -/
def State.superOf (s : State) (p : Nat) : Option Nat :=
  lowBit (s.hub.supv.toNat &&& (s.hub.sup.toNat >>> (16 * p)) % 2 ^ 16) 16
/-- The supervisor core of the partition that owns die t. -/
def State.superOfDie (s : State) (t : Nat) : Option Nat := s.superOf (s.partOf t)

/-! ### The page allocator's counts (25 R336) -/

/-- Free frames of a pool. -/
def Pool.free (p : Pool) : Nat := p.back.length + (p.cap - p.fresh)
/-- Descriptors on the free list. -/
def ADie.freeDescs (a : ADie) : Nat := a.dback.length + (a.dcap - a.dfresh)

/-! ### What configuration space reads -/

/-- A field at a bit position. -/
def fieldAt (pos v : Nat) : Nat := v * 2 ^ pos
/-- A flag at a bit position. -/
def flagAt (pos : Nat) (b : Bool) : Nat := if b then 2 ^ pos else 0

/-- WSTATE (23 R329). -/
def Ring.wstate (r : Ring) : Nat := if !r.run then 0 else if !r.inWin then 1 else if r.stall then 3 else 2

/-- A ring die's block (23 R329); WTAG reads 0 while no window is open (log 72). -/
def Ring.readReg (r : Ring) (o : Nat) : Nat :=
  if o = 0 then fieldAt 32 r.slackMax.toNat + fieldAt 16 r.flenMin.toNat + r.flen.toNat
  else if o = 8 then fieldAt 48 r.slack.toNat + fieldAt 16 r.starveN.toNat + flagAt 15 r.stall + flagAt 14 r.starve + r.tick.toNat
  else if o = 0x10 then r.frame.toNat
  else if o = 0x20 then flagAt 63 r.run + flagAt 62 r.rcap + fieldAt 32 r.nseg.toNat + fieldAt 20 r.succMod.toNat +
    fieldAt 16 r.succD.toNat + r.hbto.toNat
  else if o = 0x28 then r.bkbase.toNat
  else if o = 0x30 then fieldAt 32 (match r.win with | some w => if r.inWin then w.tag.toNat else 0 | none => 0) +
    fieldAt 16 r.fifo.length + flagAt 3 r.repairing + flagAt 2 r.halted + r.wstate
  else if o = 0x38 then r.rot.toNat
  else if o = 0x40 then r.bypass.toNat
  else if o = 0x48 then fieldAt 32 r.lastOut.toNat + r.lastIn.toNat
  else 0

/-- The pool register of a pool (25 R343). -/
def Pool.reg (p : Pool) : Nat := fieldAt 40 p.nf + p.base.toNat / 65536

/-- An A-die's block (25 R343). While the lists are being initialised FREED counts the descriptors written so far (R336). -/
def ADie.readReg (a : ADie) (o : Nat) : Nat :=
  if o = 0 then a.privBase.toNat
  else if o = 8 then flagAt 63 a.en + flagAt 32 a.big + a.ndesc
  else if o = 0x10 then a.hbm.reg
  else if o = 0x18 then a.cxl.reg
  else if o = 0x20 then fieldAt 24 a.wmark + a.rsv
  else if o = 0x28 then fieldAt 40 a.hbm.free + fieldAt 16 a.cxl.free
  else if o = 0x30 then fieldAt 32 a.nodes.length + (if a.initing then a.written else a.freeDescs)
  else if o = 0x40 then flagAt 63 a.rspDone + flagAt 62 a.rspOk + a.rspRes.toNat
  else 0

/-- A supervisor block (29 R371). -/
def Sup.readReg (b : Sup) (t o : Nat) : Nat :=
  if o = 0 then b.frz.toNat
  else if o = 0x28 then b.evBase.toNat
  else if o = 0x30 then fieldAt 48 b.lost.toNat + fieldAt 40 b.depth.toNat + fieldAt 20 b.wr.toNat + b.rd.toNat
  else if t = 12 then 0
  else if o = 8 then b.esc.toNat
  else if o = 0x10 then flagAt 0 b.agfrz
  else if o = 0x20 then flagAt 63 b.rspDone + flagAt 62 b.rspOk + b.rspRes.toNat
  else 0

/-- LNKSTAT (27 R356); KG and REKEY are those of the direction from the end that the table of R356 names first. -/
def Link.readReg (l : Link) : Nat :=
  fieldAt 48 l.tagFail.toNat + fieldAt 16 l.nrekey.toNat + fieldAt 8 l.peer.toNat + flagAt 4 l.d0.kg + flagAt 3 l.d0.rekey +
    flagAt 2 l.locked + flagAt 1 l.dead + flagAt 0 l.up

/-- PARTCFG (01 R21). -/
def State.partcfg (s : State) : Nat :=
  fieldAt 16 s.hub.supv.toNat + ((List.range (8 / partSize s.hub.shape)).map fun p => flagAt (8 + p) (s.superOf p).isSome).sum +
    s.hub.shape.toNat

/-- BOOTSTAT (31 R389). -/
def Hub.bootstat (h : Hub) : Nat :=
  fieldAt 24 h.rsn1.toNat + fieldAt 16 h.rsn0.toNat + fieldAt 8 h.mgmt.toNat + fieldAt 4 h.stage.toNat + flagAt 2 h.ms +
    flagAt 1 h.booted + flagAt 0 h.bank

/-- An access-table entry (01 R25). -/
def State.permits (s : State) (t m : Nat) : BitVec 4 :=
  SMap.get (if (0xA00 ≤ m ∧ m ≤ 0xA0F) ∨ m = 0xA20 then 0xF else 0) s.access (t * 4096 + m)

/-- The 64 bytes of a group entry (03 R42). -/
def Group.word (g : Group) : Nat := g.mask.toNat + fieldAt 320 g.phase.toNat + fieldAt 336 g.arrived

/-- The 8 bytes at an 8-byte aligned offset of hub configuration space. -/
def State.cfgWord (s : State) (o : Nat) : BitVec 64 :=
  BitVec.ofNat 64 (
    if 0x200000 ≤ o ∧ o < 0x20E000 then
      packElems 8 ((List.range 8).map fun i => (s.permits ((o - 0x200000) / 4096) ((o - 0x200000) % 4096 + i)).toNat)
    else if 0x100000 ≤ o ∧ o < 0x1C0000 then
      (SMap.get 0 s.ltt ((o - 0x100000) / 16)).toNat / 256 ^ (o % 16)
    else if 0x210000 ≤ o ∧ o < 0x214000 then (s.group ((o - 0x210000) / 64)).word / 256 ^ (o % 64)
    else if o = 0x10 then s.hub.capptr.toNat
    else if 0x10000 ≤ o ∧ o < 0x10800 then (s.ring ((o - 0x10000) / 256)).readReg (o % 256)
    else if 0x10800 ≤ o ∧ o < 0x10C00 then (s.adie ((o - 0x10800) / 256)).readReg (o % 256)
    else if o = 0x10F00 then s.hub.lease.toNat
    else if 0x11000 ≤ o ∧ o < 0x113E0 then (if o % 16 = 0 then (s.link ((o - 0x11000) / 16)).readReg else 0)
    else if 0x12400 ≤ o ∧ o < 0x12600 then (SMap.get 0 s.hub.gwroute ((o - 0x12400) / 8)).toNat
    else if 0x12800 ≤ o ∧ o < 0x12A00 then (SMap.get 0 s.hub.gwrmt ((o - 0x12800) / 8)).toNat
    else if 0x12C00 ≤ o ∧ o < 0x13000 then
      (if o % 16 = 0 then (SMap.get 0 s.hub.gwmask ((o - 0x12C00) / 16)).toNat
       else flagAt 0 (SMap.get false s.hub.gwval ((o - 0x12C00) / 16)))
    else if 0x13000 ≤ o ∧ o < 0x13D00 then (s.sup ((o - 0x13000) / 256)).readReg ((o - 0x13000) / 256) (o % 256)
    else if o = 0x14000 then fieldAt 40 s.hub.tcrit.toNat + fieldAt 32 s.hub.twarn.toNat + fieldAt 16 s.hub.maxcl.toNat + s.hub.capw.toNat
    else if o = 0x14008 then s.hub.bootstat
    else if o = 0x14010 then fieldAt 1 s.hub.hostBase.toNat + flagAt 0 s.hub.hostEn
    else if o = 0x14018 then s.partcfg
    else if o = 0x14020 then s.hub.sup.toNat
    else if s.hub.capptr ≠ 0 ∧ s.hub.capptr.toNat ≤ o then (s.hub.caps.getD ((o - s.hub.capptr.toNat) / 8) 0).toNat
    else 0)

/-- A byte of hub configuration space. -/
def State.cfgByte (s : State) (o : Nat) : Byte := ((s.cfgWord (o - o % 8)) >>> (8 * (o % 8))).setWidth 8

/-- The 32 bytes of a page descriptor (25 R332). -/
def Desc.bytes (d : Desc) : List Byte :=
  natBytes 8 d.addr.toNat ++ natBytes 4 d.seq.toNat ++ natBytes 4 d.refc.toNat ++ natBytes 1 d.fill ++
    natBytes 1 (d.tier + flagAt 2 d.out + flagAt 3 d.rev) ++
    natBytes 1 (flagAt 0 d.ro + flagAt 1 d.shared + flagAt 2 d.pinned + flagAt 3 d.intree + flagAt 4 d.free) ++
    natBytes 1 0 ++ natBytes 4 d.node.toNat ++ natBytes 8 0

/-- A free page's descriptor (25 R333, R336). -/
def Desc.freePage : Desc := { Desc.zero with free := true, node := 0xFFFFFFFF }
/-- Descriptor i of an A-die. -/
def ADie.descOf (a : ADie) (i : Nat) : Desc := SMap.get Desc.freePage a.desc i

/-- A byte of an A-die's private region, at an offset from PRIVBASE (25 R332): the node store reads zero. -/
def ADie.privByte (a : ADie) (o : Nat) : Byte :=
  if o < 2 ^ 28 then 0 else ((a.descOf ((o - 2 ^ 28) / 32)).bytes).getD (o % 32) 0

end Sys2Proof.Machine
end

