-- ==== Sys2Proof/Machine/Ops.lean ====
section
/-! DEFINITION. The named operations over the state: memory, translation, event logs, taking a trap and
returning from one, and the sequencer's steps that instructions share. -/

namespace Sys2Proof.Machine

abbrev Out := Host.Outcome State Fault Refusal

/-! ### The task record (03 R39) -/

/-- n bytes at offset o of a little-endian block. -/
def field {w : Nat} (r : BitVec w) (o n : Nat) : Nat := (r.toNat >>> (8 * o)) % 2 ^ (8 * n)
def recTid (r : BitVec 1024) : BitVec 32 := BitVec.ofNat 32 (field r 0 4)
def recTeam (r : BitVec 1024) : BitVec 16 := BitVec.ofNat 16 (field r 4 2)
def recPrio (r : BitVec 1024) : Nat := field r 6 1 / 64
def recRst (r : BitVec 1024) : Bool := field r 6 1 / 32 % 2 == 1
def recSafe (r : BitVec 1024) : Bool := field r 6 1 / 16 % 2 == 1
def recKeyed (r : BitVec 1024) : Bool := field r 6 1 / 8 % 2 == 1
def recDepn (r : BitVec 1024) : Nat := field r 7 1
def recParam (r : BitVec 1024) : BitVec 64 := BitVec.ofNat 64 (field r 8 8)
def recKey (r : BitVec 1024) : BitVec 24 := BitVec.ofNat 24 (field r 0x10 4)
def recRelt (r : BitVec 1024) : Nat := field r 0x14 2
def recGval (r : BitVec 1024) : Nat := field r 0x16 1
def recAsid (r : BitVec 1024) : BitVec 8 := BitVec.ofNat 8 (field r 0x17 1)
def recDeadline (r : BitVec 1024) : BitVec 64 := BitVec.ofNat 64 (field r 0x18 8)
def recEntry (r : BitVec 1024) (e : Nat) : Parcel := BitVec.ofNat 32 (field r (0x20 + 4 * e) 4)
def recGroup (r : BitVec 1024) (i : Nat) : Nat := field r (0x34 + i) 1
def recClaff (r : BitVec 1024) : Nat := field r 0x78 2
/-- Range i of the read (w = false) or write ranges: first granule and number of granules. -/
def recRange (r : BitVec 1024) (w : Bool) (i : Nat) : Nat × Nat :=
  let v := field r ((if w then 0x58 else 0x38) + 8 * i) 8
  (v / 2 ^ 20, v % 2 ^ 20)

/-- The record of the task a cluster runs; all zero when it runs none. -/
def Cluster.rec0 (k : Cluster) : BitVec 1024 := k.task.getD 0
/-- The ASID a context runs in (03 R39, 13 R206, 29 R368). -/
def Cluster.asid (k : Cluster) (x : Nat) : BitVec 8 :=
  match (k.cx x).hnd with
  | some h => h.asid
  | none => recAsid k.rec0

/-! ### The physical map (27 R357) and the access tables (01 R25) -/

/-- The target of a module address, coded as TARGET of R112; none when it is unbacked. -/
def targetA (cxl : SMap (List (Nat × Nat))) (a : Nat) : Option Nat :=
  let r := a / 2 ^ 42
  if r = 0 then (if a < 2 ^ 38 then some 12 else none)
  else if r = 1 then
    let o := a - 2 ^ 42
    if o % 2 ^ 40 < 2 ^ 38 then some (8 + o / 2 ^ 40) else none
  else if r < 6 then
    if (SMap.get [] cxl (r - 2)).any fun x => decide (x.1 ≤ a) && decide (a < x.1 + x.2) then some (8 + (r - 2)) else none
  else if r = 6 then
    let d := (a - 6 * 2 ^ 42) / 2 ^ 32
    let o := a % 2 ^ 32
    if d < 8 then (if o < 2 ^ 27 ∨ (2 ^ 31 ≤ o ∧ o < 2 ^ 31 + 80 * 2 ^ 20) then some d else none)
    else if d < 12 then (if o < 2 ^ 26 then some d else none)
    else none
  else if r = 7 then (if a - 7 * 2 ^ 42 < 2 ^ 24 then some 13 else none)
  else none

/-- First pseudo address of the window of ring die 0: the window has no physical address (R357), so reads of its aperture use
numbers above every physical address. -/
def winBase : Nat := 2 ^ 52
/-- A pseudo address of a window. -/
def isWin (pa : Nat) : Bool := decide (winBase ≤ pa)

/-- This module's physical address of a module address. -/
def State.here (s : State) (a : Nat) : Nat := s.hub.modNo.toNat * 2 ^ 46 + a
/-- The address lies in another module (27 R361). -/
def State.isFar (s : State) (pa : Nat) : Bool := !isWin pa && pa / 2 ^ 46 != s.hub.modNo.toNat

/-- The target of a physical address of this module. -/
def State.target (s : State) (pa : Nat) : Option Nat :=
  if isWin pa then some ((pa - winBase) / 2 ^ 32) else targetA s.cxl (pa % 2 ^ 46)

/-- TARGET of R112 for an address: module number and target. -/
def State.targetCode (s : State) (pa : Nat) : Nat :=
  if s.isFar pa then pa / 2 ^ 46 * 256 + (targetA s.cxl (pa % 2 ^ 46)).getD 0xFF
  else s.hub.modNo.toNat * 256 + (s.target pa).getD 0xFF

/-- First byte of a cluster's SRAM (R357). -/
def sramBase (c : Nat) : Nat := 6 * 2 ^ 42 + dieOf c * 2 ^ 32 + localOf c * 2 ^ 22
/-- First byte of a ring die's stacked scratch. -/
def scratchBase (d : Nat) : Nat := 6 * 2 ^ 42 + d * 2 ^ 32 + 2 ^ 31

/-- The private region of A-die n (25 R332). -/
def State.inPriv (s : State) (n pa : Nat) : Bool :=
  let a := s.adie n
  decide (a.privBase.toNat ≤ pa) && decide (pa < a.privBase.toNat + 2 ^ 28 + a.ndesc * 32)

/-- Access-table bits (01 R25). -/
def bitR : BitVec 4 := 1
def bitW : BitVec 4 := 2
def bitA : BitVec 4 := 4
def bitM : BitVec 4 := 8

/-- A hub application core (01 R24). -/
def isCore (m : Nat) : Bool := decide (0xA00 ≤ m) && decide (m ≤ 0xA0F)
/-- The access tables in configuration space (01 R25). -/
def inTables (o : Nat) : Bool := decide (0x200000 ≤ o) && decide (o < 0x20E000)

/-- A target of this module lets master m make an access of kind `bit` at pa: its table; on an A-die, the private region, which hub
cores may read (25 R332); in configuration space, the access tables, which only hub masters write (01 R25). -/
def State.mayAccess (s : State) (m : Nat) (bit : BitVec 4) (pa : Nat) : Bool :=
  match s.target pa with
  | none => true
  | some t => s.permits t m &&& bit == bit &&
      (if isWin pa then true
       else if 8 ≤ t ∧ t < 12 then !s.inPriv (t - 8) pa || (isCore m && bit == bitR)
       else if t = 13 then bit == bitR || isCore m || m == 0xA20 || !inTables (pa % 2 ^ 24)
       else true)

/-! ### Translation (27 R358 to R360) -/

/-- What an LTT entry does with a virtual address: physical address and WP; none when it is inert or does not match. -/
def lttMatch (e : BitVec 128) (asid : BitVec 8) (va : Nat) : Option (Nat × Bool) :=
  let n := e.toNat
  let sz := bitsNat n 118 115
  let vb := bitsNat n 98 64
  let pb := bitsNat n 51 21
  if bitsNat n 127 127 = 1 ∧ bitsNat n 126 119 = asid.toNat ∧ sz ≤ 9 ∧ bitsNat n 113 99 = 0 ∧ bitsNat n 63 52 = 0 ∧
      bitsNat n 20 0 = 0 ∧ vb % 2 ^ sz = 0 ∧ pb % 2 ^ sz = 0 ∧ vb / 2 ^ 27 ≠ 0xFF ∧ va / 2 ^ (21 + sz) = vb / 2 ^ sz then
    some (pb * 2 ^ 21 + va % 2 ^ (21 + sz), bitsNat n 114 114 == 1)
  else none

/-- The lowest-numbered matching entry among those listed. -/
def lttFind (asid : BitVec 8) (va : Nat) : SMap (BitVec 128) → Option (Nat × Bool)
  | [] => none
  | (_, e) :: es => match lttMatch e asid va with
    | some r => some r
    | none => lttFind asid va es

/-- The LTT of a die. -/
def State.lttOf (s : State) (t : Nat) : SMap (BitVec 128) := s.ltt.filter fun e => e.1 / 4096 == t

/-- An address of a local aperture (27 R358): physical address, and whether it is the window, which is read only. -/
def State.aperture (s : State) (c va : Nat) : Option (Nat × Bool) :=
  let o := va % 2 ^ 48
  let a := o / 2 ^ 32
  let x := o % 2 ^ 32
  let t := dieOf c
  if a = 0 then (if x < 2 ^ 22 then some (s.here (sramBase c + x), false) else none)
  else if a = 1 then
    (if x / 2 ^ 22 < clustersOn t then some (s.here (sramBase (clusterNo t (x / 2 ^ 22)) + x % 2 ^ 22), false) else none)
  else if a = 2 then (if t < 8 ∧ x < 80 * 2 ^ 20 then some (s.here (scratchBase t + x), false) else none)
  else if a = 3 then
    match (s.ring t).win with
    | some w => if t < 8 ∧ x < w.len then some (winBase + t * 2 ^ 32 + x, true) else none
    | none => none
  else none

/-- Translate a virtual address for a cluster in an ASID (27 R360, R350): physical address and whether writes through it trap
ROWRITE; none is UNMAPPED. -/
def State.translate (s : State) (c : Nat) (asid : BitVec 8) (va : Nat) : Option (Nat × Bool) :=
  if va / 2 ^ 48 = 0xFF then s.aperture c va
  else if va ≥ 2 ^ 56 then none
  else match lttFind asid va (s.lttOf (dieOf c)) with
    | none => none
    | some (pa, wp) =>
      if s.isFar pa then (if (SMap.get 0 s.hub.gwroute (pa / 2 ^ 46)).toNat ≥ 8 then some (pa, wp) else none)
      else if (s.target pa).isSome then some (pa, wp) else none

/-! ### Memory -/

/-- A byte of a segment held in a window buffer: image byte x (23 R317). -/
def Seg.image (w : Seg) (x : Nat) : Byte := SMap.get 0 w.bytes (0x100 + x)

/-- A byte of the window aperture (27 R358): once the released buffer has been forwarded, each aligned 8 bytes is the old or the new segment's
(free, log 10). -/
def State.winByte (s : State) (d x : Nat) : Byte :=
  let r := s.ring d
  match r.win with
  | none => 0
  | some w =>
    if r.inWin || !r.fwd.isEmpty then w.image x
    else match r.incoming.orElse fun _ => r.fifo.head? with
      | some nw => if Config.freeNew (s.cycle.toNat * 2 ^ 20 + x / 8) then nw.image x else w.image x
      | none => w.image x

/-- An address of hub configuration space (27 R357). -/
def isCfg (pa : Nat) : Bool := pa % 2 ^ 46 / 2 ^ 42 == 7
/-- The A-die whose HBM or CXL memory holds an address of this module (27 R357). -/
def pageDieAt (pa : Nat) : Option Nat :=
  match pa % 2 ^ 46 / 2 ^ 42 with
  | 0 => none
  | 1 => some (pa % 2 ^ 42 / 2 ^ 40)
  | r => if r < 6 then some (r - 2) else none
/-- The A-die in whose private region an address lies, in its HBM or its CXL memory (25 R332, R343). -/
def State.privAt (s : State) (pa : Nat) : Option Nat := (pageDieAt pa).filter fun n => s.inPriv n pa

/-- An address of this module's memory proper: not a window's, another module's, configuration space's, or one of a private region of
the page arbiter (25 R332). -/
def State.isMem (s : State) (pa : Nat) : Bool :=
  !isWin pa && !s.isFar pa && !isCfg pa && (s.privAt pa).isNone

/-- The byte at an address: of this module's memory, of the window, of configuration space, of a private region, or (a free value) of
another module's memory. -/
def State.byte (s : State) (pa : Nat) : Byte :=
  if isWin pa then s.winByte ((pa - winBase) / 2 ^ 32) (pa % 2 ^ 32)
  else if s.isFar pa then Config.freeRemote s.cycle.toNat pa
  else if isCfg pa then s.cfgByte (pa % 2 ^ 24)
  else match s.privAt pa with
    | some n => (s.adie n).privByte (pa - (s.adie n).privBase.toNat)
    | none => SMap.get 0 s.mem pa

/-- n bytes from an address. -/
def State.bytes (s : State) (pa n : Nat) : List Byte := (List.range n).map fun i => s.byte (pa + i)

/-- A byte of n bytes at pa lies in a unit whose stored word is uncorrectable (13 R186). -/
def State.badAt (s : State) (pa n : Nat) : Bool :=
  if isWin pa then
    match (s.ring ((pa - winBase) / 2 ^ 32)).win with
    | some w => w.bad.any fun u => decide (u.1 * 8 < 0x100 + pa % 2 ^ 32 + n) && decide (0x100 + pa % 2 ^ 32 < u.1 * 8 + 8)
    | none => false
  else s.bad.any fun u => decide (u.1 * 8 < pa + n) && decide (pa < u.1 * 8 + 8)

/-- The memory after one byte is written: canonical, an unlisted byte reads zero (log 3). -/
def memPut (m : List Host.Cell) (pa : Nat) (b : Byte) : List Host.Cell := SMap.put 0 m pa b

/-- Memory in its canonical form: rising addresses, no entry that reads as an unlisted address does. -/
def Memory.wf (m : List Host.Cell) : Bool := SMap.wf 0 m

/-- The memory after bytes are written from an address up. -/
def memWrite : List Host.Cell → Nat → List Byte → List Host.Cell
  | m, _, [] => m
  | m, pa, b :: bs => memWrite (memPut m pa b) (pa + 1) bs

/-- The RO bit of an address's granule (27 R362). -/
def State.isRo (s : State) (pa : Nat) : Bool := SMap.get false s.ro (pa / 4096)

/-- The memory after the bytes that `keep` lets through are written. -/
def memWriteIf (keep : Nat → Bool) : List Host.Cell → Nat → List Byte → List Host.Cell
  | m, _, [] => m
  | m, pa, b :: bs => memWriteIf keep (if keep pa then memPut m pa b else m) (pa + 1) bs

/-- Write bytes from an address up (13 R186): a unit that is uncorrectable and only partly covered is not written, one that is
covered becomes good. A granule that is read-only is written by no agent (21 R315). Answers whether no unit stood in the way. A write to
another module, or to configuration space, leaves this
module's memory alone. -/
def State.store (s : State) (pa : Nat) (bs : List Byte) : State × Bool :=
  if !s.isMem pa then (s, true)
  else
    let hi := pa + bs.length
    let part := s.bad.filter fun u => decide (u.1 * 8 < hi) && decide (pa < u.1 * 8 + 8) &&
      !(decide (pa ≤ u.1 * 8) && decide (u.1 * 8 + 8 ≤ hi))
    let keep := fun a => !(part.any fun u => u.1 == a / 8) && !s.isRo a
    ({ s with
        mem := memWriteIf keep s.mem pa bs
        bad := s.bad.filter fun u => !(decide (pa ≤ u.1 * 8) && decide (u.1 * 8 + 8 ≤ hi)) || s.isRo (u.1 * 8) }, part.isEmpty)

/-- Write a number in n bytes. -/
def State.storeNat (s : State) (pa n v : Nat) : State := (s.store pa (natBytes n v)).1

/-! ### Event logs (29 R373) and fault records (07 R112) -/

/-- The event log of die t (12 for the hub's) takes an entry, or drops it when the log is full. -/
def State.logNow (s : State) (t : Nat) (entry : List Byte) : State :=
  let p := s.sup t
  let size := 64 * 2 ^ p.depth.toNat
  let nx := (p.wr.toNat + 1) % size
  if nx = p.rd.toNat then s.modSup t fun p => { p with lost := if p.lost = 0xFFFF then p.lost else p.lost + 1 }
  else (s.store (p.evBase.toNat + p.wr.toNat * 64) entry).1.modSup t fun p => { p with wr := BitVec.ofNat 20 nx }

/-- The place of an entry among those of one cycle (01 R27, 23 R327): its kind (fault record, MISSLOG, SLIP, tier-miss, REPAIR), then its
source. -/
def eventRank (entry : List Byte) : Nat :=
  (entry.getD 0 0).toNat * 65536 + (entry.getD 2 0).toNat + (entry.getD 3 0).toNat * 256

/-- Insert an entry behind those of a cycle that do not go after it. -/
def insertEvent (entry : List Byte) : List (List Byte) → List (List Byte)
  | [] => [entry]
  | x :: xs => if eventRank entry < eventRank x then entry :: x :: xs else x :: insertEvent entry xs

/-- An entry reaches the event arbiter of die t, which accepts the entries of one cycle in the order of 01 R27: they enter the log at the
end of the cycle. -/
def State.logEvent (s : State) (t : Nat) (entry : List Byte) : State :=
  s.modSup t fun p => { p with evq := insertEvent entry p.evq }

/-- The PCIe port sends the MSI-X message of a source (31 R385): the manual does not say which vector is whose (log 34). -/
def State.msi (s : State) (n : Nat) : State :=
  let v := Config.freeVector n % 64
  s.modHub fun h => { h with msix := SMap.put 0 h.msix v (SMap.get 0 h.msix v + 1) }

/-- The entries of the cycle enter the log of die t, and the event log's interrupt is sent. -/
def State.writeEvents (s : State) (t : Nat) : State :=
  if (s.sup t).evq.isEmpty then s
  else ((s.sup t).evq.foldl (fun s e => s.logNow t e) (s.modSup t fun p => { p with evq := [] })).msi t

/-- Trap and fault causes (07 R111). -/
inductive Cause where
  | illegal | engMismatch | priv | qOver | qUnder | feEmpty | bankOff | staleBind | unmapped | misalign | refused | roWrite
  | atomPath | shape | segMiss | evOver | loopOver | swTrap | eccFatal | groupMem | param | haltPwr | earlyExp | cfgIgn
  | taskRef | dieTask
  deriving DecidableEq, Repr

/-- The code of a cause (07 R111). -/
def Cause.code : Cause → Nat
  | .illegal => 0x01 | .engMismatch => 0x02 | .priv => 0x03 | .qOver => 0x04 | .qUnder => 0x05 | .feEmpty => 0x06
  | .bankOff => 0x07 | .staleBind => 0x08 | .unmapped => 0x09 | .misalign => 0x0A | .refused => 0x0B | .roWrite => 0x0C
  | .atomPath => 0x0D | .shape => 0x0E | .segMiss => 0x0F | .evOver => 0x11 | .loopOver => 0x12 | .swTrap => 0x13
  | .eccFatal => 0x14 | .groupMem => 0x16 | .param => 0x17 | .haltPwr => 0x18 | .earlyExp => 0x19 | .cfgIgn => 0x1A
  | .taskRef => 0x1B | .dieTask => 0x1C

/-- A fault record (07 R112). -/
structure Fault.Rec where
  cause : Nat
  src : Nat
  tid : Nat
  addr : Nat
  pc : Nat
  target : Nat
  flg : Nat
  info : Nat
  asid : Nat
  deriving DecidableEq, Repr

/-- The 64 bytes of a fault record. -/
def Fault.Rec.bytes (r : Fault.Rec) (stamp : Nat) : List Byte :=
  natBytes 1 1 ++ natBytes 1 r.cause ++ natBytes 2 r.src ++ natBytes 4 r.tid ++ natBytes 8 stamp ++ natBytes 8 r.addr ++
    natBytes 4 r.pc ++ natBytes 2 r.target ++ natBytes 2 r.flg ++ natBytes 8 r.info ++ natBytes 1 r.asid ++ natBytes 23 0

/-- A fault record enters the event arbiter of die t. -/
def State.logFault (s : State) (t : Nat) (r : Fault.Rec) : State := s.logEvent t (r.bytes s.cycle.toNat)

/-- A record with no task, address, instruction or target. -/
def Fault.Rec.plain (c : Cause) (src : Nat) : Fault.Rec :=
  { cause := c.code, src := src, tid := 0, addr := 0, pc := 0xFFFFFFFF, target := 0xFF, flg := 0, info := 0, asid := 0 }

/-- A hub write that is ignored or refused (07 R111, CFGIGN): offset `off` of the hub configuration space. -/
def State.cfgIgnoredBy (s : State) (master off : Nat) : State :=
  s.logFault 12 { Fault.Rec.plain .cfgIgn master with
    addr := off, target := s.hub.modNo.toNat * 256 + 13 }
def State.cfgIgnored (s : State) (core off : Nat) : State := s.cfgIgnoredBy (0xA00 + core) off

/-! ### Freezing, trapping, escalating (01 R26, 29 R366 to R370) -/

/-- A frozen cluster (01 R26). -/
def State.frozen (s : State) (c : Nat) : Bool := (s.sup (dieOf c)).frz.getLsbD (localOf c)

/-- A target refuses an access of a context (01 R26): the fault record enters the target's arbiter (of another module: there, 27 R351) and
the cluster is frozen. -/
def State.refuse (s : State) (c x : Nat) (tgt : Nat) (va : Nat) (pc : Nat) : State :=
  let k := s.cl c
  let fresh := !s.frozen c
  let t := tgt % 256
  let s := if tgt % 65536 / 256 ≠ s.hub.modNo.toNat then s else s.logFault (if t < 12 then t else 12)
    { cause := Cause.refused.code, src := masterOf c x, tid := k.tid.toNat, addr := va, pc := pc, target := tgt % 65536
      flg := (if pc = 0xFFFFFFFF then 0 else 1) + (if fresh then 2 else 0) + (if 65536 ≤ tgt then 4 else 0), info := va
      asid := (k.asid x).toNat }
  s.modSup (dieOf c) fun p => { p with frz := p.frz ||| BitVec.ofNat 32 (2 ^ localOf c) }

/-- A target refuses an access of an agent that runs no instruction of the model (01 R26): the record enters the target's arbiter and a
hub core, a copy engine or a Ring Forwarder is frozen. -/
def State.agentRefused (s : State) (m pa : Nat) : State :=
  let t := (s.target pa).getD 12
  let at12 : Nat × BitVec 32 := (12, if isCore m then BitVec.ofNat 32 (2 ^ (m - 0xA00)) else 0)
  let die : Option Nat := if 0xA10 ≤ m ∧ m < 0xA14 then some (8 + (m - 0xA10)) else if 0xA18 ≤ m ∧ m < 0xA20 then some (m - 0xA18) else none
  let fresh := match die with
    | some d => !(s.sup d).agfrz
    | none => at12.2 != 0 && (s.sup 12).frz &&& at12.2 == 0
  let s := s.logFault (if t < 12 then t else 12)
    { Fault.Rec.plain .refused m with addr := pa, target := s.targetCode pa, flg := 4 + (if fresh then 2 else 0) }
  match die with
  | some d => s.modSup d fun b => { b with agfrz := true }
  | none => s.modSup 12 fun b => { b with frz := b.frz ||| at12.2 }

/-- The copy engine performs the first of its operations, unless it is frozen (29 R370). -/
def ADie.goOn (a : ADie) (frozen : Bool) : ADie :=
  match a.moves with
  | m :: ms => { a with moves := { m with going := m.going || !frozen } :: ms }
  | [] => a

/-- A refused operation is not performed any more, until the copy engine is released (01 R26, 29 R370). -/
def ADie.halts (a : ADie) : ADie :=
  match a.moves with
  | m :: ms => { a with moves := { m with going := false } :: ms }
  | [] => a

/-- A target refuses an access that an A-die's copy engine makes for an instruction of a context (01 R24, R26): the record names the copy
engine, and it is frozen. -/
def State.refuseCopy (s : State) (c x m tgt va : Nat) (pc : Nat) : State :=
  let d := 8 + (m - 0xA10)
  let t := tgt % 256
  let s := if tgt % 65536 / 256 ≠ s.hub.modNo.toNat then s else s.logFault (if t < 12 then t else 12)
    { cause := Cause.refused.code, src := m, tid := (s.cl c).tid.toNat, addr := va, pc := pc, target := tgt % 65536
      flg := 1 + (if (s.sup d).agfrz then 0 else 2) + (if 65536 ≤ tgt then 4 else 0), info := va, asid := ((s.cl c).asid x).toNat }
  s.modSup d fun b => { b with agfrz := true }

/-- A precise trap (29 R366): cause, operand at fault, detail (none: the manual states none, and TRAPINFO takes a free
value, log 18), and the target an access reached (0xFF for none; 2^16 more when the address is physical, FLG[2] of 07 R112). -/
structure Trap where
  cause : Cause
  opnd : Nat := 0
  info : Option (BitVec 64) := none
  tgt : Nat := 0xFF
  /-- The copy engine whose access was refused (19 R272); none: the engine's own. -/
  agent : Option Nat := none
  deriving DecidableEq, Repr

/-- Traps whose fault record names the address (29 R369). -/
def Cause.onAccess : Cause → Bool
  | .unmapped | .misalign | .roWrite | .atomPath | .refused | .eccFatal => true
  | _ => false

/-- An address of another module that its physical map leaves unbacked, as far as the map is fixed (27 R361). -/
def farUnbacked (pa : Nat) : Bool :=
  let r := pa % 2 ^ 46 / 2 ^ 42
  !(decide (2 ≤ r) && decide (r < 6)) && (targetA [] (pa % 2 ^ 46)).isNone

/-- The answer of another module to an access that the C engine or the A engine makes at once (27 R351, R361, R362): free (log 11), but that
unbacked memory has none. -/
def State.farAns (s : State) (pa : Nat) (wr : Bool := false) : FarAns :=
  if farUnbacked pa then .no
  else match Config.freeFar s.cycle.toNat (pa / 64) % (if wr then 4 else 3) with
    | 0 => .ok
    | 1 => .refused
    | 2 => .no
    | _ => .readOnly
/-- Another module so answers an access at one of the granules of n bytes. -/
def State.farSays (s : State) (pa n : Nat) (wr : Bool) (r : FarAns) : Bool :=
  s.isFar pa && (List.range ((pa % 64 + n + 63) / 64)).any fun i => s.farAns (pa + 64 * i) wr == r
/-- An access of n bytes that master m makes at once is refused: by its target here, or by another module. -/
def State.refusesNow (s : State) (m pa n : Nat) (wr : Bool) : Bool :=
  if s.isFar pa then s.farSays pa n wr .refused else !s.mayAccess m (if wr then bitW else bitR) pa

/-- A read of master m that the C engine makes at once is refused: by its target here, or by another module. -/
def State.readRefused (s : State) (m pa : Nat) : Bool := s.refusesNow m pa 1 false
/-- Such a read returns nothing: a unit is uncorrectable, or another module's memory gives no answer (13 R186, 27 R361). -/
def State.readFails (s : State) (pa n : Nat) : Bool := if s.isFar pa then s.farSays pa n false .no else s.badAt pa n

/-- Read a 32-bit word as instruction memory is read (11 R146): translated, checked against the R bit. -/
def State.fetch32 (s : State) (c x va : Nat) : Except Trap (BitVec 32) :=
  match s.translate c ((s.cl c).asid x) va with
  | none => .error { cause := .unmapped, info := some (BitVec.ofNat 64 va) }
  | some (pa, _) =>
    if s.readRefused (masterOf c x) pa then
      .error { cause := .refused, info := some (BitVec.ofNat 64 va), tgt := s.targetCode pa }
    else if s.readFails pa 4 then .error { cause := .eccFatal, info := some (BitVec.ofNat 64 va), tgt := s.targetCode pa }
    else .ok (BitVec.ofNat 32 (bytesNat (s.bytes pa 4)))

/-- Read a parcel (09 R113). -/
def State.fetch (s : State) (c x : Nat) (a : Parcel) : Except Trap Parcel := s.fetch32 c x (4 * a.toNat)

/-- The word at PARAM + 0x10, read as a JTAB entry is read (29 R368, 11 R146); 0 on a cluster without a task. -/
def State.tvecWord (s : State) (c : Nat) : Except Trap Parcel :=
  match (s.cl c).task with
  | none => .ok 0
  | some r =>
    let ea := (recParam r).toNat + 0x10
    if ea % 4 ≠ 0 then .error { cause := .misalign, info := some (BitVec.ofNat 64 ea) } else s.fetch32 c 0 ea

/-- TVEC (29 R368): none when it is 0 or its read faults. -/
def State.tvec (s : State) (c : Nat) : Option Parcel :=
  match s.tvecWord c with
  | .ok w => if w = 0 then none else some w
  | .error _ => none

/-- A refused read of TVEC has its record, and freezes the cluster (01 R26). -/
def State.tvecRefused (s : State) (c : Nat) : State :=
  match s.tvecWord c with
  | .error t => if t.cause = .refused then s.refuse c 0 t.tgt ((t.info.getD 0).toNat) 0xFFFFFFFF else s
  | .ok _ => s

/-- Raise the supervisor's external interrupt (29 R369), and send the supervisor interrupt of the PCIe port (31 R385). -/
def State.interrupt (s : State) (t : Nat) : State :=
  let s := s.msi (16 + t)
  match s.superOfDie t with
  | some core => s.modHub fun h => { h with irq := h.irq ||| BitVec.ofNat 16 (2 ^ core) }
  | none => s

/-- A task of team m runs on the cluster. -/
def Cluster.ofTeam (k : Cluster) (m : BitVec 16) : Bool :=
  match k.task with
  | some r => recTeam r == m
  | none => false

/-- The cluster's task is under a pre-emption by Save (29 R377). -/
def State.beingSaved (s : State) (c : Nat) : Bool :=
  match (s.dist (dieOf c)).pre with
  | some p => decide (p.act = .save) && (s.cl c).ofTeam p.team
  | none => false

/-- The cluster's task is under a pre-emption by Discard, which has halted the cluster; a task that the team has been given since is not (29
R376). -/
def State.beingDropped (s : State) (c : Nat) : Bool :=
  match (s.dist (dieOf c)).pre with
  | some p => decide (p.act = .discard) && (s.cl c).ofTeam p.team && (s.cl c).halted && !(s.sup (dieOf c)).esc.getLsbD (localOf c)
  | none => false

/-- The engines of a cluster that a pre-emption has stopped run on. -/
def Cluster.unstop (k : Cluster) : Cluster :=
  { k with ctx := k.ctx.map fun e => (e.1, { e.2 with stopped := false }) }

/-- A command is done, with OK and RES (29 R371). -/
def Sup.finish (p : Sup) (ok : Bool) (res : BitVec 32) : Sup :=
  { p with rspDone := true, rspOk := ok, rspRes := res, cmd := none }

/-- A pre-emption pending against a team of die d ends: its clusters run on. A supervisor's SAVE ends with OK = 0 (29 R369). -/
def State.cancelPre (s : State) (d : Nat) (team : BitVec 16) : State :=
  match (s.dist d).pre with
  | some p =>
    if p.team = team then
      let s := (dieClusters d).foldl (fun s c =>
        if (s.cl c).ofTeam team then
          s.modCl c fun k => { k.unstop with halted := k.halted && !decide (p.act = .discard) }
        else s) s
      let s := s.modDist d fun q => { q with pre := none }
      if p.noDrain then s.modSup d fun b => b.finish false 0 else s
    else s
  | none => s

/-- Escalate a context's trap beyond the task (29 R369). -/
def State.escalate (s : State) (c x : Nat) (t : Trap) : State :=
  let k := s.cl c
  let e := k.cx x
  let d := dieOf c
  let s := s.logFault d
    { cause := e.cause.toNat % 256, src := masterOf c x, tid := k.tid.toNat, addr := if t.cause.onAccess then e.tinfo.toNat else 0
      pc := e.tpc.toNat, target := if t.cause.onAccess then t.tgt % 65536 else 0xFF
      flg := if t.cause.onAccess && decide (65536 ≤ t.tgt) then 5 else 1, info := e.tinfo.toNat
      asid := (k.asid x).toNat }
  let s := if k.task.isSome then s.cancelPre d (recTeam k.rec0) else s
  let s := s.modCl c fun k => { k with halted := true }
  let s := s.modSup d fun p => { p with esc := p.esc ||| BitVec.ofNat 32 (2 ^ localOf c) }
  s.interrupt d

/-- Take a precise trap on a context at a parcel (29 R366 to R369): TRAPCAUSE, TRAPPC and TRAPINFO are written and the context
stops; it is escalated, or waits for the task trap handler. A refusal also freezes the cluster (01 R26). -/
def State.takeTrap (s : State) (c x : Nat) (pc : Parcel) (t : Trap) : State :=
  let (info, s) := match t.info with
    | some i => (i, s)
    | none => (Config.freeInfo s.free, { s with free := s.free + 1 })
  let s := if t.cause = .refused then (match t.agent with
    | none => s.refuse c x t.tgt info.toNat pc.toNat
    | some m => s.refuseCopy c x m t.tgt info.toNat pc.toNat) else s
  let s := s.modCx c x fun e =>
    { e with run := .trapped, cause := BitVec.ofNat 32 (t.opnd * 2 ^ 16 + t.cause.code), tpc := pc, tinfo := info, tgt := t.tgt }
  if t.cause = .refused ∨ x ≥ 5 then s.escalate c x t
  else if s.tvec c = none then (s.tvecRefused c).escalate c x t
  else s.modCl c fun k => { k with traps := k.traps ++ [x] }

/-! ### Answers of a meaning -/

/-- Why an instruction does not complete: it waits, a bank must wake first (07 R104), or it traps. -/
inductive Stop where
  | wait
  | wake (bank : Nat)
  | trap (t : Trap)
  deriving DecidableEq, Repr

abbrev Chk := Except Stop

/-- Trap with a cause for which the manual states no detail. -/
def trapWith {α : Type} (c : Cause) (opnd : Nat := 0) : Chk α := .error (.trap { cause := c, opnd := opnd })
/-- Trap with a cause and TRAPINFO. -/
def trapInfo {α : Type} (c : Cause) (info : BitVec 64) (opnd : Nat := 0) : Chk α :=
  .error (.trap { cause := c, opnd := opnd, info := some info })
/-- Wait. -/
def waitHere {α : Type} : Chk α := .error .wait
/-- Trap when a condition holds. -/
def trapIf (b : Bool) (c : Cause) (opnd : Nat := 0) : Chk Unit := if b then trapWith c opnd else .ok ()
def trapIfInfo (b : Bool) (c : Cause) (info : BitVec 64) (opnd : Nat := 0) : Chk Unit :=
  if b then trapInfo c info opnd else .ok ()
/-- Wait when a condition holds. -/
def waitIf (b : Bool) : Chk Unit := if b then waitHere else .ok ()

/-- The issue slot of this cycle is used (07 R95: one word, header or attempt per cycle). -/
def State.used (s : State) : State := s.modMe fun k => { k with issued := s.cur.2 :: k.issued }

/-- A word issued: later BRs count it (11 R145). -/
def State.issuedWord (s : State) : State :=
  (s.modCtx fun e => { e with bAge := e.bAge.map fun a => (a.1, min 4 (a.2 + 1)) }).used

/-- Take a trap on the current word. -/
def State.trapHere (s : State) (t : Trap) : State := (s.takeTrap s.cur.1 s.cur.2 s.ctx.pc t).used

/-- The current section has issued its last word; the context goes to a header. -/
def State.leaveTo (s : State) (a : Parcel) : State :=
  s.modCtx fun e => { e with pc := a, phase := .header, inSec := false }

/-- A parcel of the current section (09 R115). -/
def Ctx.inside (e : Ctx) (a : Parcel) : Bool :=
  e.inSec && decide (e.secF.toNat ≤ a.toNat) && decide (a.toNat < e.secE)

/-- KIND reads as a header's (09 R115). -/
def looksHeader (p1 : Parcel) : Bool := p1.toNat / 2 ^ 28 == 5 || p1.toNat / 2 ^ 28 == 0xA

/-- Judge a target outside the current section (09 R115): it is a header, it is not, or a parcel cannot be fetched. -/
def State.judge (s : State) (a : Parcel) : Except (Parcel × Trap) Bool :=
  let (c, x) := s.cur
  match s.fetch c x a, s.fetch c x (a + 1) with
  | .error t, _ => .error (a, t)
  | _, .error t => .error (a + 1, t)
  | .ok _, .ok p1 => .ok (looksHeader p1)

/-- Transfer control to a parcel (09 R115), or trap ILLEGAL on the transferring word. A target that cannot be fetched lets the
transfer take effect and then traps. -/
def State.goto (s : State) (a : Parcel) : Chk State :=
  if s.ctx.inside a then .ok (s.modCtx fun e => { e with pc := a, phase := .body })
  else match s.judge a with
    | .ok true => .ok (s.leaveTo a)
    | .ok false => trapInfo .illegal (a.setWidth 64)
    | .error (p, t) => .ok ((s.leaveTo a).takeTrap s.cur.1 s.cur.2 p t)

/-- One rotation of VRB (07 R106). -/
def rotateVrb (v : BitVec 32) : BitVec 32 :=
  let size := bitsNat v.toNat 27 18
  if size = 0 then v
  else BitVec.ofNat 32 (v.toNat - v.toNat % 512 + (v.toNat % 512 + size - 1) % size)

/-- The loop step of R148 over the loop stack, innermost entry first: the stack and VRB it leaves, the next parcel, and whether it
is a back-branch. -/
def loopStep : List LoopEnt → BitVec 32 → Parcel → List LoopEnt × BitVec 32 × Parcel × Bool
  | [], v, nx => ([], v, nx, false)
  | e :: es, v, nx =>
    if e.stop = nx then
      let v' := if e.limit.getLsbD 31 then rotateVrb v else v
      if e.index.toNat + 1 < e.limit.toNat % 2 ^ 31 then ({ e with index := e.index + 1 } :: es, v', e.start, true)
      else loopStep es v' nx
    else (e :: es, v, nx, false)

/-- Go to a parcel: the section's end is reached as a header, any other parcel as a transfer's target is (11 R141, R115). -/
def State.arrive (s : State) (a : Parcel) : Chk State :=
  if s.ctx.inSec ∧ a.toNat = s.ctx.secE then .ok (s.leaveTo a) else s.goto a

/-- The context stands at a pre-emption point (11 R150): under Save it stops there (29 R377). -/
def State.preemptPoint (s : State) : State :=
  if s.beingSaved s.cur.1 && decide (s.cur.2 < 5) then s.modCtx fun e => { e with stopped := true } else s

/-- A loop step is made at a parcel: the innermost open loop ends there. -/
def Ctx.stepsAt (e : Ctx) (nx : Parcel) : Bool :=
  match e.loops with
  | l :: _ => l.stop == nx
  | [] => false

/-- Reach a parcel as the sequential successor of the word at the PC (11 R141, R148): the loop step, then the header at the
section's end; the pre-emption point follows the step (11 R150). A loop step that cannot continue traps ILLEGAL on the word and leaves the
loop stack and VRB; what the word itself wrote stands (log 57). -/
def State.succeed (s : State) (nx : Parcel) : State :=
  let e := s.ctx
  let (ls, v, a, back) := loopStep e.loops e.vrb nx
  let s1 := s.modCtx fun e => { e with loops := ls, vrb := v }
  match (if back then s1.goto a else s1.arrive a) with
  | .ok s' => if e.stepsAt nx then s'.preemptPoint else s'
  | .error (.trap t) => s.takeTrap s.cur.1 s.cur.2 e.pc t
  | .error _ => s

/-- A word of `len` parcels completed without a transfer. -/
def State.complete (s : State) (len : Nat) : State :=
  (s.succeed (s.ctx.pc + BitVec.ofNat 32 len)).issuedWord

/-- A bank starts to wake (07 R104); BANK_WAKE ends it. -/
def State.wakeBank (s : State) (b : Nat) : State :=
  s.modMe fun k => { k with waking := k.waking ||| BitVec.ofNat 32 (2 ^ b) }

/-- The word waits: it has been tried in this cycle, and its context's slot is not used. -/
def State.waits (s : State) : State := s.modCtx fun e => { e with blocked := true }

/-- What a stop leaves: a waiting word stays where it is. -/
def State.stopped (s : State) : Stop → State
  | .wait => s.waits
  | .wake b => (s.wakeBank b).used
  | .trap t => s.trapHere t

/-- The answer of a word of `len` parcels that makes no transfer: `s` is the state it issued in. -/
def finish (s : State) (len : Nat) (r : Chk State) : Out :=
  match r with
  | .ok s' => .next (s'.complete len)
  | .error e => .next (s.stopped e)

/-- The answer of a word that sets the PC or the phase itself. -/
def finishAt (s : State) (r : Chk State) : Out :=
  match r with
  | .ok s' => .next s'.issuedWord
  | .error e => .next (s.stopped e)

/-- The answer of a word that has begun something it waits for: the PC stays. -/
def finishWait (s : State) (r : Chk State) : Out :=
  match r with
  | .ok s' => .next s'.used
  | .error e => .next (s.stopped e)

/-! ### Returning from a trap (11 R172) -/

/-- The trap of engine x that a handler was started for is over (29 R369). -/
def Hnd.solve (x : Nat) (h : Hnd) : Hnd := { h with still := h.still && decide (h.eng ≠ some x) }
/-- Engine x resumes. -/
def Cluster.solved (k : Cluster) (x : Nat) : Cluster :=
  { k with ctx := k.ctx.map fun e => (e.1, { e.2 with hnd := e.2.hnd.map (Hnd.solve x) }) }

/-- Resume a trapped context at TRAPPC, TRAPCAUSE cleared. -/
def State.resume (s : State) (c x : Nat) : State :=
  (s.modCl c fun k => k.solved x).modCx c x fun e =>
    let ph : Phase := match e.phase with
      | .header | .start _ _ _ => .header
      | _ => .body
    { e with run := .running, pc := e.tpc, cause := 0, phase := ph }

/-- The header fields at a parcel, for TRET.skip: KIND, LEN and KEYED. -/
def State.headerAt (s : State) (c x : Nat) (a : Parcel) : Option (Nat × Nat × Bool) :=
  match s.fetch c x a, s.fetch c x (a + 1) with
  | .ok p0, .ok p1 => some (p1.toNat / 2 ^ 28, p1.toNat / 2 ^ 16 % 2 ^ 12, p0.getLsbD 6)
  | _, _ => none

/-- Resume a trapped context past TRAPPC (11 R172); none: TRET.skip traps ILLEGAL and the context stays trapped. -/
def State.resumeSkip (s : State) (c x : Nat) : Option State :=
  let e := (s.cl c).cx x
  let go (s : State) : State := (s.modCl c fun k => k.solved x).modCx c x fun e => { e with run := .running, cause := 0 }
  match e.phase with
  | .header | .start _ _ _ =>
    match s.headerAt c x e.tpc with
    | some (5, len, keyed) =>
      if len = 0 then none
      else some ((go s).modCx c x fun e =>
        { e with pc := e.tpc + BitVec.ofNat 32 (2 + (if keyed then 3 else 0) + 3 * len), phase := .header, inSec := false })
    | _ => none
  | _ =>
    -- the sequential successor of the word at TRAPPC; its length is that of its OPC's form
    let len := match s.fetch c x (e.tpc + 2) with
      | .ok p2 => if opcForm (p2.toNat / 2 ^ 24) = some 3 then 15 else 3
      | .error _ => 3
    let old := s.cur
    let s1 := { (go s) with cur := (c, x) }
    let s2 := (s1.modCtx fun e => { e with pc := e.tpc }).succeed (e.tpc + BitVec.ofNat 32 len)
    some { s2 with cur := old }

end Sys2Proof.Machine
end

