-- ==== Sys2Proof/Machine/Flags.lean ====
section
/-! DEFINITION. The sticky flags of a cluster (05 R79) and of its M engine (17 R271). -/

namespace Sys2Proof.Machine

/-- Raise VFLAGS bits. -/
def Cluster.raise (k : Cluster) (f : Flags) : Cluster := { k with vflags := k.vflags ||| f.setWidth 32 }

/-- Clear the VFLAGS bits written as 1 (W1C). -/
def Cluster.clearFlags (k : Cluster) (w : BitVec 32) : Cluster := { k with vflags := k.vflags &&& ~~~w }

/-- Raise M flags; TRN does not occur there. -/
def Cluster.raiseM (k : Cluster) (f : Flags) : Cluster :=
  { k with m := { k.m with flags := k.m.flags ||| (f &&& 0x3F), fresh := k.m.fresh ||| (f &&& 0x3F).setWidth 9 } }
/-- Clear the M flags, MISS and ABORT, but for those raised in this cycle (05 R79, 17 R271). -/
def MEng.clearFlags (m : MEng) : MEng :=
  { m with flags := m.flags &&& m.fresh.setWidth 7, miss := m.miss && m.fresh.getLsbD 7, abort := m.abort && m.fresh.getLsbD 8 }

/-- The flags of a list of results, joined. -/
def joinFlags {α : Type} (l : List (α × Flags)) : Flags := l.foldl (fun a r => a ||| r.2) 0

end Sys2Proof.Machine
end

