-- ==== Sys2Proof/Machine/Operands.lean ====
section
/-! DEFINITION. Reading and writing operands: full/empty bits and FT (07 R93, R94), error-pending marks (13 R186), bank power
(07 R104), VRB (07 R106), queue registers (03 R37, 07 R96), bindings (07 R100), and when results land (03 R60, 07 R95). -/

namespace Sys2Proof.Machine

/-! ### Names -/

/-- The physical register of a v name (07 R106). -/
def mapV (vrb : BitVec 32) (n : Nat) : Nat :=
  let size := bitsNat vrb.toNat 27 18
  let ws := bitsNat vrb.toNat 17 9
  let base := bitsNat vrb.toNat 8 0
  if size ≠ 0 ∧ ws ≤ n ∧ n < ws + size then ws + (n - ws + base) % size else n

/-- Keys of the cluster's full/empty table: v, then k, then vm. -/
def keyV (n : Nat) : Nat := n
def keyK (n : Nat) : Nat := 512 + n
def keyVM (n : Nat) : Nat := 768 + n

/-- A v register read as it stands. -/
def Cluster.getV (k : Cluster) (n : Nat) : VWord := SMap.get 0 k.v n
def Cluster.getK (k : Cluster) (n : Nat) : KWord := SMap.get 0 k.k n
/-- A mask register; all ones when never written (07 R92). -/
def Cluster.getVM (k : Cluster) (n : Nat) : MWord := SMap.get (BitVec.allOnes 256) k.vm n
def Cluster.genOf (k : Cluster) (n : Nat) : BitVec 16 := SMap.get 0 k.kgen n
def Cluster.getQ (k : Cluster) (n : Nat) : QReg := SMap.get { cfg := none, ents := [] } k.q n
def Ctx.getS (e : Ctx) (n : Nat) : Word := SMap.get 0 e.s n
def Ctx.getB (e : Ctx) (n : Nat) : Parcel := SMap.get 0 e.b n
/-- A predicate; p0 reads 1 (07 R90). -/
def Ctx.getP (e : Ctx) (n : Nat) : Bool := n == 0 || e.p.getLsbD n

/-! ### Checks -/

/-- The FT bit of a Form A source: position 2 SA, 3 SB, 4 SC (07 R94). -/
def ftBit (w : AForm) (pos : Nat) : Bool := w.ft.getLsbD (4 - pos)

/-- A bank must be ON (07 R104). -/
def Cluster.bank (k : Cluster) (n pos : Nat) : Chk Unit :=
  let b := n / 16
  let st := bitsNat k.bankctl.toNat (2 * b + 1) (2 * b)
  if st = 2 then trapWith .bankOff pos
  else if st = 1 ∨ k.waking.getLsbD b then .error (.wake b)
  else .ok ()

/-- A source's full/empty bit: FT decides, and an error mark traps whatever FT says (07 R94, 13 R186). -/
def checkFull (h : Option Hold) (pos : Nat) (ft : Bool) : Chk Unit :=
  match h with
  | none => .ok ()
  | some (.mark a _ t) => .error (.trap { cause := .eccFatal, opnd := pos, info := some a, tgt := t })
  | some .empty => if ft then trapWith .feEmpty pos else waitHere

/-- A destination that is empty holds the instruction back (07 R93); an error-pending one is written over (13 R186). -/
def checkDst (h : Option Hold) : Chk Unit :=
  match h with
  | some .empty => waitHere
  | _ => .ok ()

/-- Bits of a value under a mask, over an old value. -/
def mergeBits {w : Nat} (old val mask : BitVec w) : BitVec w := (old &&& ~~~mask) ||| (val &&& mask)

/-- A result of the engine of context x is on its way to a register; an s register is the context's own. -/
def Cluster.inFlight (k : Cluster) (x : Nat) (o : Opnd) : Bool :=
  k.land.any fun l => l.dst == o && (match o with
    | .s _ => l.x == x
    | _ => engOf l.x == engOf x)

/-- In a scoreboard section a register is read and written once it holds every earlier result of the engine (03 R59). -/
def State.settle (s : State) (o : Opnd) : Chk Unit := waitIf (!s.ctx.exposed && s.me.inFlight s.cur.2 o)

/-- The 32-bit lanes of a w-bit register that a reader sees as written already (03 R38). -/
def newLanes (w now x key : Nat) : BitVec w :=
  BitVec.ofNat w (((List.range ((w + 31) / 32)).map fun i =>
    if Config.freeLane now x key i then (2 ^ 32 - 1) * 2 ^ (32 * i) else 0).foldl (· + ·) 0)

/-- The value of a register as context x reads it: each 32-bit lane of a value that another engine is writing, and that does not land
in this cycle (07 R101), is the old or the new one (03 R38); which is free (log 65). -/
def Cluster.seen {w : Nat} (k : Cluster) (now x key : Nat) (o : Opnd) (old : BitVec w) : BitVec w :=
  k.land.foldl (fun v l => match l.kind with
    | .write val mask _ =>
      if l.dst == o && engOf l.x != engOf x && decide (now + 1 < l.due) then
        mergeBits v (val.setWidth w) (mask.setWidth w &&& newLanes w now x key)
      else v
    | _ => v) old

/-! ### Sources -/

/-- Read an s register. -/
def State.srcS (s : State) (o : Opnd) (pos : Nat) (ft : Bool) : Chk Word :=
  match o with
  | .s i => do
    checkFull (SMap.get? s.ctx.sHold i.toNat) pos ft
    s.settle o
    pure (s.ctx.getS i.toNat)
  | _ => trapWith .illegal pos

/-- Read an s register, or answer `d` for a null operand. -/
def State.srcSOr (s : State) (o : Opnd) (pos : Nat) (ft : Bool) (d : Word) : Chk Word :=
  if o = .null then .ok d else s.srcS o pos ft

/-- Read a predicate. -/
def State.srcP (s : State) (o : Opnd) (pos : Nat) : Chk Bool :=
  match o with
  | .p i => .ok (s.ctx.getP i.toNat)
  | _ => trapWith .illegal pos

/-- The entry a pop or peek reads (03 R37): the engine is the consumer, the head has landed. -/
def State.qHead (s : State) (i pos : Nat) (ft : Bool) : Chk QEnt :=
  let q := s.me.getQ i
  match q.cfg with
  | none => trapWith .engMismatch pos
  | some (_, cons) =>
    if cons ≠ engOf s.cur.2 then trapWith .engMismatch pos
    else match q.ents with
      | [] => if ft then trapWith .qUnder pos else waitHere
      | h :: _ =>
        if h.resv.isSome then (if ft then trapWith .qUnder pos else waitHere)
        else match h.mark with
          | some (.mark a _ t) => .error (.trap { cause := .eccFatal, opnd := pos, info := some a, tgt := t })
          | _ => .ok h

/-- Read v register `n` (physical). -/
def State.srcPhys (s : State) (n pos : Nat) (ft : Bool) : Chk VWord := do
  s.me.bank n pos
  checkFull (SMap.get? s.me.hold (keyV n)) pos ft
  s.settle (.v (BitVec.ofNat 9 n))
  pure (s.me.seen s.cycle.toNat s.cur.2 (keyV n) (.v (BitVec.ofNat 9 n)) (s.me.getV n))

/-- Read a v or q source. -/
def State.srcV (s : State) (o : Opnd) (pos : Nat) (ft : Bool) : Chk VWord :=
  match o with
  | .v i => s.srcPhys (mapV s.ctx.vrb i.toNat) pos ft
  | .q _ i => do
    let h ← s.qHead i.toNat pos ft
    pure h.data
  | _ => trapWith .illegal pos

/-- Read a k register. -/
def State.srcK (s : State) (o : Opnd) (pos : Nat) (ft : Bool) : Chk KWord :=
  match o with
  | .k i => do
    checkFull (SMap.get? s.me.hold (keyK i.toNat)) pos ft
    s.settle o
    pure (s.me.seen s.cycle.toNat s.cur.2 (keyK i.toNat) o (s.me.getK i.toNat))
  | _ => trapWith .illegal pos

/-- Read mask register `i`. -/
def State.srcVMi (s : State) (i pos : Nat) (ft : Bool) : Chk MWord := do
  checkFull (SMap.get? s.me.hold (keyVM i)) pos ft
  s.settle (.vm (BitVec.ofNat 4 i))
  pure (s.me.seen s.cycle.toNat s.cur.2 (keyVM i) (.vm (BitVec.ofNat 4 i)) (s.me.getVM i))

/-- Read a vm source; `d` for a null operand. -/
def State.srcVMOr (s : State) (o : Opnd) (pos : Nat) (ft : Bool) (d : MWord) : Chk MWord :=
  match o with
  | .vm i => s.srcVMi i.toNat pos ft
  | .null => .ok d
  | _ => trapWith .illegal pos

/-- Consume v register n (physical) as b4 (07 R100): its data and scales, which are those of the start of the cycle (07 R101). -/
def State.srcB4Phys (s : State) (n pos : Nat) (ft : Bool) : Chk (VWord × KWord) := do
  let d ← s.srcPhys n pos ft
  match SMap.get? s.me.bind n with
  | none => trapInfo .staleBind (BitVec.ofNat 64 n) pos
  | some b =>
    let kx := b.kix.toNat
    checkFull (SMap.get? s.me.hold (keyK kx)) pos ft
    s.settle (.k b.kix)
    if b.gen ≠ s.me.genOf kx then trapInfo .staleBind (BitVec.ofNat 64 (n + kx * 2 ^ 16)) pos
    else pure (d, s.me.getK kx)

/-- Consume an operand as b4: a v register under its binding, a queue entry with its side-band (07 R97). -/
def State.srcB4 (s : State) (o : Opnd) (pos : Nat) (ft : Bool) : Chk (VWord × KWord) :=
  match o with
  | .v i => s.srcB4Phys (mapV s.ctx.vrb i.toNat) pos ft
  | .q _ i => do
    let h ← s.qHead i.toNat pos ft
    if h.sbv then pure (h.data, h.sb) else trapWith .staleBind pos
  | _ => trapWith .illegal pos

/-- Read a run of `n` v registers named from `i` (each remapped by VRB). -/
def State.srcRun (s : State) (i : Nat) (pos : Nat) (ft : Bool) : Nat → Chk (List VWord)
  | 0 => .ok []
  | n + 1 => do
    let x ← s.srcPhys (mapV s.ctx.vrb i) pos ft
    let xs ← s.srcRun (i + 1) pos ft n
    pure (x :: xs)

/-- Pop a queue source that is not peeked. -/
def Cluster.popQ (k : Cluster) (o : Opnd) : Cluster :=
  match o with
  | .q false i => { k with q := SMap.set k.q i.toNat { (k.getQ i.toNat) with ents := (k.getQ i.toNat).ents.tail } }
  | _ => k

/-! ### Destinations -/

/-- An s destination. -/
def State.dstS (s : State) (o : Opnd) : Chk Unit :=
  match o with
  | .s i => do
    checkDst (SMap.get? s.ctx.sHold i.toNat)
    s.settle o
  | _ => .ok ()

/-- A v destination (physical). -/
def State.dstPhys (s : State) (n : Nat) (pos : Nat := 1) : Chk Unit := do
  s.me.bank n pos
  checkDst (SMap.get? s.me.hold (keyV n))
  s.settle (.v (BitVec.ofNat 9 n))

/-- A run of v destinations. -/
def State.dstRun (s : State) (i : Nat) : Nat → Chk Unit
  | 0 => .ok ()
  | n + 1 => do
    s.dstPhys (mapV s.ctx.vrb i)
    s.dstRun (i + 1) n

/-- A queue destination: configured, the engine its producer, and not full (03 R37). -/
def State.dstQ (s : State) (i : Nat) (ft : Bool) : Chk Unit :=
  let q := s.me.getQ i
  match q.cfg with
  | none => trapWith .engMismatch 1
  | some (prod, _) =>
    if prod ≠ engOf s.cur.2 then trapWith .engMismatch 1
    else if q.ents.length ≥ 4 then (if ft then trapWith .qOver 1 else waitHere)
    else .ok ()

/-- A v or q destination: the operand with its physical index. -/
def State.dstV (s : State) (o : Opnd) (ft : Bool := false) : Chk Opnd :=
  match o with
  | .v i => do
    let n := mapV s.ctx.vrb i.toNat
    s.dstPhys n
    pure (.v (BitVec.ofNat 9 n))
  | .q _ i => do
    s.dstQ i.toNat ft
    pure o
  | _ => trapWith .illegal 1

/-- A k or vm destination. -/
def State.dstK (s : State) (o : Opnd) : Chk Unit :=
  match o with
  | .k i => do
    checkDst (SMap.get? s.me.hold (keyK i.toNat))
    s.settle o
  | .vm i => do
    checkDst (SMap.get? s.me.hold (keyVM i.toNat))
    s.settle o
  | _ => .ok ()

/-! ### Writing -/

/-- Write an s register: it becomes full. -/
def Ctx.putS (e : Ctx) (n : Nat) (v : Word) : Ctx := { e with s := SMap.put 0 e.s n v, sHold := SMap.del e.sHold n }
/-- Write a predicate; a write to p0 is discarded (07 R90). -/
def Ctx.putP (e : Ctx) (n : Nat) (v : Bool) : Ctx :=
  if n = 0 then e else { e with p := if v then e.p ||| BitVec.ofNat 8 (2 ^ n) else e.p &&& ~~~(BitVec.ofNat 8 (2 ^ n)) }
/-- Write a branch-target register: the words issued since are counted from none (11 R145). -/
def Ctx.putB (e : Ctx) (n : Nat) (v : Parcel) : Ctx := { e with b := SMap.put 0 e.b n v, bAge := SMap.set e.bAge n 0 }

/-- Of two results to one s register that arrive in one cycle the later-issued one remains (03 R61): those of context x that would land
by `due` are dropped. -/
def Cluster.supersede (k : Cluster) (x due : Nat) (o : Opnd) : Cluster :=
  { k with land := k.land.filter fun l => !(l.x == x && l.dst == o && decide (l.due ≤ due)) }

/-- Write the s, p or b destination of the current word; null writes nothing. -/
def State.putOpnd (s : State) (o : Opnd) (v : Word) : State :=
  match o with
  | .s i => (s.modMe fun k => k.supersede s.cur.2 (s.cycle.toNat + 1) o).modCtx fun e => e.putS i.toNat v
  | .p i => s.modCtx fun e => e.putP i.toNat (v != 0)
  | .b i => s.modCtx fun e => e.putB i.toNat (v.setWidth 32)
  | _ => s

/-- Write a predicate operand. -/
def State.putPred (s : State) (o : Opnd) (v : Bool) : State := s.putOpnd o (if v then 1 else 0)

/-- A v write: the register becomes full and takes the binding given (07 R93, R99). -/
def Cluster.putV (k : Cluster) (n : Nat) (val mask : VWord) (b : Option Bind) : Cluster :=
  { k with v := SMap.put 0 k.v n (mergeBits (k.getV n) val mask)
           bind := match b with
             | some x => SMap.set k.bind n x
             | none => SMap.del k.bind n
           hold := SMap.del k.hold (keyV n), vAcc := true }
/-- A change of a v register's binding alone. -/
def Cluster.rebind (k : Cluster) (n : Nat) (b : Option Bind) : Cluster :=
  { k with bind := match b with
             | some x => SMap.set k.bind n x
             | none => SMap.del k.bind n }
/-- A k write: the generation advances (07 R98). -/
def Cluster.putK (k : Cluster) (n : Nat) (val : KWord) : Cluster :=
  { k with k := SMap.put 0 k.k n val, kgen := SMap.put 0 k.kgen n (k.genOf n + 1), hold := SMap.del k.hold (keyK n) }
/-- A vm write. -/
def Cluster.putVM (k : Cluster) (n : Nat) (val mask : MWord) : Cluster :=
  { k with vm := SMap.put (BitVec.allOnes 256) k.vm n (mergeBits (k.getVM n) val mask), hold := SMap.del k.hold (keyVM n) }

/-- Fill the entry of a queue register that `id` reserved. -/
def fillEnt (id : Nat) (e : QEnt) (l : List QEnt) : List QEnt := l.map fun x => if x.resv = some id then e else x

/-- One landing (03 R61, 07 R93). -/
def Cluster.land1 (k : Cluster) (l : Land) : Cluster :=
  let k := k.raise l.flags
  match l.kind, l.dst with
  | .write val mask b, .v i => k.putV i.toNat val mask b
  | .write val mask _, .k i => k.putK i.toNat (mergeBits (k.getK i.toNat) (val.setWidth 128) (mask.setWidth 128))
  | .write val mask _, .vm i => k.putVM i.toNat (val.setWidth 256) (mask.setWidth 256)
  | .write val _ _, .s i => k.modCx l.x fun e => e.putS i.toNat (val.setWidth 64)
  | .empty, .v i => { k with hold := SMap.set k.hold (keyV i.toNat) .empty }
  | .empty, .k i => { k with hold := SMap.set k.hold (keyK i.toNat) .empty }
  | .empty, .vm i => { k with hold := SMap.set k.hold (keyVM i.toNat) .empty }
  | .mark a g t, .v i => { k with hold := SMap.set k.hold (keyV i.toNat) (.mark a g t) }
  | .mark a g t, .k i => { k with hold := SMap.set k.hold (keyK i.toNat) (.mark a g t) }
  | .mark a g t, .vm i => { k with hold := SMap.set k.hold (keyVM i.toNat) (.mark a g t) }
  | .mark a g t, .s i => k.modCx l.x fun e => { e with sHold := SMap.set e.sHold i.toNat (.mark a g t) }
  | .push id e, .q _ i => { k with q := SMap.set k.q i.toNat { (k.getQ i.toNat) with ents := fillEnt id e (k.getQ i.toNat).ents } }
  | .cfg p c, .q _ i => { k with q := SMap.set k.q i.toNat { (k.getQ i.toNat) with cfg := some (p, c) } }
  | .prog v, _ => { k with progc := v }
  | .rebind b, .v i => k.rebind i.toNat b
  | .bindGen kx, .v i => k.rebind i.toNat (some { kix := BitVec.ofNat 8 kx, gen := k.genOf kx })
  | .pop, o => k.popQ o
  | .clrFlags w, _ => k.clearFlags w
  | .ecnt v, _ => { k with ecntw := v, vAcc := false }
  | .vmode m, _ => { k with vmode := m }
  | .mmode m, _ => { k with mmode := m }
  | _, _ => k

/-- The section number accesses and results of a context are counted under (03 R34). -/
def Ctx.secNow (e : Ctx) : Nat := if e.next = 0 then 0 else e.next - 1

/-- A landing of the current word, `lat` cycles after issue (03 R60); in a scoreboard section, which waits for it, too (log 5). -/
def State.lands (s : State) (lat : Nat) (dst : Opnd) (kind : LandKind) (flags : Flags) : State :=
  s.modMe fun k => { k with land := k.land ++
    [{ due := s.cycle.toNat + lat, x := s.cur.2, sec := s.ctx.secNow, dst := dst, kind := kind, flags := flags }] }

/-- Pop the queue sources of context x that are not peeked, at the end of the cycle (07 R95). -/
def State.popsOf (s : State) (c x : Nat) (os : List Opnd) : State :=
  let own (o : Opnd) : Bool := match o with
    | .q false _ => true
    | _ => false
  s.modCl c fun k => { k with land := k.land ++ (os.filter own).map fun o =>
    { due := s.cycle.toNat + 1, x := x, sec := (k.cx x).secNow, dst := o, kind := .pop, flags := 0 } }
/-- Pop the queue sources of the current word. -/
def State.pops (s : State) (os : List Opnd) : State := s.popsOf s.cur.1 s.cur.2 os

/-- An entry reserved for result `id`. -/
def resvEnt (id : Nat) : QEnt := { data := 0, sb := 0, sbv := false, bind := none, mark := none, resv := some id }

/-- Reserve an entry of a queue register for result `id` (15 R210). -/
def State.reserve (s : State) (i id : Nat) : State :=
  s.modMe fun k => { k with q := SMap.set k.q i { (k.getQ i) with ents := (k.getQ i).ents ++ [resvEnt id] } }

/-- The entry a push without scales makes. -/
def plainEnt (d : VWord) : QEnt := { data := d, sb := 0, sbv := false, bind := none, mark := none, resv := none }

/-- The result of a V instruction of published latency (15 R212): a v destination (physical) or a queue push. -/
def State.resultV (s : State) (lat : Nat) (dst : Opnd) (val mask : VWord) (b : Option Bind) (flags : Flags) : State :=
  match dst with
  | .q _ i =>
    let id := s.seq
    ({ s with seq := id + 1 }.reserve i.toNat id).lands lat dst (.push id (plainEnt (val &&& mask))) flags
  | _ => s.lands lat dst (.write val mask b) flags

/-- Mark a destination empty at the end of the issue cycle (07 R93); an s register at once, for no other context reads it. -/
def State.empties (s : State) (dst : Opnd) : State :=
  match dst with
  | .s i => s.modCtx fun e => { e with sHold := SMap.set e.sHold i.toNat .empty }
  | .v _ | .k _ | .vm _ => s.modMe fun k => { k with land := k.land ++
      [{ due := s.cycle.toNat + 1, x := s.cur.2, sec := s.ctx.secNow, dst := dst, kind := .empty, flags := 0 }] }
  | _ => s

/-- A long-latency result (03 R62): the destination is empty until RESULT_LANDS; a queue destination reserves an entry. -/
def State.resultLong (s : State) (dst : Opnd) (val mask : VWord) (flags : Flags) : State :=
  let id := s.seq
  let s := { s with seq := id + 1 }
  let s := match dst with
    | .q _ i => s.reserve i.toNat id
    | _ => s.empties dst
  s.modMe fun k => { k with pend := k.pend ++
    [{ id := id, x := s.cur.2, sec := s.ctx.secNow, dst := dst, val := val, mask := mask, flags := flags }] }

/-- The result of a scalar operation of latency `lat` (03 R60). -/
def State.resultS (s : State) (lat : Nat) (dst : Opnd) (v : Word) : State :=
  if lat ≤ 1 then s.putOpnd dst v
  else s.lands lat dst (.write (v.setWidth 2048) (BitVec.allOnes 2048) none) 0

end Sys2Proof.Machine
end

