-- ==== Sys2Proof/Machine/Params.lean ====
section
/-! DEFINITION. Form P parameter blocks (09 R121, R122): their head, their substitution and the limits of each entry. -/

namespace Sys2Proof.Machine

/-- The twelve fields of a parameter block. -/
def parFields (p : BitVec 384) : List Nat := (List.range 12).map fun i => bitsNat p.toNat (32 * i + 31) (32 * i)

/-- The substitution mask of field 0. -/
def subMask (f0 : Nat) : Nat := f0 / 2 ^ 20

/-- KIND of each Form P instruction (R121). -/
def parKind : Instr → Nat
  | .mnest _ => 1 | .mgrp _ => 2 | .vtopk _ => 3 | .astep _ => 4 | .kvgath _ => 5 | .pxlook _ => 6 | _ => 0

/-- The checks of R122 that need no register: KIND, VER, SUBMASK and the form of substituted fields. -/
def parHeadOk (i : Instr) (fs : List Nat) : Bool :=
  let f0 := fs.getD 0 0
  f0 / 256 % 2 ^ 12 == parKind i && f0 % 256 == 1 && subMask f0 % 4 == 0 &&
    ((List.range 12).all fun j => !(subMask f0).testBit j || fs.getD j 0 < 64)

/-- No field is substituted. -/
def noSubst (fs : List Nat) : Bool := subMask (fs.getD 0 0) == 0

/-- The index of a v operand; 512 for any other. -/
def vIdx : Opnd → Nat
  | .v i => i.toNat
  | _ => 512

/-- A condition of an entry on some of its fields, which it lists. -/
abbrev ParCheck := List Nat × Bool

/-- The conditions on the four fields of one nest level, from field b on (17 R258). -/
def levelChecks (fs : List Nat) (b : Nat) : List ParCheck :=
  let c := fs.getD b 0
  let e := fs.getD (b + 3) 0
  [([b], 1 ≤ c && c ≤ 65535), ([b + 1], fs.getD (b + 1) 0 % 16 == 0), ([b + 2], fs.getD (b + 2) 0 % 16 == 0),
    ([b + 3], e / 128 % 2 == 0 && e / 256 % 4 < 2 && e / 65536 == 0)]

/-- Fields j and later are zero. -/
def zeroChecks (fs : List Nat) (j : Nat) : List ParCheck := ((List.range 12).drop j).map fun i => ([i], fs.getD i 0 == 0)

/-- The limits of the fields after substitution (R122), as each entry gives them. -/
def parChecks (i : Instr) (fs : List Nat) : List ParCheck :=
  let f := fun j => fs.getD j 0
  match i with
  | .vtopk w =>
    let e := 2048 / w.head.ty.width
    let ix := f 6 % 2 == 1
    [([1], f 1 == 0), ([3], 1 ≤ f 3 && f 3 ≤ 64), ([4], 1 ≤ f 4 && f 4 ≤ 256 && vIdx w.head.sa + f 4 ≤ 512), ([2], 1 ≤ f 2),
      ([2, 4], f 2 ≤ f 4 * e), ([6], f 6 < 2 && (ix == (w.head.sc != .null))),
      ([2, 6], !ix || vIdx w.head.sc + (f 2 + 63) / 64 ≤ 512), ([], w.head.dst != w.head.sb)] ++ zeroChecks fs 7
  | .mnest _ => levelChecks fs 1 ++ levelChecks fs 5 ++ [([9], decide (f 9 < 256))] ++ zeroChecks fs 10
  | .mgrp _ => [([1], f 1 % 8 == 0), ([2], 1 ≤ f 2 && f 2 ≤ 64), ([1, 2], decide (f 1 + 8 * f 2 ≤ 2 ^ 22))] ++ zeroChecks fs 3
  | .astep _ => [([1], f 1 == 0), ([2], f 2 ≤ 63)] ++ zeroChecks fs 4
  | .kvgath _ => [([1], f 1 == 0), ([2], decide (f 2 < 2)), ([2, 3], f 2 == 0 || f 3 == 0)] ++ zeroChecks fs 4
  | .pxlook _ => [([1], f 1 == 0), ([2], 1 ≤ f 2 && f 2 ≤ 4096), ([3], 1 ≤ f 3 && f 3 ≤ 64)] ++ zeroChecks fs 5
  | _ => []

/-- Every field is within its limits. -/
def parLimits (i : Instr) (fs : List Nat) : Bool := (parChecks i fs).all (·.2)

/-- The limits that concern no substituted field, which hold whatever the s registers are, and so for a guarded-off head too (R126 step 4;
what a guarded-off head would substitute is not read, log 67). -/
def parFixed (i : Instr) (fs : List Nat) : Bool :=
  (parChecks i fs).all fun c => c.2 || c.1.any fun j => (subMask (fs.getD 0 0)).testBit j

/-- Substitute the fields that SUBMASK names (R121): the s registers are read like sources with FT = 0. -/
def State.substFrom (s : State) (m : Nat) : Nat → List Nat → Chk (List Nat)
  | _, [] => .ok []
  | j, f :: fs => do
    let v ← if m.testBit j then do
        let x ← s.srcS (.s (BitVec.ofNat 6 f)) 0 false
        pure (x.toNat % 2 ^ 32)
      else pure f
    let vs ← s.substFrom m (j + 1) fs
    pure (v :: vs)

/-- The parameter fields of a Form P as issued: checked as R122 sets, substituted, within limits. -/
def State.params (s : State) (i : Instr) (p : BitVec 384) : Chk (List Nat) :=
  let fs := parFields p
  if !parHeadOk i fs then trapWith .param
  else do
    let vs ← s.substFrom (subMask (fs.getD 0 0)) 0 fs
    if parLimits i vs then pure vs else trapWith .param

end Sys2Proof.Machine
end

