-- ==== Sys2Proof/Machine/Issue.lean ====
section
/-! DEFINITION. What a step does before and around an instruction: the turns (log 1), the end of a cycle (07 R95, 11 R152),
fetching and decoding a word (09 R113, R126, 11 R141), and the guard (09 R120). -/

namespace Sys2Proof.Machine

/-! ### The end of a cycle -/

/-- Apply the results that have become due, in issue order (03 R61). -/
def landDue (now : Nat) : List Land → Cluster → Cluster
  | [], k => k
  | l :: ls, k =>
    if l.due ≤ now then landDue now ls (k.land1 l)
    else landDue now ls { k with land := k.land ++ [l] }

/-- A landing that clears flags: it goes before the others of its cycle, so that a flag raised in that cycle stays set (05 R79). -/
def Land.clears (l : Land) : Bool :=
  match l.kind with
  | .clrFlags _ => true
  | _ => false

/-- The context of the C engine that issued in this cycle, or the one that did last (13 R207). -/
def Cluster.lastC' (k : Cluster) : Nat := (k.issued.find? fun x => engOf x == 0).getD k.lastC

/-- The landings of one cluster. -/
def Cluster.lands (k : Cluster) (now : Nat) : Cluster :=
  landDue now (k.land.filter (·.clears) ++ k.land.filter fun l => !l.clears)
    { k with land := [], issued := [], lastC := k.lastC', m := { k.m with fresh := 0 }
             ctx := k.ctx.map fun e => (e.1, { e.2 with blocked := false }) }

/-- The detail of an EVOVER (11 R152). -/
def evOverInfo (n count : Nat) : Nat := n % 64 + count % 65536 * 65536

/-- One POST at the end of its cycle (11 R151, R152): it adds its count and its word completes, or traps EVOVER; a nest's POST
that overflows writes a fault record (17 R261). -/
def State.postOne (s : State) (c : Nat) (p : Post) : State :=
  let k := s.cl c
  let v := (SMap.get 0 k.ev p.n).toNat + p.count
  let s := if p.nest then s else { s with cur := (c, p.x) }.modCtx fun e => { e with phase := .body }
  if v > 65535 then
    if p.nest then
      s.logFault (dieOf c) { Fault.Rec.plain .evOver (masterOf c 2) with
        tid := k.tid.toNat, info := evOverInfo p.n p.count, asid := (recAsid k.rec0).toNat }
    else s.takeTrap c p.x (k.cx p.x).pc { cause := .evOver, info := some (BitVec.ofNat 64 (evOverInfo p.n p.count)) }
  else
    let s := s.modCl c fun k => { k with ev := SMap.put 0 k.ev p.n (BitVec.ofNat 16 v) }
    if p.nest then s else s.complete 3

/-- Insert a POST behind those of its context's order and before (11 R152). -/
def insertPost (p : Post) : List Post → List Post
  | [] => [p]
  | q :: qs => if orderOf p.x < orderOf q.x then p :: q :: qs else q :: insertPost p qs

/-- The POSTs of a cycle in ascending order of context. -/
def sortPosts (l : List Post) : List Post := l.foldl (fun a p => insertPost p a) []

/-- The POSTs of one cluster. -/
def State.postsOf (s : State) (c : Nat) : State :=
  (sortPosts (s.cl c).posts).foldl (fun s p => s.postOne c p) (s.modCl c fun k => { k with posts := [] })

/-! ### Bank power (07 R104, R105) -/

/-- The state of bank b in a BANKCTL value. -/
def bankState (v : BitVec 64) (b : Nat) : Nat := bitsNat v.toNat (2 * b + 1) (2 * b)

/-- Banks whose state a write changes. -/
def banksChanged (old new : BitVec 64) : List Nat := (List.range 32).filter fun b => bankState old b != bankState new b

/-- A result is pending into a bank (07 R105). -/
def Cluster.bankPending (k : Cluster) (b : Nat) : Bool :=
  (k.hold.any fun h => h.1 < 512 && h.1 / 16 == b && decide (h.2 = .empty)) ||
    (k.land.any fun l => match l.dst with
      | .v i => i.toNat / 16 == b
      | _ => false)

/-- Drop a bank's contents: every register reads zero, full and unbound (07 R105). -/
def Cluster.clearBank (k : Cluster) (b : Nat) : Cluster :=
  { k with v := k.v.filter fun e => e.1 / 16 != b
           bind := k.bind.filter fun e => e.1 / 16 != b
           hold := k.hold.filter fun e => e.1 ≥ 512 || e.1 / 16 != b }

/-- Nothing is pending into a bank that a BANKCTL write changes. -/
def Cluster.bankFree (k : Cluster) (v : BitVec 64) : Bool := !((banksChanged k.bankctl v).any k.bankPending)

/-- The BANKCTL write itself: a bank that goes to or comes from OFF is cleared, one that goes from OFF to ON wakes. -/
def Cluster.applyBank (k : Cluster) (v : BitVec 64) : Cluster :=
  let ch := banksChanged k.bankctl v
  let j := ch.foldl (fun j b => if bankState k.bankctl b = 2 ∨ bankState v b = 2 then j.clearBank b else j) k
  let wk := ch.foldl (fun a b =>
    if bankState k.bankctl b = 2 ∧ bankState v b = 0 then a ||| BitVec.ofNat 32 (2 ^ b)
    else a &&& ~~~(BitVec.ofNat 32 (2 ^ b))) k.waking
  { j with bankctl := v, waking := wk }

/-- A word of a context completes apart from its issue slot: its sequential successor is reached. -/
def State.finishWord (s : State) (c x len : Nat) : State :=
  let old := s.cur
  let s := { s with cur := (c, x) }
  let s := s.modCtx fun e => { e with phase := .body, bAge := e.bAge.map fun a => (a.1, min 4 (a.2 + 1)) }
  { (s.succeed (s.ctx.pc + BitVec.ofNat 32 len)) with cur := old }

/-- The BANKCTL value that a write of the fields under a mask makes: the other fields stay as they then are (11 R176). -/
def Cluster.bankVal (k : Cluster) (v mask : BitVec 64) : BitVec 64 := (k.bankctl &&& ~~~mask) ||| (v &&& mask)

/-- BANKCTL writes of a cluster's C contexts that wait for nothing any more. -/
def State.banksOf (s : State) (c : Nat) : State :=
  [0, 5, 6].foldl (fun s x => match ((s.cl c).cx x).phase with
    | .bank v m =>
      if (s.cl c).bankFree ((s.cl c).bankVal v m) then (s.modCl c fun k => k.applyBank (k.bankVal v m)).finishWord c x 3 else s
    | _ => s) s

/-- A page allocator that initialises its table writes descriptors (25 R336). -/
def ADie.writesDescs (a : ADie) (cyc : Nat) : ADie :=
  if a.initing then { a with written := min a.ndesc (a.written + Config.freeWritten cyc) } else a

/-- Lines of the Die Cache whose lease has ended by a cycle are dropped (27 R363). -/
def Ring.dropLines (r : Ring) (cyc : Nat) : Ring := { r with lines := r.lines.filter fun l => decide (cyc < l.leaseEnd) }

/-- The end of a cycle: POSTs take effect, results land, BANKCTL writes are made, events enter their logs, leases end, and the cycle stamp
advances. -/
def State.endCycle (s : State) : State :=
  let cs := s.clusters.map (·.1)
  let s := cs.foldl State.postsOf s
  let s := { s with clusters := s.clusters.map fun e => (e.1, e.2.lands (s.cycle.toNat + 1)) }
  let s := cs.foldl State.banksOf s
  let s := (s.sups.map (·.1)).foldl State.writeEvents s
  { s with
    cycle := s.cycle + 1
    rings := s.rings.map fun e => (e.1, e.2.dropLines (s.cycle.toNat + 1))
    adies := s.adies.map fun e => (e.1, e.2.writesDescs s.cycle.toNat)
    ltt := s.lttNew.foldl (fun m e => SMap.put 0 m e.1 e.2) s.ltt
    lttNew := [] }

/-! ### Issuing -/

/-- Clusters issue in P0 and P1; in H they are halted (31 R396). -/
def Power.runs (p : Power) : Bool := decide (p = .p0) || decide (p = .p1)

/-- Clusters issue: the dies are up, and not halted (31 R392, R396). -/
def Hub.runs (h : Hub) : Bool := h.power.runs && !h.ms

/-- A context runs the task trap handler (29 R368). -/
def Ctx.trapHandler (e : Ctx) : Bool :=
  e.run == .running && (match e.hnd with
    | some ⟨_, some _, _, _⟩ => true
    | _ => false)

/-- Under SWAPOUT the cluster is free for the supervisor's tasks: its image is out (29 R382). -/
def State.onLoan (s : State) (c : Nat) : Bool :=
  (s.cl c).swapped && (SMap.get? (s.sup (dieOf c)).swap (localOf c)).isSome

/-- The context is at a KVAPP that waits for its page. -/
def Ctx.waitsPage (e : Ctx) : Bool := match e.phase with
  | .kvapp _ => true
  | _ => false

/-- A context may run: it is started, its cluster is neither halted nor frozen, and no pre-emption has stopped it; the A engine's last word
has completed (19 R272). HALT holds every context until HALT.go (11 R173), SWAPOUT all but those of a supervisor's task until SWAPIN is done
(29 R382, R383), a save or a restore the arrival handlers' (R383). -/
def State.canRun (s : State) (c x : Nat) : Bool :=
  let k := s.cl c
  let e := k.cx x
  s.hub.runs && decide (e.run = .running) && !k.byHalt && !k.halted && (!k.swapped || (s.onLoan c && decide (x < 5))) &&
    !s.frozen c && !(k.saving && decide (x ≥ 5) && !e.trapHandler) && !e.stopped && !(decide (x = 2) && k.pend.any Pend.ofA)

/-- A context may issue next: it runs, its attempt of this cycle, if any, did not wait, and it stands at a word or a header. -/
def State.ready (s : State) (c x : Nat) : Bool :=
  let e := (s.cl c).cx x
  s.canRun c x && !e.blocked && (match e.phase with
    | .header | .body | .fence _ | .wseg _ => true
    | _ => false)

/-- The contexts of the C engine that its round serves before context x (13 R207). -/
def beforeC (last x : Nat) : List Nat :=
  (if last = 0 then [5, 6, 0] else if last = 5 then [6, 0, 5] else [0, 5, 6]).takeWhile (· != x)

/-- Another context of the C engine that is ready goes first in its round (13 R207). -/
def State.outOfTurn (s : State) (c x : Nat) : Bool :=
  decide (engOf x = 0) && (beforeC (s.cl c).lastC x).any fun y => s.ready c y

/-- A context may issue. -/
def State.canIssue (s : State) (c x : Nat) : Bool := s.canRun c x && !s.outOfTurn c x

/-- The context cannot issue again in this cycle: it has tried and waits, it or a later one of the cluster has issued, or another context of
the C engine has (11 R152, 13 R207). -/
def Cluster.clash (k : Cluster) (x : Nat) : Bool :=
  (k.cx x).blocked || k.issued.any fun y => decide (orderOf x ≤ orderOf y) || (engOf x == 0 && engOf y == 0)

/-- Fetch `n` parcels from an address, or the parcel that cannot be fetched. -/
def State.fetchRun (s : State) (c x : Nat) (a : Parcel) : Nat → Except (Parcel × Trap) (List Parcel)
  | 0 => .ok []
  | n + 1 => match s.fetch c x a with
    | .error t => .error (a, t)
    | .ok p => match s.fetchRun c x (a + 1) n with
      | .error e => .error e
      | .ok ps => .ok (p :: ps)

/-- Forms that a kind of cluster does not take (11 R153, R171, 13 R179): checked at step 3 of R126. -/
def kindOk (ring : Bool) : Instr → Bool
  | .wseg _ | .wrel _ => ring
  | .fenceAcq w | .fenceRel w | .fenceAr w | .fenceSc w | .qfence w =>
    let m := w.imm.toNat
    if ring then !m.testBit 3 else !m.testBit 2 && !m.testBit 4
  | _ => true

/-- The guard of a word (09 R120). -/
def guardOf (i : Instr) : Bool × BitVec 3 :=
  match i.body with
  | some (.a w) => (w.gn, w.gp)
  | some (.b w) => (w.gn, w.gp)
  | some (.c w) => (w.gn, w.gp)
  | some (.p w) => (w.head.gn, w.head.gp)
  | none => (false, 0)

/-- The parameter block of a Form P. -/
def parOf (i : Instr) : Option (BitVec 384) :=
  match i.body with
  | some (.p w) => some w.par
  | _ => none

/-- What a turn comes to: an answer, or an instruction to execute. -/
inductive Plan where
  | answer (o : Out)
  | run (i : Instr) (s : State)

/-- The decoded word of the issuing context: the instruction, or the trap its parcels give, at a parcel (09 R126 steps 1 to
4, 11 R141). -/
def State.wordAt (s : State) : Except (Parcel × Trap) Instr :=
  let (c, x) := s.cur
  let e := s.ctx
  let ill (o : Nat) : Except (Parcel × Trap) Instr := .error (e.pc, { cause := .illegal, opnd := o })
  if e.secE < e.pc.toNat + 3 then ill 0
  else match s.fetchRun c x e.pc 3 with
    | .error t => .error t
    | .ok ps =>
      let opc := (ps.getD 2 0).toNat / 2 ^ 24
      match opcForm opc with
      | none => ill 0
      | some f =>
        if !opcAccepted opc (isRing c) (engOf x) then .error (e.pc, { cause := .engMismatch })
        else
          -- the form of the head comes before the overrun of its parameter words
          let more := if f = 3 ∧ e.pc.toNat + 15 ≤ e.secE then s.fetchRun c x (e.pc + 3) 12 else .ok []
          match more with
          | .error t => .error t
          | .ok qs => match decode (ps ++ qs) with
            | .error (.form o) => ill o.toNat
            | .error _ => ill 0
            | .ok (i, _) =>
              if !kindOk (isRing c) i then ill 0
              else match parOf i with
                | none => .ok i
                | some p =>
                  let fs := parFields p
                  if parHeadOk i fs && parFixed i fs then .ok i
                  else .error (e.pc, { cause := .param })

/-- The word names a v register. -/
def namesV (i : Instr) : Bool :=
  let isV (o : Opnd) : Bool := match o with
    | .v _ => true
    | _ => false
  match i.body with
  | some (.a w) => isV w.dst || isV w.sa || isV w.sb || isV w.sc
  | some (.b w) => isV w.dst || isV w.sa
  | some (.c w) => isV w.dst || isV w.sa
  | some (.p w) => isV w.head.dst || isV w.head.sa || isV w.head.sb || isV w.head.sc
  | none => false

/-- A word that is about to run accesses v registers: ECNTW may count (07 R107). -/
def State.noteV (s : State) (i : Instr) : State := if namesV i then s.modMe fun k => { k with vAcc := true } else s

/-- Issue the word at the PC: a trap, a guarded-off word, or the instruction. -/
def State.issueWord (s : State) : Plan :=
  match s.wordAt with
  | .error (p, t) => .answer (.next (s.takeTrap s.cur.1 s.cur.2 p t).used)
  | .ok i =>
    let g := guardOf i
    if s.ctx.getP g.2.toNat != g.1 then .run i (s.noteV i)
    else .answer (.next (s.complete i.parcels))

/-- A word that has been issued and waits for its page goes on whatever has stopped its engine since: it is no further issue (19 R286, 11
R173, 07 R103). -/
def State.goesOn (s : State) (c x : Nat) : Bool :=
  decide (((s.cl c).cx x).run = .running) && (s.hub.power.runs || decide (s.hub.power = .h)) && ((s.cl c).cx x).waitsPage

/-- The turn of the current context. -/
def State.issueTurn (s : State) : Plan :=
  let (c, x) := s.cur
  if !s.canIssue c x && !s.goesOn c x then .answer (.next s)
  else match s.ctx.phase with
    | .header => .run (.headerReached c x) s
    | .start _ _ k => if k = .waits ∨ k = .rotate then .run (.segmentKeyHit c x) s else .run (.sectionStart c x) s
    | .accept .. | .post | .bank _ _ | .shoot _ _ _ => .answer (.next s.used)
    | .kvapp r => .run (if r.isBeam then .kvappBeam r.word else .kvapp r.word) s
    | .body | .fence _ | .brWait _ | .wseg _ => s.issueWord

/-- A ring die whose tick ends with this cycle and has not ended yet (00 R6: a tick is 64 cycles). -/
def State.tickDue (s : State) : Option Nat :=
  (List.range 8).find? fun d => (s.ring d).run && !(s.ring d).halted && decide (Config.cyclesPerTick * ((s.ring d).ticks + 1) ≤ s.cycle.toNat + 1)

/-- The oldest command of the M engine whose next row is due in a cycle (17 R267 to R269): row i in cycle issue + 1 + i. -/
def Cluster.dueMover (k : Cluster) (now : Nat) : Option Mover := k.m.movers.find? fun v => decide (v.cyc + 1 + v.done ≤ now)

/-- A cluster with a row that moves in this cycle. -/
def State.rowDue (s : State) : Option Nat := (s.clusters.find? fun e => (e.2.dueMover s.cycle.toNat).isSome).map (·.1)

/-- The cycle ends, after the accumulator rows that move in it and the ticks that end with it. -/
def State.planEnd (s : State) : Plan :=
  match s.rowDue, s.tickDue with
  | some c, _ => .run (.mdrainRowLands c) s
  | none, some d => .run (.tickEnd d) s
  | none, none => .answer (.next s.endCycle)

/-- Steps that the clock brings about at the end of a cycle, and no turn (00 R6, 17 R267). -/
def clocked (i : Instr) : Bool :=
  match i with
  | .tickEnd _ | .mdrainRowLands _ => true
  | _ => false

/-- The next turn (log 1): with none left, or when the context's slot of this cycle is used, the cycle ends. A word is issued, and is
no event; nor is a step of the clock. -/
def State.plan (s : State) : Plan :=
  match s.turns with
  | [] => s.planEnd
  | .event i :: ts => if i.body.isSome || clocked i then .answer (.next { s with turns := ts }) else .run i { s with turns := ts }
  | .issue c x :: ts =>
    if (s.cl c).clash x then s.planEnd
    else { s with turns := ts, cur := (c, x) }.issueTurn

/-! ### Placing a word (log 4) -/

/-- The cluster and context that run a word of an OPC: the first that accepts it, a ring cluster before an attention cluster
(09 R128). -/
def placeAt (opc : Nat) : Nat × Nat :=
  if opc < 0x40 then (0, 0) else if opc < 0x57 then (if [0x41, 0x43, 0x45, 0x47, 0x49, 0x4B, 0x4F, 0x50, 0x55].contains opc then (0, 4) else (0, 1))
  else if opc < 0xB0 then (0, 3) else if opc < 0xC0 then (0, 2) else (256, 2)

/-- A state whose next step runs the word with these bits: the parcels stand in the cluster's SRAM from byte 64 on, which
the LTT's entry 0 maps at virtual address 0; the access table lets the cluster read; a system task runs,
and the context is in the body of a section that holds the word. -/
def State.placeWord (s : State) (w : Nat) : State :=
  let (c, x) := placeAt (w / 2 ^ 88 % 256)
  let d := dieOf c
  let base := s.here (sramBase c)
  let e := { (s.cl c).cx x with
    run := .running, phase := .body, pc := 16, secF := 16, secE := 31, inSec := true, next := 1, last := none, openSecs := [0]
    stopped := false, blocked := false }
  let k := { (s.cl c) with task := some 0, halted := false, byHalt := false, issued := [], ctx := SMap.set (s.cl c).ctx x e }
  { s with
    turns := [.issue c x]
    clusters := SMap.set s.clusters c k
    ltt := SMap.set s.ltt (d * 4096) (BitVec.ofNat 128 (2 ^ 127 + base / 2 ^ 21 * 2 ^ 21))
    access := SMap.set s.access (d * 4096 + masterOf c x) 0xF
    mem := memWrite s.mem (base + 64) (natBytes 60 w)
    sups := SMap.set s.sups d { (s.sup d) with frz := 0 } }

end Sys2Proof.Machine
end

