-- ==== Sys2Proof/Machine/Window.lean ====
section
/-! DEFINITION. Tasks in flight as clusters see them, the current window, and segment keys (03 R52, 23 R320 to R324). -/

namespace Sys2Proof.Machine

/-- The task a cluster runs, as its Distributor holds it. -/
def State.taskOn (s : State) (c : Nat) : Option Task :=
  match (s.cl c).task with
  | none => none
  | some r => (s.dist (dieOf c)).tasks.find? fun t => t.tid == recTid r

/-- Change a task in flight on die t. -/
def State.modTask (s : State) (t : Nat) (tid : BitVec 32) (f : Task → Task) : State :=
  s.modDist t fun q => { q with tasks := q.tasks.map fun x => if x.tid == tid then f x else x }

/-- Change the task a cluster runs. -/
def State.modTaskOn (s : State) (c : Nat) (f : Task → Task) : State :=
  match (s.cl c).task with
  | none => s
  | some r => s.modTask (dieOf c) (recTid r) f

/-- The timing source of an A-die's Distributor (03 R52). -/
def Dist.srcDie (q : Dist) (t : Nat) : Nat := q.src.getD (2 * (t - 8))

/-- FRAME, TICK and ROT as die t reads them (03 R51, R52). -/
def State.frameOf (s : State) (t : Nat) : BitVec 48 :=
  if t < 8 then (s.ring t).frame else if (s.dist t).held then (s.dist t).hframe else (s.ring ((s.dist t).srcDie t)).frame
def State.tickOf (s : State) (t : Nat) : BitVec 12 :=
  if t < 8 then (s.ring t).tick else if (s.dist t).held then (s.dist t).htick else (s.ring ((s.dist t).srcDie t)).tick
def State.rotOf (s : State) (t : Nat) : BitVec 32 :=
  if t < 8 then (s.ring t).rot else if (s.dist t).held then (s.dist t).hrot else (s.ring ((s.dist t).srcDie t)).rot
/-- Ticks counted on a die's Escapement, or on an A-die's timing source (03 R48). -/
def State.ticksOf (s : State) (t : Nat) : Nat :=
  if t < 8 then (s.ring t).ticks else (s.ring ((s.dist t).srcDie t)).ticks
/-- FLEN of a die (03 R40). -/
def State.flenOf (s : State) (t : Nat) : Nat :=
  if t < 8 then (s.ring t).flen.toNat else (s.ring ((s.dist t).srcDie t)).flen.toNat

/-- The generation of a die's current window (23 R320): none between a release and the next frame start (log 72). -/
def State.genNow (s : State) (t : Nat) : Option Gen :=
  let r := s.ring t
  if t < 8 ∧ r.inWin then r.win.map fun w => { rot := r.rot, tag := w.tag } else none

/-- The task is a holder of a window generation (23 R321). -/
def Task.isHolder (t : Task) (g : Gen) : Bool :=
  recKeyed t.rcd && recKey t.rcd == g.tag && t.holds == some g && !t.wrel && !t.missed.contains g

/-- The task is marked missed for a generation (23 R323). -/
def Task.miss (t : Task) (g : Gen) : Task := if t.missed.contains g then t else { t with missed := t.missed ++ [g] }

/-- How a segment key stands (23 R324). -/
inductive KeyRes where
  | hit
  | waits
  | missOwn
  | missOther
  deriving DecidableEq, Repr

/-- A generation matches a key. -/
def keyMatch (g : Gen) (tag : BitVec 24) (rotsel : BitVec 32) : Bool := g.tag == tag && (rotsel == 0xFFFFFFFF || g.rot == rotsel)

/-- The key of a task is its own: a keyed task with the key's tag (23 R324). -/
def Task.ownKey (t : Task) (tag : BitVec 24) : Bool := recKeyed t.rcd && recKey t.rcd == tag

/-- A key that is not the task's own, against the window of die d (23 R324). -/
def State.otherKey (s : State) (d : Nat) (tag : BitVec 24) (rotsel : BitVec 32) : KeyRes :=
  if (s.genNow d).any fun g => keyMatch g tag rotsel then .hit
  else if rotsel != 0xFFFFFFFF && 1 ≤ ((s.ring d).rot - rotsel).toNat && ((s.ring d).rot - rotsel).toNat < 2 ^ 31 then .missOther
  else .waits

/-- The key of a cluster's task is checked against its die's window (23 R324); an arrival handler on a cluster without a task is as an
unkeyed task (log 66). -/
def State.keyCheck (s : State) (c : Nat) (tag : BitVec 24) (rotsel : BitVec 32) : KeyRes :=
  match (s.taskOn c).filter fun t => t.ownKey tag with
  | some t => if (s.genNow (dieOf c)).any fun g => keyMatch g tag rotsel && t.isHolder g then .hit else .missOwn
  | none => s.otherKey (dieOf c) tag rotsel

/-- Engines forked since the last rendezvous have all arrived (03 R32). -/
def Cluster.allArrived (k : Cluster) : Bool :=
  [1, 2, 3, 4].all fun x => !(k.cx x).forked || decide ((k.cx x).run = .arrived)

/-- The M engine has commands that are not complete (17 R266). -/
def MEng.busy (m : MEng) : Bool := !m.nests.isEmpty || !m.movers.isEmpty

/-- TRAPINFO of a dropped nest (17 R265). -/
def Drop.info (d : Drop) : BitVec 64 := BitVec.ofNat 64 (d.pc.toNat + d.tag.toNat * 2 ^ 32)

/-- Report the first dropped nest that `p` picks: STALEBIND on the current word, and the drop is cleared (17 R265). -/
def State.reportDrop (s : State) (p : Drop → Bool) : Option State :=
  match s.me.m.drop.find? p with
  | none => none
  | some d => some ((s.modMe fun k => { k with m := { k.m with drop := k.m.drop.filter (·.id != d.id) } }).trapHere
      { cause := .staleBind, info := some d.info })

end Sys2Proof.Machine
end

