-- ==== Sys2Proof/Machine/HubRegs.lean ====
section
/-! DEFINITION. The hub registers that any permitted master writes: those whose rules name no writer (00 R7, log 66): PARTCFG and PARTSUP (01
R21), GWROUTE, GWRMT and GWMC (27 R350, R351), FABCFG (27 R364); and bytes written to configuration space by a master that is no hub core. -/

namespace Sys2Proof.Machine

/-- The ring dies and A-dies are up: not in S, Off or the management state (31 R392, R396). -/
def Hub.diesUp (h : Hub) : Bool := h.power != .s && h.power != .off && !h.ms
/-- Die t is up: an A-die held in reset is not (31 R394). -/
def Hub.dieUp (h : Hub) (t : Nat) : Bool := h.diesUp && !(decide (8 ≤ t) && decide (t < 12) && h.held.getLsbD (t - 8))

/-- A ring die that is bypassed, and so fenced off, on some register. -/
def State.bypassed (s : State) (d : Nat) : Bool := (List.range 8).any fun e => (s.ring e).bypass.getLsbD d

/-- Ring dies of a partition that are live: not bypassed. -/
def State.liveDies (s : State) (p : Nat) : List Nat := (List.range 8).filter fun d => s.partOf d == p && !s.bypassed d

/-- A die is halted: its ring does not run and none of its clusters can issue (log 27). -/
def State.dieHalted (s : State) (t : Nat) : Bool :=
  !(decide (t < 8) && (s.ring t).run) && (dieClusters t).all fun c => (s.cl c).halted || (s.cl c).byHalt || (s.cl c).task.isNone

/-- Every die's Distributor takes the lowest-numbered live ring die of its partition as its master (03 R49); a master in another module,
which an election has named, stays (log 49). -/
def State.setMasters (s : State) : State :=
  (List.range 12).foldl (fun s t => match (s.liveDies (s.partOf t)).head? with
    | some m => if s.ringSpans m && decide (8 ≤ (s.dist t).master) then s else s.modDist t fun q => { q with master := m }
    | none => s) s

/-- The master of a partition, when it is a die of this module (03 R49). -/
def State.masterHere (s : State) (p : Nat) : Option Nat :=
  match s.liveDies p with
  | [] => none
  | m :: _ => if (s.dist m).master < 8 then some (s.dist m).master else none

/-- PARTCFG: SUPV and SHAPE are written while every die is halted; SHAPE 11 is ignored. `bad` is what an ignored write leaves. -/
def State.writePartcfg (s bad : State) (v : Nat) : State :=
  if bitsNat v 1 0 = 3 || !((List.range 12).all s.dieHalted) then bad
  else (s.modHub fun h => { h with supv := BitVec.ofNat 16 (bitsNat v 31 16), shape := BitVec.ofNat 2 v }).setMasters

/-- PARTSUP, under the rule of PARTCFG. -/
def State.writePartsup (s bad : State) (v : BitVec 64) : State :=
  if (List.range 12).all s.dieHalted then s.modHub fun h => { h with sup := v } else bad

/-- FABCFG. -/
def State.writeFabcfg (s bad : State) (v : BitVec 64) : State :=
  let l := BitVec.ofNat 10 v.toNat
  let now := s.cycle.toNat
  if l = 0 ∨ 1000 < l.toNat then bad
  else s.modHub fun h => { h with
    lease := l, oldLeases := (h.oldLeases.filter fun e => decide (now < e.2 + Config.cycles1ms)) ++ [(h.lease, now)] }

/-- The lease that a shoot-down which starts now waits for: LEASE, or a larger value that was replaced less than 1 ms ago (27 R364). -/
def Hub.leaseNow (h : Hub) (now : Nat) : Nat :=
  (h.oldLeases.filter fun e => decide (now < e.2 + Config.cycles1ms)).foldl (fun m e => max m e.1.toNat) h.lease.toNat

/-- A register that any permitted master writes, at an 8-byte aligned offset; none for every other offset. -/
def State.openReg (s bad : State) (o : Nat) (v : BitVec 64) : Option State :=
  if o = 0x10F00 then some (s.writeFabcfg bad v)
  else if 0x12400 ≤ o ∧ o < 0x12600 then
    some (s.modHub fun h => { h with gwroute := SMap.set h.gwroute ((o - 0x12400) / 8) (BitVec.ofNat 4 v.toNat) })
  else if 0x12800 ≤ o ∧ o < 0x12A00 then
    some (s.modHub fun h => { h with gwrmt := SMap.set h.gwrmt ((o - 0x12800) / 8) (BitVec.ofNat 4 v.toNat) })
  else if 0x12C00 ≤ o ∧ o < 0x13000 then
    some (if o % 16 = 0 then s.modHub fun h => { h with gwmask := SMap.set h.gwmask ((o - 0x12C00) / 16) v }
      else s.modHub fun h => { h with gwval := SMap.set h.gwval ((o - 0x12C00) / 16) (v.getLsbD 0) })
  else if o = 0x14018 then some (s.writePartcfg bad v.toNat)
  else if o = 0x14020 then some (s.writePartsup bad v)
  else none

/-- The 8 bytes at an 8-byte aligned offset with bytes written from an offset up over them. -/
def State.cfgMerged (s : State) (o off : Nat) (bs : List Byte) : BitVec 64 :=
  BitVec.ofNat 64 (bytesNat ((List.range 8).map fun i =>
    if off ≤ o + i ∧ o + i < off + bs.length then bs.getD (o + i - off) 0 else s.cfgByte (o + i)))

/-- A permitted write by a master other than a hub core to configuration space: a register that hub cores alone write ignores it, and a
fault record says so (07 R111, CFGIGN); so it is at an offset that is read only or that no register occupies (log 71). -/
def State.cfgPut (s : State) (m off : Nat) (bs : List Byte) : State :=
  (List.range ((off % 8 + bs.length + 7) / 8)).foldl (fun s i =>
    let o := off - off % 8 + 8 * i
    let bad := s.cfgIgnoredBy m o
    (s.openReg bad o (s.cfgMerged o off bs)).getD bad) s

/-- Bytes written for master m at a permitted address: memory, or configuration space. -/
def State.put (s : State) (m pa : Nat) (bs : List Byte) : State × Bool :=
  if isCfg pa && !s.isFar pa && !isWin pa then (s.cfgPut m (pa % 2 ^ 24) bs, true) else s.store pa bs

end Sys2Proof.Machine
end

