-- ==== Sys2Proof/Machine/Access.lean ====
section
/-! DEFINITION. What every transfer shares (13 R180 to R186, R199, R201, 21 R293 to R305): addresses, the checks at issue, the
queues, acceptance, when an access may be performed, performing it, and landing its result. -/

namespace Sys2Proof.Machine

/-! ### Links and paths (27 R350, R356) -/

/-- Index of the in-module link between two dies (0 to 7 ring dies, 8 to 11 A-dies, 12 the hub), the lower one first. -/
def linkIndex (a b : Nat) : Option Nat :=
  if b < 8 then some (a * 8 - a * (a + 1) / 2 + (b - a - 1))
  else if a < 8 ∧ b < 12 then (if b = 8 + a / 2 then some (28 + a) else none)
  else if b < 12 then some (36 + (if a = 8 then b - 9 else if a = 9 then b - 7 else 5))
  else if a < 8 then some (42 + a) else if a < 12 then some (50 + (a - 8)) else none

/-- Links a request passes from die t to target u of this module: one link, or by way of the station's A-die. -/
def pathIn (t u : Nat) : List Nat :=
  let u := min u 12
  if t = u then []
  else match linkIndex (min t u) (max t u) with
    | some i => [i]
    | none =>
      let d := min t u
      let a := max t u
      (linkIndex d (8 + d / 2)).toList ++ (linkIndex (min (8 + d / 2) a) (max (8 + d / 2) a)).toList

/-- Links a request passes from die t to a physical address. -/
def State.path (s : State) (t pa : Nat) : List Nat :=
  if s.isFar pa then pathIn t 12 ++ [54 + (SMap.get 0 s.hub.gwroute (pa / 2 ^ 46)).toNat % 8]
  else pathIn t ((s.target pa).getD 12)

/-- Ring die t refuses the traffic of ring die d, which it bypasses (23 R326). -/
def State.shuns (s : State) (t d : Nat) : Bool := decide (d < 8) && decide (t < 8) && t != d && (s.ring t).bypass.getLsbD d
/-- The target of an address refuses the traffic of die d. -/
def State.shutOut (s : State) (d pa : Nat) : Bool := !s.isFar pa && (match s.target pa with
  | some t => s.shuns t d
  | none => false)

/-- A link on the way to a physical address is declared dead (27 R355), or the target refuses the die's traffic. -/
def State.deadPath (s : State) (c pa : Nat) : Bool :=
  ((s.path (dieOf c) pa).any fun i => (s.link i).dead) || s.shutOut (dieOf c) pa

/-! ### The Atomic paths capability (01 R22, R23; payload layout log 14) -/

/-- A word of the capability list: the list starts at offset CAPPTR. -/
def Hub.capWord (h : Hub) (off : Nat) : Nat := (h.caps.getD ((off - h.capptr.toNat) / 8) 0).toNat

/-- Payload of the first capability with an ID: the list is walked as R22 sets, `n` entries at most. -/
def Hub.findCap (h : Hub) (id : Nat) : Nat → Nat → List Nat
  | 0, _ => []
  | n + 1, off =>
    if off = 0 ∨ off % 8 ≠ 0 then []
    else
      let w := h.capWord off
      if w / 2 ^ 48 = id then (List.range (w / 2 ^ 32 % 256)).map fun i => h.capWord (off + 8 + 8 * i)
      else h.findCap id n (w % 2 ^ 32)

/-- The CXL port behind which an address of this module lies: 62 and its A-die's number. -/
def State.cxlPort (s : State) (pa : Nat) : List Nat :=
  let r := pa % 2 ^ 46 / 2 ^ 42
  if s.isFar pa || !(decide (2 ≤ r) && decide (r < 6)) then [] else [62 + (r - 2)]

/-- The class and scope of an atomic are carried by every port on its path (13 R196): ports are numbered as links, CXL ports from 62. A list
without an Atomic paths entry denies none (log 14). -/
def State.atomCarried (s : State) (c pa cls scope : Nat) : Bool :=
  let ports := s.hub.findCap 3 s.hub.caps.length s.hub.capptr.toNat
  let on := s.path (dieOf c) pa ++ s.cxlPort pa
  ports.zipIdx.all fun p => !on.contains p.2 || (p.1.testBit cls && decide (scope ≤ p.1 / 256 % 16))

/-! ### Addresses and the checks at issue (R180, R181) -/

/-- Effective address of an instruction with an offset (R180). -/
def eaOf (base : Word) (off : BitVec 24) : Word := base + off.signExtend 64

/-- Step 1: the effective address has bits [63:56] zero. -/
def checkEa (ea : Word) : Chk Unit := trapIfInfo (decide (2 ^ 56 ≤ ea.toNat)) .unmapped ea

/-- Step 2: alignment. -/
def checkAlign (ea : Word) (n : Nat) (opnd : Nat := 0) : Chk Unit := trapIfInfo (ea.toNat % n != 0) .misalign ea opnd

/-- The parts of `len` bytes at virtual address `va` that lie in one 64-byte granule each; not yet translated. -/
def granuleParts (off va len : Nat) : List Piece :=
  if len = 0 then []
  else (List.range ((va % 64 + len + 63) / 64)).map fun i =>
    let lo := max va (va / 64 * 64 + 64 * i)
    let hi := min (va + len) (va / 64 * 64 + 64 * (i + 1))
    { off := off + (lo - va), va := lo, pa := 0, len := hi - lo }

/-- Two ascending lists of parts in one ascending order of address; the flag of each says that it is written. -/
def mergeParts : Nat → List (Piece × Bool) → List (Piece × Bool) → List (Piece × Bool)
  | 0, a, b => a ++ b
  | _ + 1, [], b => b
  | _ + 1, a, [] => a
  | n + 1, x :: a, y :: b => if x.1.va ≤ y.1.va then x :: mergeParts n a (y :: b) else y :: mergeParts n (x :: a) b

/-- Translate one part; or the address at fault. -/
def State.placePart (s : State) (c : Nat) (asid : BitVec 8) (p : Piece) : Except Nat (Piece × Bool) :=
  match s.translate c asid p.va with
  | none => .error p.va
  | some (pa, wp) =>
    if (s.translate c asid (p.va + p.len - 1)).isSome then .ok ({ p with pa := pa }, wp)
    else .error (p.va + (((List.range p.len).find? fun i => (s.translate c asid (p.va + i)).isNone).getD 0))

/-- Translate parts in order (step 3); each with its write flag and with WP. -/
def State.placeAll (s : State) (c : Nat) (asid : BitVec 8) : List (Piece × Bool) → Except Nat (List (Piece × Bool × Bool))
  | [] => .ok []
  | p :: ps => match s.placePart c asid p.1 with
    | .error a => .error a
    | .ok (q, wp) => match s.placeAll c asid ps with
      | .error a => .error a
      | .ok qs => .ok ((q, p.2, wp) :: qs)

/-- Steps 3 to 5 of R181, one after another, each over all parts in order; `atom` holds the class and scope of an atomic. -/
def State.reach (s : State) (parts : List (Piece × Bool)) (atom : Option (Nat × Nat)) : Chk (List Piece) :=
  let c := s.cur.1
  match s.placeAll c (s.me.asid s.cur.2) parts with
  | .error va => trapInfo .unmapped (BitVec.ofNat 64 va)
  | .ok ps =>
    match ps.find? fun p => p.2.1 && (p.2.2 || s.isRo p.1.pa) with
    | some p => .error (.trap { cause := .roWrite, info := some (BitVec.ofNat 64 p.1.va)
                                tgt := if p.2.2 then 0xFF else s.targetCode p.1.pa })
    | none =>
      match atom with
      | none => .ok (ps.map (·.1))
      | some (cls, scope) => match ps.find? fun p => !s.atomCarried c p.1.pa cls scope with
        | some p => trapInfo .atomPath (BitVec.ofNat 64 p.1.va)
        | none => .ok (ps.map (·.1))

/-- A read that the C engine makes at once (11 R146, R166, R174): translated, permitted, correctable. -/
def State.readNow (s : State) (c x : Nat) (va n : Nat) : Except Trap (List Byte) :=
  match s.placeAll c ((s.cl c).asid x) ((granuleParts 0 va n).map fun p => (p, false)) with
  | .error a => .error { cause := .unmapped, info := some (BitVec.ofNat 64 a) }
  | .ok ps =>
    match ps.find? fun p => s.readRefused (masterOf c x) p.1.pa with
    | some p => .error { cause := .refused, info := some (BitVec.ofNat 64 p.1.va), tgt := s.targetCode p.1.pa }
    | none => match ps.find? fun p => s.readFails p.1.pa p.1.len with
      | some p => .error { cause := .eccFatal, info := some (BitVec.ofNat 64 p.1.va), tgt := s.targetCode p.1.pa }
      | none => .ok (ps.flatMap fun p => s.bytes p.1.pa p.1.len)

/-! ### Accesses and queues (R184, 21 R293) -/

/-- The join bit of the queue of a context's transfers. -/
def queOf (x : Nat) : Nat := if x = 1 then 0 else if x = 4 then 1 else 3

/-- The operation writes memory. -/
def MemOp.writes : MemOp → Bool
  | .store _ | .copy .. | .atom .. | .red .. | .qpush .. | .token .. => true
  | _ => false

/-- A write or an atomic, which a rel fence of another queue holds back (21 R303): a pop updates its descriptor, a message its slot. -/
def MemOp.updates (o : MemOp) : Bool := o.writes || match o with
  | .qpop .. | .msg .. => true
  | _ => false

/-- The operation reads memory. -/
def MemOp.reads : MemOp → Bool
  | .store _ | .red .. | .qpush .. | .pref | .token .. => false
  | _ => true

/-- Not yet performed, and not given up. -/
def Access.isOpen (a : Access) : Bool := !a.pieces.isEmpty && a.fail != some .timeout
/-- Not yet performed, and it can still be. -/
def Access.live (a : Access) : Bool := a.isOpen && a.fail != some .deadlink

/-- What an access reads apart from its pieces. -/
def Access.sources (a : Access) : List Piece :=
  match a.op with
  | .copy src _ => src
  | _ => []

/-- The granules an access has still to touch. -/
def Access.granules (a : Access) : List Nat := (a.pieces ++ a.sources).map fun p => p.pa / 64

/-- The access has been performed at a scope (21 R294): at its home; or it is a store that every later read in the scope's instance
waits for. An engine's later reads of the granule wait for its own store. -/
def Access.doneAt (a : Access) (sc : Nat) : Bool :=
  a.pieces.isEmpty || (match a.op with
    | .store _ => sc == 0 || (match a.vis with
      | some v => decide (sc ≤ v.scope)
      | none => false)
    | .token .. => decide (sc ≤ 5)
    | _ => false)

/-- Two accesses go to one granule. -/
def Access.meets (a b : Access) : Bool := a.granules.any b.granules.contains

/-- Accesses that wait for acceptance. -/
def Cluster.accepting (k : Cluster) : List Access :=
  k.ctx.flatMap fun e => match e.2.phase with
    | .accept a _ _ _ => a
    | _ => []

/-- A new access of the issuing context; `i` counts those of one instruction. -/
def State.newAccess (s : State) (i : Nat) (op : MemOp) (va : Nat) (pieces : List Piece) : Access :=
  { id := s.seq + i, x := s.cur.2, que := queOf s.cur.2, sec := s.ctx.secNow, cyc := s.cycle.toNat, op := op, va := va
    pieces := pieces, scope := 0, acq := false, rel := false, asid := s.me.asid s.cur.2, data := [], err := none, fail := none
    vis := none, first := none, landed := false }

/-- The hold of a destination of the issuing context. -/
def State.holdOf (s : State) (o : Opnd) : Option Hold :=
  match o with
  | .s i => SMap.get? s.ctx.sHold i.toNat
  | .v i => SMap.get? s.me.hold (keyV i.toNat)
  | .k i => SMap.get? s.me.hold (keyK i.toNat)
  | .vm i => SMap.get? s.me.hold (keyVM i.toNat)
  | _ => none

/-- Issue a transfer: its destinations (physical operands) become empty, a queue destination reserves an entry for access `qid`,
and the engine waits for acceptance (R182); the queue registers among `srcs` are popped then (log 69). -/
def State.beginXfer (s : State) (accs : List Access) (grp : Bool) (dests : List Opnd) (qid : Nat := 0) (srcs : List Opnd := []) : State :=
  let undo := dests.map fun o => (o, s.holdOf o)
  let s := dests.foldl (fun s o => match o with
    | .q _ i => s.reserve i.toNat qid
    | _ => s.empties o) s;
  let s : State := { s with seq := s.seq + accs.length }
  s.modCtx fun e => { e with phase := .accept accs grp undo srcs }

/-- A destination gets back what it was (a refusal leaves nothing of its instruction). -/
def Cluster.undo1 (k : Cluster) (x : Nat) (ids : List Nat) (u : Opnd × Option Hold) : Cluster :=
  let back (h : SMap Hold) (i : Nat) : SMap Hold := match u.2 with
    | none => SMap.del h i
    | some v => SMap.set h i v
  let k := { k with land := k.land.filter fun l => !(l.x == x && l.dst == u.1 && l.kind == .empty) }
  match u.1 with
  | .s i => k.modCx x fun e => { e with sHold := back e.sHold i.toNat }
  | .v i => { k with hold := back k.hold (keyV i.toNat) }
  | .k i => { k with hold := back k.hold (keyK i.toNat) }
  | .vm i => { k with hold := back k.hold (keyVM i.toNat) }
  | .q _ i => { k with q := SMap.set k.q i.toNat { (k.getQ i.toNat) with
      ents := (k.getQ i.toNat).ents.filter fun e => !(ids.any fun n => e.resv == some n) } }
  | _ => k

/-- A transfer that waits for acceptance traps: its destinations are as before it. -/
def State.trapXfer (s : State) (c x : Nat) (accs : List Access) (undo : List (Opnd × Option Hold)) (t : Trap) : State :=
  let s := s.modCl c fun k => undo.foldl (fun k u => k.undo1 x (accs.map (·.id)) u) k
  let s := s.modCx c x fun e => { e with phase := .body }
  s.takeTrap c x ((s.cl c).cx x).pc t

/-! ### Failures (R183, R186, R201) -/

/-- No failure. -/
def FailRec.empty : FailRec := { ids := [], dead := false, tmo := false, ref := false, first := none }

/-- A failed store of queue `que`: it enters the failure record with the cycle of its report and its place in issue order, and counts
once. -/
def State.failStore (s : State) (c que id : Nat) (why : Fail) (tgt : Nat) : State :=
  s.modCl c fun k =>
    let f := SMap.get FailRec.empty k.fails que
    let g : FailRec :=
      { ids := if f.ids.contains id then f.ids else f.ids ++ [id], dead := f.dead || why == .deadlink, tmo := f.tmo || why == .timeout, ref := f.ref || why == .refused
        first := match f.first with
          | some (t, i, g) => some (if t = s.cycle.toNat ∧ id < i then (t, id, tgt) else (t, i, g))
          | none => some (s.cycle.toNat, id, tgt) }
    { k with fails := SMap.set k.fails que g }

/-- The fault record of an error that no instruction reports (R186); `phys`: the address is physical. -/
def State.eccRecord (s : State) (c x : Nat) (asid : BitVec 8) (va tgt : Nat) (phys : Bool := false) : State :=
  s.logFault (dieOf c) { Fault.Rec.plain .eccFatal (masterOf c x) with
    tid := (s.cl c).tid.toNat, addr := va, target := tgt, asid := asid.toNat, flg := if phys then 4 else 0 }

/-- The number under which a store counts: that of its instruction's first access, for the two streams of an STQ are one store (R190, R201). -/
def Access.store (a : Access) : Nat := a.first.getD a.id

/-- An unwritten unit of a store (R186): a failed store and a fault record. -/
def State.eccStore (s : State) (c : Nat) (a : Access) (p : Piece) : State :=
  (s.failStore c a.que a.store .other (s.targetCode p.pa)).eccRecord c a.x a.asid p.va (s.targetCode p.pa)

/-- The first part of an access, or of what it reads, that lies behind a dead link. -/
def State.deadPart (s : State) (c : Nat) (a : Access) : Option Piece := (a.pieces ++ a.sources).find? fun p => s.deadPath c p.pa

/-- The way to a target of an access passes a dead link. -/
def State.accessDead (s : State) (c : Nat) (a : Access) : Bool :=
  (s.deadPart c a).isSome || match a.op with
    | .msg _ _ m cl _ =>
      ((if m = s.hub.modNo then pathIn (dieOf c) (dieOf cl) else s.path (dieOf c) (m.toNat * 2 ^ 46)).any fun i => (s.link i).dead) ||
        (m == s.hub.modNo && s.shuns (dieOf cl) (dieOf c))
    | _ => false

/-- Part i of an access: of its pieces, then of what it reads beside them. -/
def Access.part (a : Access) (i : Nat) : Option Piece := (a.pieces ++ a.sources)[i]?

/-- The part at which an access fails: the first behind a dead link, else the one that has failed (`q`), else the first it has left. -/
def State.lostPart (s : State) (c : Nat) (a : Access) (q : Option Piece) : Option Piece :=
  (s.deadPart c a).orElse fun _ => q.orElse fun _ => a.pieces.head?

/-- The target an access names in a failure. -/
def State.accessTarget (s : State) (c : Nat) (a : Access) (q : Option Piece := none) : Nat :=
  match s.lostPart c a q with
  | some p => s.targetCode p.pa
  | none => 0xFF

/-- The address a failed read names: that of the instruction, or the lane's of a GATH (R183, log 41). -/
def State.lostVa (s : State) (c : Nat) (a : Access) (q : Option Piece := none) : Nat :=
  match a.op with
  | .gath .. => ((s.lostPart c a q).map (·.va)).getD a.va
  | _ => a.va

/-- Land results of a context at the end of this cycle. -/
def State.landAll (s : State) (c x sec : Nat) (ls : List (Opnd × LandKind)) : State :=
  s.modCl c fun k => { k with land := k.land ++ ls.map fun l =>
    { due := s.cycle.toNat + 1, x := x, sec := sec, dst := l.1, kind := l.2, flags := 0 } }

/-- What an access becomes when it fails (R183, R316): a read's or atomic's destination will be error-pending; a store or atomic under
TIMEOUT may still be performed, under DEADLINK never is. The failure of a store is counted. `q` is the part that has failed. -/
def State.failAccess (s : State) (c : Nat) (a : Access) (why : Fail) (q : Option Piece := none) : State × Option Access :=
  let tgt := s.accessTarget c a q
  let struck : Access := { a with pieces := [], fail := some why, err := some (BitVec.ofNat 64 (s.lostVa c a q), tgt) }
  let late : Option Access := if why == .timeout then some { a with fail := some why } else none
  match a.op with
  | .store _ | .copy .. | .red .. => (s.failStore c a.que a.store why tgt, late)
  | .atom none .. => (s.failStore c a.que a.id why tgt, late)
  | .atom (some d) op ty x y =>
    let s := s.failStore c a.que a.id why tgt
    if why == .timeout then
      (s.landAll c a.x a.sec [(.s d, .mark (BitVec.ofNat 64 a.va) (engOf a.x) tgt)], some { a with op := .atom none op ty x y, fail := some why })
    else (s, some struck)
  | .token .. => (s, late)
  | _ => (s, some struck)

/-! ### Order (21 R294 to R305) -/

/-- The station of a die. -/
def stationOf (t : Nat) : Nat := if t < 8 then t / 2 else t - 8

/-- Operations of nests and agents that a fence of cluster c with this mask still waits for: those started in or before a cycle (R297,
R303). A forward has read its segment when it starts, so that an acq fence (`rd`) waits for none; a tier move reads to its end. -/
def State.agentsOpen (s : State) (c : Nat) (mask : BitVec 6) (cyc : Nat) (rd expired : Bool) : Bool :=
  (mask.getLsbD 2 && (s.cl c).m.nests.any fun n => decide (n.cyc ≤ cyc)) ||
    (mask.getLsbD 3 && (match ((s.cl c).cx 2).phase with
      | .kvapp r => decide (r.cyc ≤ cyc)
      | _ => false)) ||
    (!expired && ((mask.getLsbD 4 && !rd && isRing c && (s.ring (dieOf c)).onWay.any fun w => decide (w.moved ≤ cyc)) ||
      (mask.getLsbD 5 && (s.adie (stationOf (dieOf c))).moves.any fun m => decide (m.cyc ≤ cyc))))

/-- Die u lies in the instance of a scope, DIE or wider, that contains die t (03 R64). The hub is 12, another module 13. An A-die lies in
the PAIR of each ring die of its station (log 70). -/
def dieInScope (sc t u : Nat) : Bool :=
  match sc with
  | 0 | 1 | 2 => false
  | 3 => t == u
  | 4 => t == u || (stationOf t == stationOf u && decide (u < 12) && (decide (8 ≤ t) || decide (8 ≤ u)))
  | 5 => decide (u < 12) && stationOf t == stationOf u
  | 6 => decide (u < 12)
  | 7 | 8 => decide (u < 13)
  | _ => true

/-- Cluster r lies in the instance of a scope that contains cluster c; an engine's own holds no other engine (03 R64). -/
def inScope (sc c r : Nat) : Bool :=
  match sc with
  | 0 => false
  | 1 => c == r
  | 2 => dieOf c == dieOf r && localOf c / 8 == localOf r / 8
  | _ => dieInScope sc (dieOf c) (dieOf r)

/-- A store that is performed with respect to a reader but has not reached its home, of those that `meets` picks: later reads by that
reader wait for it (R294). `sees` says whether the reader lies in the instance of a scope that contains a cluster. -/
def State.heldFor (s : State) (sees : Nat → Nat → Bool) (meets : Access → Shown → Bool) : Bool :=
  s.clusters.any fun e => e.2.mq.any fun b => b.live && (match b.vis with
    | some v => sees v.scope e.1 && meets b v
    | none => false)

/-- Cluster c's reads of a granule that `g` picks wait for a store. -/
def State.heldAt (s : State) (c : Nat) (g : Nat → Bool) : Bool := s.heldFor (fun sc j => inScope sc j c) fun b _ => b.granules.any g
/-- A read by cluster c of n bytes from a physical address waits for a store. -/
def State.readHeld (s : State) (c pa n : Nat) : Bool := s.heldAt c fun g => decide (pa / 64 ≤ g) && decide (g ≤ (pa + n - 1) / 64)
/-- A read by a context of n bytes from a virtual address waits for a store. -/
def State.vaHeld (s : State) (c x va n : Nat) : Bool :=
  match s.placeAll c ((s.cl c).asid x) ((granuleParts 0 va n).map fun p => (p, false)) with
  | .ok ps => ps.any fun p => s.readHeld c p.1.pa p.1.len
  | .error _ => false
/-- The reads of an agent on a die (12: the hub, 13: another module) wait for a store. -/
def State.dieHeld (s : State) (u : Nat) : Bool := s.heldFor (fun sc j => dieInScope sc (dieOf j) u) fun _ _ => true

/-- Accesses of cluster c from issue number id on come after. -/
def Seer.covers (y : Seer) (c id : Nat) : Bool :=
  match y with
  | .cluster j n => j == c && decide (n ≤ id)
  | .die t n => t == dieOf c && decide (n ≤ id)

/-- A store was performed at its scope before another access was: one that has not been so performed comes later. -/
def Shown.first (v : Shown) (a : Access) : Bool :=
  match a.vis with
  | some w => decide (v.order < w.order)
  | none => true

/-- A store that happens before a release of cluster c is not yet performed at the release's scope (R301): the release waits for it. -/
def State.seenOpen (s : State) (c : Nat) (a : Access) (sc : Nat) : Bool :=
  s.heldFor (fun _ _ => true) fun b v => !b.doneAt sc && v.first a && v.seen.any fun y => y.covers c a.id

/-- An access that a fence waits for: an earlier one of its own queue, or one that a joined queue's owner issued no later. -/
def Access.before (a : Access) (own : Nat) (mask : BitVec 6) (id cyc : Nat) : Bool :=
  if a.que = own then decide (a.id < id) else mask.getLsbD a.que && decide (a.cyc ≤ cyc)

/-- A fence joins a queue that is not its own, whose owner may still issue an earlier access in this cycle (R297). -/
def State.sameCycle (s : State) (own : Nat) (f : FenceRec) : Bool :=
  decide (f.kind < 4) && decide (f.cyc = s.cycle.toNat) && (List.range 6).any fun q => q != own && f.mask.getLsbD q

/-- A fence, or the wait of a TSPAWN (kind 4), still waits for an access to be performed at its scope. -/
def State.fenceOpen (s : State) (c own : Nat) (f : FenceRec) : Bool :=
  let k := s.cl c
  ((k.mq ++ k.accepting).any fun a => (if f.kind < 4 then a.isOpen else a.live && !s.accessDead c a) && !a.doneAt f.scope &&
      a.before own f.mask f.id f.cyc && (f.kind != 0 || a.op.reads)) ||
    s.agentsOpen c f.mask f.cyc (f.kind == 0) f.expired || s.sameCycle own f

/-- A QFENCE still holds its queue back (R202): its own queue's earlier accesses always do (log 42). -/
def State.markOpen (s : State) (c : Nat) (m : QMark) : Bool :=
  let k := s.cl c
  ((k.mq ++ k.accepting).any fun a => a.live && !a.doneAt m.scope && a.before m.que m.mask m.id m.cyc) ||
    s.agentsOpen c m.mask m.cyc false m.expired

/-- A fence in progress holds back what a joined queue's owner issued in a later cycle (R303). -/
def Cluster.fenceHolds (k : Cluster) (que cyc : Nat) (wr : Bool) : Bool :=
  [1, 4].any fun x => match (k.cx x).phase with
    | .fence f => decide (f.kind < 4) && queOf x != que && f.mask.getLsbD que && decide (f.cyc < cyc) && (f.kind != 1 || wr)
    | _ => false

/-- A fence of an engine of the cluster, or of a hub core (R293), holds an access of a queue back. -/
def State.fenced (s : State) (c que cyc : Nat) (wr : Bool) : Bool :=
  (s.cl c).fenceHolds que cyc wr || s.hub.fences.any fun f => decide (f.2 < cyc)

/-- An older access of the same queue goes first, when an access is performed at a scope: an acquire (R300), an access of the same granule
(R295), what a release follows (R299), a release before an acquire (R302), an earlier granule of the same COPY (13 R194). -/
def Access.after (a b : Access) (sc : Nat) : Bool :=
  b.acq || (a.meets b && !b.doneAt sc) || (a.rel && !b.doneAt (min sc a.scope)) || (a.acq && b.rel && !b.doneAt b.scope) ||
    (match a.op, b.op with
      | .copy _ i, .copy _ j => i == j
      | _, _ => false)

/-- The access may be performed now at a scope; 12 stands for its home. -/
def State.mayPerformAt (s : State) (c : Nat) (a : Access) (sc : Nat) : Bool :=
  let k := s.cl c
  !(k.mq.any fun b => b.que == a.que && decide (b.id < a.id) && b.live && a.after b sc) &&
    !(k.qf.any fun m => m.que == a.que && decide (m.id < a.id) && s.markOpen c m) &&
    !s.fenced c a.que a.cyc a.op.updates && !(a.rel && s.seenOpen c a (min sc a.scope))

/-- The access may be performed now at its home, which accepts the stores that its issuer's scope already sees first (R295, R304). -/
def State.mayPerform (s : State) (c : Nat) (a : Access) : Bool :=
  s.mayPerformAt c a 12 && !(s.heldFor (fun sc j => inScope sc j c) fun b v => b.id != a.id && a.meets b && v.first a)

/-! ### Happens-before (21 R301, R306, R307) -/

/-- Change the record of every store that is performed at a scope before its home performs it; `f` is given its cluster. -/
def State.mapShown (s : State) (f : Nat → Access → Shown → Shown) : State :=
  { s with clusters := s.clusters.map fun e => (e.1, { e.2 with mq := e.2.mq.map fun b => match b.vis with
      | some v => { b with vis := some (f e.1 b v) }
      | none => b }) }

/-- The shown stores that `p` picks happen before what comes after y. -/
def State.noteSeen (s : State) (p : Nat → Access → Shown → Bool) (y : Seer) : State :=
  s.mapShown fun j b v => if p j b v then { v with seen := v.seen ++ [y] } else v

/-- The shown store b of cluster j happens before access a of cluster c: it is earlier in a's queue, or has been seen. -/
def Shown.precedes (v : Shown) (j : Nat) (b : Access) (c : Nat) (a : Access) : Bool :=
  (j == c && b.que == a.que && decide (b.id < a.id)) || v.seen.any fun y => y.covers c a.id

/-- Access a of cluster c is performed on a granule: a release carries what happens before it, and an acquire that reads there takes up
what a release carried, where the instances of both contain the other (R298, R301). A value that a later plain store left there counts as the
release's (log 70). -/
def State.noteSync (s : State) (c : Nat) (a : Access) (g : Nat) : State :=
  let s := if a.acq then s.noteSeen (fun _ _ v => v.rels.any fun r => r.1 == g && inScope r.2.1 r.2.2 c && inScope a.scope c r.2.2) (.cluster c a.id)
    else s
  if a.rel then s.mapShown fun j b v => if v.precedes j b c a then { v with rels := v.rels ++ [(g, a.scope, c)] } else v else s

/-! ### Performing (R185, R186, R193 to R199) -/

/-- The bytes of a table between two offsets. -/
def sliceNat (m : SMap Byte) (off n : Nat) : Nat := bytesNat ((List.range n).map fun i => SMap.get 0 m (off + i))

/-- Record bytes read. -/
def keepBytes (m : SMap Byte) (off : Nat) (bs : List Byte) : SMap Byte :=
  (bs.zipIdx).foldl (fun m b => SMap.put 0 m (off + b.2) b.1) m

/-- The value an ATOM writes (R195). -/
def atomNew (op : Nat) (ty : Ty) (old b c : Nat) : Nat :=
  let w := ty.width
  match op with
  | 0 => (old + b) % 2 ^ w
  | 1 => old &&& b
  | 2 => old ||| b
  | 3 => old ^^^ b
  | 4 => if sgn w b < sgn w old then b else old
  | 5 => if sgn w old < sgn w b then b else old
  | 6 => min old b
  | 7 => max old b
  | 8 => b
  | 9 => if old = c then b else old
  | _ => (roundTo .f32 rne (XR.add .rne (Fmt.f32.decode old) (Fmt.f32.decode b)).1).1

/-- The value a REDST leaves in an element (R198). -/
def redNew (op : Nat) (ty : Ty) (m v : Nat) : Nat :=
  match ty with
  | .i32 =>
    match op with
    | 0 => (m + v) % 2 ^ 32
    | 1 => if sgn 32 v < sgn 32 m then v else m
    | _ => if sgn 32 m < sgn 32 v then v else m
  | _ =>
    let f := if ty = .bf16 then Fmt.bf16 else Fmt.f32
    let x := f.decode m
    let y := f.decode v
    match op with
    | 0 => (roundTo f rne (XR.add .rne x y).1).1
    | 1 => if y.rankLt x then (if y = .nan then f.nan else v) else m
    | _ => if x.rankLt y then v else m

/-- Store a granule's 8-byte units that master m's cluster could read; answers whether all could. -/
def State.copyUnits (s : State) (m src dst : Nat) : Nat → State × Bool
  | 0 => (s, true)
  | n + 1 =>
    let (s, ok) := s.copyUnits m src dst n
    if s.badAt (src + 8 * n) 8 then (s, false)
    else ((s.put m (dst + 8 * n) (s.bytes (src + 8 * n) 8)).1, ok)

/-! ### The Die Cache (27 R363) -/

/-- The home's RO bit is set and the home grants leases on a granule (27 R363, R365). -/
def State.leasable (s : State) (pa : Nat) : Bool :=
  s.isRo pa && !(s.shoots.any fun h => decide (h.gran ≤ pa / 4096) && decide (pa / 4096 < h.gran + h.n))

/-- The lease that a granule's home grants, in µs. Whether a home in another module answers with RO, and its LEASE, are not known here: a free
value up to 1,000, 0 for no lease (log 11). -/
def State.leaseOf (s : State) (pa : Nat) : Nat :=
  if s.isFar pa then Config.freeFar s.cycle.toNat pa % 1001 else if s.leasable pa then s.hub.lease.toNat else 0

/-- Put the 64-byte granule at an address into the Die Cache of a ring die (27 R363), when it may hold it. -/
def State.fillLine (s : State) (t pa : Nat) : State :=
  let g := pa / 64
  let far := s.isFar pa
  if t < 8 ∧ !isWin pa ∧ (far ∨ s.target pa ≠ some t) ∧ s.leaseOf pa ≠ 0 then
    let l : Line := { gran := g, bytes := s.bytes (g * 64) 64, leaseEnd := s.cycle.toNat + s.leaseOf pa * Config.cyclesPerUs
                      home := if far then 256 + pa / 2 ^ 46 else (s.target pa).getD 12 }
    s.modRing t fun r =>
      let ls := r.lines.filter (·.gran != g)
      { r with lines := (if ls.length < Config.cacheLines then ls else ls.eraseIdx (Config.freeEvict s.cycle.toNat % ls.length)) ++ [l] }
  else s

/-! ### A piece, and an access -/

/-- An access that was given up before its target had accepted it is checked when it is performed after all (R182, R183): a refused part is
dropped, with its fault record. -/
def State.lateRefused (s : State) (m : Nat) (a : Access) (bit : BitVec 4) (p : Piece) : Bool :=
  a.fail == some .timeout && !s.isFar p.pa && !s.mayAccess m bit p.pa

/-- Perform the next piece of an access at its home: the state, and the access as it then stands. An atomic on an uncorrectable unit writes
nothing, and counts as a failed store (log 41). -/
def State.pieceHome (s : State) (c : Nat) (a : Access) : State × Access :=
  match a.pieces with
  | [] => (s, a)
  | p :: rest =>
    let b := { a with pieces := rest }
    let m := masterOf c a.x
    match a.op with
    | .store bytes =>
      if s.lateRefused m a bitW p then (s.refuse c a.x (s.targetCode p.pa) p.va 0xFFFFFFFF, b)
      else
        let (s', ok) := s.put m p.pa ((bytes.drop p.off).take p.len)
        (if ok then s' else s'.eccStore c a p, b)
    | .copy src first =>
      match src with
      | [] => (s, b)
      | q :: qs =>
        let ends := if q.va < p.va then [(q, bitR), (p, bitW)] else [(p, bitW), (q, bitR)]
        match ends.find? fun e => s.lateRefused m a e.2 e.1 with
        | some e => (s.refuse c a.x (s.targetCode e.1.pa) e.1.va 0xFFFFFFFF, { b with op := .copy qs first })
        | none =>
          let (s', ok) := s.copyUnits m q.pa p.pa 8
          (if ok then s' else s'.eccStore c a p, { b with op := .copy qs first })
    | .atom _ op ty x y =>
      let old := bytesNat (s.bytes p.pa p.len)
      if s.lateRefused m a bitA p then (s.refuse c a.x (s.targetCode p.pa) p.va 0xFFFFFFFF, b)
      else if s.badAt p.pa p.len then
        (s.eccStore c a p, { b with err := some (BitVec.ofNat 64 a.va, s.targetCode p.pa) })
      else
        ((s.put m p.pa (natBytes p.len (atomNew op ty old x.toNat y.toNat))).1,
          { b with data := keepBytes a.data 0 (natBytes p.len old) })
    | .red op ty val =>
      let old := bytesNat (s.bytes p.pa p.len)
      if s.lateRefused m a bitA p then (s.refuse c a.x (s.targetCode p.pa) p.va 0xFFFFFFFF, b)
      -- the failure of a unit is reported with the first element in it that fails; `data` notes the units reported
      else if s.badAt p.pa p.len then
        if SMap.get 0 a.data (p.pa / 8) = 1 then (s, b) else (s.eccStore c a p, { b with data := SMap.put 0 a.data (p.pa / 8) 1 })
      else ((s.put m p.pa (natBytes p.len (redNew op ty old (elemOf (8 * p.len) (p.off / p.len) val.toNat)))).1, b)
    | .token .. => (s, b)
    | op =>
      let b := { b with data := keepBytes a.data p.off (s.bytes p.pa p.len) }
      (s.fillLine (dieOf c) p.pa, if s.badAt p.pa p.len && a.err.isNone then
          { b with err := some (BitVec.ofNat 64 (match op with
              | .gath .. => p.va
              | _ => a.va), s.targetCode p.pa) }
        else b)

/-- Perform the next piece of an access at its home, with the order it makes (R301). -/
def State.performPiece (s : State) (c : Nat) (a : Access) : State × Access :=
  match a.pieces with
  | [] => (s, a)
  | p :: _ =>
    let (s', b) := s.pieceHome c a
    (if a.acq || a.rel then s'.noteSync c a (p.pa / 64) else s', b)

/-- Perform every piece an access has left. -/
def State.performAll (s : State) (c : Nat) : Nat → Access → State × Access
  | 0, a => (s, a)
  | n + 1, a =>
    let (s', a') := s.performPiece c a
    s'.performAll c n a'

/-- An access that is performed and lands nothing leaves its queue. -/
def Access.landsNothing (a : Access) : Bool :=
  match a.op with
  | .store _ | .copy .. | .red .. | .qpush .. | .msg .. | .pref | .token .. => true
  | .atom d _ _ _ _ => d.isNone
  | .qpop .. => a.landed
  | _ => false

/-- Put an access back into its queue, or drop it when it has nothing left to do. -/
def Cluster.keepAccess (k : Cluster) (a : Access) : Cluster :=
  if a.pieces.isEmpty && a.landsNothing then { k with mq := k.mq.filter (·.id != a.id) }
  else { k with mq := k.mq.map fun b => if b.id == a.id then a else b }

/-- The access with an id in a cluster's queues. -/
def Cluster.access (k : Cluster) (id : Nat) : Option Access := k.mq.find? fun a => a.id == id

/-- Insert by the first component, behind its equals. -/
def insertShown (e : Nat × Nat × Nat) : List (Nat × Nat × Nat) → List (Nat × Nat × Nat)
  | [] => [e]
  | f :: fs => if e.1 < f.1 then e :: f :: fs else f :: insertShown e fs

/-- The stores that are performed at a scope and not yet at their homes: order, cluster and number of each, in that order. -/
def State.shownStores (s : State) : List (Nat × Nat × Nat) :=
  (s.clusters.flatMap fun e => e.2.mq.filterMap fun b => if b.live then b.vis.map fun v => (v.order, e.1, b.id) else none).foldl
    (fun l e => insertShown e l) []

/-- The homes perform every store that some reader already sees, in the order in which they came to be seen, which keeps every order that the
stores have: so that none of them can fail, and an agent's read finds them. -/
def State.flushShown (s : State) : State :=
  s.shownStores.foldl (fun s e => match (s.cl e.2.1).access e.2.2 with
    | some a =>
      let (s', b) := s.performAll e.2.1 a.pieces.length a
      s'.modCl e.2.1 fun k => k.keepAccess b
    | none => s) s

/-- What an agent on a die finds in memory (R294). -/
def State.seenBy (s : State) (u : Nat) : State := if s.dieHeld u then s.flushShown else s

/-! ### Landing (R186 to R192) -/

/-- A value read, extended to 64 bits. -/
def extendTo64 (signed : Bool) (n v : Nat) : Word :=
  if signed then BitVec.ofInt 64 (sgn (8 * n) v) else BitVec.ofNat 64 v

/-- The lanes of a gather (R192). -/
def gathValue (data : SMap Byte) (inb : BitVec 64) (sz : Nat) (signed : Bool) : VWord :=
  BitVec.ofNat 2048 (packElems 32 ((List.range 64).map fun i =>
    if inb.getLsbD i then
      let v := sliceNat data (4 * i) sz
      if signed then (BitVec.ofInt 32 (sgn (8 * sz) v)).toNat else v
    else 0))

/-- All ones. -/
def allV : VWord := BitVec.allOnes 2048

/-- What the result of a performed access writes: destinations with their landings (LDQ apart). -/
def Access.landings (a : Access) : List (Opnd × LandKind) :=
  let put (o : Opnd) (val mask : VWord) : Opnd × LandKind :=
    (o, match a.err with
      | some (va, t) => .mark va (engOf a.x) t
      | none => .write val mask none)
  match a.op with
  | .loadS d signed n => [put (.s d) ((extendTo64 signed n (sliceNat a.data 0 n)).setWidth 2048) allV]
  | .loadV d mask => [put (.v (BitVec.ofNat 9 d)) (BitVec.ofNat 2048 (sliceNat a.data 0 256)) mask]
  | .loadK d => [put (.k (BitVec.ofNat 8 d)) (BitVec.ofNat 2048 (sliceNat a.data 0 16)) allV]
  | .gath d vm inb sz signed =>
    put (.v (BitVec.ofNat 9 d)) (gathValue a.data inb sz signed) allV ::
      (match vm with
        | some m => [put (.vm (BitVec.ofNat 4 m)) (inb.setWidth 2048) allV]
        | none => [])
  | .atom (some d) _ ty _ _ =>
    let n := ty.width / 8
    [put (.s d) ((extendTo64 (ty == .i32) n (sliceNat a.data 0 n)).setWidth 2048) allV]
  | .qpop _ toS d => if a.landed then [] else
    [put (if toS then .s (BitVec.ofNat 6 d) else .v (BitVec.ofNat 9 d)) (BitVec.ofNat 2048 (sliceNat a.data 0 256)) allV]
  | _ => []

/-- Bring an access to its end: what is not yet performed is performed now, if it may be. `ext` holds the bytes of a read from
another module, from offset 0 of the value. -/
def State.endAccess (s : State) (c : Nat) (a : Access) (ext : List Byte) : Option (State × Access) :=
  if a.fail.isSome || (!a.pieces.isEmpty && s.accessDead c a) then (if a.cyc + Config.cycles2ms ≤ s.cycle.toNat then
      some (s, { a with pieces := [], err := some (a.err.getD (BitVec.ofNat 64 a.va, s.accessTarget c a)) })
    else none)
  else if a.cyc < s.cycle.toNat ∧ (a.pieces = [] ∨ s.mayPerform c a) then
    let far := a.pieces.any fun p => s.isFar p.pa
    let (s, a) := s.performAll c a.pieces.length a
    some (s, if far && !ext.isEmpty then { a with data := keepBytes a.data 0 ext } else a)
  else none

/-- Take an access out of its queue. -/
def State.dropAccess (s : State) (c id : Nat) : State := s.modCl c fun k => { k with mq := k.mq.filter (·.id != id) }

end Sys2Proof.Machine
end

