-- ==== Sys2Proof/Machine/Transfer.lean ====
section
/-! DEFINITION. The transfer instructions (13 R187 to R208): what each does at issue. A transfer then waits for ACCESS_ACCEPTED
(R182) and is performed by later steps. -/

namespace Sys2Proof.Machine

/-- Issue one access. -/
def State.xfer1 (s : State) (a : Access) (dests : List Opnd) (srcs : List Opnd := []) : State := s.beginXfer [a] false dests 0 srcs

/-- Parts read or written, all of one kind. -/
def flagParts (wr : Bool) (ps : List Piece) : List (Piece × Bool) := ps.map fun p => (p, wr)

/-- The 6-bit index of an s operand; 0 for any other. -/
def sIdx : Opnd → BitVec 6
  | .s i => i
  | _ => 0
/-- The index of a register operand. -/
def regIdx : Opnd → Nat
  | .v i => i.toNat
  | .s i => i.toNat
  | .k i => i.toNat
  | .vm i => i.toNat
  | .p i => i.toNat
  | .b i => i.toNat
  | .q _ i => i.toNat
  | .null => 0

/-! ### Scalar loads and stores (R187) -/

/-- LD and LDA. -/
def State.load (s : State) (w : AForm) (scope : Nat) (acq : Bool) : Chk State := do
  let base ← s.srcS w.sa 2 (ftBit w 2)
  s.dstS w.dst
  let n := w.ty.width / 8
  let ea := eaOf base w.imm
  checkEa ea
  checkAlign ea n
  let ps ← s.reach (flagParts false (granuleParts 0 ea.toNat n)) none
  pure (s.xfer1 { (s.newAccess 0 (.loadS (sIdx w.dst) w.ty.signed n) ea.toNat ps) with scope := scope, acq := acq } [w.dst])

/-- LD. -/
def execLd (w : AForm) (s : State) : Out := finishWait s (s.load w 0 false)
/-- LDA: acquire at scope MD. -/
def execLda (w : AForm) (s : State) : Out := finishWait s (s.load w w.md.toNat true)

/-- ST and STL. -/
def State.storeS (s : State) (w : AForm) (scope : Nat) (rel : Bool) : Chk State := do
  let base ← s.srcS w.sa 2 (ftBit w 2)
  let b ← s.srcS w.sb 3 (ftBit w 3)
  let n := w.ty.width / 8
  let ea := eaOf base w.imm
  checkEa ea
  checkAlign ea n
  let ps ← s.reach (flagParts true (granuleParts 0 ea.toNat n)) none
  pure (s.xfer1 { (s.newAccess 0 (.store (natBytes n b.toNat)) ea.toNat ps) with scope := scope, rel := rel } [])

/-- ST. -/
def execSt (w : AForm) (s : State) : Out := finishWait s (s.storeS w 0 false)
/-- STL: release at scope MD. -/
def execStl (w : AForm) (s : State) : Out := finishWait s (s.storeS w w.md.toNat true)

/-! ### Vector loads and stores (R188) -/

/-- The parts of a masked 256-byte vector access: granules when every lane is active, else one part a lane, or one for the two lanes of an
aligned 8-byte unit that are both active, which the access covers whole (R186). -/
def laneParts (mask : MWord) (ea : Nat) : List Piece :=
  if (List.range 64).all fun i => mask.getLsbD i then granuleParts 0 ea 256
  else
    let pair (i : Nat) : Bool := decide ((ea + 4 * i) % 8 = 0) && decide (i < 63) && mask.getLsbD i && mask.getLsbD (i + 1)
    (List.range 64).filterMap fun i =>
      if !mask.getLsbD i || (decide (0 < i) && pair (i - 1)) then none
      else some { off := 4 * i, va := ea + 4 * i, pa := 0, len := if pair i then 8 else 4 }

/-- A mask of lanes as a mask of bits. -/
def laneBits (w n : Nat) (m : MWord) : VWord :=
  BitVec.ofNat 2048 (packElems w ((List.range n).map fun i => if m.getLsbD i then 2 ^ w - 1 else 0))

/-- VLD. -/
def execVld (w : AForm) (s : State) : Out :=
  finishWait s do
    let base ← s.srcS w.sa 2 (ftBit w 2)
    let m ← s.srcVMOr w.sc 4 (ftBit w 4) (BitVec.allOnes 256)
    let d ← s.dstV w.dst
    let ea := eaOf base w.imm
    checkEa ea
    checkAlign ea 4
    let ps ← s.reach (flagParts false (laneParts m ea.toNat)) none
    pure (s.xfer1 (s.newAccess 0 (.loadV (regIdx d) (laneBits 32 64 m)) ea.toNat ps) [d])

/-- VST. -/
def execVst (w : AForm) (s : State) : Out :=
  finishWait s do
    let base ← s.srcS w.sa 2 (ftBit w 2)
    let v ← s.srcV w.sb 3 (ftBit w 3)
    let m ← s.srcVMOr w.sc 4 (ftBit w 4) (BitVec.allOnes 256)
    let ea := eaOf base w.imm
    checkEa ea
    checkAlign ea 4
    let ps ← s.reach (flagParts true (laneParts m ea.toNat)) none
    pure (s.xfer1 (s.newAccess 0 (.store (natBytes 256 v.toNat)) ea.toNat ps) [] [w.sb])

/-! ### Split data and scales (R189, R190) -/

/-- Offset that marks the parts of a scale stream among those of both streams. -/
def scaleOff : Nat := 4096

/-- Steps 1 to 4 of R181 for a data stream of 256 bytes and a scale stream of 16, in ascending order of address. -/
def State.twoStreams (s : State) (ea sc : Word) (wr : Bool) : Chk (List Piece × List Piece) := do
  checkEa ea
  if sc.toNat < ea.toNat then
    checkAlign sc 16
    checkAlign ea 16
  else
    checkAlign ea 16
    checkAlign sc 16
  let d := flagParts wr (granuleParts 0 ea.toNat 256)
  let k := flagParts wr (granuleParts scaleOff sc.toNat 16)
  let ps ← s.reach (mergeParts 8 d k) none
  pure (ps.filter fun p => decide (p.off < scaleOff),
        (ps.filter fun p => decide (scaleOff ≤ p.off)).map fun p => { p with off := p.off - scaleOff })

/-- LDQ: the scale read enters the queue before the data read. -/
def execLdq (w : AForm) (s : State) : Out :=
  finishWait s do
    let base ← s.srcS w.sa 2 (ftBit w 2)
    let sc ← s.srcS w.sc 4 (ftBit w 4)
    let d ← s.dstV w.dst (ftBit w 3)
    s.dstK w.sb
    let ea := eaOf base w.imm
    let (dp, kp) ← s.twoStreams ea sc false
    let isQ := match d with
      | .q _ _ => true
      | _ => false
    let a := s.newAccess 0 (.ldqScale (if isQ then none else some (regIdx w.sb)) (if isQ then none else some (regIdx d))) sc.toNat kp
    let b := s.newAccess 1 (.ldqData (if isQ then none else some (regIdx d)) (if isQ then none else some (regIdx w.sb))
      (if isQ then some (regIdx d) else none) a.id) ea.toNat dp
    pure (s.beginXfer [a, b] false (if isQ then [d] else [d, w.sb]) b.id)

/-- STQ: the binding check, then two streams. -/
def execStq (w : AForm) (s : State) : Out :=
  finishWait s do
    let base ← s.srcS w.sa 2 (ftBit w 2)
    let (v, k) ← s.srcB4 w.sb 3 (ftBit w 3)
    let sc ← s.srcS w.sc 4 (ftBit w 4)
    let ea := eaOf base w.imm
    let (dp, kp) ← s.twoStreams ea sc true
    pure (s.beginXfer [s.newAccess 0 (.store (natBytes 256 v.toNat)) ea.toNat dp,
      { (s.newAccess 1 (.store (natBytes 16 k.toNat)) sc.toNat kp) with first := some s.seq }] false [])

/-- KLD (R191). -/
def execKld (w : AForm) (s : State) : Out :=
  finishWait s do
    let base ← s.srcS w.sa 2 (ftBit w 2)
    s.dstK w.dst
    let ea := eaOf base w.imm
    checkEa ea
    checkAlign ea 16
    let ps ← s.reach (flagParts false (granuleParts 0 ea.toNat 16)) none
    pure (s.xfer1 (s.newAccess 0 (.loadK (regIdx w.dst)) ea.toNat ps) [w.dst])

/-- KST (R191). -/
def execKst (w : AForm) (s : State) : Out :=
  finishWait s do
    let base ← s.srcS w.sa 2 (ftBit w 2)
    let k ← s.srcK w.sb 3 (ftBit w 3)
    let ea := eaOf base w.imm
    checkEa ea
    checkAlign ea 16
    let ps ← s.reach (flagParts true (granuleParts 0 ea.toNat 16)) none
    pure (s.xfer1 (s.newAccess 0 (.store (natBytes 16 k.toNat)) ea.toNat ps) [])

/-! ### Gather and scatter (R192, R193) -/

/-- Lanes whose index lies below the bound, with their addresses, which are exact (00 R8). -/
def indexParts (base : Word) (idx : VWord) (n sz : Nat) : List Piece :=
  (List.range 64).filterMap fun i =>
    let x := elemOf 32 i idx.toNat
    if x < n then some { off := 4 * i, va := base.toNat + x * sz, pa := 0, len := sz } else none

/-- The lanes in bounds. -/
def inBounds (idx : VWord) (n : Nat) : BitVec 64 :=
  BitVec.ofNat 64 (packElems 1 ((List.range 64).map fun i => if elemOf 32 i idx.toNat < n then 1 else 0))

/-- GATH. -/
def execGath (w : AForm) (s : State) : Out :=
  finishWait s do
    let base ← s.srcS w.sa 2 (ftBit w 2)
    let idx ← s.srcV w.sb 3 (ftBit w 3)
    let d ← s.dstV w.dst
    s.dstK w.sc
    let sz := w.ty.width / 8
    checkAlign base sz
    let ps ← s.reach (flagParts false (indexParts base idx w.imm.toNat sz)) none
    let vm := match w.sc with
      | .vm i => some i.toNat
      | _ => none
    pure (s.xfer1
      (s.newAccess 0 (.gath (regIdx d) vm (inBounds idx w.imm.toNat) sz w.ty.signed) base.toNat ps) [d, w.sc] [w.sb])

/-- SCAT. -/
def execScat (w : AForm) (s : State) : Out :=
  finishWait s do
    let base ← s.srcS w.sa 2 (ftBit w 2)
    let idx ← s.srcV w.sb 3 (ftBit w 3)
    let v ← s.srcV w.sc 4 (ftBit w 4)
    let sz := w.ty.width / 8
    checkAlign base sz
    let ps ← s.reach (flagParts true (indexParts base idx w.imm.toNat sz)) none
    pure (s.xfer1 (s.newAccess 0 (.store (natBytes 256 v.toNat)) base.toNat ps) [] [w.sb, w.sc])

/-! ### Copy and fill (R194) -/

/-- COPY: each granule is an access of the queue, performed after the one before it. -/
def execCopy (w : AForm) (s : State) : Out :=
  let r : Chk (Option State) := do
    let dst ← s.srcS w.sa 2 (ftBit w 2)
    let src ← s.srcS w.sb 3 (ftBit w 3)
    let len ← s.srcS w.sc 4 (ftBit w 4)
    checkAlign dst 64 2
    checkAlign src 64 3
    checkAlign len 64 4
    trapIf (decide (2 ^ 32 ≤ len.toNat)) .illegal 4
    if len = 0 then pure none
    else do
      let d := flagParts true (granuleParts 0 dst.toNat len.toNat)
      let c := flagParts false (granuleParts (2 ^ 40) src.toNat len.toNat)
      let ps ← s.reach (mergeParts (2 * d.length) d c) none
      let onto := ps.filter fun p => decide (p.off < 2 ^ 40)
      let fr := ps.filter fun p => decide (2 ^ 40 ≤ p.off)
      pure (some (s.beginXfer ((onto.zip fr).zipIdx.map fun g => s.newAccess g.2 (.copy [g.1.2] s.seq) g.1.1.va [g.1.1]) false []))
  match r with
  | .ok (some s') => finishWait s (.ok s')
  | .ok none => finish s 3 (.ok s)
  | .error e => finish s 3 (.error e)

/-- FILL: each granule is an access of the queue. -/
def execFill (w : AForm) (s : State) : Out :=
  let r : Chk (Option State) := do
    let dst ← s.srcS w.sa 2 (ftBit w 2)
    let pat ← s.srcS w.sb 3 (ftBit w 3)
    let len ← s.srcS w.sc 4 (ftBit w 4)
    checkAlign dst 64 2
    checkAlign len 64 4
    trapIf (decide (2 ^ 32 ≤ len.toNat)) .illegal 4
    if len = 0 then pure none
    else do
      let ps ← s.reach (flagParts true (granuleParts 0 dst.toNat len.toNat)) none
      -- each piece is a whole granule: eight times the pattern
      pure (some (s.beginXfer (ps.zipIdx.map fun p =>
        s.newAccess p.2 (.store ((List.range 8).flatMap fun _ => natBytes 8 pat.toNat)) p.1.va [{ p.1 with off := 0 }]) false []))
  match r with
  | .ok (some s') => finishWait s (.ok s')
  | .ok none => finish s 3 (.ok s)
  | .error e => finish s 3 (.error e)

/-! ### Atomics (R195, R196) -/

/-- The class of an ATOM (R196). -/
def atomClass (sub : Nat) : Nat := if sub = 0 ∨ (4 ≤ sub ∧ sub ≤ 7) then 1 else if sub = 9 then 2 else if sub = 10 then 3 else 0

/-- ATOM. -/
def execAtom (w : AForm) (s : State) : Out :=
  finishWait s do
    let ea ← s.srcS w.sa 2 (ftBit w 2)
    let b ← s.srcS w.sb 3 (ftBit w 3)
    let c ← s.srcSOr w.sc 4 (ftBit w 4) 0
    s.dstS w.dst
    let n := w.ty.width / 8
    let ord := w.imm.toNat % 4
    checkAlign ea n
    let ps ← s.reach (flagParts true (granuleParts 0 ea.toNat n)) (some (atomClass w.sub.toNat, w.md.toNat))
    let d := match w.dst with
      | .s i => some i
      | _ => none
    let cut := fun (x : Word) => BitVec.ofNat 64 (x.toNat % 2 ^ w.ty.width)
    pure (s.xfer1 { (s.newAccess 0 (.atom d w.sub.toNat w.ty (cut b) (cut c)) ea.toNat ps) with
      scope := w.md.toNat, acq := ord == 1 || ord == 3, rel := ord == 2 || ord == 3 } [w.dst])

/-! ### Group stores (R197 to R199) -/

/-- The group in slot g of the task's GROUPS, which it names validly and of which the cluster is a member (03 R43). -/
def State.groupIn (s : State) (g : Nat) : Chk Nat :=
  let r := s.me.rec0
  let i := recGroup r g
  if s.me.task.isSome && (recGval r).testBit g && (s.group i).mask.getLsbD s.cur.1 then .ok i else trapWith .groupMem

/-- The clusters of a group. -/
def Group.members (g : Group) : List Nat := (List.range 320).filter fun c => g.mask.getLsbD c

/-- Place parts at an SRAM offset in a cluster. -/
def State.inSram (s : State) (c : Nat) (ps : List Piece) : List Piece :=
  ps.map fun p => { p with pa := s.here (sramBase c) + p.va }

/-- Every byte that parts at an SRAM offset touch lies below 4 MiB (R181 step 3, R197). -/
def offsetsIn (ps : List Piece) : Chk Unit :=
  match ps.find? fun p => decide (2 ^ 22 < p.va + p.len) with
  | some p => trapInfo .unmapped (BitVec.ofNat 64 (max p.va (2 ^ 22)))
  | none => .ok ()

/-- A destination that fails step 4 or 5 of R181 (R199): the first, with its trap. -/
def State.groupCheck (s : State) (dests : List (List Piece)) (atom : Bool) : Chk Unit :=
  let ps := dests.flatten
  match ps.find? fun p => s.isRo p.pa with
  | some p => .error (.trap { cause := .roWrite, info := some (BitVec.ofNat 64 p.va), tgt := s.targetCode p.pa })
  | none => match ps.find? fun p => atom && !s.atomCarried s.cur.1 p.pa 4 0 with
    | some p => trapInfo .atomPath (BitVec.ofNat 64 p.va)
    | none => .ok ()

/-- MCST. -/
def execMcst (w : AForm) (s : State) : Out :=
  finishWait s do
    let off ← s.srcS w.sa 2 (ftBit w 2)
    let (n, data) ← (match w.sb with
      | .s _ => do
        let x ← s.srcS w.sb 3 (ftBit w 3)
        pure (8, x.toNat)
      | _ => do
        let x ← s.srcV w.sb 3 (ftBit w 3)
        pure (256, x.toNat) : Chk (Nat × Nat))
    let g ← s.groupIn (w.imm.toNat % 4)
    checkAlign off (if n = 8 then 8 else 64)
    offsetsIn (granuleParts 0 off.toNat n)
    let dests := (s.group g).members.map fun c => s.inSram c (granuleParts 0 off.toNat n)
    s.groupCheck dests false
    let accs := dests.zipIdx.map fun d => s.newAccess d.2 (.store (natBytes n data)) off.toNat d.1
    pure (s.beginXfer accs true [] 0 [w.sb])

/-- The active elements of a REDST as parts from an address. -/
def redParts (ty : Ty) (m : MWord) (base : Nat) : List Piece :=
  let n := ty.width / 8
  (List.range (256 / n)).filterMap fun i =>
    if m.getLsbD i then some { off := n * i, va := base + n * i, pa := 0, len := n } else none

/-- REDST. -/
def execRedst (w : AForm) (s : State) : Out :=
  finishWait s do
    let base ← s.srcS w.sa 2 (ftBit w 2)
    let v ← s.srcV w.sb 3 (ftBit w 3)
    let m ← s.srcVMOr w.sc 4 (ftBit w 4) (BitVec.allOnes 256)
    let ps := redParts w.ty m base.toNat
    if w.imm.toNat / 256 = 1 then do
      let g ← s.groupIn (w.imm.toNat % 4)
      checkAlign base 64
      offsetsIn ps
      let dests := (s.group g).members.map fun c => s.inSram c ps
      s.groupCheck dests true
      let accs := dests.zipIdx.map fun d => s.newAccess d.2 (.red w.sub.toNat w.ty v) base.toNat d.1
      pure (s.beginXfer accs true [] 0 [w.sb])
    else do
      checkAlign base 4
      let qs ← s.reach (flagParts true ps) (some (4, 0))
      pure (s.xfer1 (s.newAccess 0 (.red w.sub.toNat w.ty v) base.toNat qs) [] [w.sb])

/-! ### Fences (R200 to R202, 21 R303 to R305) -/

/-- The FENCE status word of the covered queues (R201). -/
def fenceStatus (k : Cluster) (qs : List Nat) (openStores : Bool) : Word :=
  let fs := qs.map fun q => (q, SMap.get FailRec.empty k.fails q)
  let n := (fs.map fun f => f.2.ids.length).sum
  let first := fs.foldl (fun (best : Option (Nat × Nat)) f => match f.2.first, best with
    | none, b => b
    | some (t, _, g), none => some (t, g)
    | some (t, _, g), some (t', g') => if t < t' then some (t, g) else some (t', g')) none
  let bit (b : Bool) (i : Nat) : Nat := if b then 2 ^ i else 0
  BitVec.ofNat 64 (bit (n == 0 && !openStores) 0 + bit (fs.any fun f => f.2.dead) 1 + bit (fs.any fun f => f.2.ref) 2 +
    bit (fs.any fun f => f.2.tmo) 3 + min n 255 * 2 ^ 8 + ((first.map (·.2)).getD 0xFF) * 2 ^ 16)

/-- The queues a fence covers, in ascending join bit. -/
def coveredQueues (own : Nat) (mask : BitVec 6) : List Nat := (List.range 6).filter fun q => q == own || mask.getLsbD q

/-- A token is not yet performed at MOD scope. -/
def State.tokenOpen (s : State) (t : Nat × Nat) : Bool :=
  s.clusters.any fun e => e.2.mq.any fun a => a.isOpen && (match a.op with
    | .token p n => (p, n) == t
    | _ => false)

/-- An acquiring fence at MOD scope or wider that joins the A engine queue: the cluster's A-die sees every token that is performed, and
with it the slots below it, which an ASTEP includes without a gap (21 R310, R312). -/
def State.synced (s : State) (f : FenceRec) : State :=
  if f.kind ≠ 1 ∧ 6 ≤ f.scope ∧ f.mask.getLsbD 3 = true then
    s.modADie (dieOf s.cur.1 - 8) fun a => { a with
      unseen := a.unseen.filter fun t => a.unseen.all fun u => u.1 != t.1 || decide (u.2 < t.2) || s.tokenOpen u }
  else s

/-- A fence that waits for every earlier access of the queues it covers has completed: what its cluster issues next comes after them (R301,
R303). -/
def State.fenceSync (s : State) (own : Nat) (f : FenceRec) : State :=
  if f.kind = 0 then s else s.noteSeen (fun j b _ => j == s.cur.1 && b.before own f.mask f.id f.cyc) (.cluster s.cur.1 f.id)

/-- A fence completes: its status, and the failure records of the queues it covers are cleared. -/
def State.endFence (s : State) (w : AForm) (own : Nat) (f : FenceRec) : State :=
  let k := s.me
  let qs := coveredQueues own f.mask
  let st := (k.mq ++ k.accepting).any fun a => a.isOpen && !a.doneAt f.scope && a.before own f.mask f.id f.cyc && a.op.writes
  let v := fenceStatus k qs st
  ((((s.modMe fun k => { k with fails := k.fails.filter fun e => !(qs.contains e.1) }).synced f).fenceSync own f).putOpnd w.dst v).modCtx
    fun e => { e with phase := .body }

/-- A FENCE of a kind: it completes once nothing it waits for is left; the engine issues no later word until then. -/
def State.fence (s : State) (w : AForm) (kind : Nat) : Out :=
  match s.dstS w.dst with
  | .error e => .next (s.stopped e)
  | .ok _ =>
    let own := queOf s.cur.2
    let (f, s) := match s.ctx.phase with
      | .fence f => (f, s)
      | _ =>
        let f : FenceRec :=
          { kind := kind, scope := w.md.toNat, mask := w.imm.setWidth 6, cyc := s.cycle.toNat, id := s.seq, expired := false }
        (f, { s with seq := s.seq + 1 })
    if s.fenceOpen s.cur.1 own f then .next (s.modCtx fun e => { e with phase := .fence f }).used
    else finish s 3 (.ok (s.endFence w own f))

/-- FENCE.acq. -/
def execFenceAcq (w : AForm) (s : State) : Out := s.fence w 0
/-- FENCE.rel. -/
def execFenceRel (w : AForm) (s : State) : Out := s.fence w 1
/-- FENCE.ar. -/
def execFenceAr (w : AForm) (s : State) : Out := s.fence w 2
/-- FENCE.sc: completions are totally ordered by the steps that make them (21 R304). -/
def execFenceSc (w : AForm) (s : State) : Out := s.fence w 3

/-- QFENCE: marks of earlier cycles that hold nothing any more are dropped at the same time. -/
def execQfence (w : AForm) (s : State) : Out :=
  let m : QMark :=
    { id := s.seq, que := queOf s.cur.2, cyc := s.cycle.toNat, mask := w.imm.setWidth 6, scope := w.md.toNat, expired := false }
  finish s 3 (.ok ({ s with seq := s.seq + 1 }.modMe fun k =>
    { k with qf := (k.qf.filter fun (m : QMark) => decide (s.cycle.toNat ≤ m.cyc) || s.markOpen s.cur.1 m) ++ [m] }))

/-! ### Queues in memory (R203, R204) -/

/-- The descriptor of a queue instruction: aligned and reached, as a location that is read and written. -/
def State.descriptor (s : State) (a : Word) : Chk (List Piece) := do
  checkAlign a 64
  s.reach (flagParts true (granuleParts 0 a.toNat 64)) none

/-- QPUSH: the home's answer is ACCESS_ACCEPTED. -/
def execQpush (w : AForm) (s : State) : Out :=
  finishWait s do
    let a ← s.srcS w.sa 2 (ftBit w 2)
    let (data, fromS) ← (match w.sb with
      | .s _ => do
        let x ← s.srcS w.sb 3 (ftBit w 3)
        pure (natBytes 8 x.toNat, true)
      | _ => do
        let x ← s.srcV w.sb 3 (ftBit w 3)
        pure (natBytes 256 x.toNat, false) : Chk (List Byte × Bool))
    let ps ← s.descriptor a
    pure (s.xfer1 { (s.newAccess 0 (.qpush (BitVec.ofNat 3 (regIdx w.dst)) data fromS) a.toNat ps) with
      scope := w.md.toNat, rel := true } [] [w.sb])

/-- QPOP. -/
def execQpop (w : AForm) (s : State) : Out :=
  finishWait s do
    let a ← s.srcS w.sa 2 (ftBit w 2)
    let (d, toS) ← (match w.dst with
      | .s _ => do
        s.dstS w.dst
        pure (w.dst, true)
      | _ => do
        let d ← s.dstV w.dst
        pure (d, false) : Chk (Opnd × Bool))
    let ps ← s.descriptor a
    pure (s.xfer1 { (s.newAccess 0 (.qpop (w.imm.setWidth 3) toS (regIdx d)) a.toNat ps) with
      scope := w.md.toNat, acq := true } [d])

/-! ### Messages (R205) and prefetch (R208) -/

/-- A module number that some port reaches, this module included. -/
def State.reachesMod (s : State) (m : Nat) : Bool :=
  m == s.hub.modNo.toNat || decide (8 ≤ (SMap.get 0 s.hub.gwroute m).toNat)

/-- The smallest scope that contains cluster c and a cluster of module m (21 R306). -/
def State.scopeTo (s : State) (c m cl : Nat) : Nat :=
  if m ≠ s.hub.modNo.toNat then 9
  else if c = cl then 1 else if inScope 2 c cl then 2 else if inScope 3 c cl then 3
  else if stationOf (dieOf c) = stationOf (dieOf cl) then (if dieOf c < 8 ∧ dieOf cl < 8 then 5 else 4)
  else 6

/-- MSGSEND: a release at the smallest scope that contains both clusters; the payload is read and the target asked by MESSAGE_ARRIVAL. The
checks of length and target word precede that of alignment (log 47). -/
def execMsgsend (w : AForm) (s : State) : Out :=
  finishWait s do
    let a ← s.srcS w.sa 2 (ftBit w 2)
    let len ← s.srcS w.sb 3 (ftBit w 3)
    let t ← s.srcS w.sc 4 (ftBit w 4)
    let tn := t.toNat
    trapIf (decide (len = 0 ∨ 4096 < len.toNat)) .illegal 3
    trapIf (bitsNat tn 31 22 != 0 || bitsNat tn 15 9 != 0 || decide (319 < bitsNat tn 8 0) || !s.reachesMod (bitsNat tn 21 16))
      .illegal 4
    checkAlign a 8
    let ps ← s.reach (flagParts false (granuleParts 0 a.toNat len.toNat)) none
    pure (s.xfer1 { (s.newAccess 0 (.msg (BitVec.ofNat 3 (regIdx w.dst)) [] (BitVec.ofNat 6 (bitsNat tn 21 16)) (bitsNat tn 8 0)
      (BitVec.ofNat 32 (bitsNat tn 63 32))) a.toNat ps) with
        scope := s.scopeTo s.cur.1 (bitsNat tn 21 16) (bitsNat tn 8 0), rel := true } [])

/-- An operation that a prefetch drops where it would trap (R208); it still waits. -/
def Chk.orDrop {α : Type} (r : Chk α) : Chk (Option α) :=
  match r with
  | .ok v => .ok (some v)
  | .error (.trap _) => .ok none
  | .error e => .error e

/-- PREF: the granules it names that are read-only, that the master may read and that are held elsewhere enter the Die Cache; nothing else
happens, and nothing but its decoding traps: it is dropped where a source has no value. -/
def execPref (w : AForm) (s : State) : Out :=
  finish s 3 do
    let a ← Chk.orDrop (s.srcS w.sa 2 (ftBit w 2))
    let len ← Chk.orDrop (s.srcS w.sb 3 (ftBit w 3))
    match a, len with
    | some a, some len =>
      let c := s.cur.1
      pure ((granuleParts 0 a.toNat (min len.toNat (2 ^ 24))).foldl (fun t p => match s.translate c (s.me.asid s.cur.2) p.va with
        | some (pa, _) => if s.mayAccess (masterOf c s.cur.2) bitR pa then t.fillLine (dieOf c) pa else t
        | none => t) s)
    | _, _ => pure s

end Sys2Proof.Machine
end

