-- ==== Sys2Proof/Machine/Accept.lean ====
section
/-! DEFINITION. The steps of a transfer after its issue: acceptance (13 R182, R183, R199), performing (21 R294), landing (07 R93,
13 R189), the end of a fence's wait (13 R200), and messages (13 R205 to R207). -/

namespace Sys2Proof.Machine

/-! ### Acceptance -/

/-- The access-table bit an operation needs at a piece's home; COPY also needs R at its sources (R182). -/
def MemOp.bit : MemOp → BitVec 4
  | .store _ | .copy .. => bitW
  | .atom .. | .red .. | .qpush .. | .qpop .. => bitA
  | _ => bitR

/-- The parts of accesses in ascending order of address (those of one access in its own order); the flag of each says that it belongs
to a piece, not to a source. -/
def accParts : List Access → List (Piece × Bool)
  | [] => []
  | a :: as =>
    let rest := accParts as
    let own := mergeParts (a.pieces.length + a.sources.length) (flagParts true a.pieces) (flagParts false a.sources)
    if rest.isEmpty then own else mergeParts (own.length + rest.length) own rest

/-- The first part of accesses that its home refuses (R182); `far` holds the other modules' answers. -/
def State.refusedAt (s : State) (c x : Nat) (accs : List Access) (far : FarMap) : Option Piece :=
  let bit := (accs.head?.map fun a => a.op.bit).getD bitR
  ((accParts accs).find? fun p =>
    if s.isFar p.1.pa then far.at p.1.pa == .refused else !s.mayAccess (masterOf c x) (if p.2 then bit else bitR) p.1.pa).map (·.1)

/-- The RO bit met at the home of a write (27 R362). -/
def State.roAt (s : State) (accs : List Access) (far : FarMap) : Option Piece :=
  if accs.any fun a => a.op.writes then
    ((accParts accs).find? fun p => p.2 && (s.isRo p.1.pa || (s.isFar p.1.pa && far.at p.1.pa == .readOnly))).map (·.1)
  else none

/-- The trap at a part. -/
def State.trapAt (s : State) (cause : Cause) (p : Piece) : Trap :=
  { cause := cause, info := some (BitVec.ofNat 64 p.va), tgt := s.targetCode p.pa }

/-- The trap that accesses that wait for acceptance meet (R181): step 4 over all parts, then step 6. -/
def State.acceptTrap (s : State) (c x : Nat) (accs : List Access) (far : FarMap) : Option Trap :=
  match s.roAt accs far with
  | some p => some (s.trapAt .roWrite p)
  | none => (s.refusedAt c x accs far).map (s.trapAt .refused)

/-- A part lies outside a cluster's own SRAM. -/
def State.offSram (s : State) (c : Nat) (p : Piece) : Bool :=
  !(decide (s.here (sramBase c) ≤ p.pa) && decide (p.pa < s.here (sramBase c) + 2 ^ 22))

/-- XST is set when a write outside the cluster's own SRAM has been accepted (29 R375). -/
def State.markXstIf (s : State) (c : Nat) (out : Bool) : State := if out then s.modTaskOn c fun t => { t with xst := true } else s
def State.markXst (s : State) (c : Nat) (accs : List Access) : State :=
  s.markXstIf c (accs.any fun a => a.op.writes && a.pieces.any fun p => s.offSram c p)

/-- The transfer of a context is accepted: the queue registers it takes a block from are popped (log 69), and its word completes. -/
def State.accepted (s : State) (c x : Nat) (pops : List Opnd) : State := (s.popsOf c x pops).finishWord c x 3

/-- Accesses enter their queue and the word completes. -/
def State.enterQueue (s : State) (c x : Nat) (accs : List Access) (pops : List Opnd) : State :=
  ((s.markXst c accs).modCl c fun k => { k with mq := k.mq ++ accs.filter fun a => !(a.pieces.isEmpty && a.landsNothing) }).accepted
    c x pops

/-- An address lies in another module, which has no such memory (27 R361). -/
def State.farNone (s : State) (far : FarMap) (pa : Nat) : Bool := s.isFar pa && (farUnbacked pa || far.at pa == .no)

/-- An access to unbacked memory of another module, be it what a COPY reads, fails (27 R361). -/
def State.farFail (s : State) (c : Nat) (far : FarMap) (a : Access) : State × Option Access :=
  match (a.pieces ++ a.sources).find? fun p => s.farNone far p.pa with
  | some p => s.failAccess c a .other (some p)
  | none => (s, some a)

/-- Fold a step that may fail an access over a list of them. -/
def foldAcc (f : State → Access → State × Option Access) : State → List Access → State × List Access
  | s, [] => (s, [])
  | s, a :: as =>
    let (s', r) := f s a
    let (s'', rs) := foldAcc f s' as
    (s'', r.toList ++ rs)

/-- The answers of a group store's destinations (R199): permitted ones go on, each refused one counts as a failed store and, but
for the first, which the trap itself records, writes its own fault record. -/
def State.groupAnswers (s : State) (c x : Nat) (accs : List Access) (undo : List (Opnd × Option Hold)) (pops : List Opnd) : State :=
  match accs.findSome? fun a => s.roAt [a] [] with
  | some p => s.trapXfer c x accs undo (s.trapAt .roWrite p)
  | none =>
    let bad := accs.filterMap fun a => (s.refusedAt c x [a] []).map fun p => (a, p)
    let good := accs.filter fun a => (s.refusedAt c x [a] []).isNone
    match bad with
    | [] => s.enterQueue c x good pops
    | (_, p) :: more =>
      let pc := ((s.cl c).cx x).pc
      let trap := s.trapAt .refused p
      let s := bad.foldl (fun s b => s.failStore c b.1.que b.1.id .refused (s.targetCode b.2.pa)) s
      let s := (s.markXst c good).modCl c fun k => { k with mq := k.mq ++ good }
      let s := s.trapXfer c x accs undo trap
      more.foldl (fun s b => s.refuse c x (s.targetCode b.2.pa) b.2.va pc.toNat) s

/-! ### Queues in memory (R203, R204) -/

/-- A queue descriptor. -/
structure QDesc where
  base : Nat
  esz : Nat
  cap : Nat
  head : Nat
  tail : Nat
  deriving DecidableEq, Repr

/-- The descriptor in 64 bytes; none when it is malformed (R204). BASE is used as it stands, a multiple of ESZ or not (log 43). -/
def qdescOf (bs : List Byte) : Option QDesc :=
  let f (o n : Nat) : Nat := bytesNat ((bs.drop o).take n)
  let d : QDesc := { base := f 0 8, esz := f 8 4, cap := f 12 4, head := f 16 8, tail := f 24 8 }
  if f 32 32 = 0 ∧ [8, 16, 32, 64, 128, 256].contains d.esz ∧ ((List.range 24).any fun i => d.cap == 2 ^ (i + 1)) ∧
      (d.tail + 2 ^ 64 - d.head) % 2 ^ 64 ≤ d.cap then some d
  else none

/-- Entries in a queue. -/
def QDesc.count (d : QDesc) : Nat := (d.tail + 2 ^ 64 - d.head) % 2 ^ 64

/-- Virtual address of the entry that the next push or pop takes. -/
def QDesc.slot (d : QDesc) (push : Bool) : Nat := d.base + (if push then d.tail else d.head) % d.cap * d.esz

/-- The parts of that entry, placed for a cluster in an ASID; or the address at fault. -/
def State.slotParts (s : State) (c : Nat) (asid : BitVec 8) (d : QDesc) (push : Bool) : Except Nat (List (Piece × Bool × Bool)) :=
  s.placeAll c asid (flagParts push (granuleParts 0 (d.slot push) d.esz))

/-- A QPUSH or QPOP with the entry it touches among its pieces (21 R295). -/
def State.withSlot (s : State) (c : Nat) (a : Access) (push : Bool) : Access :=
  match a.pieces with
  | [p] => match qdescOf (s.bytes p.pa 64) with
    | some d => match s.slotParts c a.asid d push with
      | .ok ps => { a with pieces := p :: ps.map (·.1) }
      | .error _ => a
    | none => a
  | _ => a

/-- What a queue operation at its home comes to: a trap; a full or empty queue; a failure, with the address and target it names; or the
state after it, with the bytes popped and their error, and the parts of a pushed entry that an uncorrectable unit kept from being written (13
R186). -/
inductive QRes where
  | trap (t : Trap)
  | not
  | fails (why : Fail) (va tgt : Nat)
  | done (s : State) (got : List Byte) (err : Option (BitVec 64 × Nat)) (bad : List Piece)

/-- A push or a pop on the descriptor at `pa`, named by address `va`, for master m (R204): `place` places the entry's parts, `src` holds
the bytes of a push, `small` says that the register has 8 bytes, `far` holds the answers of other modules. -/
def State.queueOn (s : State) (m : Nat) (place : QDesc → Except Nat (List (Piece × Bool × Bool))) (va pa : Nat) (src : Option (List Byte))
    (small : Bool) (far : FarMap) : QRes :=
  let bit := if src.isSome then bitW else bitR
  let at' (cause : Cause) (a tgt : Nat) : QRes := .trap { cause := cause, info := some (BitVec.ofNat 64 a), tgt := tgt }
  if (if s.isFar pa then far.at pa == .refused else !s.mayAccess m bitA pa) then at' .refused va (s.targetCode pa)
  else if s.isRo pa || (s.isFar pa && far.at pa == .readOnly) then at' .roWrite va (s.targetCode pa)
  else if s.badAt pa 64 || s.farNone far pa then .fails .other va (s.targetCode pa)
  else match qdescOf (s.bytes pa 64) with
    | none => at' .param va 0xFF
    | some d =>
      if small && d.esz != 8 then at' .param va 0xFF
      else if d.count = (if src.isSome then d.cap else 0) then .not
      else match place d with
        | .error a => at' .unmapped a 0xFF
        | .ok ps =>
          match ps.find? fun p => src.isSome && (p.2.2 || s.isRo p.1.pa || (s.isFar p.1.pa && far.at p.1.pa == .readOnly)) with
          | some p => at' .roWrite p.1.va (if p.2.2 then 0xFF else s.targetCode p.1.pa)
          | none =>
            match ps.find? fun p => (s.path ((s.target pa).getD 12) p.1.pa).any fun i => (s.link i).dead with
            | some p => .fails .deadlink p.1.va (s.targetCode p.1.pa)
            | none =>
              match ps.find? fun p => if s.isFar p.1.pa then far.at p.1.pa == .refused else !s.mayAccess m bit p.1.pa with
              | some p => at' .refused p.1.va (s.targetCode p.1.pa)
              | none => match ps.find? fun p => s.farNone far p.1.pa with
                | some p => .fails .other p.1.va (s.targetCode p.1.pa)
                | none => match src with
                  | some bs =>
                    let part (p : Piece) : List Byte := (bs.drop p.off).take p.len
                    let bad := (ps.filter fun p => !(s.put m p.1.pa (part p.1)).2).map (·.1)
                    let s := ps.foldl (fun s p => (s.put m p.1.pa (part p.1)).1) s
                    .done (s.put m (pa + 24) (natBytes 8 ((d.tail + 1) % 2 ^ 64))).1 [] none bad
                  | none =>
                    .done (s.put m (pa + 16) (natBytes 8 ((d.head + 1) % 2 ^ 64))).1 (ps.flatMap fun p => s.bytes p.1.pa p.1.len)
                      ((ps.find? fun p => s.badAt p.1.pa p.1.len).map fun p => (BitVec.ofNat 64 p.1.va, s.targetCode p.1.pa)) []

/-- A push or a pop by a cluster, translated for it in an ASID. -/
def State.queueAt (s : State) (m c : Nat) (asid : BitVec 8) (va pa : Nat) (src : Option (List Byte)) (small : Bool)
    (far : FarMap := []) : QRes :=
  s.queueOn m (fun d => s.slotParts c asid d src.isSome) va pa src small far

/-- A QPUSH or QPOP that fails (R183, R186): a push counts as a failed store, a pop's destination will be error-pending. -/
def State.queueFails (s : State) (c x : Nat) (a : Access) (p : BitVec 3) (src : Bool) (why : Fail) (va tgt : Nat) : State × Option Access :=
  let s' := s.modCx c x fun e => e.putP p.toNat false
  if src then
    let s' := s'.failStore c a.que a.id why tgt
    (if why == .other then s'.eccRecord c a.x a.asid va tgt else s', none)
  else (s', some { a with pieces := [], err := some (BitVec.ofNat 64 va, tgt), fail := if why == .other then none else some why })

/-- The home's answer to a QPUSH or QPOP. -/
def State.queueAnswer (s : State) (c x : Nat) (a : Access) (undo : List (Opnd × Option Hold)) (pops : List Opnd) (p : BitVec 3)
    (src : Option (List Byte)) (small : Bool) (far : FarMap) : State :=
  let pa := (a.pieces.head?.map (·.pa)).getD 0
  match s.queueAt (masterOf c x) c a.asid a.va pa src small far with
  | .trap t => s.trapXfer c x [a] undo t
  | .not => ((s.modCx c x fun e => e.putP p.toNat false).modCl c fun k => undo.foldl (fun k u => k.undo1 x [a.id] u) k).accepted c x pops
  | .fails why va tgt =>
    let (s', r) := s.queueFails c x a p src.isSome why va tgt
    s'.enterQueue c x r.toList pops
  | .done s' got err bad =>
    -- a push writes its entry and TAIL, a pop HEAD
    let s' := ((bad.foldl (fun s p => s.eccStore c a p) (s'.noteSync c a (pa / 64))).modCx c x fun e => e.putP p.toNat true).markXstIf c
      (a.pieces.any fun p => s.offSram c p && (src.isSome || p.pa / 64 == pa / 64))
    if src.isSome then s'.accepted c x pops
    else s'.enterQueue c x [{ a with pieces := [], data := keepBytes [] 0 got, err := err }] pops

/-- ACCESS_ACCEPTED: every target has answered the transfer of context x; `far` holds the answers of the other modules among them. -/
def execAccessAccepted (c x : Nat) (far : FarMap) (s : State) : Out :=
  match ((s.cl c).cx x).phase with
  | .accept accs grp undo pops =>
    if accs.any fun a => s.accessDead c a || a.fail == some .deadlink then .next s
    else if grp then .next (s.groupAnswers c x accs undo pops)
    else match accs.head?.map Access.op with
      | some (.msg ..) => .next s
      | some (.qpush p bytes fromS) => match accs with
        | [a] => if !s.mayPerform c (s.withSlot c a true) then .next s else .next (s.queueAnswer c x (s.withSlot c a true) undo pops p (some bytes) fromS far)
        | _ => .next s
      | some (.qpop p toS _) => match accs with
        | [a] => if !s.mayPerform c (s.withSlot c a false) then .next s else .next (s.queueAnswer c x (s.withSlot c a false) undo pops p none toS far)
        | _ => .next s
      | _ =>
        match s.acceptTrap c x accs far with
        | some t => .next (s.trapXfer c x accs undo t)
        | none =>
          let (s, l) := foldAcc (fun s a => s.farFail c far a) s accs
          .next (s.enterQueue c x l pops)
  | _ => .next s

/-- A QPUSH or QPOP that the home may still perform later: its destination has been dealt with (R183). -/
def Access.adrift (a : Access) : Access := { a with fail := some .timeout, landed := true }

/-- An access that waits for acceptance is treated as accepted and failed (R183); `q` is the part without an answer. -/
def State.failWaiting (s : State) (c x : Nat) (a : Access) (why : Fail) (q : Option Piece := none) : State × Option Access :=
  let tgt := s.accessTarget c a q
  match a.op with
  | .msg p _ _ _ _ => (s.modCx c x fun e => e.putP p.toNat false, none)
  | .qpush p _ _ =>
    ((s.queueFails c x a p true why a.va tgt).1, if why == .timeout then some a.adrift else none)
  | .qpop p toS d =>
    let (s', r) := s.queueFails c x a p false why a.va tgt
    if why == .timeout then
      (s'.landAll c a.x a.sec [(if toS then .s (BitVec.ofNat 6 d) else .v (BitVec.ofNat 9 d), .mark (BitVec.ofNat 64 a.va) (engOf a.x) tgt)],
        some a.adrift)
    else (s', r)
  | _ => s.failAccess c a why q

/-- The failure of an access that waits for acceptance, if it fails now, and the part without an answer: a link on the way is dead or was
declared dead since its issue, or 2 ms have passed and it is among those without an answer. -/
def State.lostNow (s : State) (c : Nat) (late : List (Nat × Nat)) (a : Access × Nat) : Option (Fail × Option Piece) :=
  if s.accessDead c a.1 || a.1.fail == some .deadlink then some (.deadlink, none)
  else if a.1.cyc + Config.cycles2ms ≤ s.cycle.toNat then
    (late.find? fun l => l.1 == a.2).map fun l => (.timeout, a.1.part l.2)
  else none

/-- Accepted accesses of a cluster that lie behind a dead link, or are 2 ms old and listed as without an answer (number, part), have failed
(R183, 21 R316). -/
def State.loseAccepted (s : State) (c : Nat) (lost : List (Nat × Nat)) : State :=
  let (s', l) := foldAcc (fun t a =>
    match lost.find? fun e => e.1 == a.id with
    | none => (t, some a)
    | some e =>
      if !a.isOpen then (t, some a)
      else if s.accessDead c a then t.failAccess c a .deadlink
      else if a.cyc + Config.cycles2ms ≤ s.cycle.toNat then t.failAccess c a .timeout (a.part e.2)
      else (t, some a)) s (s.cl c).mq
  s'.modCl c fun k => { k with mq := l }

/-- ACCEPTANCE_TIMEOUT: a link on the way is dead, or 2 ms have passed without an answer. The accesses that have been answered are judged
as at acceptance. Accepted accesses without an answer fail in the same way (21 R316). -/
def execAcceptanceTimeout (c : Nat) (u : Unanswered) (s0 : State) : Out :=
  let s := if u.lost.isEmpty then s0 else s0.flushShown.loseAccepted c u.lost
  match ((s.cl c).cx u.x).phase with
  | .accept accs grp undo pops =>
    let all := accs.zipIdx.map fun a => (a.1, s.lostNow c u.late a)
    let lost := all.filterMap fun a => a.2.map fun why => (a.1, why)
    let rest := (all.filter fun a => a.2.isNone).map (·.1)
    if lost.isEmpty then .next s
    else
      match if grp then none else s.acceptTrap c u.x rest u.far with
      | some t => .next (s.trapXfer c u.x accs undo t)
      | none =>
        let (s', gone) := foldAcc (fun t a =>
          let why := ((lost.find? fun l => l.1.id == a.id).map (·.2)).getD (.timeout, none)
          t.failWaiting c u.x a why.1 why.2) s (lost.map (·.1))
        if grp then .next ((s'.modCl c fun k => { k with mq := k.mq ++ gone }).groupAnswers c u.x rest undo pops)
        else
          let (s', kept) := foldAcc (fun t a => t.farFail c u.far a) s' rest
          .next (s'.enterQueue c u.x (gone ++ kept) pops)
  | _ => .next s

/-! ### Performing -/

/-- A QPUSH or QPOP that its issuer has given up is performed at the home, unless it is refused there: the entry a pop takes is delivered
to no one (R183). -/
def State.queueLate (s : State) (c : Nat) (a : Access) (src : Option (List Byte)) (small : Bool) : State :=
  match s.queueAt (masterOf c a.x) c a.asid a.va ((a.pieces.head?.map (·.pa)).getD 0) src small with
  | .done s' _ _ bad => bad.foldl (fun s p => s.eccStore c a p) (s'.noteSync c a (((a.pieces.head?.map (·.pa)).getD 0) / 64))
  | .trap t => if t.cause = .refused then s.refuse c a.x t.tgt ((t.info.getD 0).toNat) 0xFFFFFFFF else s
  | _ => s

/-- A plain store may be performed with respect to every reader in an instance of a scope, CLUS to SYSTEM, before it is performed at its home
(21 R294, log 70): the reads of those readers wait for it from then on. -/
def State.mayShow (s : State) (c : Nat) (a : Access) (sc : Nat) : Bool :=
  (match a.op with
    | .store _ => true
    | _ => false) &&
  decide (1 ≤ sc) && decide (sc ≤ 11) && a.fail.isNone && !a.doneAt sc &&
  a.pieces.all (fun p => s.isMem p.pa && !s.badAt p.pa p.len && !s.deadPath c p.pa) && s.mayPerformAt c a sc

/-- A store is performed with respect to a scope's instance of its issuer from now on. -/
def State.show (s : State) (c : Nat) (a : Access) (sc : Nat) : State :=
  let v : Shown := a.vis.getD { scope := sc, order := s.seq, rels := [], seen := [] }
  { (s.modCl c fun k => k.keepAccess { a with vis := some { v with scope := sc } }) with seq := s.seq + 1 }

/-- ACCESS_PERFORMED: the next piece of an access is performed at its home (21 R294), or, for a scope from CLUS (1) to SYSTEM (11), the
whole access with respect to that scope's instance of the issuer. -/
def execAccessPerformed (c : Nat) (p : Performed) (s : State) : Out :=
  match (s.cl c).access p.id with
  | none => .next s
  | some a =>
    if decide (0 < p.scope ∧ p.scope < 12) then
      .next (if s.mayShow c a p.scope then s.show c a p.scope else s)
    else if a.pieces.isEmpty || a.fail == some .deadlink || !s.mayPerform c a ||
        (a.pieces.head?.map fun p => s.deadPath c p.pa).getD false then .next s
    else match a.op with
      | .qpush _ bytes small => .next ((s.queueLate c a (some bytes) small).modCl c fun k => { k with mq := k.mq.filter (·.id != p.id) })
      | .qpop _ small _ => .next ((s.queueLate c a none small).modCl c fun k => { k with mq := k.mq.filter (·.id != p.id) })
      | _ =>
        let (s', a') := s.performPiece c a
        .next (s'.modCl c fun k => k.keepAccess a')

/-! ### Landing -/

/-- RESULT_LANDS: a long-latency result that is no access, or the read or atomic n, lands. -/
def execResultLands (c n : Nat) (ext : List Byte) (s : State) : Out :=
  match (s.cl c).pend.find? fun p => p.id == n with
  | some p =>
    let kind (p : Pend) : LandKind := match p.dst with
      | .q _ _ => .push p.id (plainEnt (p.val &&& p.mask))
      | _ => .write p.val p.mask none
    -- the results of an A-engine word land together (19 R272)
    let mine (q : Pend) : Bool := q.id == n || (p.ofA && q.ofA)
    .next (s.modCl c fun k => { k with
      pend := k.pend.filter fun q => !mine q
      land := k.land ++ (k.pend.filter mine).map fun q =>
        { due := s.cycle.toNat + 1, x := q.x, sec := q.sec, dst := q.dst, kind := kind q, flags := q.flags } })
  | none =>
    match (s.cl c).access n with
    | none => .next s
    | some a =>
      if a.landings.isEmpty then .next s
      else match s.endAccess c a ext with
        | none => .next s
        | some (s', a') => .next ((s'.dropAccess c n).landAll c a.x a.sec a'.landings)

/-- LDQ_SCALES_LAND: the scales of LDQ access n land in kB, or wait for the data of a queue entry (R189). -/
def execLdqScalesLand (c n : Nat) (ext : List Byte) (s : State) : Out :=
  match (s.cl c).access n with
  | none => .next s
  | some a =>
    match a.op with
    | .ldqScale k _ =>
      if a.landed then .next s
      else match s.endAccess c a ext with
        | none => .next s
        | some (s', a') =>
          let s' := s'.modCl c fun q => { q with mq := q.mq.map fun b => if b.id == n then { a' with landed := true } else b }
          match k with
          | none => .next s'
          | some i =>
            .next (s'.landAll c a.x a.sec [(.k (BitVec.ofNat 8 i), match a'.err with
              | some (va, t) => .mark va (engOf a.x) t
              | none => .write (BitVec.ofNat 2048 (sliceNat a'.data 0 16)) allV none)])
    | _ => .next s

/-- The scales of an LDQ have landed in an earlier cycle. -/
def Cluster.scalesIn (k : Cluster) (a : Access) : Bool :=
  a.landed && (match a.op with
    | .ldqScale (some i) _ => !(k.land.any fun l => l.x == a.x && l.dst == .k (BitVec.ofNat 8 i) && l.sec == a.sec)
    | _ => true)

/-- LDQ_DATA_LANDS: both streams have landed; vD takes the data and its binding, or the queue entry becomes visible (R189). -/
def execLdqDataLands (c n : Nat) (ext : List Byte) (s : State) : Out :=
  match (s.cl c).access n with
  | none => .next s
  | some a =>
    match a.op with
    | .ldqData v k q sid =>
      match (s.cl c).access sid with
      | none => .next s
      | some sc =>
        if !(s.cl c).scalesIn sc then .next s
        else match s.endAccess c a ext with
          | none => .next s
          | some (s', a') =>
            let data := BitVec.ofNat 2048 (sliceNat a'.data 0 256)
            let err := sc.err.orElse fun _ => a'.err
            let s' := (s'.dropAccess c n).dropAccess c sid
            let mark := err.map fun e => Hold.mark e.1 (engOf a.x) e.2
            match v, q with
            | some d, _ =>
              let bind : Bind := { kix := BitVec.ofNat 8 (k.getD 0), gen := (s.cl c).genOf (k.getD 0) }
              .next (s'.landAll c a.x a.sec [(.v (BitVec.ofNat 9 d), match err with
                | some (va, t) => .mark va (engOf a.x) t
                | none => .write data allV (some bind))])
            | none, some i =>
              .next (s'.landAll c a.x a.sec [(.q false (BitVec.ofNat 4 i), .push n
                { data := data, sb := BitVec.ofNat 128 (sliceNat sc.data 0 16), sbv := true, bind := none, mark := mark, resv := none })])
            | none, none => .next s'
    | _ => .next s

/-! ### Fences -/

/-- The accesses of a cluster that `covers` picks and that lie behind a dead link, or have had no answer for 2 ms, count as failed (21 R316);
a store that some reader already sees has been accepted by its home. -/
def State.giveUp (s0 : State) (c : Nat) (covers : Access → Bool) : State :=
  let s := s0.flushShown
  let (s', l) := foldAcc (fun t a =>
    if a.isOpen && covers a then
      if a.fail == some .deadlink || s.accessDead c a then t.failAccess c a .deadlink
      else if a.cyc + Config.cycles2ms ≤ s.cycle.toNat then t.failAccess c a .timeout
      else (t, some a)
    else (t, some a)) s (s.cl c).mq
  s'.modCl c fun k => { k with mq := l }

/-- 2 ms have passed since a cycle. -/
def State.over2ms (s : State) (cyc : Nat) : Bool := decide (cyc + Config.cycles2ms ≤ s.cycle.toNat)

/-- The QFENCEs of a queue in force for 2 ms stop waiting for what has no answer (R316). -/
def State.expireMarks (s : State) (c que : Nat) : State :=
  let old := (s.cl c).qf.filter fun m => m.que == que && s.over2ms m.cyc
  (s.giveUp c fun a => old.any fun m => a.before m.que m.mask m.id m.cyc).modCl c fun k =>
    { k with qf := k.qf.map fun m => if m.que == que && s.over2ms m.cyc then { m with expired := true } else m }

/-- The fence of a hub core stops waiting for what has no answer 2 ms after its start (R316). -/
def State.expireCore (s : State) (core : Nat) : State :=
  match SMap.get? s.hub.fences core with
  | none => s
  | some t =>
    if s.over2ms t then (List.range 320).foldl (fun s c => s.giveUp c fun a => decide (a.cyc ≤ t)) s else s

/-- FENCE_WAIT_EXPIRY: 2 ms after the issue of a fence, an access behind a dead link or without an answer for 2 ms counts as failed and
stops holding it (R200): a FENCE of the context, else the QFENCEs of its queue; for c past the clusters, the fence of hub core x. -/
def execFenceWaitExpiry (c x : Nat) (s : State) : Out :=
  if 320 ≤ c then .next (s.expireCore x)
  else match ((s.cl c).cx x).phase with
  | .fence f =>
    if f.kind < 4 && s.over2ms f.cyc then
      .next ((s.giveUp c fun a => a.before (queOf x) f.mask f.id f.cyc).modCx c x fun e => match e.phase with
        | .fence f => { e with phase := .fence { f with expired := true } }
        | _ => e)
    else .next (s.expireMarks c (queOf x))
  | _ => .next (s.expireMarks c (queOf x))

/-! ### Messages (R205 to R207) -/

/-- The lowest free receive slot. -/
def Cluster.freeSlot (k : Cluster) : Option Nat := (List.range 16).find? fun n => (SMap.get? k.slots n).isNone

/-- First byte of receive slot n in the cluster's SRAM. -/
def slotOff (n : Nat) : Nat := 0x3F0000 + n * 0x1000

/-- A message reaches a cluster: it takes the lowest free slot, and its payload is written; none when all are occupied. -/
def State.deliver (s : State) (cl : Nat) (bytes : List Byte) (src : BitVec 22) (asid : BitVec 8) (hnd : Parcel) : Option State :=
  match (s.cl cl).freeSlot with
  | none => none
  | some n =>
    let slot : Slot := { order := s.seq, len := bytes.length, src := src, asid := asid, hnd := hnd, started := false }
    some ((({ s with seq := s.seq + 1 } : State).store (s.here (sramBase cl) + slotOff n) bytes).1.modCl cl
      fun k => { k with slots := SMap.set k.slots n slot })

/-- A payload covers whole every uncorrectable unit that it touches in the slot it takes (13 R186). -/
def State.slotWhole (s : State) (cl : Nat) (bytes : List Byte) : Bool := match (s.cl cl).freeSlot with
  | some n => (s.store (s.here (sramBase cl) + slotOff n) bytes).2
  | none => true

/-- A payload that did not reach its slot whole, of a message of this module's cluster c: a failed store of its S queue, and a fault record
(R186). -/
def State.slotFails (s : State) (c : Nat) (a : Access) (cl : Nat) : State :=
  let pa := s.here (sramBase cl) + slotOff (((s.cl cl).freeSlot).getD 0)
  (s.failStore c a.que a.id .other (s.targetCode pa)).eccRecord c a.x a.asid pa (s.targetCode pa) true

/-- A message of cluster c has reached cluster cl: it carries what its S queue has performed, and the handler's accesses come after (21 R306). -/
def State.msgSync (s : State) (c : Nat) (a : Access) (cl : Nat) : State := s.noteSeen (fun j b v => v.precedes j b c a) (.cluster cl s.seq)

/-- The next message to a cluster would be written to a read-only granule (27 R362). -/
def State.slotRo (s : State) (cl : Nat) : Bool := match (s.cl cl).freeSlot with
  | some n => s.isRo (s.here (sramBase cl) + slotOff n)
  | none => false

/-- MESSAGE_ARRIVAL: the MSGSEND that the S engine of cluster c has issued reads its payload and reaches its target; `far` holds the
answers of other modules. -/
def execMessageArrival (c : Nat) (far : MsgAns) (s : State) : Out :=
  match ((s.cl c).cx 4).phase with
  | .accept [a] _ undo _ =>
    match a.op with
    | .msg p _ m cl hnd =>
      if s.accessDead c a || a.fail == some .deadlink || !s.mayPerform c a then .next s
      else match s.refusedAt c 4 [a] far.payload with
        | some q => .next (s.trapXfer c 4 [a] undo (s.trapAt .refused q))
        | none =>
          match a.pieces.find? fun q => s.badAt q.pa q.len || s.farNone far.payload q.pa with
          | some q => .next (s.trapXfer c 4 [a] undo (s.trapAt .eccFatal q))
          | none =>
            let bytes := a.pieces.flatMap fun q => s.bytes q.pa q.len
            let src := BitVec.ofNat 22 (s.hub.modNo.toNat * 2 ^ 16 + masterOf c 4)
            let answer (s : State) (ok : Bool) : State := (s.modCx c 4 fun e => e.putP p.toNat ok).finishWord c 4 3
            let stopBy (cause : Cause) : State := s.trapXfer c 4 [a] undo { cause := cause, tgt := m.toNat * 256 + dieOf cl }
            if m ≠ s.hub.modNo then .next (match far.target with
              | .refused => stopBy .refused
              | .readOnly => stopBy .roWrite
              | ans => answer s (ans == .ok))
            else if s.permits (dieOf cl) (masterOf c 4) &&& bitM = 0 then .next (stopBy .refused)
            else if s.slotRo cl then .next (stopBy .roWrite)
            else match (if s.slotWhole cl bytes then s else s.slotFails c a cl).deliver cl bytes src a.asid hnd with
              | some s' => .next (answer (s'.msgSync c a cl) true)
              | none => .next (answer s false)
    | _ => .next s
  | _ => .next s

/-- A handler context that runs nothing. -/
def Cluster.dormant (k : Cluster) (x : Nat) : Bool := (k.cx x).run == .dormant || (k.cx x).run == .idle

/-- A handler context as it starts: PC at a header of a new section 0, four or five s registers, everything else zero. -/
def handlerCtx (pc : Parcel) (h : Hnd) (regs : List Word) : Ctx :=
  { Ctx.reset with run := .running, pc := pc, hnd := some h, s := (regs.zipIdx.map fun r => (r.2, r.1)).filter fun r => r.2 != 0 }

/-- The handlers of a cluster may start: it issues and is not being saved. -/
def State.handlersRun (s : State) (c : Nat) : Bool :=
  s.hub.runs && !(s.cl c).halted && !(s.cl c).byHalt && !s.frozen c && !(s.cl c).saving && !(s.cl c).swapped

/-- ARRIVAL_HANDLER_START: the oldest message that waits for a handler starts in a dormant context, 0 before 1; a trap that waits
goes first when only one is dormant (R206, R207, 29 R368). -/
def execArrivalHandlerStart (c : Nat) (s : State) : Out :=
  let k := s.cl c
  let both := k.dormant 5 && k.dormant 6
  let x := if k.dormant 5 then some 5 else if k.dormant 6 then some 6 else none
  let wait := k.slots.filter fun e => !e.2.started
  let first := wait.foldl (fun (b : Option (Nat × Slot)) e => match b with
    | none => some e
    | some f => if e.2.order < f.2.order then some e else some f) none
  match x, first with
  | some x, some (n, m) =>
    if !s.handlersRun c || (!k.traps.isEmpty && !both) then .next s
    else
      let e := handlerCtx m.hnd { slot := some n, eng := none, asid := m.asid, still := false }
        [BitVec.ofNat 64 (0xFF000000000000 + slotOff n), BitVec.ofNat 64 m.len, m.src.setWidth 64, m.asid.setWidth 64]
      .next (s.modCl c fun k => { k.setCx x e with slots := SMap.set k.slots n { m with started := true } })
  | _, _ => .next s

end Sys2Proof.Machine
end

