-- ==== Sys2Proof/Machine/Sequencer.lean ====
section
/-! DEFINITION. The sequencer's instructions (11 R141 to R154) and the control registers (07 R109, 11 R161). -/

namespace Sys2Proof.Machine

/-- NOP (R143): nothing but its issue cycle. -/
def execNop (_w : AForm) (s : State) : Out := finish s 3 (.ok s)

/-! ### END -/

/-- The trap code of a TRAPCAUSE value (07 R111). -/
def causeOf (c : BitVec 32) : Cause :=
  ([Cause.illegal, .engMismatch, .priv, .qOver, .qUnder, .feEmpty, .bankOff, .staleBind, .unmapped, .misalign, .refused, .roWrite,
    .atomPath, .shape, .segMiss, .evOver, .loopOver, .swTrap, .eccFatal, .groupMem, .param].find?
      fun k => k.code == c.toNat % 256).getD .swTrap

/-- END in the current context (R143, R32, R33, 29 R369): none when it waits. -/
def State.doEnd (s : State) : Chk State :=
  let x := s.cur.2
  let e := s.ctx
  let quit (s : State) (r : Run) : State := s.modCtx fun e => { e with run := r, inSec := false, phase := .header }
  if x ≥ 5 then
    let s1 := (quit s .dormant).modCtx fun e => { e with hnd := none }
    match e.hnd with
    | some ⟨some n, _, _, _⟩ => .ok (s1.modMe fun k => { k with slots := SMap.del k.slots n })
    | some ⟨none, some g, _, still⟩ =>
      let t := s.me.cx g
      if still then
        .ok (s1.escalate s.cur.1 g { cause := causeOf t.cause, info := some t.tinfo, tgt := t.tgt })
      else .ok s1
    | _ => .ok s1
  else if x = 0 then (if s.me.allArrived then .ok (quit s .arrived) else waitHere)
  else if x = 2 ∧ isRing s.cur.1 ∧ s.me.m.busy then waitHere
  else .ok (quit s .arrived)

/-- END as the engine's last word: an engine that has to wait at it stands at a pre-emption point (R150). -/
def State.endHere (s : State) : Out :=
  match s.doEnd with
  | .error .wait => .next (s.stopped .wait).preemptPoint
  | r => finishAt s r

/-- END, or an end-of-stream header (09 R114): on the M engine it first reports a dropped nest (17 R265). -/
def State.actEnd (s : State) : Out :=
  if s.cur.2 = 2 ∧ !s.me.m.busy then
    match s.reportDrop fun _ => true with
    | some s' => .next s'
    | none => s.endHere
  else s.endHere

/-- END. -/
def execEndI (_w : AForm) (s : State) : Out := s.actEnd

/-! ### Transfers of control (R144 to R146) -/

/-- This parcel plus a signed offset, modulo 2^32 (R144). -/
def relTarget (pc : Parcel) (off : BitVec 48) : Parcel := (pc.setWidth 64 + off.signExtend 64).setWidth 32

/-- BRI. -/
def execBri (w : CForm) (s : State) : Out := finishAt s (s.goto (relTarget s.ctx.pc w.off))

/-- The delay of a BR or RET (R145): words short of three since its b register was written; the
age of a register counts the word that wrote it as one. -/
def brDelay (e : Ctx) (i : Nat) : Nat := 4 - (SMap.get? e.bAge i).getD 4

/-- BR and RET: the delay of R145, then the transfer. -/
def State.branchB (s : State) (o : Opnd) : Out :=
  match o with
  | .b i =>
    let e := s.ctx
    match e.phase with
    | .brWait (n + 1) => .next (s.modCtx fun e => { e with phase := .brWait n }).used
    | .brWait 0 => finishAt s ((s.modCtx fun e => { e with phase := .body }).goto (e.getB i.toNat))
    | _ =>
      match brDelay e i.toNat with
      | n + 1 => .next (s.modCtx fun e => { e with phase := .brWait n }).used
      | 0 => finishAt s (s.goto (e.getB i.toNat))
  | _ => .next (s.trapHere { cause := .illegal, opnd := 2 })

/-- BR. -/
def execBr (w : AForm) (s : State) : Out := s.branchB w.sa
/-- RET has exactly the effect and timing of BR. -/
def execRet (w : AForm) (s : State) : Out := s.branchB w.sa

/-- PBR. -/
def execPbr (w : CForm) (s : State) : Out :=
  finish s 3 (.ok (s.putOpnd w.dst ((relTarget s.ctx.pc w.off).setWidth 64)))

/-- CALL: the link, then the transfer. -/
def execCall (w : CForm) (s : State) : Out :=
  finishAt s ((s.putOpnd w.dst ((s.ctx.pc + 3).setWidth 64)).goto (relTarget s.ctx.pc w.off))

/-- JTAB (R146). -/
def execJtab (w : AForm) (s : State) : Out :=
  finishAt s do
    let i ← s.srcS w.sa 2 (ftBit w 2)
    let b ← s.srcS w.sb 3 (ftBit w 3)
    let e := if i.toNat < w.imm.toNat then i.toNat else w.imm.toNat
    let ea := b.toNat + 4 * e
    trapIfInfo (ea % 4 != 0) .misalign (BitVec.ofNat 64 ea)
    match s.fetch32 s.cur.1 s.cur.2 ea with
    | .error t => .error (.trap t)
    | .ok a => s.goto a

/-! ### Loops (R147 to R149) -/

/-- LOOP. -/
def execLoop (w : CForm) (s : State) : Out :=
  let e := s.ctx
  let this : Int := e.pc.toNat
  let stop := relTarget e.pc w.off
  match s.srcS w.sa 2 false with
  | .error x => .next (s.stopped x)
  | .ok c =>
    if c.toNat ≥ 2 ^ 31 then .next (s.trapHere { cause := .illegal, opnd := 2, info := some c })
    else if this + w.off.toInt ≤ this + 3 then .next (s.trapHere { cause := .illegal })
    else if c = 0 then .next (s.succeed stop).issuedWord
    else if e.loops.length ≥ 6 then .next (s.trapHere { cause := .loopOver })
    else
      finish s 3 (.ok (s.modCtx fun e => { e with loops :=
        { index := 0, limit := BitVec.ofNat 32 (c.toNat + (if w.cf.getLsbD 0 then 2 ^ 31 else 0)), start := e.pc + 3, stop := stop }
          :: e.loops }))

/-- LBRK n, with LV = n − 1: pops n entries and goes to the end of the outermost. -/
def execLbrk (w : CForm) (s : State) : Out :=
  match s.ctx.loops.drop w.lv.toNat with
  | [] => .next (s.trapHere { cause := .illegal })
  | e :: rest => finishAt s do
    let s' ← (s.modCtx fun x => { x with loops := rest }).arrive e.stop
    pure s'.preemptPoint

/-- LIDX. -/
def execLidx (w : CForm) (s : State) : Out :=
  finish s 3 do
    s.dstS w.dst
    match s.ctx.loops[w.lv.toNat]? with
    | none => trapWith .illegal
    | some e => pure (s.putOpnd w.dst (e.index.setWidth 64))

/-! ### Events (R151, R152) -/

/-- The event counter a POST or AWAIT names. -/
def eventOf (w : AForm) : Nat := w.imm.toNat % 64

/-- The count of a POST or AWAIT. -/
def State.countOf (s : State) (w : AForm) : Chk Nat :=
  if w.sa = .null then .ok (w.imm.toNat / 256)
  else do
    let v ← s.srcS w.sa 2 (ftBit w 2)
    if v.toNat > 65535 then trapWith .illegal 2 else pure v.toNat

/-- POST: the count is added at the end of the cycle, when the word completes. -/
def execPost (w : AForm) (s : State) : Out :=
  finishWait s do
    let n ← s.countOf w
    pure ((s.modMe fun k => { k with posts := k.posts ++ [{ x := s.cur.2, n := eventOf w, count := n, nest := false }] }).modCtx
      fun e => { e with phase := .post })

/-- An event counter. -/
def Cluster.event (k : Cluster) (n : Nat) : BitVec 16 := SMap.get 0 k.ev n

/-- Take a count from an event counter. -/
def State.takeEvent (s : State) (n c : Nat) : State :=
  s.modMe fun k => { k with ev := SMap.put 0 k.ev n (k.event n - BitVec.ofNat 16 c) }

/-- AWAIT: a count in an s register is read at each attempt (log 71). -/
def execAwait (w : AForm) (s : State) : Out :=
  finish s 3 do
    let n ← s.countOf w
    if n ≤ (s.me.event (eventOf w)).toNat then pure (s.takeEvent (eventOf w) n) else waitHere

/-- AWAIT.nb. -/
def execAwaitNb (w : AForm) (s : State) : Out :=
  finish s 3 do
    let n ← s.countOf w
    if n ≤ (s.me.event (eventOf w)).toNat then pure ((s.takeEvent (eventOf w) n).putPred w.dst true)
    else pure (s.putPred w.dst false)

/-! ### WSEG (R153) and TRAP (R154) -/

/-- The task starts to wait in rotate: it holds no window meanwhile (23 R324). -/
def State.rotateWait (s : State) (c : Nat) : State := s.modTaskOn c fun t => { t with holds := none }

/-- WSEG. -/
def execWseg (w : AForm) (s : State) : Out :=
  match s.srcSOr w.sa 2 (ftBit w 2) 0xFFFFFFFF with
  | .error e => .next (s.stopped e)
  | .ok r =>
    let wait (b : Bool) (s : State) : Out := .next (s.modCtx fun e => { e with phase := .wseg b }).waits
    match s.keyCheck s.cur.1 w.imm (r.setWidth 32) with
    | .hit => finish s 3 (.ok (s.putPred w.dst true))
    | .waits => wait false s
    | k =>
      match w.sub.toNat with
      | 0 =>
        -- a retry of a wait in rotate keeps a generation that the task has been given meanwhile
        if k = .missOwn then wait true (if s.ctx.phase = .wseg true then s else s.rotateWait s.cur.1)
        else .next (s.trapHere { cause := .segMiss, info := some (w.imm.setWidth 64) })
      | 1 => .next ((s.putPred w.dst false).leaveTo (BitVec.ofNat 32 s.ctx.secE)).issuedWord
      | 2 => .next (s.trapHere { cause := .segMiss, info := some (w.imm.setWidth 64) })
      | _ => finish s 3 (.ok (s.putPred w.dst false))

/-- TRAP n. -/
def execTrapI (w : AForm) (s : State) : Out := .next (s.trapHere { cause := .swTrap, info := some (w.imm.setWidth 64) })

/-! ### Control registers (07 R109, 11 R161) -/

/-- QSTAT (07 R96): an entry that is reserved and has not landed is not counted (log 19). -/
def Cluster.qstat (k : Cluster) : Nat :=
  (List.range 16).foldl (fun a n =>
    let q := k.getQ n
    let c := (q.ents.filter fun e => e.resv.isNone).length
    a + (c + (if q.cfg.isSome then 8 else 0)) * 2 ^ (4 * n)) 0

/-- The value of a control register; ECNTW is apart (log 9). -/
def State.control (s : State) (n : Nat) : Option Nat :=
  let k := s.me
  let e := s.ctx
  let d := dieOf s.cur.1
  match n with
  | 0x000 => some k.vflags.toNat
  | 0x001 => some k.vmode.toNat
  | 0x002 => some k.mmode.toNat
  | 0x003 => some e.vrb.toNat
  | 0x004 => some k.bankctl.toNat
  | 0x005 => some k.qstat
  | 0x006 => some e.cause.toNat
  | 0x007 => some e.tpc.toNat
  | 0x008 => some e.tinfo.toNat
  | 0x009 => some e.loops.length
  | 0x00A => some k.tid.toNat
  | 0x00B => some s.cur.1
  | 0x00C => some k.progc.toNat
  | 0x00D => some (s.frameOf d).toNat
  | 0x00E => some (s.tickOf d).toNat
  | 0x00F => some (s.rotOf d).toNat
  | 0x010 => some s.cycle.toNat
  | _ => none

/-- GETC. -/
def execGetc (w : AForm) (s : State) : Out :=
  finish s 3 do
    s.dstS w.dst
    if w.imm.toNat = 0x011 then
      -- the count since it was last read is a free value (log 9)
      let v := if s.me.vAcc then s.me.ecntw + Config.freeCount s.free else s.me.ecntw
      pure (({ s with free := s.free + 1 }.modMe fun k => { k with ecntw := v, vAcc := false }).putOpnd w.dst v)
    else match s.control w.imm.toNat with
      | some v => pure (s.putOpnd w.dst (BitVec.ofNat 64 v))
      | none => trapWith .illegal

/-- A value SETC may write to VRB (07 R106). -/
def vrbOk (v : Nat) : Bool :=
  let size := bitsNat v 27 18
  let ws := bitsNat v 17 9
  let base := bitsNat v 8 0
  ws + size ≤ 512 && (if size = 0 then base == 0 else base < size)

/-- A BANKCTL write of the fields under a mask (07 R104, R105): it is made at the end of the cycle in which nothing is pending into a bank it changes. -/
def State.writeBank (s : State) (v mask : BitVec 64) : Chk State :=
  if (List.range 32).any fun b => bankState v b == 3 then trapWith .illegal 2
  else .ok (s.modCtx fun e => { e with phase := .bank v mask })

/-- SETC. -/
def execSetc (w : AForm) (s : State) : Out :=
  let n := w.imm.toNat
  (if n = 0x004 then finishWait s else finish s 3) do
    trapIf (!([0x000, 0x003, 0x004, 0x006, 0x011].contains n)) .illegal
    trapIf (n == 0x004 && engOf s.cur.2 != 0) .priv
    let v ← s.srcS w.sa 2 (ftBit w 2)
    match n with
    | 0x000 => pure (s.lands 1 .null (.clrFlags (v.setWidth 32)) 0)
    | 0x003 =>
      if vrbOk v.toNat then pure (s.modCtx fun e => { e with vrb := v.setWidth 32 &&& 0x0FFFFFFF }) else trapWith .illegal 2
    | 0x004 => s.writeBank v (BitVec.allOnes 64)
    | 0x006 => pure (s.modCtx fun e => { e with cause := v.setWidth 32 &&& 0x000F00FF })
    | _ => pure (s.lands 1 .null (.ecnt v) 0)

end Sys2Proof.Machine
end

