-- ==== Sys2Proof/Machine/Scalar.lean ====
section
/-! DEFINITION. Scalar arithmetic, moves and spill stores (11 R155 to R160). -/

namespace Sys2Proof.Machine

/-! ### Shared operations -/

/-- MD[3]: signed saturation (R155). -/
def satOf (md : BitVec 4) : Bool := md.getLsbD 3

/-- An exact integer clamped to the signed 64-bit range, or taken modulo 2^64 (R155). -/
def narrow (sat : Bool) (x : Int) : Word :=
  if sat then BitVec.ofInt 64 (max (-2 ^ 63) (min (2 ^ 63 - 1) x)) else BitVec.ofInt 64 x

/-- A shift by 64 or more gives what R156 states. -/
def shlW (sat : Bool) (a b : Word) : Word :=
  if sat then (if b.toNat ≥ 64 then (if a = 0 then 0 else narrow true (if a.toInt < 0 then -2 ^ 64 else 2 ^ 64))
    else narrow true (a.toInt * 2 ^ b.toNat))
  else if b.toNat ≥ 64 then 0 else a <<< b.toNat
def shrW (a b : Word) : Word := if b.toNat ≥ 64 then 0 else a >>> b.toNat
def sarW (a b : Word) : Word := a.sshiftRight (min b.toNat 63)
def minW (a b : Word) : Word := if a.toInt ≤ b.toInt then a else b
def maxW (a b : Word) : Word := if a.toInt ≤ b.toInt then b else a
def minnW (a b : Word) : Word := if a.toNat ≤ b.toNat then a else b
def maxnW (a b : Word) : Word := if a.toNat ≤ b.toNat then b else a

/-- Leading zeros of a w-bit number. -/
def clzNat (w x : Nat) : Nat := if x = 0 then w else w - 1 - x.log2
/-- Ones among the low w bits. -/
def popNat (w x : Nat) : Nat := ((List.range w).filter fun i => x.testBit i).length

/-- Position and length of a bit field (R156). -/
def fieldPos (b : Word) : Nat := bitsNat b.toNat 5 0
def fieldLen (b : Word) : Nat := min (bitsNat b.toNat 14 8) 64
def bextW (a b : Word) : Word := BitVec.ofNat 64 ((a.toNat >>> fieldPos b) % 2 ^ fieldLen b)
def binsW (a b c : Word) : Word :=
  let m := BitVec.ofNat 64 ((2 ^ fieldLen b - 1) <<< fieldPos b)
  (c &&& ~~~m) ||| ((a <<< fieldPos b) &&& m)

def mulW (sat : Bool) (a b : Word) : Word := narrow sat (a.toInt * b.toInt)
def mulhW (a b : Word) : Word := BitVec.ofInt 64 (a.toInt * b.toInt / 2 ^ 64)
def mulhnW (a b : Word) : Word := BitVec.ofNat 64 (a.toNat * b.toNat / 2 ^ 64)
def maddW (sat : Bool) (a b c : Word) : Word := narrow sat (a.toInt * b.toInt + c.toInt)
/-- Division (R157): a zero divisor gives all ones, the one quotient that does not fit wraps or is clamped. -/
def divW (sat : Bool) (a b : Word) : Word :=
  if b = 0 then BitVec.allOnes 64 else narrow sat (a.toInt.tdiv b.toInt)
def divnW (a b : Word) : Word := if b = 0 then BitVec.allOnes 64 else BitVec.ofNat 64 (a.toNat / b.toNat)
def remW (a b : Word) : Word := if b = 0 then a else BitVec.ofInt 64 (a.toInt.tmod b.toInt)
def remnW (a b : Word) : Word := if b = 0 then a else BitVec.ofNat 64 (a.toNat % b.toNat)

/-- The condition of CMP and CMPI (R158, 09 R129). -/
def condW (cc : Nat) (a b : Word) : Bool :=
  match cc with
  | 0 => a == b
  | 1 => a != b
  | 2 => decide (a.toInt < b.toInt)
  | 3 => decide (a.toInt ≤ b.toInt)
  | 4 => decide (a.toInt > b.toInt)
  | 5 => decide (a.toInt ≥ b.toInt)
  | 6 => decide (a.toNat < b.toNat)
  | 7 => decide (a.toNat ≤ b.toNat)
  | 8 => decide (a.toNat > b.toNat)
  | _ => decide (a.toNat ≥ b.toNat)

/-- IMM48 as an operand. -/
def immS (w : BForm) : Word := w.imm.signExtend 64
def immZ (w : BForm) : Word := w.imm.setWidth 64

/-- A two-source scalar operation of latency `lat`. -/
def State.alu2 (s : State) (lat : Nat) (w : AForm) (f : Word → Word → Word) : Out :=
  finish s 3 do
    let a ← s.srcS w.sa 2 (ftBit w 2)
    let b ← s.srcS w.sb 3 (ftBit w 3)
    s.dstS w.dst
    pure (s.resultS lat w.dst (f a b))

/-- A one-source scalar operation. -/
def State.alu1 (s : State) (w : AForm) (f : Word → Word) : Out :=
  finish s 3 do
    let a ← s.srcS w.sa 2 (ftBit w 2)
    s.dstS w.dst
    pure (s.resultS 1 w.dst (f a))

/-- A three-source scalar operation. -/
def State.alu3 (s : State) (lat : Nat) (w : AForm) (f : Word → Word → Word → Word) : Out :=
  finish s 3 do
    let a ← s.srcS w.sa 2 (ftBit w 2)
    let b ← s.srcS w.sb 3 (ftBit w 3)
    let c ← s.srcS w.sc 4 (ftBit w 4)
    s.dstS w.dst
    pure (s.resultS lat w.dst (f a b c))

/-- A scalar operation with an immediate. -/
def State.aluImm (s : State) (w : BForm) (f : Word → Word) : Out :=
  finish s 3 do
    let a ← s.srcS w.sa 2 w.ft
    s.dstS w.dst
    pure (s.resultS 1 w.dst (f a))

/-- A division: the result is long-latency (03 R62). -/
def State.aluDiv (s : State) (w : AForm) (f : Word → Word → Word) : Out :=
  finish s 3 do
    let a ← s.srcS w.sa 2 (ftBit w 2)
    let b ← s.srcS w.sb 3 (ftBit w 3)
    s.dstS w.dst
    pure (s.resultLong w.dst ((f a b).setWidth 2048) (BitVec.allOnes 2048) 0)

/-! ### Meanings -/

/-- ADD: modulo 2^64, or saturated. -/
def execAddI (w : AForm) (s : State) : Out := s.alu2 1 w fun a b => narrow (satOf w.md) (a.toInt + b.toInt)
/-- SUB. -/
def execSubI (w : AForm) (s : State) : Out := s.alu2 1 w fun a b => narrow (satOf w.md) (a.toInt - b.toInt)
/-- AND. -/
def execAndI (w : AForm) (s : State) : Out := s.alu2 1 w fun a b => a &&& b
/-- OR. -/
def execOrI (w : AForm) (s : State) : Out := s.alu2 1 w fun a b => a ||| b
/-- XOR. -/
def execXorI (w : AForm) (s : State) : Out := s.alu2 1 w fun a b => a ^^^ b
/-- SHL. -/
def execShl (w : AForm) (s : State) : Out := s.alu2 1 w (shlW (satOf w.md))
/-- SHR. -/
def execShr (w : AForm) (s : State) : Out := s.alu2 1 w shrW
/-- SAR. -/
def execSar (w : AForm) (s : State) : Out := s.alu2 1 w sarW
/-- MIN. -/
def execMinI (w : AForm) (s : State) : Out := s.alu2 1 w minW
/-- MAX. -/
def execMaxI (w : AForm) (s : State) : Out := s.alu2 1 w maxW
/-- MINN. -/
def execMinn (w : AForm) (s : State) : Out := s.alu2 1 w minnW
/-- MAXN. -/
def execMaxn (w : AForm) (s : State) : Out := s.alu2 1 w maxnW
/-- CLZ. -/
def execClz (w : AForm) (s : State) : Out := s.alu1 w fun a => BitVec.ofNat 64 (clzNat 64 a.toNat)
/-- POPC. -/
def execPopc (w : AForm) (s : State) : Out := s.alu1 w fun a => BitVec.ofNat 64 (popNat 64 a.toNat)
/-- BEXT. -/
def execBext (w : AForm) (s : State) : Out := s.alu2 1 w bextW
/-- BINS. -/
def execBins (w : AForm) (s : State) : Out := s.alu3 1 w binsW
/-- ADD with an immediate. -/
def execAddImm (w : BForm) (s : State) : Out := s.aluImm w fun a => narrow (satOf w.md) (a.toInt + (immS w).toInt)
/-- SUB with an immediate. -/
def execSubImm (w : BForm) (s : State) : Out := s.aluImm w fun a => narrow (satOf w.md) (a.toInt - (immS w).toInt)
/-- AND with an immediate. -/
def execAndImm (w : BForm) (s : State) : Out := s.aluImm w fun a => a &&& immS w
/-- OR with an immediate. -/
def execOrImm (w : BForm) (s : State) : Out := s.aluImm w fun a => a ||| immS w
/-- XOR with an immediate. -/
def execXorImm (w : BForm) (s : State) : Out := s.aluImm w fun a => a ^^^ immS w
/-- SHL with an immediate. -/
def execShlImm (w : BForm) (s : State) : Out := s.aluImm w fun a => shlW (satOf w.md) a (immZ w)
/-- SHR with an immediate. -/
def execShrImm (w : BForm) (s : State) : Out := s.aluImm w fun a => shrW a (immZ w)
/-- SAR with an immediate. -/
def execSarImm (w : BForm) (s : State) : Out := s.aluImm w fun a => sarW a (immZ w)
/-- MIN with an immediate. -/
def execMinImm (w : BForm) (s : State) : Out := s.aluImm w fun a => minW a (immS w)
/-- MAX with an immediate. -/
def execMaxImm (w : BForm) (s : State) : Out := s.aluImm w fun a => maxW a (immS w)
/-- MINN with an immediate. -/
def execMinnImm (w : BForm) (s : State) : Out := s.aluImm w fun a => minnW a (immZ w)
/-- MAXN with an immediate. -/
def execMaxnImm (w : BForm) (s : State) : Out := s.aluImm w fun a => maxnW a (immZ w)
/-- MUL. -/
def execMulI (w : AForm) (s : State) : Out := s.alu2 3 w (mulW (satOf w.md))
/-- MULH. -/
def execMulh (w : AForm) (s : State) : Out := s.alu2 3 w mulhW
/-- MULHN. -/
def execMulhn (w : AForm) (s : State) : Out := s.alu2 3 w mulhnW
/-- MADD. -/
def execMadd (w : AForm) (s : State) : Out := s.alu3 3 w (maddW (satOf w.md))
/-- DIV. -/
def execDivI (w : AForm) (s : State) : Out := s.aluDiv w (divW (satOf w.md))
/-- DIVN. -/
def execDivn (w : AForm) (s : State) : Out := s.aluDiv w divnW
/-- REM. -/
def execRem (w : AForm) (s : State) : Out := s.aluDiv w remW
/-- REMN. -/
def execRemn (w : AForm) (s : State) : Out := s.aluDiv w remnW

/-- CMP (R158). -/
def execCmp (w : AForm) (s : State) : Out :=
  finish s 3 do
    let a ← s.srcS w.sa 2 (ftBit w 2)
    let b ← s.srcS w.sb 3 (ftBit w 3)
    pure (s.putPred w.dst (condW w.sub.toNat a b))

/-- CMPI: the immediate is sign-extended for the signed conditions and zero-extended for the others. -/
def execCmpi (w : BForm) (s : State) : Out :=
  finish s 3 do
    let a ← s.srcS w.sa 2 w.ft
    pure (s.putPred w.dst (condW w.sub.toNat a (if w.sub.toNat < 6 then immS w else immZ w)))

/-- SEL (R159): both sources are read. -/
def execSel (w : AForm) (s : State) : Out :=
  finish s 3 do
    let a ← s.srcS w.sa 2 (ftBit w 2)
    let b ← s.srcS w.sb 3 (ftBit w 3)
    let p ← s.srcP w.sc 4
    s.dstS w.dst
    pure (s.putOpnd w.dst (if p then a else b))

/-- LI. -/
def execLi (w : BForm) (s : State) : Out :=
  finish s 3 do
    s.dstS w.dst
    pure (s.putOpnd w.dst (immS w))

/-- LI.hi: the destination is a source with FT = 0. -/
def execLiHi (w : BForm) (s : State) : Out :=
  finish s 3 do
    let a ← s.srcS w.dst 1 false
    pure (s.putOpnd w.dst (BitVec.ofNat 64 (w.imm.toNat % 2 ^ 16 * 2 ^ 48 + a.toNat % 2 ^ 48)))

/-- MOV (R159): the class pairs of the table. -/
def execMov (w : AForm) (s : State) : Out :=
  finish s 3 do
    s.dstS w.dst
    match w.sa with
    | .s _ => do
      let a ← s.srcS w.sa 2 (ftBit w 2)
      pure (s.putOpnd w.dst a)
    | .p i => pure (s.putOpnd w.dst (if s.ctx.getP i.toNat then 1 else 0))
    | .b i => pure (s.putOpnd w.dst ((s.ctx.getB i.toNat).setWidth 64))
    | _ => trapWith .illegal 2

/-- PLOG (R159). -/
def execPlog (w : AForm) (s : State) : Out :=
  finish s 3 do
    let a ← s.srcP w.sa 2
    let b ← s.srcP w.sb 3
    pure (s.putPred w.dst (w.imm.toNat.testBit ((if a then 2 else 0) + (if b then 1 else 0))))

/-- LEA (R159): modulo 2^56. -/
def execLea (w : BForm) (s : State) : Out :=
  finish s 3 do
    let a ← s.srcS w.sa 2 w.ft
    s.dstS w.dst
    pure (s.putOpnd w.dst (BitVec.ofNat 64 ((a + immS w).toNat % 2 ^ 56)))

/-- LEA.pc. -/
def execLeaPc (w : BForm) (s : State) : Out :=
  finish s 3 do
    s.dstS w.dst
    pure (s.putOpnd w.dst (BitVec.ofNat 64 ((BitVec.ofNat 64 (4 * s.ctx.pc.toNat) + immS w).toNat % 2 ^ 56)))

/-! ### Spill stores (R160, 07 R108) -/

/-- Bytes a spill access of an operand moves; 0 for a class that has none. -/
def spillBytes : Opnd → Nat
  | .s _ => 8 | .b _ => 4 | .k _ => 16 | .vm _ => 32 | .v _ => 256 | _ => 0
/-- Size of an engine's spill store. -/
def spillSize (x : Nat) : Nat := if engOf x = 3 then 65536 else 8192
/-- The key of a byte of a spill store. -/
def spillKey (x off : Nat) : Nat := engOf x * 65536 + off

/-- The checks of a spill access. -/
def spillCheck (x off n : Nat) : Chk Unit :=
  if n = 0 then trapWith .illegal
  else if off % n ≠ 0 then trapWith .misalign
  else if off + n > spillSize x then trapWith .illegal
  else .ok ()

/-- n bytes of a spill store. -/
def Cluster.spillRead (k : Cluster) (x off n : Nat) : Nat :=
  bytesNat ((List.range n).map fun i => SMap.get 0 k.spill (spillKey x off + i))

/-- Write bytes to a spill store. -/
def spillWrite : SMap Byte → Nat → List Byte → SMap Byte
  | m, _, [] => m
  | m, a, b :: bs => spillWrite (SMap.put 0 m a b) (a + 1) bs

/-- SPLD. -/
def execSpld (w : AForm) (s : State) : Out :=
  finish s 3 do
    let n := spillBytes w.dst
    spillCheck s.cur.2 w.imm.toNat n
    let v := s.me.spillRead s.cur.2 w.imm.toNat n
    match w.dst with
    | .s _ => do
      s.dstS w.dst
      pure (s.putOpnd w.dst (BitVec.ofNat 64 v))
    | .b _ => pure (s.putOpnd w.dst (BitVec.ofNat 64 v))
    | .v _ => do
      let d ← s.dstV w.dst
      pure (s.lands 1 d (.write (BitVec.ofNat 2048 v) (BitVec.allOnes 2048) none) 0)
    | _ => do
      s.dstK w.dst
      pure (s.lands 1 w.dst (.write (BitVec.ofNat 2048 v) (BitVec.allOnes 2048) none) 0)

/-- SPST: data only. -/
def execSpst (w : AForm) (s : State) : Out :=
  finish s 3 do
    let n := spillBytes w.sa
    spillCheck s.cur.2 w.imm.toNat n
    let v ← (match w.sa with
      | .s _ => do
        let a ← s.srcS w.sa 2 (ftBit w 2)
        pure a.toNat
      | .b i => pure (s.ctx.getB i.toNat).toNat
      | .k _ => do
        let a ← s.srcK w.sa 2 (ftBit w 2)
        pure a.toNat
      | .vm _ => do
        let a ← s.srcVMOr w.sa 2 (ftBit w 2) 0
        pure a.toNat
      | _ => do
        let a ← s.srcV w.sa 2 (ftBit w 2)
        pure a.toNat : Chk Nat)
    pure (s.modMe fun k => { k with spill := spillWrite k.spill (spillKey s.cur.2 w.imm.toNat) (natBytes n v) })

end Sys2Proof.Machine
end

