-- ==== Sys2Proof/Machine/Image.lean ====
section
/-! DEFINITION. The context image (29 R379, R380) and the engine blocks (07 R110), as sparse bytes in ascending order. -/

namespace Sys2Proof.Machine

/-- The non-zero bytes of a block at an offset. -/
def sparseBytes (off : Nat) (bs : List Byte) : SMap Byte := (bs.zipIdx.map fun e => (off + e.2, e.1)).filter fun e => e.2 != 0
/-- A number in n bytes at an offset. -/
def sparseNat (off n v : Nat) : SMap Byte := sparseBytes off (natBytes n v)

/-- The bits of a list of conditions. -/
def bitsOf (l : List Bool) : Nat := packElems 1 (l.map fun b => if b then 1 else 0)

/-- One engine's block at an offset (R110). -/
def engineBlock (ring : Bool) (k : Cluster) (x off : Nat) : SMap Byte :=
  let e := k.cx x
  let ls := e.loops.reverse
  sparseNat off 4 e.pc.toNat ++ sparseNat (off + 4) 4 ls.length ++
    (ls.zipIdx.flatMap fun l => sparseNat (off + 8 + 16 * l.2) 4 l.1.index.toNat ++ sparseNat (off + 12 + 16 * l.2) 4 l.1.limit.toNat ++
      sparseNat (off + 16 + 16 * l.2) 4 l.1.start.toNat ++ sparseNat (off + 20 + 16 * l.2) 4 l.1.stop.toNat) ++
    sparseNat (off + 0x68) 4 e.vrb.toNat ++ sparseNat (off + 0x6C) 1 (e.p ||| 1).toNat ++
    sparseNat (off + 0x6D) 1 (if x = 3 then k.vmode.toNat else if x = 2 ∧ ring then k.mmode.toNat else 0) ++
    sparseNat (off + 0x70) 8 (bitsOf ((List.range 64).map fun i => (SMap.get? e.sHold i).isNone)) ++
    ((List.range 8).flatMap fun i => sparseNat (off + 0x78 + 4 * i) 4 (e.getB i).toNat) ++
    (e.s.flatMap fun r => sparseNat (off + 0x98 + 8 * r.1) 8 r.2.toNat) ++
    sparseNat (off + 0x298) 4 e.cause.toNat ++ sparseNat (off + 0x29C) 4 e.tpc.toNat ++ sparseNat (off + 0x2A0) 8 e.tinfo.toNat ++
    (if x = 0 then sparseNat (off + 0x2A8) 8 k.ecntw.toNat else [])

/-- The header (R380). -/
def imageHeader (ring : Bool) (k : Cluster) : SMap Byte :=
  let m := k.m.set
  sparseNat 0 4 0x43545843 ++ sparseNat 4 2 1 ++ sparseNat 6 1 (if ring then 0 else 1) ++ sparseNat 8 8 k.bankctl.toNat ++
    sparseNat 0x10 4 k.vflags.toNat ++
    sparseNat 0x14 2 (bitsOf ((List.range 16).map fun i => (SMap.get? k.hold (keyVM i)).isNone)) ++
    sparseNat 0x16 2 (bitsOf ((List.range 5).map fun x => (k.cx x).forked || x == 0) +
      256 * bitsOf ((List.range 5).map fun x => decide ((k.cx x).run = .arrived))) ++
    ((List.range 16).flatMap fun n => sparseNat (0x20 + n) 1 (match (k.getQ n).cfg with
      | some (p, c) => 128 + 16 * c + p
      | none => 0)) ++
    ((List.range 64).flatMap fun n => sparseNat (0x30 + 2 * n) 2 (SMap.get 0 k.ev n).toNat) ++
    sparseNat 0xC0 128 k.rec0.toNat ++
    (if ring then
      sparseNat 0x140 8 m.abase.toNat ++ sparseNat 0x148 8 m.ars.toNat ++ sparseNat 0x150 8 (m.ascl.getD (BitVec.allOnes 64)).toNat ++
      sparseNat 0x158 1 (m.afmt.code + (if m.aax then 32 else 0) + (if m.aset then 64 else 0)) ++
      sparseNat 0x159 1 (if m.scr then 1 else 0) ++
      sparseNat 0x15A 1 ((k.m.flags.toNat % 64) + (if k.m.abort then 64 else 0) + (if k.m.miss then 128 else 0)) ++
      sparseNat 0x15B 1 (m.rows - 1) ++ sparseNat 0x15C 1 m.grp.length ++
      sparseNat 0x160 8 m.bbase.toNat ++ sparseNat 0x168 8 m.bw.toNat ++ sparseNat 0x170 8 (m.bscl.getD (BitVec.allOnes 64)).toNat ++
      sparseNat 0x178 8 m.sfmt.toNat ++
      (m.levels.zipIdx.flatMap fun l => sparseNat (0x180 + 16 * l.2) 4 l.1.count ++ sparseNat (0x184 + 16 * l.2) 4 l.1.astr.toNat ++
        sparseNat (0x188 + 16 * l.2) 4 l.1.bstr.toNat ++ sparseNat (0x18C + 16 * l.2) 4 l.1.cend.toNat) ++
      (m.grp.zipIdx.flatMap fun g => sparseNat (0x200 + 8 * g.2) 8 g.1.toNat)
    else sparseNat 0x140 64 k.a.rcd.toNat ++ sparseNat 0x180 4 k.a.c.toNat ++ sparseNat 0x184 1 (if k.a.isSet then 1 else 0))

/-- The state word of v register n: binding and FULL. -/
def vState (k : Cluster) (n : Nat) : Nat :=
  (match SMap.get? k.bind n with
    | some b => 2 ^ 24 + b.kix.toNat * 2 ^ 16 + b.gen.toNat
    | none => 0) + (if (SMap.get? k.hold n).isNone then 2 ^ 25 else 0)

/-- An entry of a queue register in the image. -/
def imageEnt (off : Nat) (e : QEnt) : SMap Byte :=
  sparseNat off 256 e.data.toNat ++ sparseNat (off + 256) 16 e.sb.toNat ++
    sparseNat (off + 272) 4 (match e.bind with
      | some b => 2 ^ 24 + b.kix.toNat * 2 ^ 16 + b.gen.toNat
      | none => 0) ++
    sparseNat (off + 276) 4 (1 + (if e.sbv then 2 else 0) + (if e.mark.isSome then 4 else 0))

/-- Where an engine's spill store lies in the image, and its size. -/
def spillAt (x : Nat) : Nat × Nat :=
  match x with
  | 0 => (0x2A000, 8192) | 1 => (0x2C000, 8192) | 2 => (0x2E000, 8192) | 4 => (0x30000, 8192) | _ => (0x32000, 65536)

/-- The image of a cluster; `mem` is the module's memory and `base` the address of the cluster's SRAM. -/
def imageOf (ring : Bool) (k : Cluster) (mem : List Host.Cell) (base : Nat) : SMap Byte :=
  imageHeader ring k ++ ((List.range 5).flatMap fun x => engineBlock ring k x (0x1000 + 0x300 * x)) ++
    (k.v.flatMap fun r => sparseNat (0x2000 + 256 * r.1) 256 r.2.toNat) ++
    ((List.range 512).flatMap fun n => sparseNat (0x22000 + 4 * n) 4 (vState k n)) ++
    (k.k.flatMap fun r => sparseNat (0x22800 + 16 * r.1) 16 r.2.toNat) ++
    ((List.range 256).flatMap fun n => sparseNat (0x23800 + 4 * n) 4
      ((k.genOf n).toNat + (if (SMap.get? k.hold (keyK n)).isNone then 65536 else 0))) ++
    ((List.range 16).flatMap fun n => sparseNat (0x23C00 + 32 * n) 32 (k.getVM n).toNat) ++
    ((List.range 16).flatMap fun n => (k.getQ n).ents.zipIdx.flatMap fun e => imageEnt (0x24000 + 384 * (4 * n + e.2)) e.1) ++
    ([0, 1, 2, 4, 3].flatMap fun x => (k.spill.filter fun b => b.1 / 65536 == x).map fun b =>
      ((spillAt x).1 + b.1 % 65536, b.2)) ++
    (if ring then k.m.acc.flatMap fun a => sparseNat (0x42000 + 4 * a.1) 4 a.2.toNat
     else k.a.buf.map fun b => (0x42000 + b.1, b.2)) ++
    ((mem.filter fun b => decide (base ≤ b.1) && decide (b.1 < base + 0x3F0000)).map fun b => (0x82000 + (b.1 - base), b.2))

/-! ### Reading an image -/

/-- The bytes of an image between two offsets. -/
def imgPart (im : SMap Byte) (off n : Nat) : SMap Byte := im.filter fun e => decide (off ≤ e.1) && decide (e.1 < off + n)

/-- The little-endian number of n bytes at an offset. -/
def imgNat (im : SMap Byte) (off n : Nat) : Nat := (imgPart im off n).foldl (fun a e => a + e.2.toNat * 256 ^ (e.1 - off)) 0

/-- A table of `size`-byte numbers at an offset: the non-zero ones. -/
def imgTable (im : SMap Byte) (off size n : Nat) : SMap Nat :=
  (imgPart im off (size * n)).foldl (fun m e =>
    let i := (e.1 - off) / size
    SMap.set m i (SMap.get 0 m i + e.2.toNat * 256 ^ ((e.1 - off) % size))) []

/-- Ranges of an image that hold zero (R110, R379, R380), as (offset, bytes). -/
def zeroRanges (ring : Bool) : List (Nat × Nat) :=
  [(7, 1), (0x18, 8), (0xB0, 16), (0x400, 0xC00), (0x1F00, 0x100), (0x23E00, 0x200)] ++
    (if ring then [(0x15D, 3), (0x1E0, 32)] else [(0x185, 0x27B), (0x46000, 0x3C000)]) ++
    ((List.range 5).flatMap fun x => [(0x106E + 0x300 * x, 2), (0x12B0 + 0x300 * x, 80)]) ++
    ((List.range 64).map fun j => (0x24000 + 384 * j + 280, 104)) ++ [(0x472000, 0x10000)]

/-- An engine block is good (R110). -/
def blockOk (ring : Bool) (im : SMap Byte) (x : Nat) : Bool :=
  let o := 0x1000 + 0x300 * x
  imgNat im (o + 4) 4 ≤ 6 && (x == 0 || imgNat im (o + 0x2A8) 8 == 0) &&
    (x == 3 || (x == 2 && ring) || imgNat im (o + 0x6D) 1 == 0)

/-- An image may be loaded into a cluster (R381). -/
def imageOk (ring : Bool) (im : SMap Byte) : Bool :=
  imgNat im 0 4 == 0x43545843 && imgNat im 4 2 == 1 && imgNat im 6 1 == (if ring then 0 else 1) &&
    (zeroRanges ring).all (fun r => (imgPart im r.1 r.2).isEmpty) && (List.range 5).all (blockOk ring im) &&
    imgNat im 0x16 2 / 2 ^ 13 == 0 && imgNat im 0x16 2 / 32 % 8 == 0 &&
    ((List.range 16).all fun n => imgNat im (0x20 + n) 1 / 8 % 2 == 0) &&
    ((imgTable im 0x22000 4 512).all fun e => e.2 < 2 ^ 26) && ((imgTable im 0x23800 4 256).all fun e => e.2 < 2 ^ 17) &&
    ((List.range 64).all fun j => imgNat im (0x24000 + 384 * j + 272) 4 < 2 ^ 25 && imgNat im (0x24000 + 384 * j + 276) 4 < 8) &&
    (if ring then imgNat im 0x158 1 < 128 && imgNat im 0x159 1 < 2 else imgNat im 0x184 1 < 2)

/-- An engine's context after its block is loaded: `old` supplies what the block has no field for (log 20). Reserved bits of a register
read zero (00 R7). An engine whose TRAPCAUSE names a cause is trapped (log 71). -/
def loadCtx (im : SMap Byte) (x : Nat) (old : Ctx) : Ctx :=
  let o := 0x1000 + 0x300 * x
  let n := imgNat im (o + 4) 4
  let ent (i : Nat) : LoopEnt :=
    { index := BitVec.ofNat 32 (imgNat im (o + 8 + 16 * i) 4), limit := BitVec.ofNat 32 (imgNat im (o + 12 + 16 * i) 4)
      start := BitVec.ofNat 32 (imgNat im (o + 16 + 16 * i) 4), stop := BitVec.ofNat 32 (imgNat im (o + 20 + 16 * i) 4) }
  let eng := imgNat im 0x16 2
  let sfe := imgNat im (o + 0x70) 8
  let cause := imgNat im (o + 0x298) 4 % 256 + imgNat im (o + 0x29A) 1 % 16 * 2 ^ 16
  { old with
    pc := BitVec.ofNat 32 (imgNat im o 4)
    loops := ((List.range n).map ent).reverse
    vrb := BitVec.ofNat 32 (imgNat im (o + 0x68) 4 % 2 ^ 28)
    p := BitVec.ofNat 8 (imgNat im (o + 0x6C) 1)
    b := ((imgTable im (o + 0x78) 4 8).map fun e => (e.1, BitVec.ofNat 32 e.2))
    bAge := (List.range 8).map fun i => (i, 1)
    s := ((imgTable im (o + 0x98) 8 64).map fun e => (e.1, BitVec.ofNat 64 e.2))
    sHold := ((List.range 64).filter fun i => !sfe.testBit i).map fun i => (i, Hold.mark 0 0 0xFF)
    cause := BitVec.ofNat 32 cause, tpc := BitVec.ofNat 32 (imgNat im (o + 0x29C) 4), tinfo := BitVec.ofNat 64 (imgNat im (o + 0x2A0) 8)
    forked := x != 0 && eng.testBit x
    run := if eng.testBit (8 + x) then .arrived else if cause % 256 ≠ 0 then .trapped else if x = 0 ∨ eng.testBit x then .running else .idle
    stopped := false }

/-- The binding of a state word. -/
def bindOf (v : Nat) : Option Bind :=
  if v / 2 ^ 24 % 2 = 1 then some { kix := BitVec.ofNat 8 (v / 2 ^ 16), gen := BitVec.ofNat 16 v } else none

/-- A queue entry of an image; none when it is not valid. -/
def loadEnt (im : SMap Byte) (off : Nat) : Option QEnt :=
  let flg := imgNat im (off + 276) 4
  if flg % 2 = 0 then none
  else some
    { data := BitVec.ofNat 2048 (imgNat im off 256), sb := BitVec.ofNat 128 (imgNat im (off + 256) 16), sbv := flg.testBit 1
      bind := bindOf (imgNat im (off + 272) 4), mark := if flg.testBit 2 then some (.mark 0 0 0xFF) else none, resv := none }

/-- The M engine of an image (R380). -/
def loadM (im : SMap Byte) (old : MEng) : MEng :=
  let opt (v : Nat) : Option Word := if v = 2 ^ 64 - 1 then none else some (BitVec.ofNat 64 v)
  let f := imgNat im 0x158 1
  let mf := imgNat im 0x15A 1
  { old with
    acc := (imgTable im 0x42000 4 65536).map fun e => (e.1, BitVec.ofNat 32 e.2)
    set :=
      { aset := f.testBit 6, abase := BitVec.ofNat 64 (imgNat im 0x140 8), ars := BitVec.ofNat 64 (imgNat im 0x148 8)
        ascl := opt (imgNat im 0x150 8), afmt := (Ty.ofCode (f % 32)).getD .none, aax := f.testBit 5, scr := imgNat im 0x159 1 == 1
        bbase := BitVec.ofNat 64 (imgNat im 0x160 8), bw := BitVec.ofNat 64 (imgNat im 0x168 8), bscl := opt (imgNat im 0x170 8)
        sfmt := BitVec.ofNat 64 (imgNat im 0x178 8)
        levels := (List.range 6).map fun l =>
          { count := imgNat im (0x180 + 16 * l) 4, astr := BitVec.ofNat 32 (imgNat im (0x184 + 16 * l) 4)
            bstr := BitVec.ofNat 32 (imgNat im (0x188 + 16 * l) 4), cend := BitVec.ofNat 32 (imgNat im (0x18C + 16 * l) 4) }
        rows := imgNat im 0x15B 1 + 1
        grp := (List.range (imgNat im 0x15C 1)).map fun g => BitVec.ofNat 64 (imgNat im (0x200 + 8 * g) 8) }
    flags := BitVec.ofNat 7 (mf % 64), miss := mf.testBit 7, abort := mf.testBit 6, nests := [], movers := [], drop := [], fresh := 0 }

/-- A cluster after an image is loaded (R381, 07 R103): registers, bindings, generations and full/empty bits together. Banks that
are OFF read zero, full and unbound. Bits [7:4] of VMODE and MMODE are loaded as the image holds them (log 71). -/
def loadImage (ring : Bool) (im : SMap Byte) (old : Cluster) (ctxs : SMap Ctx) : Cluster :=
  let vs := imgTable im 0x22000 4 512
  let ks := imgTable im 0x23800 4 256
  let bc := BitVec.ofNat 64 (imgNat im 8 8)
  let off (n : Nat) : Bool := bankState bc (n / 16) == 2
  let vmf := imgNat im 0x14 2
  { old with
    v := ((imgTable im 0x2000 256 512).map fun e => (e.1, BitVec.ofNat 2048 e.2)).filter fun e => !off e.1
    bind := vs.filterMap fun e => if off e.1 then none else (bindOf e.2).map fun b => (e.1, b)
    k := (imgTable im 0x22800 16 256).map fun e => (e.1, BitVec.ofNat 128 e.2)
    kgen := (ks.map fun e => (e.1, BitVec.ofNat 16 e.2)).filter fun e => e.2 != 0
    vm := ((List.range 16).map fun n => (n, BitVec.ofNat 256 (imgNat im (0x23C00 + 32 * n) 32))).filter
      fun e => e.2 != BitVec.allOnes 256
    hold := ((List.range 512).filterMap fun n => if (SMap.get 0 vs n) / 2 ^ 25 % 2 = 1 || off n then none else some (n, Hold.mark 0 0 0xFF)) ++
      ((List.range 256).filterMap fun n => if (SMap.get 0 ks n) / 2 ^ 16 % 2 = 1 then none else some (keyK n, Hold.mark 0 0 0xFF)) ++
      ((List.range 16).filterMap fun n => if vmf.testBit n then none else some (keyVM n, Hold.mark 0 0 0xFF))
    q := (List.range 16).map fun n =>
      let c := imgNat im (0x20 + n) 1
      (n, { cfg := if c ≥ 128 then some (c % 8, c / 16 % 8) else none
            ents := (List.range 4).filterMap fun j => loadEnt im (0x24000 + 384 * (4 * n + j)) })
    ev := (imgTable im 0x30 2 64).map fun e => (e.1, BitVec.ofNat 16 e.2)
    vflags := BitVec.ofNat 32 (imgNat im 0x10 4 % 2 ^ 7), bankctl := bc, waking := 0
    vmode := BitVec.ofNat 8 (imgNat im (0x1900 + 0x6D) 1)
    mmode := if ring then BitVec.ofNat 8 (imgNat im (0x1600 + 0x6D) 1) else old.mmode
    ecntw := BitVec.ofNat 64 (imgNat im (0x1000 + 0x2A8) 8), vAcc := false
    spill := [0, 1, 2, 3, 4].flatMap fun x => (imgPart im (spillAt x).1 (spillAt x).2).map fun e => (x * 65536 + (e.1 - (spillAt x).1), e.2)
    land := old.land.filter fun l => decide (5 ≤ l.x), pend := old.pend.filter fun p => decide (5 ≤ p.x)
    posts := old.posts.filter fun p => decide (5 ≤ p.x)
    m := if ring then loadM im old.m else old.m
    a := if ring then old.a
      else { isSet := imgNat im 0x184 1 == 1, rcd := BitVec.ofNat 512 (imgNat im 0x140 64)
             buf := (imgPart im 0x42000 16384).map fun e => (e.1 - 0x42000, e.2), c := BitVec.ofNat 32 (imgNat im 0x180 4) }
    ctx := ((List.range 5).map fun x => (x, loadCtx im x (SMap.get Ctx.reset ctxs x))) ++ old.ctx.filter fun e => 5 ≤ e.1
    traps := (List.range 5).filter fun x => (loadCtx im x (SMap.get Ctx.reset ctxs x)).run == .trapped }

/-- The bytes of an image for the cluster's SRAM, but for the receive area (29 R383). -/
def imageSram (im : SMap Byte) : SMap Byte := (imgPart im 0x82000 0x3F0000).map fun e => (e.1 - 0x82000, e.2)

/-- Replace the bytes of memory that `keep` lets through, of `n` from an address, by sparse bytes. -/
def memReplace (keep : Nat → Bool) (m : List Host.Cell) (pa n : Nat) (bs : SMap Byte) : List Host.Cell :=
  (bs.filter fun e => keep (pa + e.1)).foldl (fun m e => memPut m (pa + e.1) e.2)
    (m.filter fun e => !(decide (pa ≤ e.1) && decide (e.1 < pa + n) && keep e.1))

/-- Write `n` bytes from an address, given as sparse bytes: a granule that is read-only stays (27 R362), and the units written are good. -/
def State.replace (s : State) (pa n : Nat) (bs : SMap Byte) : State :=
  { s with
    mem := memReplace (fun a => !s.isRo a) s.mem pa n bs
    bad := s.bad.filter fun u => !(decide (pa ≤ u.1 * 8) && decide (u.1 * 8 < pa + n)) || s.isRo (u.1 * 8) }

/-- The 4 KiB page of an image that begins at an offset holds a v register of an OFF bank: a save skips it (R378). -/
def Cluster.skipsPage (k : Cluster) (off : Nat) : Bool :=
  decide (0x2000 ≤ off) && decide (off < 0x22000) && bankState k.bankctl ((off - 0x2000) / 4096) == 2

/-- Save a cluster's context (29 R379). -/
def State.saveImage (s : State) (c : Nat) : Saved :=
  let k := s.cl c
  { img := imageOf (isRing c) k s.mem (s.here (sramBase c)), ctxs := k.ctx.filter fun e => e.1 < 5, fails := k.fails
    steps := k.m.steps, traps := k.traps }

/-- The cluster's SRAM but for the receive area (29 R383). -/
def State.sramOf (s : State) (c : Nat) : SMap Byte :=
  let base := s.here (sramBase c)
  (s.mem.filter fun b => decide (base ≤ b.1) && decide (b.1 < base + 0x3F0000)).map fun b => (b.1 - base, b.2)

/-- Load a context into a cluster: registers, and its SRAM but for the receive area. -/
def State.loadInto (s : State) (c : Nat) (im : SMap Byte) (ctxs : SMap Ctx) : State :=
  let s := s.modCl c fun k => loadImage (isRing c) im k ctxs
  s.replace (s.here (sramBase c)) 0x3F0000 (imageSram im)

end Sys2Proof.Machine
end

