-- ==== Sys2Proof/Machine/Vector.lean ====
section
/-! DEFINITION. Vector instructions (15): elements, the mask field (R211), and how results land (R212). -/

namespace Sys2Proof.Machine

/-! ### Shared operations -/

/-- The fields of a V instruction's immediate (R211). -/
def vMe (w : AForm) : Bool := w.imm.getLsbD 7
def vZm (w : AForm) : Bool := w.imm.getLsbD 6
def vAux (w : AForm) : Nat := w.imm.toNat / 256

/-- Elements of a type in a register (R209). -/
def Ty.count (t : Ty) : Nat := 2048 / t.width

/-- The mask that governs the written elements; all ones when ME is 0. It is read with FT = 0 (R211). -/
def State.vMask (s : State) (w : AForm) : Chk MWord :=
  if vMe w then s.srcVMi (w.imm.toNat % 16) 0 false else .ok (BitVec.allOnes 256)

/-- Elements computed one by one: an element that is not active is zero and raises no flag. -/
def elements (ew : Nat) (act : Nat → Bool) (f : Nat → Nat × Flags) : VWord × Flags :=
  let rs := (List.range (2048 / ew)).map fun i => if act i then f i else (0, 0)
  (BitVec.ofNat 2048 (packElems ew (rs.map (·.1))), rs.foldl (fun a r => a ||| r.2) 0)

/-- The bits a V instruction writes: all, but with ME = 1 and ZM = 0 those of the active elements alone (R211). -/
def writtenBits (w : AForm) (ew : Nat) (m : MWord) : VWord :=
  if vMe w && !vZm w then laneBits ew (2048 / ew) m else BitVec.allOnes 2048

/-- A result of latency `lat`, or a long-latency one (R212). -/
def State.resultAs (s : State) (lat : Option Nat) (dst : Opnd) (val mask : VWord) (flags : Flags) : State :=
  match lat with
  | some n => s.resultV n dst val mask none flags
  | none => s.resultLong dst val mask flags

/-- A V instruction that computes its elements of `ew` bits one by one: `reads` reads the sources and answers the element
function, `qs` are the operands it pops. -/
def State.vec (s : State) (w : AForm) (lat : Option Nat) (ew : Nat) (qs : List Opnd) (reads : Chk (Nat → Nat × Flags)) : Out :=
  finish s 3 do
    let f ← reads
    let m ← s.vMask w
    let d ← s.dstV w.dst
    let (v, fl) := elements ew m.getLsbD f
    pure ((s.pops qs).resultAs lat d v (writtenBits w ew m) fl)

/-- An element as an exact value of a float type. -/
def fltAt (t : Ty) (v : VWord) (i : Nat) : XR := t.fmt.decode (elemOf t.width i v.toNat)
/-- An element as an integer of its type. -/
def intAt (t : Ty) (v : VWord) (i : Nat) : Int := t.toInt (elemOf t.width i v.toNat)

/-- The mode of a V instruction (R213). -/
def State.vMode (s : State) (w : AForm) : RMode := modeOf w.md.toNat s.me.vmode.toNat

/-- Round an exact result with the flags its operation raised. -/
def rounded (f : Fmt) (m : RMode) (x : XR × Flags) : Nat × Flags :=
  let (b, fl) := roundTo f m x.1
  (b, fl ||| x.2)

/-- An element-wise operation on one source. -/
def State.vec1 (s : State) (w : AForm) (lat : Option Nat) (f : VWord → Nat → Nat × Flags) : Out :=
  s.vec w lat w.ty.width [w.sa] do
    let a ← s.srcV w.sa 2 (ftBit w 2)
    pure (f a)

/-- An element-wise operation on two sources. -/
def State.vec2 (s : State) (w : AForm) (lat : Option Nat) (f : VWord → VWord → Nat → Nat × Flags) : Out :=
  s.vec w lat w.ty.width [w.sa, w.sb] do
    let a ← s.srcV w.sa 2 (ftBit w 2)
    let b ← s.srcV w.sb 3 (ftBit w 3)
    pure (f a b)

/-- A two-source float operation: one exact result, rounded once (R215). -/
def State.vecF2 (s : State) (w : AForm) (lat : Option Nat) (f : Rnd → XR → XR → XR × Flags) : Out :=
  let m := s.vMode w
  s.vec2 w lat fun a b i => rounded w.ty.fmt m (f m.rnd (fltAt w.ty a i) (fltAt w.ty b i))

/-- A one-source float function, rounded once (R218). -/
def State.vecF1 (s : State) (w : AForm) (f : XR → XR × Flags) : Out :=
  let m := s.vMode w
  s.vec1 w (some 12) fun a i => rounded w.ty.fmt m (f (fltAt w.ty a i))

/-! ### Floating point (R215 to R219) -/

/-- VADD. -/
def execVadd (w : AForm) (s : State) : Out := s.vecF2 w (some 4) fun r a b => XR.add r a b
/-- VSUB. -/
def execVsub (w : AForm) (s : State) : Out := s.vecF2 w (some 4) fun r a b => XR.add r a b.negate
/-- VMUL. -/
def execVmul (w : AForm) (s : State) : Out := s.vecF2 w (some 4) fun _ a b => XR.mul a b
/-- VDIV: a long-latency result. -/
def execVdiv (w : AForm) (s : State) : Out := s.vecF2 w none fun _ a b => XR.div a b

/-- VFMA. -/
def execVfma (w : AForm) (s : State) : Out :=
  let m := s.vMode w
  s.vec w (some 4) w.ty.width [w.sa, w.sb, w.sc] do
    let a ← s.srcV w.sa 2 (ftBit w 2)
    let b ← s.srcV w.sb 3 (ftBit w 3)
    let c ← s.srcV w.sc 4 (ftBit w 4)
    pure fun i => rounded w.ty.fmt m (XR.fma m.rnd (fltAt w.ty a i) (fltAt w.ty b i) (fltAt w.ty c i))

/-- The element VMIN or VMAX gives (R216): exact, no flag. -/
def minMax (isMax : Bool) (t : Ty) (a b : VWord) (i : Nat) : Nat × Flags :=
  if t.isInt then
    let (x, y) := (intAt t a i, intAt t b i)
    (toBits t.width (if isMax then max x y else min x y), 0)
  else
    let (x, y) := (fltAt t a i, fltAt t b i)
    ((roundTo t.fmt rne (if isMax then x.rankMax y else x.rankMin y)).1, 0)

/-- VMIN. -/
def execVmin (w : AForm) (s : State) : Out := s.vec2 w (some 4) (minMax false w.ty)
/-- VMAX. -/
def execVmax (w : AForm) (s : State) : Out := s.vec2 w (some 4) (minMax true w.ty)

/-- VABS (R217). -/
def execVabs (w : AForm) (s : State) : Out :=
  s.vec1 w (some 4) fun a i =>
    if w.ty.isInt then w.ty.fromInt (satOf w.md) (intAt w.ty a i).natAbs
    else ((roundTo w.ty.fmt rne (fltAt w.ty a i).abs).1, 0)

/-- VRCP. -/
def execVrcp (w : AForm) (s : State) : Out := s.vecF1 w XR.rcp
/-- VRSQ. -/
def execVrsq (w : AForm) (s : State) : Out := s.vecF1 w XR.rsqrt
/-- VEXP. -/
def execVexp (w : AForm) (s : State) : Out := s.vecF1 w fun x => (x.exp2, 0)
/-- VLOG. -/
def execVlog (w : AForm) (s : State) : Out := s.vecF1 w XR.log2

/-- A step r(x) of R219 with the flags so far. -/
def stepR (m : RMode) (x : XR × Flags) (fl : Flags) : XR × Flags :=
  let (b, f) := roundTo .f32 m x.1
  (Fmt.f32.decode b, f ||| x.2 ||| fl)

/-- L2E and G17 of R219. -/
def l2e : XR := Fmt.f32.decode 0x3FB8AA3B
def g17 : XR := Fmt.f32.decode 0x3FD9DB23
/-- The value 1. -/
def xOne : XR := .num false 1

/-- SG(x, mm) of R219. -/
def actSG (x : XR) (mm : RMode) (fl : Flags) : XR × Flags :=
  let (a, fl) := stepR rne (XR.mul x.negate l2e) fl
  let (b, fl) := stepR rne (a.exp2, 0) fl
  let (c, fl) := stepR rne (XR.add .rne xOne b) fl
  stepR mm (XR.div xOne c) fl

/-- The function of a VACT (R219). -/
def act (sub : Nat) (m : RMode) (x : XR) : XR × Flags :=
  if x = .nan then (.nan, 0)
  else match sub with
    | 0 => (if (XR.num false 0).rankLt x then x else .num false 0, 0)
    | 1 => actSG x m 0
    | 2 => if x = .inf true then (.num true 0, 0)
      else
        let (g, fl) := actSG x rne 0
        stepR m (XR.mul x g) fl
    | 3 =>
      if !(x.abs.rankLt (.num false 10)) then (.num false (if x.neg? then -1 else 1), fNX)
      else
        -- a is one rounding of the exact product of the three factors
        let (p, f0) := XR.mul x (.num false (-2))
        let (a, fl) := stepR rne (XR.mul p l2e) f0
        let (b, fl) := stepR rne (a.exp2, 0) fl
        let (n, fl) := stepR rne (XR.add .rne xOne b.negate) fl
        let (d, fl) := stepR rne (XR.add .rne xOne b) fl
        stepR m (XR.div n d) fl
    | _ => if x = .inf true then (.num true 0, 0)
      else
        let (y, fl) := stepR rne (XR.mul x g17) 0
        let (g, fl) := actSG y rne fl
        stepR m (XR.mul x g) fl

/-- VACT: a long-latency result. -/
def execVact (w : AForm) (s : State) : Out :=
  let m := s.vMode w
  s.vec1 w none fun a i =>
    let (y, fl) := act w.sub.toNat m (fltAt .f32 a i)
    ((roundTo .f32 rne y).1, fl)

/-! ### Integers and bits (R220 to R224) -/

/-- VIADD. -/
def execViadd (w : AForm) (s : State) : Out :=
  s.vec2 w (some 4) fun a b i => w.ty.fromInt (satOf w.md) (intAt w.ty a i + intAt w.ty b i)
/-- VISUB. -/
def execVisub (w : AForm) (s : State) : Out :=
  s.vec2 w (some 4) fun a b i => w.ty.fromInt (satOf w.md) (intAt w.ty a i - intAt w.ty b i)
/-- VIMUL. -/
def execVimul (w : AForm) (s : State) : Out :=
  s.vec2 w (some 4) fun a b i =>
    let p := intAt w.ty a i * intAt w.ty b i
    if w.sub = 0 then w.ty.fromInt (satOf w.md) p else (toBits w.ty.width (p / ((2 ^ w.ty.width : Nat) : Int)), 0)

/-- The sum of four products of bytes of a lane (R221, R233). -/
def dot4 (f g : Nat → Int) (l : Nat) : Int := ((List.range 4).map fun j => f (4 * l + j) * g (4 * l + j)).sum

/-- The accumulator of VIMAC and VTMAC: the destination, waited for as a destination (R221) and read as a source is, so that an
error-pending one traps (13 R186). -/
def State.accum (s : State) (w : AForm) : Chk VWord := do
  let d ← s.dstV w.dst
  s.srcPhys (regIdx d) 1 false

/-- VIMAC. -/
def execVimac (w : AForm) (s : State) : Out :=
  let sat := satOf w.md
  s.vec w (some 4) (if w.sub = 0 then w.ty.width else 32) [w.sa, w.sb] do
    let a ← s.srcV w.sa 2 (ftBit w 2)
    let b ← s.srcV w.sb 3 (ftBit w 3)
    let d ← s.accum w
    pure fun i =>
      if w.sub = 0 then w.ty.fromInt sat (intAt w.ty d i + intAt w.ty a i * intAt w.ty b i)
      else Ty.i32.fromInt sat (intAt .i32 d i + dot4 (intAt w.ty a) (intAt w.ty b) i)

/-- An element of VBIT (R222). -/
def bitOp (sub w a b : Nat) : Nat :=
  match sub with
  | 0 => a &&& b
  | 1 => a ||| b
  | 2 => a ^^^ b
  | 3 => a - (a &&& b)
  | 4 => 2 ^ w - 1 - a
  | 5 => popNat w a
  | _ => clzNat w a

/-- VBIT. -/
def execVbit (w : AForm) (s : State) : Out :=
  let ew := w.ty.width
  s.vec w (some 4) ew [w.sa, w.sb] do
    let a ← s.srcV w.sa 2 (ftBit w 2)
    let b ← if w.sb = .null then pure 0 else s.srcV w.sb 3 (ftBit w 3)
    pure fun i => (bitOp w.sub.toNat ew (elemOf ew i a.toNat) (elemOf ew i b.toNat), 0)

/-- An element of VSH (R223): `a` of type ty shifted by t. -/
def shiftOp (ty : Ty) (sub : Nat) (sat : Bool) (a t : Nat) : Nat × Flags :=
  let w := ty.width
  match sub with
  | 0 =>
    if sat then
      -- beyond w places any non-zero value is outside the range
      ty.fromInt true (ty.toInt a * ((2 ^ (min t w) : Nat) : Int))
    else (if t ≥ w then 0 else (a <<< t) % 2 ^ w, 0)
  | 1 => (if t ≥ w then 0 else a >>> t, 0)
  | _ => (toBits w (sgn w a / ((2 ^ (min t w) : Nat) : Int)), 0)

/-- VSH. -/
def execVsh (w : AForm) (s : State) : Out :=
  let ew := w.ty.width
  s.vec w (some 4) ew [w.sa, w.sb] do
    let a ← s.srcV w.sa 2 (ftBit w 2)
    let t ← (match w.sb with
      | .null => pure fun _ => vAux w
      | .s _ => do
        let x ← s.srcS w.sb 3 (ftBit w 3)
        pure fun _ => x.toNat
      | _ => do
        let b ← s.srcV w.sb 3 (ftBit w 3)
        pure fun i => elemOf ew i b.toNat : Chk (Nat → Nat))
    pure fun i => shiftOp w.ty w.sub.toNat (satOf w.md) (elemOf ew i a.toNat) (t i)

/-- VIMM: the pattern in every element. -/
def execVimm (w : BForm) (s : State) : Out :=
  finish s 3 do
    let d ← s.dstV w.dst
    let ew := w.ty.width
    let (v, _) := elements ew (fun _ => true) fun _ => ((w.imm.signExtend 64).toNat % 2 ^ ew, 0)
    pure (s.resultV 4 d v (BitVec.allOnes 2048) none 0)

/-! ### Comparison, selection, masks (R225 to R227) -/

/-- The condition of VCMP on one element (R225). -/
def cmpAt (cc : Nat) (t : Ty) (a b : VWord) (i : Nat) : Bool :=
  if t.isInt then
    let (x, y) := (intAt t a i, intAt t b i)
    match cc with
    | 0 => decide (x = y)
    | 1 => decide (x ≠ y)
    | 2 => decide (x < y)
    | 3 => decide (x ≤ y)
    | 4 => decide (x > y)
    | _ => decide (x ≥ y)
  else
    let (x, y) := (fltAt t a i, fltAt t b i)
    let un := decide (x = .nan ∨ y = .nan)
    match cc with
    | 0 => !un && !x.rankLt y && !y.rankLt x
    | 1 => un || x.rankLt y || y.rankLt x
    | 2 => !un && x.rankLt y
    | 3 => !un && !y.rankLt x
    | 4 => !un && y.rankLt x
    | 5 => !un && !x.rankLt y
    | _ => un

/-- A vm result of a V instruction: 256 bits of it are written. -/
def State.resultVM (s : State) (dst : Opnd) (m : MWord) (flags : Flags) : State :=
  s.lands 4 dst (.write (m.setWidth 2048) (BitVec.allOnes 2048) none) flags

/-- VCMP. -/
def execVcmp (w : AForm) (s : State) : Out :=
  finish s 3 do
    let a ← s.srcV w.sa 2 (ftBit w 2)
    let b ← s.srcV w.sb 3 (ftBit w 3)
    let m ← s.vMask w
    s.dstK w.dst
    let bits := (List.range w.ty.count).map fun i => m.getLsbD i && cmpAt w.sub.toNat w.ty a b i
    pure ((s.pops [w.sa, w.sb]).resultVM w.dst (BitVec.ofNat 256 (bitsOf bits)) 0)

/-- VSEL: both sources are read whole. -/
def execVsel (w : AForm) (s : State) : Out :=
  let ew := w.ty.width
  s.vec w (some 4) ew [w.sa, w.sb] do
    let a ← s.srcV w.sa 2 (ftBit w 2)
    let b ← s.srcV w.sb 3 (ftBit w 3)
    let m ← s.srcVMOr w.sc 4 (ftBit w 4) 0
    pure fun i => (elemOf ew i (if m.getLsbD i then a else b).toNat, 0)

/-- VMSK. -/
def execVmsk (w : AForm) (s : State) : Out :=
  finish s 3 do
    let a ← s.srcVMOr w.sa 2 (ftBit w 2) 0
    let b ← s.srcVMOr w.sb 3 (ftBit w 3) 0
    match w.dst with
    | .s _ => do
      s.dstS w.dst
      pure (s.resultS 4 w.dst (BitVec.ofNat 64 (popNat 256 a.toNat)))
    | _ => do
      s.dstK w.dst
      let r : MWord := match w.sub.toNat with
        | 0 => a &&& b
        | 1 => a ||| b
        | 2 => a ^^^ b
        | 3 => a &&& ~~~b
        | 4 => ~~~a
        | 5 => a &&& (-a)
        | _ => BitVec.ofNat 256 (2 ^ vAux w - 1)
      pure (s.resultVM w.dst r 0)

/-! ### Conversions and the queue mode (R228, R229) -/

/-- VCVT. -/
def execVcvt (w : AForm) (s : State) : Out :=
  let aux := vAux w
  let st := (Ty.ofCode (aux % 32)).getD .none
  let p := aux / 32 % 4
  let (ws, wd) := (st.width, w.ty.width)
  let n := 2048 / max ws wd
  let md := s.vMode w
  -- an integer result of an integer is clamped under MD[3] alone (R74)
  let mode : RMode := if st.isInt && w.ty.isInt then { md with sat := satOf w.md } else md
  finish s 3 do
    let a ← s.srcV w.sa 2 (ftBit w 2)
    let m ← s.vMask w
    let d ← s.dstV w.dst
    let part (i : Nat) : Bool := decide (ws ≤ wd) || (decide (p * n ≤ i) && decide (i < p * n + n))
    let (v, fl) := elements wd (fun i => part i && m.getLsbD i) fun i =>
      convert w.ty st mode (elemOf ws (if wd < ws then i - p * n else p * n + i) a.toNat)
    let pm : MWord := BitVec.ofNat 256 (bitsOf ((List.range (2048 / wd)).map part))
    pure ((s.pops [w.sa]).resultV 4 d v (writtenBits w wd m &&& laneBits wd (2048 / wd) pm) none fl)

/-- VRND: the new mode holds from the end of the issue cycle. -/
def execVrnd (w : AForm) (s : State) : Out := finish s 3 (.ok (s.lands 1 .null (.vmode (w.md.setWidth 8)) 0))

/-! ### Quantising (R230, R231) -/

/-- The code nearest below or equal, and above or equal, a value among (code, value) pairs. -/
def codeBelow (l : List (Nat × Rat)) (y : Rat) : Option (Nat × Rat) :=
  l.foldl (fun (best : Option (Nat × Rat)) c => if c.2 ≤ y then
    (match best with
      | some b => if b.2 < c.2 then some c else best
      | none => some c) else best) none
def codeAbove (l : List (Nat × Rat)) (y : Rat) : Option (Nat × Rat) :=
  l.foldl (fun (best : Option (Nat × Rat)) c => if y ≤ c.2 then
    (match best with
      | some b => if c.2 < b.2 then some c else best
      | none => some c) else best) none

/-- The sixteen codes of a b4 type with their unscaled values; the code of a negative zero is left out. -/
def b4Codes (ty : Nat) : List (Nat × Rat) :=
  ((List.range 16).filter fun c => !(c == 8 && ty != 0)).map fun c => (c, decodeB4 c (ty * 64 + 40))

/-- One element encoded in b4 against its block's scale byte (R230). -/
def quantB4 (m : Rnd) (sb : Nat) (x : XR) : Nat × Flags :=
  let cs := b4Codes (sb / 64 % 4)
  let hiEnd := (cs.foldl (fun a c => if a.2 < c.2 then c else a) (0, 0)).1
  let loEnd := (cs.foldl (fun a c => if c.2 < a.2 then c else a) (0, 0)).1
  match x with
  | .nan => (0, fNV)
  | .inf n => (if n then loEnd else hiEnd, fSAT ||| fNX ||| fNV)
  | .num _ q =>
    let y := q / pow2 ((sb % 64 : Nat) - 40)
    match codeBelow cs y, codeAbove cs y with
    | none, _ => (loEnd, fSAT ||| fNX)
    | _, none => (hiEnd, fSAT ||| fNX)
    | some lo, some hi =>
      let dl := y - lo.2
      let dh := hi.2 - y
      let small := if (if lo.2 < 0 then -lo.2 else lo.2) < (if hi.2 < 0 then -hi.2 else hi.2) then lo else hi
      let big := if small = lo then hi else lo
      let pick : Nat × Rat := match m with
        | .rne => if dl < dh then lo else if dh < dl then hi else if lo.1 % 2 = 0 then lo else hi
        | .rna => if dl < dh then lo else if dh < dl then hi else big
        | .rtz => small
        | .rdn => lo
        | .rup => hi
      (if pick.2 = 0 then 0 else pick.1, if pick.2 = y then 0 else fNX)

/-- VQNT: b4 codes of sixteen blocks of 32 (log 67), against kB's scale bytes, binding vD to kB as read; or e4m3 and e5m2 bytes. -/
def execVqnt (w : AForm) (s : State) : Out :=
  let m := s.vMode w
  let p := vAux w
  finish s 3 do
    let a ← s.srcV w.sa 2 (ftBit w 2)
    let k ← if w.ty = .b4 then s.srcK w.sb 3 (ftBit w 3) else pure 0
    let vm ← s.vMask w
    let d ← s.dstV w.dst
    let ew := w.ty.width
    let on (i : Nat) : Bool := decide (64 * p ≤ i) && decide (i < 64 * p + 64)
    -- a mask bit governs a block of b4, else an element (07 R91)
    let act (i : Nat) : Bool := vm.getLsbD (if w.ty = .b4 then i / 32 else i)
    let (v, fl) := elements ew (fun i => on i && act i) fun i =>
      let x := fltAt .f32 a (i - 64 * p)
      if w.ty = .b4 then quantB4 m.rnd (elemOf 8 (i / 32) k.toNat) x else roundTo w.ty.fmt m x
    let bits := BitVec.ofNat 2048 (packElems ew ((List.range (2048 / ew)).map fun i =>
      if on i && (act i || vZm w) then 2 ^ ew - 1 else 0))
    let b : Option Bind := if w.ty = .b4 then
        some { kix := BitVec.ofNat 8 (regIdx w.sb), gen := s.me.genOf (regIdx w.sb) } else none
    pure ((s.pops [w.sa]).resultV 4 d v bits b fl)

/-- VDQ: exact, no flag. -/
def execVdq (w : AForm) (s : State) : Out :=
  let n := w.ty.count
  s.vec w (some 4) w.ty.width [w.sa] do
    let (d, k) ← s.srcB4 w.sa 2 (ftBit w 2)
    pure fun i =>
      let c := n * vAux w + i
      ((roundTo w.ty.fmt rne (.num false (decodeB4 (elemOf 4 c d.toNat) (elemOf 8 (c / 32) k.toNat)))).1, 0)

/-! ### Ternary weights (R232, R233) -/

/-- VUNP3: vD and vmC land together. -/
def execVunp3 (w : AForm) (s : State) : Out :=
  finish s 3 do
    let a ← s.srcV w.sa 2 (ftBit w 2)
    let d ← s.dstV w.dst
    s.dstK w.sc
    let st := vAux w
    let ds := (List.range 51).map fun j => decodeT3 (elemOf 8 (st + j) a.toNat)
    let v := packElems 8 ((ds.flatMap (·.1)).map (toBits 8))
    let oks := bitsOf (ds.map (·.2)) <<< st
    let fl : Flags := if ds.all (·.2) then 0 else fTRN
    let s := s.resultV 4 d (BitVec.ofNat 2048 v) (BitVec.allOnes 2048) none fl
    pure (match w.sc with
      | .vm _ => s.resultVM w.sc (BitVec.ofNat 256 oks) 0
      | _ => s)

/-- VTMAC: a long-latency result. -/
def execVtmac (w : AForm) (s : State) : Out :=
  s.vec w none 32 [] do
    let a ← s.srcV w.sa 2 (ftBit w 2)
    let b ← s.srcV w.sb 3 (ftBit w 3)
    let d ← s.accum w
    pure fun i => Ty.i32.fromInt (satOf w.md) (intAt .i32 d i + dot4 (fun j => (intAt .i8 a j).sign) (intAt .i8 b) i)

/-! ### Reductions (R234 to R237) -/

/-- The elements of group g that are active, in ascending order. -/
def groupElems (n g size : Nat) (act : Nat → Bool) : List Nat :=
  ((List.range (min size (n - g * size))).map (g * size + ·)).filter act

/-- Number of groups. -/
def groupCount (n size : Nat) : Nat := (n + size - 1) / size

/-- Reduction operations of R234. -/
inductive RedOp where
  | add | min | max | amax
  deriving DecidableEq, Repr

/-- The identity of a reduction, as bits (R234). -/
def redIdentity (op : RedOp) (t : Ty) : Nat :=
  match op with
  | .add | .amax => 0
  | .min => if t.isInt then toBits t.width t.maxI else t.fmt.infBits
  | .max => if t.isInt then toBits t.width t.minI else 2 ^ (t.width - 1) + t.fmt.infBits

/-- One step of a reduction: accumulator and element as bits. -/
def redStep (op : RedOp) (t : Ty) (m : RMode) (sat : Bool) (acc e : Nat) : Nat × Flags :=
  if t.isInt then
    let (x, y) := (t.toInt acc, t.toInt e)
    match op with
    | .add => t.fromInt sat (x + y)
    | .min => (if y < x then e else acc, 0)
    | _ => (if x < y then e else acc, 0)
  else
    let (x, y) := (t.fmt.decode acc, t.fmt.decode e)
    match op with
    | .add => rounded t.fmt m (XR.add m.rnd x y)
    | .min => (if y.rankLt x then e else acc, 0)
    | _ => (if x.rankLt y then e else acc, 0)

/-- An element as it enters a reduction: its magnitude for amax. -/
def redElem (op : RedOp) (t : Ty) (e : Nat) : Nat := if op = .amax then e % 2 ^ (t.width - 1) else e

/-- The reduction of a list of elements; the result of a float type that is a NaN is canonical. -/
def reduceList (op : RedOp) (t : Ty) (m : RMode) (sat : Bool) : List Nat → Nat × Flags
  | [] => (redIdentity op t, 0)
  | e :: es =>
    let r := es.foldl (fun a x => let (v, f) := redStep op t m sat a.1 (redElem op t x); (v, a.2 ||| f)) (redElem op t e, (0 : Flags))
    if t.isInt then r else ((roundTo t.fmt rne (t.fmt.decode r.1)).1, r.2)

/-- The operation of a VRED. -/
def redOpOf (sub : Nat) : RedOp := match sub with | 0 => .add | 1 => .min | 2 => .max | _ => .amax

/-- VRED: masked-off inputs are left out; every element of vD is written. -/
def execVred (w : AForm) (s : State) : Out :=
  let m := s.vMode w
  let t := w.ty
  let g := vAux w
  finish s 3 do
    let a ← s.srcV w.sa 2 (ftBit w 2)
    let vm ← s.vMask w
    let d ← s.dstV w.dst
    let (v, fl) := elements t.width (fun i => decide (i < groupCount t.count g)) fun i =>
      reduceList (redOpOf w.sub.toNat) t m (satOf w.md) ((groupElems t.count i g vm.getLsbD).map fun j => elemOf t.width j a.toNat)
    pure ((s.pops [w.sa]).resultLong d v (BitVec.allOnes 2048) fl)

/-- VSCAN: each output is the reduction of its group's elements up to it, a masked-off one standing as the identity. -/
def execVscan (w : AForm) (s : State) : Out :=
  let m := s.vMode w
  let t := w.ty
  let g := vAux w
  let op := match w.sub.toNat with | 0 => RedOp.add | 1 => .max | _ => .min
  finish s 3 do
    let a ← s.srcV w.sa 2 (ftBit w 2)
    let vm ← s.vMask w
    let d ← s.dstV w.dst
    let (v, fl) := elements t.width vm.getLsbD fun i =>
      reduceList op t m (satOf w.md)
        (((groupElems t.count (i / g) g fun _ => true).filter fun j => decide (j ≤ i)).map fun j =>
          if vm.getLsbD j then elemOf t.width j a.toNat else redIdentity op t)
    pure ((s.pops [w.sa]).resultLong d v (writtenBits w t.width vm) fl)

/-- VSTAT: sums and sums of squares. -/
def execVstat (w : AForm) (s : State) : Out :=
  let m := s.vMode w
  let g := vAux w
  finish s 3 do
    let a ← s.srcV w.sa 2 (ftBit w 2)
    let d ← s.dstV w.dst
    let (v, fl) := elements 32 (fun i => decide (i < 2 * groupCount 64 g)) fun i =>
      let es := (groupElems 64 (i / 2) g fun _ => true).map fun j => elemOf 32 j a.toNat
      if i % 2 = 0 then reduceList .add .f32 m false es
      else es.foldl (fun acc e =>
        let x := Fmt.f32.decode e
        let (b, f) := rounded .f32 m (XR.fma m.rnd x x (Fmt.f32.decode acc.1))
        (b, acc.2 ||| f)) (0, 0)
    pure ((s.pops [w.sa]).resultLong d v (BitVec.allOnes 2048) fl)

/-- VSMX: unnormalised exponentials. -/
def execVsmx (w : AForm) (s : State) : Out :=
  let m := s.vMode w
  let g := vAux w
  finish s 3 do
    let a ← s.srcV w.sa 2 (ftBit w 2)
    let c ← s.srcS w.sb 3 (ftBit w 3)
    let vm ← s.vMask w
    let d ← s.dstV w.dst
    let cv := Fmt.f32.decode (c.toNat % 2 ^ 32)
    let (v, fl) := elements 32 vm.getLsbD fun i =>
      let mx := Fmt.f32.decode (reduceList .max .f32 rne false
        ((groupElems 64 (i / g) g vm.getLsbD).map fun j => elemOf 32 j a.toNat)).1
      let (df, f1) := stepR rne (XR.add .rne (fltAt .f32 a i) mx.negate) 0
      let (t, f2) := stepR rne (XR.mul df cv) f1
      rounded .f32 m (t.exp2, f2)
    pure ((s.pops [w.sa]).resultLong d v (writtenBits w 32 vm) fl)

/-! ### VTOPK (R238, R239) -/

/-- An element of a VTOPK: rank, value bits, index, position. -/
structure TopE where
  val : Nat
  idx : Nat
  pos : Nat
  deriving DecidableEq, Repr

/-- e goes before f (R239). -/
def topBefore (t : Ty) (e f : TopE) : Bool :=
  let gt := if t.isInt then decide (t.toInt f.val < t.toInt e.val) else (t.fmt.decode f.val).rankLt (t.fmt.decode e.val)
  let lt := if t.isInt then decide (t.toInt e.val < t.toInt f.val) else (t.fmt.decode e.val).rankLt (t.fmt.decode f.val)
  gt || (!lt && (decide (e.idx < f.idx) || (decide (e.idx = f.idx) && decide (e.pos < f.pos))))

/-- Insert into a list in that order. -/
def topInsert (t : Ty) (e : TopE) : List TopE → List TopE
  | [] => [e]
  | f :: fs => if topBefore t e f then e :: f :: fs else f :: topInsert t e fs

/-- The first k in order. -/
def topK (t : Ty) (k : Nat) (l : List TopE) : List TopE := l.foldl (fun a e => (topInsert t e a).take k) []

/-- VTOPK: a snapshot of the runs; two long-latency destinations. -/
def execVtopk (w : PForm) (s : State) : Out :=
  finish s 15 do
    let fs ← s.params (.vtopk w) w.par
    let h := w.head
    let t := h.ty
    let ec := t.count
    let n := fs.getD 2 0
    let ixsrc := fs.getD 6 0 % 2 == 1
    let run ← s.srcRun (regIdx h.sa) 2 (ftBit h 2) (fs.getD 4 0)
    let ix ← if ixsrc then s.srcRun (regIdx h.sc) 4 (ftBit h 4) ((n + 63) / 64) else pure []
    let d ← s.dstV h.dst
    let e := mapV s.ctx.vrb (regIdx h.sb)
    s.dstPhys e 3
    let es := (List.range n).map fun i =>
      ({ val := elemOf t.width (i % ec) (run.getD (i / ec) 0).toNat
         idx := if ixsrc then elemOf 32 (i % 64) (ix.getD (i / 64) 0).toNat else (fs.getD 5 0 + i) % 2 ^ 32
         pos := i } : TopE)
    let top := topK t (fs.getD 3 0) es
    let fill := if t.isInt then 0x80000000 else t.fmt.nan
    let canon (b : Nat) : Nat := if !t.isInt && decide (t.fmt.decode b = .nan) then t.fmt.nan else b
    let vals := packElems t.width ((top.map fun x => canon x.val) ++ List.replicate (ec - top.length) fill)
    let idxs := packElems 32 ((top.map (·.idx)) ++ List.replicate (64 - top.length) 0xFFFFFFFF)
    pure ((s.resultLong d (BitVec.ofNat 2048 vals) (BitVec.allOnes 2048) 0).resultLong (.v (BitVec.ofNat 9 e))
      (BitVec.ofNat 2048 idxs) (BitVec.allOnes 2048) 0)

/-! ### Permutes and moves (R240 to R242) -/

/-- VPERM. -/
def execVperm (w : AForm) (s : State) : Out :=
  let ew := w.ty.width
  s.vec2 w (some 2) fun a b i =>
    let j := elemOf ew i b.toNat
    (if j < w.ty.count then elemOf ew j a.toNat else 0, 0)

/-- VBCST. -/
def execVbcst (w : AForm) (s : State) : Out :=
  let ew := w.ty.width
  s.vec w (some 2) ew [w.sa] do
    let e ← (match w.sa with
      | .s _ => do
        let x ← s.srcS w.sa 2 (ftBit w 2)
        pure (x.toNat % 2 ^ ew)
      | _ => do
        let a ← s.srcV w.sa 2 (ftBit w 2)
        pure (elemOf ew (vAux w) a.toNat) : Chk Nat)
    pure fun _ => (e, 0)

/-- VSLD. -/
def execVsld (w : AForm) (s : State) : Out :=
  let ew := w.ty.width
  let n := w.ty.count
  s.vec2 w (some 2) fun a b i =>
    let j := i + vAux w
    (if j < n then elemOf ew j a.toNat else elemOf ew (j - n) b.toNat, 0)

/-- VILV: which source element i comes from (false: A), and which element of it. -/
def ilvFrom (sub n i : Nat) : Bool × Nat :=
  match sub with
  | 0 => (i % 2 == 1, i / 2)
  | 1 => (i % 2 == 1, n / 2 + i / 2)
  | 2 => if i < n / 2 then (false, 2 * i) else (true, 2 * (i - n / 2))
  | _ => if i < n / 2 then (false, 2 * i + 1) else (true, 2 * (i - n / 2) + 1)

/-- VILV. -/
def execVilv (w : AForm) (s : State) : Out :=
  let ew := w.ty.width
  s.vec2 w (some 2) fun a b i =>
    let (fromB, j) := ilvFrom w.sub.toNat w.ty.count i
    (elemOf ew j (if fromB then b else a).toNat, 0)

/-- VXPOSE: element c·h + r comes from element 8r + c. -/
def execVxpose (w : AForm) (s : State) : Out :=
  let h := w.ty.count / 8
  s.vec1 w (some 2) fun a i => (elemOf w.ty.width (8 * (i % h) + i / h) a.toNat, 0)

/-- VMOVS: one element to an s register, or an s register to one element. -/
def execVmovs (w : AForm) (s : State) : Out :=
  let ew := w.ty.width
  finish s 3 (match w.dst with
    | .s _ => do
      let a ← s.srcV w.sa 2 (ftBit w 2)
      s.dstS w.dst
      let e := elemOf ew (vAux w) a.toNat
      let v : Word := if w.ty.signed then BitVec.ofInt 64 (w.ty.toInt e) else BitVec.ofNat 64 e
      pure ((s.pops [w.sa]).resultS 2 w.dst v)
    | _ => do
      let x ← s.srcS w.sa 2 (ftBit w 2)
      let d ← s.dstV w.dst
      let bit : MWord := BitVec.ofNat 256 (2 ^ vAux w)
      pure (s.resultV 2 d (BitVec.ofNat 2048 ((x.toNat % 2 ^ ew) <<< (ew * vAux w))) (laneBits ew (2048 / ew) bit) none 0))

/-- VMOV to a queue register: an entry with side-band and the binding of the source (07 R96) when TY is b4; the push uses FT[34] for a full queue. -/
def State.vmovPush (s : State) (w : AForm) (i : BitVec 4) : Chk State := do
  let (v, k, b) ← (if w.ty = .b4 then do
      let (v, k) ← s.srcB4 w.sa 2 (ftBit w 2)
      pure (v, k, SMap.get? s.me.bind (mapV s.ctx.vrb (regIdx w.sa)))
    else do
      let v ← s.srcV w.sa 2 (ftBit w 2)
      pure (v, 0, none) : Chk (VWord × KWord × Option Bind))
  s.dstQ i.toNat (ftBit w 3)
  let id := s.seq
  pure (({ s with seq := id + 1 }.reserve i.toNat id).lands 4 w.dst
    (.push id { data := v, sb := k, sbv := w.ty == Ty.b4, bind := b, mark := none, resv := none }) 0)

/-- VMOV (R242). -/
def execVmov (w : AForm) (s : State) : Out :=
  finish s 3 (match w.dst with
    | .q _ i => s.vmovPush w i
    | .vm _ => do
      let m ← s.srcVMOr w.sa 2 (ftBit w 2) 0
      s.dstK w.dst
      pure (s.resultVM w.dst m 0)
    | _ => match w.sa with
      | .v i => do
        let a ← s.srcV w.sa 2 (ftBit w 2)
        let d ← s.dstV w.dst
        pure (s.resultV 4 d a (BitVec.allOnes 2048) (SMap.get? s.me.bind (mapV s.ctx.vrb i.toNat)) 0)
      | _ => do
        let (a, k) ← if w.ty = .b4 then s.srcB4 w.sa 2 (ftBit w 2) else do
          let a ← s.srcV w.sa 2 (ftBit w 2)
          pure (a, 0)
        let d ← s.dstV w.dst
        s.dstK w.sb
        let s := s.pops [w.sa]
        if w.ty = .b4 then
          pure (((s.lands 4 w.sb (.write (k.setWidth 2048) (BitVec.allOnes 2048) none) 0).resultV 4 d a (BitVec.allOnes 2048)
            none 0).lands 4 d (.bindGen (regIdx w.sb)) 0)
        else pure (s.resultV 4 d a (BitVec.allOnes 2048) none 0))

/-! ### Rotary embedding (R243, R87) -/

/-- The phase of a position and a frequency (R87). -/
def ropePhase (p f : Nat) : Nat := ((p * f % 2 ^ 40 + 2 ^ 15) / 2 ^ 16) % 2 ^ 24

/-- The sum of two exact products; the exceptional cases of R84. -/
def sum2 (rd : Rnd) (a b c d : XR) : XR × Flags :=
  let (p, f) := XR.mul a b
  let (q, g) := XR.mul c d
  let (r, h) := XR.add rd p q
  (r, f ||| g ||| h)

/-- VROPE: mask bit 2i governs the pair; a long-latency result. -/
def execVrope (w : AForm) (s : State) : Out :=
  let m := s.vMode w
  finish s 3 do
    let a ← s.srcV w.sa 2 (ftBit w 2)
    let b ← s.srcV w.sb 3 (ftBit w 3)
    let c ← s.srcV w.sc 4 (ftBit w 4)
    let vm ← s.vMask w
    let d ← s.dstV w.dst
    let pm : MWord := BitVec.ofNat 256 (bitsOf ((List.range 64).map fun i => vm.getLsbD (i / 2 * 2)))
    let (v, fl) := elements 32 pm.getLsbD fun i =>
      let j := i / 2 * 2
      let fr := elemOf 32 j c.toNat + elemOf 8 (4 * j + 4) c.toNat * 2 ^ 32
      let (co, si) := cosSin (ropePhase (elemOf 32 j b.toNat) fr)
      let (cv, f1) := stepR rne (co, 0) 0
      let (sv, f2) := stepR rne (si, 0) f1
      let (x0, x1) := (fltAt .f32 a j, fltAt .f32 a (j + 1))
      let r := if i % 2 = 0 then sum2 m.rnd x0 cv x1 sv.negate else sum2 m.rnd x0 sv x1 cv
      rounded .f32 m (r.1, r.2 ||| f2)
    pure ((s.pops [w.sa, w.sb, w.sc]).resultLong d v (writtenBits w 32 pm) fl)

end Sys2Proof.Machine
end

