-- ==== Sys2Proof/Machine/Scale.lean ====
section
/-! DEFINITION. Scale operations (15 R244 to R249). -/

namespace Sys2Proof.Machine

/-- Byte j of a scale register. -/
def kByte (k : KWord) (j : Nat) : Nat := elemOf 8 j k.toNat
/-- A scale register from its sixteen bytes. -/
def kPack (f : Nat → Nat) : KWord := BitVec.ofNat 128 (packElems 8 ((List.range 16).map f))

/-- A k result: it lands 2 cycles after issue (R130). -/
def State.resultK (s : State) (dst : Opnd) (k : KWord) (flags : Flags := 0) : State :=
  s.lands 2 dst (.write (k.setWidth 2048) (BitVec.allOnes 2048) none) flags

/-- KMOV: a k register, or an entry's side-band. -/
def execKmov (w : AForm) (s : State) : Out :=
  finish s 3 do
    let k ← (match w.sa with
      | .k _ => s.srcK w.sa 2 (ftBit w 2)
      | _ => do
        let (_, k) ← s.srcB4 w.sa 2 (ftBit w 2)
        pure k : Chk KWord)
    s.dstK w.dst
    pure ((s.pops [w.sa]).resultK w.dst k)

/-- KSET. -/
def execKset (w : AForm) (s : State) : Out :=
  finish s 3 do
    s.dstK w.dst
    pure (s.resultK w.dst (kPack fun _ => w.imm.toNat % 256))

/-- KSET.one: kD is read as a source. -/
def execKsetOne (w : AForm) (s : State) : Out :=
  finish s 3 do
    let k ← s.srcK w.dst 1 false
    let j := w.imm.toNat / 256 % 16
    pure (s.resultK w.dst (kPack fun i => if i = j then w.imm.toNat % 256 else kByte k i))

/-- KSET.s. -/
def execKsetS (w : AForm) (s : State) : Out :=
  finish s 3 do
    let a ← s.srcS w.sa 2 (ftBit w 2)
    let b ← s.srcS w.sb 3 (ftBit w 3)
    s.dstK w.dst
    pure (s.resultK w.dst (BitVec.ofNat 128 (a.toNat + b.toNat * 2 ^ 64)))

/-- The excluded bytes of a K operation (R244). -/
def kExcl (w : AForm) (j : Nat) : Bool := (w.imm.toNat / 256).testBit j

/-- A byte-wise scale operation: bits [5:0] from `f`, the type kept, excluded bytes kA's (R246). -/
def kBytewise (w : AForm) (a : KWord) (f : Nat → Nat) : KWord :=
  kPack fun j => if kExcl w j then kByte a j else kByte a j / 64 * 64 + f j % 64

/-- KADD: clamped to 0 to 63; a clamp of an included byte raises SAT. -/
def execKadd (w : AForm) (s : State) : Out :=
  finish s 3 do
    let a ← s.srcK w.sa 2 (ftBit w 2)
    let n ← (match w.sb with
      | .s _ => do
        let x ← s.srcS w.sb 3 (ftBit w 3)
        pure x.toNat
      | _ => pure w.imm.toNat : Chk Nat)
    s.dstK w.dst
    let e (j : Nat) : Int := (kByte a j % 64 : Nat) + sgn 8 n
    let fl : Flags := if (List.range 16).any fun j => !kExcl w j && (decide (e j < 0) || decide (63 < e j)) then fSAT else 0
    pure (s.resultK w.dst (kBytewise w a fun j => (max 0 (min 63 (e j))).toNat) fl)

/-- KMAX and KMIN. -/
def State.kMinMax (s : State) (w : AForm) (f : Nat → Nat → Nat) : Out :=
  finish s 3 do
    let a ← s.srcK w.sa 2 (ftBit w 2)
    let b ← s.srcK w.sb 3 (ftBit w 3)
    s.dstK w.dst
    pure (s.resultK w.dst (kBytewise w a fun j => f (kByte a j % 64) (kByte b j % 64)))

/-- KMAX. -/
def execKmax (w : AForm) (s : State) : Out := s.kMinMax w max
/-- KMIN. -/
def execKmin (w : AForm) (s : State) : Out := s.kMinMax w min

/-- KTYPE. -/
def execKtype (w : AForm) (s : State) : Out :=
  finish s 3 do
    let a ← s.srcK w.sa 2 (ftBit w 2)
    s.dstK w.dst
    pure (s.resultK w.dst (kPack fun j => if kExcl w j then kByte a j else w.imm.toNat % 4 * 64 + kByte a j % 64))

/-- KBIND: the binding alone lands; vD holds it back while empty. -/
def execKbind (w : AForm) (s : State) : Out :=
  finish s 3 do
    let _ ← s.srcK w.sa 2 (ftBit w 2)
    let d ← s.dstV w.dst
    let a := regIdx w.sa
    pure (s.lands 2 d (.rebind (some { kix := BitVec.ofNat 8 a, gen := s.me.genOf a })) 0)

/-- KUNB. -/
def execKunb (w : AForm) (s : State) : Out :=
  finish s 3 do
    let d ← s.dstV w.dst
    pure (s.lands 2 d (.rebind none) 0)

/-- KGEN: it does not wait on kA's full/empty bit, whatever FT (log 71). -/
def execKgen (w : AForm) (s : State) : Out :=
  finish s 3 do
    s.settle w.sa
    s.dstS w.dst
    pure (s.resultS 2 w.dst ((s.me.genOf (regIdx w.sa)).setWidth 64))

/-- A binding record as R98 lays it out. -/
def bindWord (b : Option Bind) : Nat :=
  match b with
  | some b => 2 ^ 24 + b.kix.toNat * 2 ^ 16 + b.gen.toNat
  | none => 0

/-- KGEN.b: it reads the binding of an error-pending or empty vA too (log 71). -/
def execKgenB (w : AForm) (s : State) : Out :=
  finish s 3 do
    let n := mapV s.ctx.vrb (regIdx w.sa)
    s.me.bank n 2
    s.settle (.v (BitVec.ofNat 9 n))
    s.dstS w.dst
    pure (s.resultS 2 w.dst (BitVec.ofNat 64 (bindWord (SMap.get? s.me.bind n))))

/-- ⌈log2 q⌉ for a positive q. -/
def clog2 (q : Rat) : Int :=
  let e := flog2 q.num.natAbs q.den
  if pow2 e = q then e else e + 1

/-- The scale byte of one block of values (R247). -/
def kFromBlock (t : Nat) (xs : List XR) : Nat × Flags :=
  let m : Rat := ([7, 6, 8, 12].getD t 7 : Nat)
  let nv : Flags := if xs.contains .nan then fNV else 0
  let amax := (xs.map XR.abs).foldl XR.rankMax .nan
  match amax with
  | .nan => (t * 64, nv)
  | .inf _ => (t * 64 + 63, nv ||| fSAT)
  | .num _ q =>
    if q = 0 then (t * 64, nv)
    else
      let e := 40 + clog2 (q / m)
      let c := max 0 (min 63 e)
      (t * 64 + c.toNat, if c = e then nv else nv ||| fSAT)

/-- KFROM: kD is read as a source. -/
def execKfrom (w : AForm) (s : State) : Out :=
  finish s 3 do
    let v ← s.srcV w.sa 2 (ftBit w 2)
    let k ← s.srcK w.dst 1 false
    let nb := w.ty.count / 32
    let p := w.imm.toNat / 256 % 8
    let bs := (List.range nb).map fun b => kFromBlock (w.imm.toNat % 4) ((List.range 32).map fun i => fltAt w.ty v (32 * b + i))
    let out := kPack fun j => if nb * p ≤ j ∧ j < nb * p + nb then (bs.getD (j - nb * p) (0, 0)).1 else kByte k j
    pure (s.resultK w.dst out (bs.foldl (fun a b => a ||| b.2) 0))

end Sys2Proof.Machine
end

