-- ==== Sys2Proof/Machine/Matrix.lean ====
section
/-! DEFINITION. The matrix engine (17): set-up, nests and their steps, drains and status; marking a task missed (23 R323). -/

namespace Sys2Proof.Machine

/-- Change the M engine of cluster c. -/
def State.modM (s : State) (c : Nat) (f : MEng → MEng) : State := s.modCl c fun k => { k with m := f k.m }
/-- Change the M set-up of the issuing cluster. -/
def State.modSet (s : State) (f : MSet → MSet) : State := s.modM s.cur.1 fun m => { m with set := f m.set }

/-! ### Missed tasks (23 R323) -/

/-- A nest counts as a miss, or is aborted: MISS and ABORT, which a clear in the same cycle leaves set (17 R271, 05 R79). -/
def MEng.setMiss (m : MEng) : MEng := { m with miss := true, fresh := m.fresh ||| 0x80 }
def MEng.setAbort (m : MEng) : MEng := { m with abort := true, fresh := m.fresh ||| 0x100 }

/-- A MISSLOG entry of die d; FRM is its FRAME at this step (log 72). -/
def State.missLog (s : State) (d src : Nat) (tid : BitVec 32) (g : Gen) (why : Nat) : State :=
  s.logEvent d (natBytes 1 2 ++ natBytes 1 why ++ natBytes 2 src ++ natBytes 4 tid.toNat ++ natBytes 8 s.cycle.toNat ++
    natBytes 8 (s.frameOf d).toNat ++ natBytes 4 g.tag.toNat ++ natBytes 4 g.rot.toNat ++ natBytes 32 0)

/-- The task of cluster c is marked missed for a generation and holds it no longer. An entry with WHY = 1 is written only when it
was not marked already. -/
def State.missTask (s : State) (c : Nat) (g : Gen) (why : Nat) : State :=
  match s.taskOn c with
  | none => s
  | some t =>
    if why = 1 ∧ t.missed.contains g then s
    else (s.modTaskOn c fun t => t.miss g).missLog (dieOf c) c t.tid g why

/-! ### Set-up (R255 to R259) -/

/-- MSRC. -/
def execMsrc (w : AForm) (s : State) : Out :=
  finish s 3 do
    let a ← s.srcS w.sa 2 (ftBit w 2)
    let r ← s.srcS w.sb 3 (ftBit w 3)
    let c ← s.srcSOr w.sc 4 (ftBit w 4) 0
    pure (s.modSet fun m => { m with
      aset := true, abase := a, ars := r, ascl := if w.sc = .null then none else some c, afmt := w.ty, aax := w.imm.getLsbD 0 })

/-- MBSEL.win. -/
def execMbselWin (_ : AForm) (s : State) : Out :=
  finish s 3 (.ok (s.modSet fun m => { m with scr := false, bbase := 0, bw := 256, bscl := none }))

/-- MBSEL.scr. -/
def execMbselScr (w : AForm) (s : State) : Out :=
  finish s 3 do
    let a ← s.srcS w.sa 2 (ftBit w 2)
    let b ← s.srcS w.sb 3 (ftBit w 3)
    let c ← s.srcSOr w.sc 4 (ftBit w 4) 0
    trapIf (b.toNat % 32 != 0 || decide (b.toNat < 256) || decide (8192 < b.toNat)) .illegal 3
    pure (s.modSet fun m => { m with scr := true, bbase := a, bw := b, bscl := if w.sc = .null then none else some c })

/-- Byte g of eight format bytes. -/
def fmtByte (f : BitVec 64) (g : Nat) : Nat := elemOf 8 g f.toNat

/-- A format byte as R253 and R257 admit it. -/
def fmtByteOk (b : Nat) : Bool :=
  decide (b < 64) && [0, 1, 0xA, 0xC, 0xD, 0xE].contains (b % 32) && !(b / 32 == 1 && (b % 32 == 1 || b % 32 == 0xA))

/-- MFMT. -/
def execMfmt (w : AForm) (s : State) : Out :=
  finish s 3 do
    let a ← s.srcS w.sa 2 (ftBit w 2)
    trapIf (!(List.range 8).all fun g => fmtByteOk (fmtByte a g)) .illegal 2
    pure (s.modSet fun m => { m with sfmt := a })

/-- One level of the nest table from the fields at b (R258). -/
def levelOf (fs : List Nat) (b : Nat) : Level :=
  { count := fs.getD b 0, astr := BitVec.ofNat 32 (fs.getD (b + 1) 0), bstr := BitVec.ofNat 32 (fs.getD (b + 2) 0)
    cend := BitVec.ofNat 32 (fs.getD (b + 3) 0) }

/-- MNEST: two levels, and ROWS with RV. -/
def execMnest (w : PForm) (s : State) : Out :=
  finish s 15 do
    let fs ← s.params (.mnest w) w.par
    let p := 2 * w.head.sub.toNat
    let f9 := fs.getD 9 0
    pure (s.modSet fun m => { m with
      levels := (m.levels.set p (levelOf fs 1)).set (p + 1) (levelOf fs 5)
      rows := if f9 / 128 = 1 then f9 % 128 + 1 else m.rows })

/-- First address of the aperture of a cluster's own SRAM (27 R358). -/
def ownSramVa : BitVec 64 := 0xFF000000000000

/-- The target of the M engine's own reads (R293), its cluster's SRAM and its die's scratch, lets it read (01 R25). -/
def State.mReads (s : State) (c : Nat) : Bool := s.mayAccess (masterOf c 2) bitR (s.here (sramBase c))

/-- A granule of a cluster's SRAM or of its die's scratch, in which the M operand fetch queue reads. -/
def State.mGranule (s : State) (c g : Nat) : Bool :=
  let sram := s.here (sramBase c) / 64
  let scr := s.here (scratchBase (dieOf c)) / 64
  (decide (sram ≤ g) && decide (g < sram + 2 ^ 16)) || (decide (scr ≤ g) && decide (g < scr + 80 * 2 ^ 14))

/-- The M operand fetch queue waits: a fence holds what it issued in a cycle, or a store that it must see is not at its home yet. -/
def State.mHold (s : State) (c cyc : Nat) : Bool := s.fenced c 2 cyc false || s.heldAt c (s.mGranule c)

/-- Bytes per chunk of a class (R252). -/
def chunkBytes : Nat → Nat
  | 0 => 16 | 1 => 32 | 2 => 32 | _ => 64

/-- The class of an operand type: 0 4-bit, 1 8-bit float, 2 8-bit integer, 3 bf16 (R252). -/
def mClass : Nat → Option Nat
  | 0xE => some 0 | 0xC => some 1 | 0xD => some 1 | 0x1 => some 2 | 0xA => some 3 | _ => none

/-- The largest offset of the steps: Σ (COUNT − 1) × stride. -/
def maxOff (ls : List Level) (f : Level → Nat) : Nat := (ls.map fun l => (l.count - 1) * f l).sum

/-- Two spans of bytes, each from its first to its last, share a granule of 64 bytes. -/
def shareGranule (a b : Nat × Nat) : Bool := decide (a.1 / 64 ≤ b.2 / 64) && decide (b.1 / 64 ≤ a.2 / 64)

/-- The spans of its cluster's SRAM, by offset, that a nest may still read: its A chunks and their scales. -/
def Nest.spans (n : Nest) : List (Nat × Nat) :=
  let top := (n.groups.map fun g => maxOff n.set.levels (·.astr.toNat) + (g.2.2.1 + g.1 - 1) * n.set.ars.toNat).foldl max 0
  let a := n.set.abase.toNat
  (a, a + top + chunkBytes ((mClass n.set.afmt.code).getD 0) - 1) :: (match n.set.ascl with
    | some o => [(o.toNat, o.toNat + top / 16)]
    | none => [])

/-- MGRP: the record is read through the M operand fetch queue (21 R293), with the M engine's master ID (01 R24, R26); after the reads that
earlier nests may still make of the same granules (21 R295). -/
def execMgrp (w : PForm) (s : State) : Out :=
  finish s 15 do
    let fs ← s.params (.mgrp w) w.par
    let rcd := (fs.getD 1 0, fs.getD 1 0 + 8 * fs.getD 2 0 - 1)
    waitIf (s.mHold s.cur.1 s.cycle.toNat || s.me.m.nests.any fun n => n.spans.any (shareGranule rcd))
    let pa := s.here (sramBase s.cur.1 + fs.getD 1 0)
    let n := fs.getD 2 0
    if 0 < n ∧ !s.mReads s.cur.1 then
      .error (.trap { cause := .refused, info := some (ownSramVa + BitVec.ofNat 64 (fs.getD 1 0)), tgt := s.targetCode pa })
    else match (List.range (8 * n)).find? fun i => s.badAt (pa + i) 1 with
    | some i => .error (.trap { cause := .eccFatal, info := some (ownSramVa + BitVec.ofNat 64 (fs.getD 1 0 + i)), tgt := s.targetCode pa })
    | none =>
      pure (s.modSet fun m => { m with
      grp := (List.range n).map fun i => BitVec.ofNat 64 (bytesNat (s.bytes (pa + 8 * i) 8)) })

/-! ### MGO (R252, R253, R260) -/

/-- A group of a nest: rows, first accumulator row, first A row, B column offset. -/
abbrev MGroup := Nat × Nat × Nat × Nat

/-- An entry of a group record (R259). -/
def groupOf (e : BitVec 64) : MGroup :=
  (bitsNat e.toNat 7 0, bitsNat e.toNat 14 8, bitsNat e.toNat 31 16, bitsNat e.toNat 39 32)

/-- Row offset of a level per step. -/
def Level.cstr (l : Level) : Nat := l.cend.toNat % 128
/-- The action is POST, and its event. -/
def Level.posts (l : Level) : Bool := l.cend.toNat / 256 % 4 == 1
def Level.event (l : Level) : Nat := l.cend.toNat / 1024 % 64

/-- Column groups that are present. -/
def presentGroups (fmts : BitVec 64) : List Nat := (List.range 8).filter fun g => fmtByte fmts g % 32 != 0

/-- First index of a list that satisfies p. -/
def firstIdx {α : Type} (p : α → Bool) (l : List α) : Option Nat := (l.zipIdx.find? fun e => p e.1).map (·.2)

/-- Rows of two groups overlap. -/
def rowsMeet (a b : MGroup) : Bool := a.1 != 0 && b.1 != 0 && decide (a.2.1 < b.2.1 + b.1) && decide (b.2.1 < a.2.1 + a.1)

/-- A failed check of R260: SHAPE with a reason and, where one applies, a group or entry index; which one is the model's choice (log 72). -/
def shapeTrap {α : Type} (reason : Nat) (g : Nat) : Chk α := trapInfo .shape (BitVec.ofNat 64 (reason + 256 * g))

/-- SHAPE when an index is found. -/
def shapeIf (reason : Nat) : Option Nat → Chk Unit
  | some g => shapeTrap reason g
  | none => .ok ()

/-- Check 3: the group record; the index reported: log 72. -/
def recordCheck (grp : List (BitVec 64)) : Chk Unit := do
  let gs := grp.map groupOf
  shapeIf 3 (firstIdx (fun e => bitsNat e.toNat 63 40 != 0 || bitsNat e.toNat 15 15 != 0) grp)
  shapeIf 3 (if 128 < (gs.map (·.1)).sum then some 0 else none)
  shapeIf 3 (firstIdx (fun g => decide (128 < g.2.1 + g.1)) gs)
  shapeIf 3 (firstIdx (fun e => (gs.take e.2).any (rowsMeet e.1)) gs.zipIdx)
  shapeIf 3 (if gs.all fun g => g.1 == 0 then some 0 else none)

/-- Bytes of the B source and of its scales that lie within reach: a cluster's slice and plane part, or stacked scratch (R317,
R256). -/
def State.bLimits (s : State) (scr : Bool) : Nat × Nat :=
  if scr then (80 * 2 ^ 20, 80 * 2 ^ 20)
  else match (s.ring (dieOf s.cur.1)).win with
    | some w => (w.len / 32, w.splen / 32)
    | none => (0, 0)

/-- The checks of R260 on a copy of the set-up, in their order; the index that each reports: log 72. -/
def State.mgoCheck (s : State) (m : MSet) (fmts : BitVec 64) (grp : Bool) (gs : List MGroup) (gen : Option Gen) : Chk Unit := do
  let ps := presentGroups fmts
  let cls := mClass m.afmt.code
  -- 1
  if !m.aset || ps.isEmpty then shapeTrap 1 0
  shapeIf 1 (ps.find? fun g => decide (mClass (fmtByte fmts g % 32) ≠ cls))
  -- 2
  if m.aax then shapeTrap 2 0
  shapeIf 2 (ps.find? fun g => fmtByte fmts g / 32 % 2 == 1 && [0xC, 0xD, 0xE].contains (fmtByte fmts g % 32))
  -- 3
  if grp then recordCheck m.grp
  -- 4
  if 2 ^ 32 ≤ (m.levels.map (·.count)).prod then shapeTrap 4 0
  -- 5
  trapIf (m.abase.toNat % 16 != 0 || m.ars.toNat % 16 != 0 || m.bbase.toNat % 16 != 0) .misalign
  let csz := chunkBytes (cls.getD 0)
  let b4 := decide (cls = some 0)
  -- 6
  let xa := fun (g : MGroup) => maxOff m.levels (·.astr.toNat) + (g.2.2.1 + g.1 - 1) * m.ars.toNat
  shapeIf 5 (firstIdx (fun g => g.1 != 0 && (decide (2 ^ 22 < m.abase.toNat + xa g + csz) ||
    (b4 && decide (2 ^ 22 ≤ (m.ascl.getD 0).toNat + xa g / 16)))) gs)
  -- 7
  if !m.scr && gen.isNone then shapeTrap 6 0
  if m.scr && b4 && m.bscl.isNone then shapeTrap 6 0
  let (lim, slim) := s.bLimits m.scr
  let top := ps.foldl max 0 * 32 + 31
  let xb := fun (g : MGroup) => maxOff m.levels (·.bstr.toNat) + (top + 32 * g.2.2.2) * csz
  shapeIf 6 (firstIdx (fun g => g.1 != 0 && ((!m.scr && g.2.2.2 != 0) || decide (m.bw.toNat < 32 * g.2.2.2 + 256) ||
    decide (lim < m.bbase.toNat + xb g + csz) || (b4 && decide (slim ≤ (m.bscl.getD 0).toNat + xb g / 16)))) gs)
  -- 8
  shapeIf 7 (firstIdx (fun g => g.1 != 0 && decide (127 < g.2.1 + maxOff m.levels Level.cstr + g.1 - 1)) gs)

/-- The reads of a nest are accepted, or refused, with its MGO (01 R26, log 54). -/
def State.mAccepts (s : State) (m : MSet) : Chk Unit :=
  if s.mReads s.cur.1 then .ok ()
  else .error (.trap { cause := .refused, info := some (ownSramVa + m.abase), tgt := s.targetCode (s.here (sramBase s.cur.1)) })

/-- MGO and MGO.grp. -/
def State.mgo (s : State) (w : AForm) (grp : Bool) : Out :=
  finish s 3 do
    let k := s.me
    waitIf (decide (4 ≤ k.m.nests.length))
    let m := k.m.set
    let d := dieOf s.cur.1
    let gs := if grp then m.grp.map groupOf else [(m.rows, 0, 0, 0)]
    let gen := if m.scr then none else s.genNow d
    let fmts := if m.scr then m.sfmt else (s.ring d).fmts
    s.mgoCheck m fmts grp gs gen
    let missed := match gen, s.taskOn s.cur.1 with
      | some g, some t => recKeyed t.rcd && !t.isHolder g
      | _, _ => false
    match missed, gen with
    | true, some g => pure ((s.modM s.cur.1 MEng.setMiss).missTask s.cur.1 g 1)
    | _, _ =>
      s.mAccepts m
      let t : State := { s with seq := s.seq + 1 }
      pure (t.modM s.cur.1 fun q => { q with nests := q.nests ++
        [{ id := s.seq, cyc := s.cycle.toNat, pc := s.ctx.pc, sec := s.ctx.secNow, bank := w.imm.toNat % 2, set := m, fmts := fmts
           groups := gs.filter fun g => g.1 != 0, mode := k.mmode, gen := gen, step := 0, running := false }] })

/-- MGO. -/
def execMgo (w : AForm) (s : State) : Out := s.mgo w false
/-- MGO.grp. -/
def execMgoGrp (w : AForm) (s : State) : Out := s.mgo w true

/-! ### Contributions (05 R83 to R86, R262) -/

/-- The accumulator plus a value, rounded (R82). -/
def accAdd (m : RMode) (acc : Nat × Flags) (x : XR) : Nat × Flags :=
  let (b, f) := rounded .f32 m (XR.add m.rnd (Fmt.f32.decode acc.1) x)
  (b, acc.2 ||| f)

/-- b4: one block, summed exactly (R83). Codes of both chunks with their scale bytes. -/
def contribB4 (m : RMode) (acc : Nat) (a b : List Nat) (sa sb : Nat) : Nat × Flags :=
  let f : Int := ((a.zip b).map fun p => b4Eighths (sa / 64) p.1 * b4Eighths (sb / 64) p.2).sum
  let x : XR := .num false (mkRat f 64 * pow2 ((sa % 64 + sb % 64 : Nat) - 80))
  let (t, fl) := roundTo .f32 m x
  accAdd m (acc, fl) (Fmt.f32.decode t)

/-- The exact sum of products of a group, with the exceptional cases of R84: NV for 0 × ∞ and for infinite products of opposite signs,
whether or not another operand is a NaN. -/
def groupSum (m : RMode) (l : List (XR × XR)) : XR × Flags :=
  let ps := l.map fun p => XR.mul p.1 p.2
  let sum := match ps.map (·.1) with
    | [] => .num false 0
    | x :: xs => xs.foldl (fun a x => (XR.add m.rnd a x).1) x
  (sum, joinFlags ps ||| (if (ps.map (·.1)).contains (.inf false) && (ps.map (·.1)).contains (.inf true) then fNV else 0))

/-- Lists of n elements each. -/
def chunksOf {α : Type} (n : Nat) : Nat → List α → List (List α)
  | 0, _ => []
  | k + 1, l => l.take n :: chunksOf n k (l.drop n)

/-- 8-bit floats: groups of four (R84). -/
def contribF8 (m : RMode) (acc : Nat) (l : List (XR × XR)) : Nat × Flags :=
  (chunksOf 4 8 l).foldl (fun a g =>
    let (t, f) := rounded .f32 m (groupSum m g)
    accAdd m (a.1, a.2 ||| f) (Fmt.f32.decode t)) (acc, 0)

/-- bf16: product by product (R85). -/
def contribBf (m : RMode) (acc : Nat) (l : List (XR × XR)) : Nat × Flags :=
  l.foldl (fun a p => let (x, f) := groupSum m [p]; accAdd m (a.1, a.2 ||| f) x) (acc, 0)

/-- i8 (R86). -/
def contribI8 (sat : Bool) (acc : Nat) (l : List (Int × Int)) : Nat × Flags :=
  l.foldl (fun a p => let (v, f) := Ty.i32.fromInt sat (sgn 32 a.1 + p.1 * p.2); (v, a.2 ||| f)) (acc, 0)

/-- A chunk of 32 elements: bytes and, for b4, the scale byte. -/
structure Chunk where
  bytes : List Byte
  scale : Nat
  deriving DecidableEq, Repr

/-- Elements of w bits of a chunk. -/
def Chunk.elems (c : Chunk) (w : Nat) : List Nat := (List.range 32).map fun i => elemOf w i (bytesNat c.bytes)

/-- One step's contribution to one accumulator (R262). -/
def contribution (m : RMode) (ta tb : Nat) (acc : Nat) (a b : Chunk) : Nat × Flags :=
  let flt (t : Nat) : Fmt := if t = 0xC then .e4m3 else if t = 0xD then .e5m2 else .bf16
  match mClass ta with
  | some 0 => contribB4 m acc (a.elems 4) (b.elems 4) a.scale b.scale
  | some 1 => contribF8 m acc (((a.elems 8).map (flt ta).decode).zip ((b.elems 8).map (flt tb).decode))
  | some 2 => contribI8 m.sat acc (((a.elems 8).map (sgn 8)).zip ((b.elems 8).map (sgn 8)))
  | _ => contribBf m acc (((a.elems 16).map Fmt.bf16.decode).zip ((b.elems 16).map Fmt.bf16.decode))

/-! ### Nests (R251, R261 to R265) -/

/-- A byte as a nest reads it; of a unit that is uncorrectable, a free value (log 18). -/
def State.nestByte (s : State) (pa : Nat) : Byte := if s.badAt pa 1 then Config.freeBad s.cycle.toNat pa else s.byte pa
def State.nestBytes (s : State) (pa n : Nat) : List Byte := (List.range n).map fun i => s.nestByte (pa + i)

/-- The counters of step t, innermost first. -/
def stepIdx : List Level → Nat → List Nat
  | [], _ => []
  | l :: ls, t => t % l.count :: stepIdx ls (t / l.count)

/-- Steps of a nest. -/
def Nest.total (n : Nest) : Nat := (n.set.levels.map (·.count)).prod

/-- Σ idx × stride. -/
def offAt (ls : List Level) (idx : List Nat) (f : Level → Nat) : Nat := ((ls.zip idx).map fun p => p.2 * f p.1).sum

/-- The A chunk at offset x from ABASE. -/
def State.chunkA (s : State) (c : Nat) (m : MSet) (csz x : Nat) : Chunk :=
  { bytes := s.nestBytes (s.here (sramBase c) + m.abase.toNat + x) csz
    scale := match m.ascl with
      | some o => (s.nestByte (s.here (sramBase c) + o.toNat + x / 16)).toNat
      | none => 0 }

/-- A byte of the plane of a die's window. -/
def State.planeByte (s : State) (d x : Nat) : Byte :=
  match (s.ring d).win with
  | some w => SMap.get 0 w.bytes (0x100 + w.len + x)
  | none => 0

/-- The B chunk at offset x from BBASE. -/
def State.chunkB (s : State) (c : Nat) (m : MSet) (csz x : Nat) : Chunk :=
  let d := dieOf c
  if m.scr then
    { bytes := s.nestBytes (s.here (scratchBase d) + m.bbase.toNat + x) csz
      scale := match m.bscl with
        | some o => (s.nestByte (s.here (scratchBase d) + o.toNat + x / 16)).toNat
        | none => 0 }
  else
    let (lim, slim) := { s with cur := (c, 2) }.bLimits false
    { bytes := s.nestBytes (winBase + d * 2 ^ 32 + localOf c * lim + x) csz
      scale := (s.planeByte d (localOf c * slim + x / 16)).toNat }

/-- A unit of the window that a step of cluster c reads is uncorrectable: its chunks lie in the cluster's slice and plane part (23
R325). -/
def State.windowBad (s : State) (c : Nat) (xs : List (Nat × Nat)) (b4 : Bool) : Bool :=
  let d := dieOf c
  let (lim, slim) := { s with cur := (c, 2) }.bLimits false
  let len := match (s.ring d).win with | some w => w.len | none => 0
  xs.any fun x => s.badAt (winBase + d * 2 ^ 32 + localOf c * lim + x.1) x.2 ||
    (b4 && s.badAt (winBase + d * 2 ^ 32 + len + localOf c * slim + x.1 / 16) 1)

/-- Key of an accumulator (R250). -/
def accKey (bank row col : Nat) : Nat := bank * 32768 + row * 256 + col

/-- The accumulators that step t of a nest adds to, each with its A and B chunk offsets (R261): accumulator key, A offset, B
offset, column group. -/
def Nest.cells (n : Nest) : List (Nat × Nat × Nat × Nat) :=
  let ls := n.set.levels
  let idx := stepIdx ls n.step
  let csz := chunkBytes ((mClass n.set.afmt.code).getD 0)
  let dA := offAt ls idx (·.astr.toNat)
  let dB := offAt ls idx (·.bstr.toNat)
  let dC := offAt ls idx Level.cstr
  n.groups.flatMap fun g => (List.range g.1).flatMap fun i => (presentGroups n.fmts).flatMap fun cg => (List.range 32).map fun j =>
    let col := 32 * cg + j
    (accKey n.bank (g.2.1 + dC + i) col, dA + (g.2.2.1 + i) * n.set.ars.toNat, dB + (col + 32 * g.2.2.2) * csz, cg)

/-- The levels whose end a step reaches: it and every inner one at COUNT − 1. -/
def endsAt (ls : List Level) (t : Nat) : List Level :=
  ((ls.zip (stepIdx ls t)).takeWhile fun p => p.2 + 1 == p.1.count).map (·.1)

/-- A nest leaves the queue; MSTAT.STEPS counts its steps. -/
def MEng.endNest (m : MEng) (n : Nest) : MEng :=
  { m with nests := m.nests.filter fun x => x.id != n.id, steps := BitVec.ofNat 32 n.step }

/-- The contributions of the next step of a nest (R261). -/
def State.runStep (s : State) (c : Nat) (n : Nest) : State :=
  let csz := chunkBytes ((mClass n.set.afmt.code).getD 0)
  let md := modeOfCode n.mode.toNat
  let acc0 := (s.cl c).m.acc
  let r := n.cells.foldl (fun (a : SMap (BitVec 32) × Flags) x =>
    let (v, f) := contribution md n.set.afmt.code (fmtByte n.fmts x.2.2.2 % 32) (SMap.get 0 acc0 x.1).toNat
      (s.chunkA c n.set csz x.2.1) (s.chunkB c n.set csz x.2.2.1)
    (SMap.put 0 a.1 x.1 (BitVec.ofNat 32 v), a.2 ||| f)) (acc0, 0)
  let ps : List Post := ((endsAt n.set.levels n.step).filter Level.posts).map fun l =>
    { x := 2, n := l.event, count := 1, nest := true }
  s.modCl c fun k => { k.raiseM r.2 with
    posts := k.posts ++ ps
    m := { (k.raiseM r.2).m with
      acc := r.1
      nests := k.m.nests.map fun y => if y.id = n.id then { y with step := y.step + 1 } else y } }

/-- NEST_START: the head nest starts after its issue cycle, and after the rows of earlier drains and loads of its bank (R251). -/
def execNestStart (c : Nat) (s : State) : Out :=
  match (s.cl c).m.nests with
  | n :: _ =>
    if n.running || decide (s.cycle.toNat ≤ n.cyc) ||
        (s.cl c).m.movers.any (fun v => v.bank == n.bank && decide (v.id < n.id)) then .next s
    else .next (s.modM c fun m => { m with nests := m.nests.map fun y => if y.id = n.id then { y with running := true } else y })
  | [] => .next s

/-- The head nest, running with steps left. -/
def Cluster.stepping (k : Cluster) : Option Nest :=
  match k.m.nests with
  | n :: _ => if n.running && decide (n.step < n.total) then some n else none
  | [] => none

/-- NEST_STEP: the generation check, the window words, then the contributions (R261, R263, 21 R293, 23 R325). -/
def execNestStep (c : Nat) (s : State) : Out :=
  match (s.cl c).stepping with
  | none => .next s
  | some n =>
    if s.mHold c n.cyc then .next s
    else match n.gen with
    | none => .next (s.runStep c n)
    | some g =>
      if s.genNow (dieOf c) ≠ some g then
        let s := s.modM c fun m => m.endNest n
        if recKeyed (s.cl c).rec0 then .next ((s.modM c MEng.setMiss).missTask c g 1)
        else .next (s.modM c fun m => { m with drop := m.drop ++ [{ id := n.id, bank := n.bank, pc := n.pc, tag := g.tag }] })
      else
        let csz := chunkBytes ((mClass n.set.afmt.code).getD 0)
        if s.windowBad c (n.cells.map fun x => (x.2.2.1, csz)) (decide (mClass n.set.afmt.code = some 0)) then
          let k := s.cl c
          let s := (s.modM c fun m => (m.endNest n).setAbort).missTask c g 2
          let s := s.logFault (dieOf c) { Fault.Rec.plain .eccFatal (masterOf c 2) with
            tid := k.tid.toNat, pc := n.pc.toNat, target := s.targetCode (winBase + dieOf c * 2 ^ 32), asid := (recAsid k.rec0).toNat }
          .next (s.modRing (dieOf c) fun r => { r with win := r.win.map fun w => { w with lost := true } })
        else .next (s.runStep c n)

/-- NEST_END: the head nest has run its steps (R266). -/
def execNestEnd (c : Nat) (s : State) : Out :=
  match (s.cl c).m.nests with
  | n :: _ => if n.running && decide (n.total ≤ n.step) then .next (s.modM c fun m => m.endNest n) else .next s
  | [] => .next s

/-- Every nest of a cluster that captured a generation is aborted (R264). MSTAT.STEPS is left as the last one queued has it (log 71). -/
def MEng.abortGen (m : MEng) (g : Gen) : MEng :=
  let hit := m.nests.filter fun n => decide (n.gen = some g)
  hit.foldl (fun m n => (m.endNest n).setAbort) m

/-! ### Draining, zeroing, loading (R265 to R269) -/

/-- The row range and bank of an immediate (R254). -/
def rowRange (w : AForm) : Nat × Nat × Nat := (w.imm.toNat / 65536 % 2, w.imm.toNat % 128, w.imm.toNat / 256 % 128 + 1)

/-- The wait of R251 on a bank. -/
def MEng.bankBusy (m : MEng) (bank : Nat) : Bool := m.nests.any fun n => n.bank == bank

/-- A command on a bank: it waits for the bank's nests, reports a drop, then runs. -/
def State.bankCmd (s : State) (bank : Nat) (r : Chk State) : Out :=
  if s.me.m.bankBusy bank then .next s.used
  else match s.reportDrop fun d => d.bank == bank with
    | some s' => .next s'
    | none => finish s 3 r

/-- A mode to capture: MD, or the queue mode with MD's saturate bit (05 R74). -/
def effMode (md queue : Nat) : BitVec 8 := BitVec.ofNat 8 (if md % 8 = 0 then queue ||| (md &&& 8) else md)

/-- The physical registers of a run of names. -/
def physRun (vrb : BitVec 32) (i n : Nat) : List Nat := (List.range n).map fun j => mapV vrb (i + j)

/-- MDRAIN: the destinations are empty until their rows land. -/
def execMdrain (w : AForm) (s : State) : Out :=
  let (bank, row0, n) := rowRange w
  s.bankCmd bank (do
    let cnt := w.ty.width / 8 * n
    s.dstRun (regIdx w.dst) cnt
    let rs := physRun s.ctx.vrb (regIdx w.dst) cnt
    let s' := rs.foldl (fun t r => t.empties (.v (BitVec.ofNat 9 r))) s
    let t : State := { s' with seq := s.seq + 1 }
    pure (t.modM s.cur.1 fun m => { m with movers := m.movers ++
      [{ id := s.seq, cyc := s.cycle.toNat, sec := s.ctx.secNow, bank := bank, row0 := row0, n := n, done := 0, regs := rs, ty := w.ty
         sat := satOf w.md, mode := effMode w.md.toNat s.me.mmode.toNat, zero := w.sub == 1, load := false, atOnce := false
         vals := [] }] }))

/-- Zero a row of accumulators. -/
def MEng.zeroRow (m : MEng) (bank row : Nat) : MEng := { m with acc := m.acc.filter fun e => e.1 / 256 != bank * 128 + row }

/-- MZERO: its rows are zero from the end of the cycle after its issue. -/
def execMzero (w : AForm) (s : State) : Out :=
  let (bank, row0, n) := rowRange w
  s.bankCmd bank (.ok (({ s with seq := s.seq + 1 } : State).modM s.cur.1 fun m => { m with movers := m.movers ++
      [{ id := s.seq, cyc := s.cycle.toNat, sec := s.ctx.secNow, bank := bank, row0 := row0, n := n, done := 0, regs := [], ty := .i32
         sat := false, mode := 1, zero := true, load := false, atOnce := true, vals := [] }] }))

/-- MLOAD: the sources are read at issue. -/
def execMload (w : AForm) (s : State) : Out :=
  let (bank, row0, n) := rowRange w
  s.bankCmd bank (do
    let vs ← s.srcRun (regIdx w.sa) 2 (ftBit w 2) (w.ty.width / 8 * n)
    let t : State := { s with seq := s.seq + 1 }
    pure (t.modM s.cur.1 fun m => { m with movers := m.movers ++
      [{ id := s.seq, cyc := s.cycle.toNat, sec := s.ctx.secNow, bank := bank, row0 := row0, n := n, done := 0, regs := [], ty := w.ty
         sat := false, mode := 1, zero := false, load := true, atOnce := false, vals := vs }] }))

/-- An accumulator converted for a drain (R267). -/
def drainElem (v : Mover) (x : Nat) : Nat × Flags :=
  if v.ty = .f32 ∨ v.ty = .i32 then (x, 0)
  else if v.ty.isInt then v.ty.fromInt v.sat (sgn 32 x)
  else roundTo v.ty.fmt (modeOfCode v.mode.toNat) (Fmt.f32.decode x)

/-- Row i of a drain: its registers' values and flags. -/
def drainRow (acc : SMap (BitVec 32)) (v : Mover) : List VWord × Flags :=
  let w := v.ty.width
  let es := (List.range 256).map fun c => drainElem v (SMap.get 0 acc (accKey v.bank (v.row0 + v.done) c)).toNat
  let per := 2048 / w
  ((List.range (w / 8)).map fun j => BitVec.ofNat 2048 (packElems w (((es.drop (per * j)).take per).map (·.1))),
    es.foldl (fun a e => a ||| e.2) 0)

/-- Column c of a row that MLOAD writes. -/
def loadElem (v : Mover) (c : Nat) : BitVec 32 :=
  let w := v.ty.width
  let per := 2048 / w
  let e := elemOf w (c % per) (v.vals.getD (w / 8 * v.done + c / per) 0).toNat
  BitVec.ofNat 32 (if w = 16 then e * 65536 else e)

/-- A bf16 NaN widens to the canonical NaN; any other bf16 is the top half of its f32 (05 R65, R66). -/
def widenElem (v : Mover) (x : BitVec 32) : BitVec 32 :=
  if v.ty.width = 16 then BitVec.ofNat 32 (roundTo .f32 rne (Fmt.f32.decode x.toNat)).1 else x

/-- The movers after a row of v has moved: v leaves with its last row. -/
def Mover.advance (v : Mover) (l : List Mover) : List Mover :=
  if v.done + 1 < v.n then l.map (fun y => if y.id = v.id then { y with done := y.done + 1 } else y)
  else l.filter fun y => y.id != v.id

/-- The next row of a mover moves, or all rows of an MZERO. What a drain writes is readable from cycle `due` on. -/
def Cluster.moveRow (k : Cluster) (v : Mover) (due : Nat) : Cluster :=
  let next := fun (m : MEng) => { m with movers := v.advance m.movers }
  if v.atOnce then
    { k with m := { ((List.range v.n).foldl (fun m i => m.zeroRow v.bank (v.row0 + i)) k.m) with
        movers := k.m.movers.filter fun y => y.id != v.id } }
  else if v.load then
    { k with m := next { k.m with acc := (List.range 256).foldl (fun a c =>
      SMap.put 0 a (accKey v.bank (v.row0 + v.done) c) (widenElem v (loadElem v c))) k.m.acc } }
  else
    let (vals, fl) := drainRow k.m.acc v
    let per := v.ty.width / 8
    let regs := (v.regs.drop (per * v.done)).take per
    let lands := (regs.zip vals).map fun r =>
      ({ due := due, x := 2, sec := v.sec, dst := .v (BitVec.ofNat 9 r.1), kind := .write r.2 (BitVec.allOnes 2048) none, flags := 0 } : Land)
    let m := if v.zero then k.m.zeroRow v.bank (v.row0 + v.done) else k.m
    ({ k with land := k.land ++ lands, m := next m } : Cluster).raiseM fl

/-- MDRAIN_ROW_LANDS: the next row of the oldest drain, load or zeroing whose row is due: row i in cycle issue + 1 + i. -/
def execMdrainRowLands (c : Nat) (s : State) : Out :=
  match (s.cl c).dueMover s.cycle.toNat with
  | some v => .next (s.modCl c fun k => k.moveRow v (s.cycle.toNat + 1))
  | none => .next s

/-! ### Mode and status (R270, R271) -/

/-- MRND: the new mode holds from the end of the issue cycle. -/
def execMrnd (w : AForm) (s : State) : Out := finish s 3 (.ok (s.lands 1 .null (.mmode (w.md.setWidth 8)) 0))

/-- The M status word. -/
def MEng.status (m : MEng) : Word :=
  let bit (b : Bool) (i : Nat) : Nat := if b then 2 ^ i else 0
  BitVec.ofNat 64 (m.steps.toNat * 2 ^ 32 + m.nests.length * 2 ^ 21 + bit (m.nests.any (·.running)) 20 + bit (m.movers.any fun v => !v.atOnce) 19 +
    bit (!m.drop.isEmpty) 17 + bit m.miss 16 + bit m.abort 15 + m.flags.toNat % 64)

/-- MSTAT: .w waits for the queue to empty and reports a drop; .clr clears after reading what was set before this cycle. -/
def execMstat (w : AForm) (s : State) : Out :=
  let m := s.me.m
  if w.sub.getLsbD 0 && m.busy then .next s.used
  else match (if w.sub.getLsbD 0 then s.reportDrop (fun _ => true) else none) with
    | some s' => .next s'
    | none => finish s 3 (do
      s.dstS w.dst
      let s' := if w.sub.getLsbD 1 then s.modM s.cur.1 MEng.clearFlags else s
      pure (s'.putOpnd w.dst m.status))

end Sys2Proof.Machine
end

