-- ==== Sys2Proof/Machine/Pages.lean ====
section
/-! DEFINITION. Key-value pages as the page arbiter keeps them (25): descriptors, the Page Allocator, the Prefix Index, tier moves,
and pushes that hardware makes for a task (19 R280, R291). -/

namespace Sys2Proof.Machine

/-- The number that stands for no page (19 R273), and for no node (R332). -/
def noPage : Nat := 0xFFFFFFFF

def ADie.setDesc (a : ADie) (i : Nat) (d : Desc) : ADie := { a with desc := SMap.put Desc.freePage a.desc i d }
def ADie.modDesc (a : ADie) (i : Nat) (f : Desc → Desc) : ADie := a.setDesc i (f (a.descOf i))

/-- The A-die and the index a page number names (19 R273). -/
def pageDie (p : Nat) : Nat := p / 2 ^ 30 % 4
def pageIdx (p : Nat) : Nat := p % 2 ^ 30

/-- The descriptor of a page. -/
def State.page (s : State) (p : Nat) : Desc := (s.adie (pageDie p)).descOf (pageIdx p)
/-- Change the descriptor of a page. -/
def State.modPage (s : State) (p : Nat) (f : Desc → Desc) : State := s.modADie (pageDie p) fun a => a.modDesc (pageIdx p) f

/-- SHAPE with a reason of 19 R275 and a page number or entry index. -/
def shapeA {α : Type} (reason n : Nat) : Chk α := trapInfo .shape (BitVec.ofNat 64 (reason + n % 2 ^ 32 * 2 ^ 32))
/-- SHAPE when a condition holds. -/
def shapeAIf (b : Bool) (reason n : Nat) : Chk Unit := if b then shapeA reason n else .ok ()

/-- A page number is within its A-die's table, or SHAPE 8. -/
def State.pageIn (s : State) (p : Nat) : Chk Desc :=
  if pageIdx p < (s.adie (pageDie p)).ndesc then .ok (s.page p) else shapeA 8 p

/-! ### Pools and the free list (R333, R336) -/

/-- Bytes of a page. -/
def ADie.pageSize (a : ADie) : Nat := if a.big then 131072 else 65536

/-- A-engine instructions that have been issued and have not completed: their issue numbers (19 R272, R273). -/
def Cluster.aOpen (k : Cluster) : List Nat :=
  ((k.pend.filter Pend.ofA).map (·.id)) ++ (match (k.cx 2).phase with
    | .kvapp r => [r.id]
    | _ => [])

/-- What was given back with an issue number up to this may be handed out for a request with number `own`: every A-engine instruction of the
module issued before the return has completed (19 R273, 25 R341). -/
def State.horizon (s : State) (own : Nat) : Nat :=
  (s.clusters.flatMap fun e => if isRing e.1 then [] else e.2.aOpen).foldl min own

/-- The topmost entry of a list given back that may be handed out, and the list without it. -/
def takeBack {α : Type} (hor : Nat) : List (α × Nat) → Option (α × List (α × Nat))
  | [] => none
  | e :: es => if e.2 ≤ hor then some (e.1, es) else (takeBack hor es).map fun r => (r.1, e :: r.2)

/-- Take the topmost frame that may be handed out: the one given back last, else the lowest never taken. -/
def Pool.take (p : Pool) (hor size : Nat) : Option (Pool × BitVec 52) :=
  match takeBack hor p.back with
  | some (f, fs) => some ({ p with back := fs }, f)
  | none => if p.fresh < p.cap then some ({ p with fresh := p.fresh + 1 }, p.base + BitVec.ofNat 52 (p.fresh * size)) else none
/-- Give a frame back, at an issue number. -/
def Pool.give (p : Pool) (f : BitVec 52) (now : Nat) : Pool := { p with back := (f, now) :: p.back }
/-- The pool of a tier. -/
def ADie.pool (a : ADie) (tier : Nat) : Pool := if tier = 0 then a.hbm else a.cxl
def ADie.setPool (a : ADie) (tier : Nat) (p : Pool) : ADie := if tier = 0 then { a with hbm := p } else { a with cxl := p }

/-- Take the topmost descriptor that may be handed out. -/
def ADie.takeDesc (a : ADie) (hor : Nat) : Option (ADie × Nat) :=
  match takeBack hor a.dback with
  | some (i, is) => some ({ a with dback := is }, i)
  | none => if a.dfresh < a.dcap then some ({ a with dfresh := a.dfresh + 1 }, a.dfresh) else none

/-- A page returns with its frame, unless it is in transit: then at the end of its move (R333). -/
def ADie.giveBack (a : ADie) (i now : Nat) : ADie :=
  let d := a.descOf i
  if d.tier = 2 then a
  else
    let a := a.setPool d.tier ((a.pool d.tier).give d.addr now)
    { (a.setDesc i { d with refc := 0, fill := 0, tier := 0, out := false, rev := false, ro := false, shared := false, pinned := false
                            intree := false, free := true, node := 0xFFFFFFFF }) with dback := (i, now) :: a.dback }

/-- A page whose count is 0 and which is in no tree returns (19 R273). -/
def ADie.settle (a : ADie) (i now : Nat) : ADie :=
  let d := a.descOf i
  if d.refc = 0 ∧ !d.intree ∧ !d.free then a.giveBack i now else a

/-- Lower a page's count by k. -/
def ADie.unref (a : ADie) (i k now : Nat) : ADie :=
  (a.modDesc i fun d => { d with refc := BitVec.ofNat 32 (d.refc.toNat - k) }).settle i now
def State.unrefPage (s : State) (p k : Nat) : State := s.modADie (pageDie p) fun a => a.unref (pageIdx p) k s.seq

/-! ### The Prefix Index (R338, R339) -/

/-- A node has a child. -/
def ADie.hasChild (a : ADie) (n : Nat) : Bool := a.nodes.any fun m => m.2.parent == some n
/-- An evictable leaf. -/
def ADie.evictable (a : ADie) (n : Nat) (m : PNode) : Bool :=
  let d := a.descOf (pageIdx m.page)
  !a.hasChild n && d.refc == 0 && !d.pinned

/-- The least recently touched evictable leaf that `ok` admits; the lower number breaks a tie. -/
def ADie.oldestLeaf (a : ADie) (ok : Nat → PNode → Bool) : Option Nat :=
  (a.nodes.foldl (fun (best : Option (Nat × PNode)) m =>
    if a.evictable m.1 m.2 && ok m.1 m.2 then
      match best with
      | some b => if m.2.stamp < b.2.stamp then some m else best
      | none => some m
    else best) none).map (·.1)

/-- Evict a node. -/
def ADie.evict (a : ADie) (n now : Nat) : ADie :=
  match SMap.get? a.nodes n with
  | none => a
  | some m =>
    let i := pageIdx m.page
    ({ (a.modDesc i fun d => { d with intree := false, shared := false, node := 0xFFFFFFFF }) with nodes := SMap.del a.nodes n }).settle i now

/-- A leaf's frame is in a tier. -/
def ADie.leafIn (a : ADie) (tier : Nat) (_ : Nat) (m : PNode) : Bool := (a.descOf (pageIdx m.page)).tier == tier

/-- Evict while no more than `lim` frames of a tier are free (R337); at most as often as there are nodes. -/
def ADie.makeRoom (a : ADie) (tier lim now : Nat) : Nat → ADie
  | 0 => a
  | n + 1 =>
    if lim < (a.pool tier).free then a
    else match a.oldestLeaf (a.leafIn tier) with
      | some m => (a.evict m now).makeRoom tier lim now n
      | none => a

/-- The test of every allocation (R337) and the frame it takes: what it evicted stays evicted. `now` is the issue number that returns carry,
`hor` bounds what may be handed out. -/
def ADie.allocFrame (a : ADie) (tier lim now hor : Nat) : ADie × Option (BitVec 52) :=
  if !a.en || a.initing then (a, none)
  else
    let a := a.makeRoom tier lim now a.nodes.length
    if (a.pool tier).free ≤ lim then (a, none)
    else match (a.pool tier).take hor a.pageSize with
      | some (p, f) => (a.setPool tier p, some f)
      | none => (a, none)

/-- Allocate a page (19 R287): its index. A frame is taken only with a descriptor. -/
def ADie.allocPage (a : ADie) (lim now hor : Nat) (pin : Bool) : ADie × Option Nat :=
  match a.allocFrame 0 lim now hor with
  | (b, none) => (b, none)
  | (b, some f) => match b.takeDesc hor with
    | some (b, i) => (b.setDesc i { Desc.zero with addr := f, refc := 1, pinned := pin, node := 0xFFFFFFFF }, some i)
    | none => (if a.en && !a.initing then a.makeRoom 0 lim now a.nodes.length else a, none)

/-- The child of a node (none: the root of a namespace) whose tokens are given. -/
def ADie.child (a : ADie) (ns : BitVec 32) (parent : Option Nat) (toks : BitVec 1024) : Option Nat :=
  (a.nodes.find? fun m => m.2.parent == parent && m.2.ns == ns && m.2.toks == toks).map (·.1)

/-- Touch a node. -/
def ADie.touchNode (a : ADie) (n : Nat) : ADie :=
  match SMap.get? a.nodes n with
  | none => a
  | some m => { a with nodes := SMap.set a.nodes n { m with stamp := a.touch }, touch := a.touch + 1 }

/-- The hash of a parent (R338). -/
def ADie.hashOf (a : ADie) (ns : BitVec 32) (parent : Option Nat) : BitVec 64 :=
  match parent with
  | none => ns.setWidth 64
  | some p => match SMap.get? a.nodes p with
    | some m => m.hash
    | none => 0

/-- The first unused node number from a start on, round the table. -/
def ADie.freeNode (a : ADie) (start : Nat) : Nat :=
  ((List.range (a.nodes.length + 1)).map fun i => (start + i) % Config.maxNodes).foldl
    (fun (r : Option Nat) n => match r with
      | some m => some m
      | none => if (SMap.get? a.nodes n).isNone then some n else none) none |>.getD 0

/-- Create a node for a page; the number is searched from `start` (log 17). -/
def ADie.newNode (a : ADie) (start : Nat) (ns : BitVec 32) (parent : Option Nat) (toks : BitVec 1024) (page : Nat) : ADie × Nat :=
  let n := a.freeNode start
  let h := crc64 (natBytes 8 (a.hashOf ns parent).toNat ++ natBytes 128 toks.toNat)
  let m : PNode := { ns := ns, parent := parent, toks := toks, page := page, stamp := a.touch, hash := h }
  (({ a with nodes := SMap.set a.nodes n m, touch := a.touch + 1 }).modDesc (pageIdx page) fun d =>
    { d with intree := true, shared := true, node := BitVec.ofNat 32 n }, n)

/-! ### Pushes made by hardware (19 R280, R291) -/

/-- The queue operation behind a hardware push: misaligned, unmapped or unreachable descriptors fail as the push would. -/
def State.hwPush (s : State) (m c : Nat) (asid : BitVec 8) (va : Nat) (bs : List Byte) : QRes :=
  let trap (cause : Cause) (tgt : Nat) : QRes := .trap { cause := cause, info := some (BitVec.ofNat 64 va), tgt := tgt }
  if va % 64 ≠ 0 then trap .misalign 0xFF
  else match s.placeAll c asid (flagParts true (granuleParts 0 va 64)) with
    | .error _ => trap .unmapped 0xFF
    | .ok ps =>
      let pa := (ps.head?.map fun p => p.1.pa).getD 0
      if s.deadPath c pa then trap .eccFatal (s.targetCode pa)
      else if (ps.head?.map fun p => p.2.2).getD false then trap .roWrite 0xFF
      else s.queueAt m c asid va pa (some bs) true

/-- Push eight bytes for master m: whether the entry was dropped. A drop for any cause but a full queue writes a fault record and
freezes nothing. The stores that the pushing agent must see are performed first. -/
def State.pushFor (s0 : State) (m c : Nat) (asid : BitVec 8) (tid : BitVec 32) (va v : Nat) : State × Bool :=
  let s := s0.seenBy (if 0xA10 ≤ m then 8 + (m - 0xA10) else dieOf c)
  let record (cause : Cause) (tgt : Nat) : State :=
    s.logFault (dieOf c) { Fault.Rec.plain cause m with tid := tid.toNat, addr := va, target := tgt, info := va, asid := asid.toNat }
  match s.hwPush m c asid va (natBytes 8 v) with
  | .trap t => (record t.cause t.tgt, true)
  | .done s' _ _ bad =>
    (bad.foldl (fun (s : State) p => s.logFault (dieOf c) { Fault.Rec.plain .eccFatal m with
      tid := tid.toNat, addr := p.va, target := s.targetCode p.pa, asid := asid.toNat }) s', false)
  | .not => (s, true)
  | .fails _ _ tgt => (record .eccFatal tgt, true)

/-! ### Tier moves (R340, R341, 19 R291) -/

/-- The copy engine of an A-die takes no new operation (29 R371). -/
def State.copyFrozen (s : State) (n : Nat) : Bool := (s.sup (8 + n)).agfrz

/-- Start a move of page i of A-die n, when no append to it is in progress (R341) and a frame can be had; `going`: the copy engine is not
frozen. -/
def ADie.startMove (a : ADie) (i cyc now hor : Nat) (going toIn : Bool) (reqs : List TierReq) : ADie × Bool :=
  if (a.descOf i).seq.getLsbD 0 then (a, false)
  else match a.allocFrame (if toIn then 0 else 1) (if toIn then a.rsv else 0) now hor with
    | (a, none) => (a, false)
    | (a, some f) =>
      ({ (a.modDesc i fun d => { d with tier := 2, out := !toIn, rev := false }) with
          moves := a.moves ++ [{ page := i, cyc := cyc, toIn := toIn, frame := f, reqs := reqs, rev := [], still := false
                                 going := going && a.moves.isEmpty }] }, true)

/-- A completion's word (19 R291); a push that is dropped has bit 33 in a word that nothing reads. -/
def completionWord (p : Nat) (toIn moved : Bool) : Nat :=
  p + (if toIn then 2 ^ 32 else 0) + (if moved then 0 else 2 ^ 34)

/-- Push the completions of requests, in order. -/
def State.pushDone (s : State) (n p : Nat) (moved : Bool) (rs : List TierReq) : State :=
  rs.foldl (fun s r => if r.queue = 0 then s
    else (s.pushFor (0xA10 + n) r.cl r.asid 0 r.queue.toNat (completionWord p r.toIn moved)).1) s

/-- What a tier request comes to: refused, granted with nothing to move or by a move in flight, or the start of a move. -/
inductive TierRes where
  | refused | granted | started
  deriving DecidableEq, Repr

/-- The completions of a request that moves nothing: at once, or behind the operations the copy engine has in hand (21 R309). -/
def State.doneInTurn (s : State) (n p : Nat) (r : TierReq) : State :=
  if r.queue = 0 then s
  else if (s.adie n).moves.isEmpty then s.pushDone n p true [r]
  else s.modADie n fun a => { a with moves := a.moves ++
    [{ page := pageIdx p, cyc := s.cycle.toNat, toIn := r.toIn, frame := 0, reqs := [r], rev := [], still := true, going := false }] }

/-- A request for a tier on a page (19 R291), made by an A-engine instruction with issue number `own`: the rows of the table from the
top. A page that is free, for which the table has no row, is refused (log 71). -/
def State.tierRequest (s : State) (own p : Nat) (r : TierReq) : State × TierRes :=
  let n := pageDie p
  let i := pageIdx p
  let d := s.page p
  let target := if r.toIn then 0 else 1
  if d.tier = target then (s.doneInTurn n p r, .granted)
  else if d.tier = 2 then
    let join (m : Move) : Move := if m.still || m.page != i then m else if m.toIn == r.toIn then { m with reqs := m.reqs ++ [r] }
      else { m with rev := m.rev ++ [r] }
    (s.modADie n fun a => { (a.modDesc i fun d => if d.out == r.toIn then { d with rev := true } else d) with
        moves := a.moves.map join }, .granted)
  else if (!r.toIn && d.pinned) || d.free then (s, .refused)
  else
    let (a, ok) := (s.adie n).startMove i s.cycle.toNat s.seq (s.horizon own) (!s.copyFrozen n) r.toIn (if r.queue = 0 then [] else [r])
    (s.modADie n fun _ => a, if ok then .started else .refused)

/-- Copy a page's bytes; a unit that is uncorrectable stays so in the copy. A read-only granule is not written (21 R315). -/
def State.copyPage (s : State) (src dst size : Nat) : State :=
  let kept (a : Nat) : Bool := !(decide (dst ≤ a) && decide (a < dst + size)) || s.isRo a
  let moved := ((s.mem.filter fun b => decide (src ≤ b.1) && decide (b.1 < src + size)).map fun b => (dst + (b.1 - src), b.2)).filter
    fun b => !s.isRo b.1
  let rest := s.mem.filter fun b => kept b.1
  let badIn := ((s.bad.filter fun u => decide (src ≤ u.1 * 8) && decide (u.1 * 8 < src + size)).map
    fun u => (dst / 8 + (u.1 - src / 8), u.2)).filter fun u => !s.isRo (u.1 * 8)
  let badRest := s.bad.filter fun u => kept (u.1 * 8)
  { s with
    mem := moved.foldl (fun m b => memPut m b.1 b.2) rest
    bad := badIn.foldl (fun m u => SMap.put false m u.1 u.2) badRest }

/-- A waiting reverse request, at the end of the move it waited behind: all of them move together, or nothing moves; of a page that is free
by then nothing does (log 71). -/
def State.startReverse (s : State) (n p : Nat) (rs : List TierReq) : State :=
  match rs with
  | [] => s
  | r :: _ =>
    let d := s.page p
    if d.tier = (if r.toIn then 0 else 1) then s.pushDone n p true rs
    else if (!r.toIn && d.pinned) || d.free then s.pushDone n p false rs
    else
      let (a, ok) := (s.adie n).startMove (pageIdx p) s.cycle.toNat s.seq (s.horizon s.seq) (!s.copyFrozen n) r.toIn rs
      let s := s.modADie n fun _ => a
      if ok then s else s.pushDone n p false rs

/-- The address at which the table of A-die n refuses its copy engine a move from one frame to another (01 R24, R25). -/
def State.moveRefused (s : State) (n src dst : Nat) : Option Nat :=
  if !s.mayAccess (0xA10 + n) bitR src then some src else if !s.mayAccess (0xA10 + n) bitW dst then some dst else none

/-- TIER_MOVE_END: the operation that A-die n's copy engine performs ends, and it goes on with the next. ADDR and TIER change together, the
source frame returns, the completions are pushed, and a waiting reverse request is performed. A page that has lost its last count meanwhile
returns (R333). A copy that the A-die's table refuses freezes the copy engine, and the move waits for its release (01 R26); so do, while it
is frozen, the operations behind the one that it was performing (29 R370). -/
def execTierMoveEnd (n : Nat) (s : State) : Out :=
  match (s.adie n).moves with
  | [] => .next s
  | m :: ms =>
    let a := s.adie n
    let d := a.descOf m.page
    let p := n * 2 ^ 30 + m.page
    let next (s : State) : State := s.modADie n fun a => a.goOn (s.copyFrozen n)
    if !m.going || s.dieHeld (8 + n) then .next s
    else if m.still then .next (next ((s.modADie n fun a => { a with moves := ms }).pushDone n p true m.reqs))
    else match s.moveRefused n d.addr.toNat m.frame.toNat with
      | some pa => .next ((s.modADie n ADie.halts).agentRefused (0xA10 + n) pa)
      | none =>
        let src := if m.toIn then 1 else 0
        let s := s.copyPage d.addr.toNat m.frame.toNat a.pageSize
        let a := { (a.modDesc m.page fun d => { d with addr := m.frame, tier := if m.toIn then 0 else 1, out := false, rev := false }) with
          moves := ms }
        let a := (a.setPool src ((a.pool src).give d.addr s.seq)).settle m.page s.seq
        let s := (s.modADie n fun _ => a).pushDone n p true m.reqs
        .next (next (s.startReverse n p m.rev))

/-- BACKGROUND_EVICTION: below the watermark one leaf with a tier-0 frame goes (R337). -/
def execBackgroundEviction (n : Nat) (s : State) : Out :=
  .next (s.modADie n fun a =>
    if a.hbm.free < a.wmark then
      match a.oldestLeaf (a.leafIn 0) with
      | some m => a.evict m s.seq
      | none => a
    else a)

end Sys2Proof.Machine
end

