-- ==== Sys2Proof/Machine/Attention.lean ====
section
/-! DEFINITION. The A engine (19): the query, ASTEP and merging, the Beam Map, block tables and appends, page, prefix and tier
instructions. Each has its effect in the step that issues it, but for a KVAPP that waits for its page; v and vm results are empty until they
land (log 15). -/

namespace Sys2Proof.Machine

/-! ### The set-up (R272, R276, 25 R331) -/

/-- HD, bytes of a slot, and head areas of a cache format record (25 R330, R331). -/
def cfrHd (c : Nat) : Nat := if c / 256 % 2 = 1 then 128 else 64
def cfrHb (c : Nat) : Nat :=
  match c % 4 with
  | 0 => 4 * cfrHd c
  | 1 => 2 * cfrHd c
  | _ => cfrHd c + cfrHd c / 16
def cfrNkvh (c : Nat) : Nat := c / 2 ^ 24 % 256

/-- A cache format record is valid on an A-die whose pages have `size` bytes. -/
def cfrOk (size c : Nat) : Bool :=
  (c &&& 0xFFFFFFFF00FEFEFC) == 0 && c % 4 != 3 && cfrNkvh c != 0 && decide (cfrNkvh c * 32 * cfrHb c ≤ size) &&
    size == (if c / 65536 % 2 = 1 then 131072 else 65536)

def AEng.cfr (a : AEng) : Nat := field a.rcd 0 8
def AEng.seqid (a : AEng) : Nat := field a.rcd 8 4
def AEng.qpos0 (a : AEng) : Nat := field a.rcd 0xC 4
def AEng.nq (a : AEng) : Nat := field a.rcd 0x10 1
def AEng.kvh (a : AEng) : Nat := field a.rcd 0x11 1
def AEng.causal (a : AEng) : Bool := field a.rcd 0x12 1 % 2 == 1
def AEng.autoin (a : AEng) : Bool := field a.rcd 0x12 1 / 2 % 2 == 1
def AEng.missq (a : AEng) : Nat := field a.rcd 0x18 8
def AEng.doneq (a : AEng) : Nat := field a.rcd 0x20 8
def AEng.hd (a : AEng) : Nat := cfrHd a.cfr
def AEng.hb (a : AEng) : Nat := cfrHb a.cfr
/-- Registers of a state block (R277). -/
def AEng.ns (a : AEng) : Nat := 2 + a.nq * a.hd / 64

/-- A context record as AQSET admits it (R276). -/
def aRecordOk (size : Nat) (r : BitVec 512) : Bool :=
  let a : AEng := { isSet := true, rcd := r, buf := [], c := 0 }
  field r 0x13 5 == 0 && field r 0x28 24 == 0 && decide (field r 0x12 1 < 4) && cfrOk size a.cfr && decide (1 ≤ a.nq) &&
    decide (a.nq ≤ 64) && decide (a.kvh < cfrNkvh a.cfr) && decide (a.qpos0 + a.nq - 1 < 2 ^ 32)

/-! ### Shared operations -/

/-- The A-die of the issuing cluster. -/
def State.myA (s : State) : Nat := dieOf s.cur.1 - 8

/-- A fence of another engine that joins the A engine queue, or of a hub core, holds this word back (21 R293, R303). -/
def State.aHold (s : State) (wr : Bool) : Chk Unit := waitIf (s.fenced s.cur.1 3 s.cycle.toNat wr)

/-- The query set-up, or SHAPE 14. -/
def State.query (s : State) : Chk AEng := if s.me.a.isSet then .ok s.me.a else shapeA 14 0

/-- A run of n registers from name i ends at v511 or before (reason 11). -/
def runIn (i n : Nat) : Chk Unit := shapeAIf (decide (512 < i + n)) 11 0

/-- The issuing cluster's A engine, and the copy engine of its A-die, as masters (01 R24). -/
def State.aMaster (s : State) : Nat := masterOf s.cur.1 s.cur.2
def State.copyMaster (s : State) : Nat := 0xA10 + s.myA
/-- A master as the agent of a trap: a copy engine that acts for the instruction. -/
def agentOf (m : Nat) : Option Nat := if 0xA00 ≤ m then some m else none

/-- Translate, permit and check the parts of an access that master m makes for an A-engine instruction; the order of 13 R181 (R272). A read
waits for a store that it must see (21 R294). Another module answers as 27 R351, R361 and R362 set. -/
def State.aReach (s : State) (m : Nat) (parts : List (Piece × Bool)) : Chk (List Piece) := do
  let c := s.cur.1
  let ps ← s.reach parts none
  let fs := ps.zip (parts.map (·.2))
  waitIf (fs.any fun p => !p.2 && s.readHeld c p.1.pa p.1.len)
  match fs.find? fun p => s.refusesNow m p.1.pa p.1.len p.2 with
  | some p => .error (.trap { cause := .refused, info := some (BitVec.ofNat 64 p.1.va), tgt := s.targetCode p.1.pa, agent := agentOf m })
  | none => match fs.find? fun p => p.2 && s.farSays p.1.pa p.1.len true .readOnly with
  | some p => .error (.trap { cause := .roWrite, info := some (BitVec.ofNat 64 p.1.va), tgt := s.targetCode p.1.pa })
  | none => match fs.find? fun p => s.deadPath c p.1.pa || (!p.2 && s.readFails p.1.pa p.1.len) with
    | some p => .error (.trap { cause := .eccFatal, info := some (BitVec.ofNat 64 p.1.va), tgt := s.targetCode p.1.pa })
    | none => .ok ps

/-- Read n bytes of the task's memory for master m. -/
def State.aRead (s : State) (m va n : Nat) : Chk (List Byte) := do
  let ps ← s.aReach m (flagParts false (granuleParts 0 va n))
  pure (ps.flatMap fun p => s.bytes p.pa p.len)

/-- A 4-byte entry of a row. -/
def State.aEntry (s : State) (va : Nat) : Chk Nat := do
  let bs ← s.aRead s.aMaster va 4
  pure (bytesNat bs)

/-- Write bytes at a physical address; a unit that is uncorrectable and only partly covered counts as a failed store (13 R186). -/
def State.aStore (s : State) (va pa : Nat) (bs : List Byte) (phys : Bool := false) : State :=
  let (t, whole) := s.store pa bs
  if whole then t
  else (t.failStore s.cur.1 3 s.seq .other (s.targetCode pa)).eccRecord s.cur.1 s.cur.2 (s.me.asid s.cur.2) va (s.targetCode pa) phys

/-- Write bytes over checked parts; a part that another module does not take is a failed store (27 R361). -/
def State.aWrite (s : State) (ps : List Piece) (bs : List Byte) : State :=
  ps.foldl (fun s p =>
    if s.farSays p.pa p.len true .no then s.failStore s.cur.1 3 s.seq .other (s.targetCode p.pa)
    else s.aStore p.va p.pa ((bs.drop p.off).take p.len)) s

/-- Data reached by physical address is correctable and reachable, or ECCFATAL with its address (R272). -/
def State.aEcc (s : State) (pa n : Nat) : Chk Unit :=
  if decide (0 < n) && (s.badAt pa n || s.deadPath s.cur.1 pa) then
    .error (.trap { cause := .eccFatal, info := some (BitVec.ofNat 64 pa), tgt := s.targetCode pa + 2 ^ 16 })
  else .ok ()

/-- The descriptor of a page: within its table, and correctable (R272, R273). -/
def State.aDesc (s : State) (p : Nat) : Chk Desc := do
  let d ← s.pageIn p
  s.aEcc ((s.adie (pageDie p)).privBase.toNat + 2 ^ 28 + 32 * pageIdx p) 32
  pure d

/-- Nodes of the own A-die's tree that an instruction walks are correctable (R272): 256 bytes each (log 61). -/
def State.aNodes (s : State) : List Nat → Chk Unit
  | [] => .ok ()
  | n :: ns => do
    s.aEcc ((s.adie s.myA).privBase.toNat + 256 * n) 256
    s.aNodes ns

/-- n bytes of a page, by physical address, may be read or written by master m: no write to a read-only granule (21 R315), and the access
table (01 R25). A read waits for a store that it must see (21 R294). -/
def State.aPage (s : State) (m : Nat) (wr : Bool) (pa n : Nat) : Chk Unit :=
  if n = 0 then .ok ()
  else if !wr && s.readHeld s.cur.1 pa n then waitHere
  else match if wr then (List.range ((pa % 4096 + n + 4095) / 4096)).find? fun i => s.isRo (pa + 4096 * i) else none with
    | some i => .error (.trap { cause := .roWrite, info := some (BitVec.ofNat 64 (if i = 0 then pa else (pa / 4096 + i) * 4096))
                                tgt := s.targetCode pa + 2 ^ 16 })
    | none =>
      if !s.isFar pa && !s.mayAccess m (if wr then bitW else bitR) pa then
        .error (.trap { cause := .refused, info := some (BitVec.ofNat 64 pa), tgt := s.targetCode pa + 2 ^ 16, agent := agentOf m })
      else .ok ()

/-- First byte of slot t of head h of a page (25 R330). -/
def slotPa (a : AEng) (d : Desc) (h t : Nat) : Nat := d.addr.toNat + h * 32 * a.hb + t * a.hb

/-- Mark that the task has written outside its cluster (29 R375). -/
def State.aXst (s : State) : State := s.modTaskOn s.cur.1 fun t => { t with xst := true }

/-- Results for a run of v registers from name i, which is empty until they land (R272); the flags land with the first. -/
def State.landRun (s : State) (i : Nat) (vs : List (VWord × VWord)) (flags : Flags := 0) : State :=
  (vs.zipIdx).foldl (fun s v =>
    s.resultLong (.v (BitVec.ofNat 9 (mapV s.ctx.vrb (i + v.2)))) v.1.1 v.1.2 (if v.2 = 0 then flags else 0)) s

/-- Every bit of a v register, and its first n 32-bit lanes. -/
def fullV : VWord := BitVec.allOnes 2048
def lanesV (n : Nat) : VWord := BitVec.ofNat 2048 (2 ^ (32 * n) - 1)

/-- A v register from its 32-bit lanes. -/
def packV (w : Nat) (l : List Nat) : VWord := BitVec.ofNat 2048 (packElems w l)

/-! ### AQSET (R276) -/

/-- AQSET. -/
def execAqset (w : AForm) (s : State) : Out :=
  finish s 3 do
    s.aHold false
    let ea ← s.srcS w.sb 3 (ftBit w 3)
    let c ← s.srcS w.sc 4 (ftBit w 4)
    checkEa ea
    checkAlign ea 64
    let bs ← s.aRead s.aMaster ea.toNat 64
    let r : BitVec 512 := BitVec.ofNat 512 (bytesNat bs)
    trapIf (!aRecordOk (s.adie s.myA).pageSize r) .param
    let a : AEng := { isSet := true, rcd := r, buf := [], c := c.setWidth 32 }
    let n := (a.nq * a.hd + 127) / 128
    runIn (regIdx w.sa) n
    let vs ← s.srcRun (regIdx w.sa) 2 (ftBit w 2) n
    let buf := (vs.flatMap fun v => natBytes 256 v.toNat).take (2 * a.nq * a.hd)
    pure (s.modMe fun k => { k with a := { a with buf := (buf.zipIdx.map fun b => (b.2, b.1)).filter fun b => b.2 != 0 } })

/-! ### State blocks (R277) -/

/-- A row of a state block, as f32 bits. -/
structure ARow where
  m : Nat
  l : Nat
  acc : List Nat
  deriving DecidableEq, Repr

/-- f32 bits as a value, and a value rounded to f32 bits in RNE. -/
def x32 (b : Nat) : XR := Fmt.f32.decode b
def b32 (x : XR) : Nat := (roundTo .f32 rne x).1

/-- The canonical NaN row. -/
def ARow.nan (hd : Nat) : ARow := { m := Fmt.f32.nan, l := Fmt.f32.nan, acc := List.replicate hd Fmt.f32.nan }

/-- Row r of a block. -/
def blockRow (hd : Nat) (vs : List VWord) (r : Nat) : ARow :=
  let lane (k i : Nat) : Nat := elemOf 32 i (vs.getD k 0).toNat
  { m := lane 0 r, l := lane 1 r, acc := (List.range hd).map fun j => lane (2 + (r * hd + j) / 64) ((r * hd + j) % 64) }

/-- The rows of a block. -/
def blockRows (a : AEng) (vs : List VWord) : List ARow := (List.range a.nq).map (blockRow a.hd vs)

/-- The registers of a block from its rows: lanes of the first two at or above NQ are not written. -/
def blockRegs (a : AEng) (rows : List ARow) : List (VWord × VWord) :=
  (packV 32 (rows.map (·.m)), lanesV a.nq) :: (packV 32 (rows.map (·.l)), lanesV a.nq) ::
    (chunksOf 64 (a.ns - 2) (rows.flatMap (·.acc))).map fun l => (packV 32 l, fullV)

/-- Read the state block at a v operand. -/
def State.srcBlock (s : State) (a : AEng) (o : Opnd) (pos : Nat) (ft : Bool) : Chk (List ARow) := do
  runIn (regIdx o) a.ns
  let vs ← s.srcRun (regIdx o) pos ft a.ns
  pure (blockRows a vs)

/-! ### ASTEP (R278 to R280) -/

/-- K and V of a slot (25 R330). -/
def slotKV (cfr : Nat) (bs : List Byte) : List XR × List XR :=
  let hd := cfrHd cfr
  let n := bytesNat bs
  let el (i : Nat) : XR := match cfr % 4 with
    | 0 => Fmt.bf16.decode (elemOf 16 i n)
    | 1 => Fmt.e4m3.decode (elemOf 8 i n)
    | _ => .num false (decodeB4 (elemOf 4 i n) (elemOf 8 (hd + i / 32) n))
  ((List.range hd).map el, (List.range hd).map fun j => el (hd + j))

/-- RoundF32(x + y) and RoundF32(x × y), flags dropped. -/
def addR (x y : XR) : XR := r32 (XR.add .rne x y).1
def mulR (x y : XR) : XR := r32 (XR.mul x y).1
/-- RoundF32(acc + x × y), the product exact. -/
def macR (acc x y : XR) : XR := r32 (XR.add .rne (XR.mul x y).1 acc).1
/-- RoundF32(2^RoundF32(x − mn)). -/
def expR (x mn : XR) : XR := r32 (addR x mn.negate).exp2

/-- One query row against its active slots (R279). -/
def attend (q : List XR) (c : XR) (slots : List (List XR × List XR)) (r : ARow) : ARow :=
  if slots.isEmpty then r
  else
    let xs := slots.map fun kv => mulR ((q.zip kv.1).foldl (fun d p => macR d p.1 p.2) (.num false 0)) c
    let m := x32 r.m
    if m = .nan ∨ xs.contains .nan then ARow.nan r.acc.length
    else
      let mn := xs.foldl XR.rankMax m
      let lowest := decide (mn = .inf true)
      let a := if lowest then .num false 1 else expR m mn
      let (l, acc) := (slots.zip xs).foldl (fun (t : XR × List XR) e =>
        let p := if lowest then .num false 0 else expR e.2 mn
        (addR t.1 p, (t.2.zip e.1.2).map fun y => macR y.1 p y.2)) (mulR (x32 r.l) a, r.acc.map fun y => mulR (x32 y) a)
      { m := b32 mn, l := b32 l, acc := acc.map b32 }

/-- Query row r of the buffer. -/
def AEng.qRow (a : AEng) (r : Nat) : List XR := (List.range a.hd).map fun j => Fmt.bf16.decode (sliceNat a.buf (2 * (r * a.hd + j)) 2)

/-- The state block after a tile: slot t is active for row r when CAUSAL admits it. -/
def attendTile (a : AEng) (blk : Nat) (tile : List (List XR × List XR)) (rows : List ARow) : List ARow :=
  let ppos := blk * 32 % 2 ^ 32
  rows.zipIdx.map fun r =>
    attend (a.qRow r.2) (x32 a.c.toNat) ((tile.zipIdx.filter fun t => !a.causal || decide (ppos + t.2 ≤ a.qpos0 + r.2)).map (·.1)) r.1

/-- The slots of a page that the issuing cluster's A-die sees: it may leave out a token that another A-die has appended since the two last
synchronised, with all after it (21 R312; which it does is free, log 15). -/
def State.seenFill (s : State) (p : Nat) (d : Desc) : Nat :=
  ((s.adie s.myA).unseen.filterMap fun e =>
    if e.1 = p ∧ Config.freeToken s.cycle.toNat s.myA (p * 32 + e.2) = true then some e.2 else none).foldl min d.fill

/-- The slots of head KVH that a page shows. -/
def State.tile (s : State) (a : AEng) (p : Nat) (d : Desc) : List (List XR × List XR) :=
  (List.range (s.seenFill p d)).map fun t => slotKV a.cfr (s.bytes (slotPa a d a.kvh t) a.hb)

/-- A tier-miss (R280): the miss entry, the automatic page-in, the event; and bits [5:3] of the outcome word. -/
def State.tierMiss (s : State) (a : AEng) (own p blk : Nat) (d : Desc) : State × Nat :=
  let c := s.cur.1
  let tid := s.me.tid
  let asid := s.me.asid s.cur.2
  let (s, dropped) := if a.missq = 0 then (s, false)
    else
      let (t, drop) := s.pushFor (masterOf c 2) c asid tid a.missq (a.seqid * 2 ^ 32 + p)
      (if drop then t else t.aXst, drop)
  let auto := a.autoin && d.tier == 1
  let (s, started) := if auto then
      let (t, r) := s.tierRequest own p { queue := BitVec.ofNat 64 a.doneq, asid := asid, toIn := true, cl := c }
      (t, r != .refused)
    else (s, false)
  let flg := (if started then 1 else 0) + (if dropped then 2 else 0)
  let s := s.logEvent (dieOf c) (natBytes 1 4 ++ natBytes 1 0 ++ natBytes 2 c ++ natBytes 4 tid.toNat ++ natBytes 8 s.cycle.toNat ++
    natBytes 4 p ++ natBytes 4 a.seqid ++ natBytes 4 blk ++ natBytes 1 d.tier ++ natBytes 1 flg ++ natBytes 34 0)
  (s, (if dropped then 8 else 0) + (if started then 16 else 0) + (if auto && !started then 32 else 0))

/-- The results of ASTEP: the predicate and the outcome word. -/
def State.outcome (s : State) (w : AForm) (word : Nat) : State :=
  (s.putPred w.dst (word % 8 == 0)).putOpnd w.sc (BitVec.ofNat 64 word)

/-- ASTEP. The counter is even between steps, so the first attempt decides (log 15). -/
def execAstep (w : PForm) (s : State) : Out :=
  finish s 15 do
    let h := w.head
    s.aHold true
    let fs ← s.params (.astep w) w.par
    let a ← s.query
    let rows ← s.srcBlock a h.sa 2 (ftBit h 2)
    let pv ← s.srcV h.sb 3 (ftBit h 3)
    s.dstS h.sc
    let p := elemOf 32 (fs.getD 2 0) pv.toNat
    let blk := fs.getD 3 0
    if p = noPage then pure (s.outcome h 1)
    else do
      let d ← s.aDesc p
      if d.tier ≠ 0 then do
        waitIf (a.autoin && d.tier == 1 && s.copyFrozen (pageDie p))
        let (t, bits) := { s with seq := s.seq + 1 }.tierMiss a s.seq p blk d
        -- a page that comes in is read: an error in it traps before any effect
        if bits / 16 % 2 = 1 then s.aEcc d.addr.toNat (s.adie (pageDie p)).pageSize
        pure (t.outcome h (bits + 2))
      else if d.seq.getLsbD 0 then pure (s.outcome h 3)
      else do
        let pa := slotPa a d a.kvh 0
        s.aPage s.aMaster false pa (s.seenFill p d * a.hb)
        s.aEcc pa (s.seenFill p d * a.hb)
        pure ((s.landRun (regIdx h.sa) (blockRegs a (attendTile a blk (s.tile a p d) rows))).outcome h 0)

/-! ### AMERGE and AFIN (R281, R282) -/

/-- Two rows merged. -/
def mergeRow (x y : ARow) : ARow :=
  let (ma, mb) := (x32 x.m, x32 y.m)
  if ma = .nan ∨ mb = .nan ∨ x32 x.l = .nan ∨ x32 y.l = .nan ∨ (x.acc ++ y.acc).any fun e => decide (x32 e = .nan) then ARow.nan x.acc.length
  else
    let mn := ma.rankMax mb
    let (aa, ab) := if mn = .inf true then (.num false 1, .num false 1) else (expR ma mn, expR mb mn)
    let two (p q : Nat) : Nat := b32 (addR (mulR (x32 p) aa) (mulR (x32 q) ab))
    { m := b32 mn, l := two x.l y.l, acc := (x.acc.zip y.acc).map fun p => two p.1 p.2 }

/-- AMERGE. -/
def execAmerge (w : AForm) (s : State) : Out :=
  finish s 3 do
    let a ← s.query
    let xs ← s.srcBlock a w.sa 2 (ftBit w 2)
    let ys ← s.srcBlock a w.sb 3 (ftBit w 3)
    runIn (regIdx w.dst) a.ns
    s.dstRun (regIdx w.dst) a.ns
    pure (s.landRun (regIdx w.dst) (blockRegs a ((xs.zip ys).map fun r => mergeRow r.1 r.2)))

/-- The output elements of a row. -/
def finishRow (f : Fmt) (m : RMode) (r : ARow) : List (Nat × Flags) :=
  if x32 r.m = .nan ∨ x32 r.l = .nan then r.acc.map fun _ => (f.nan, 0)
  else if r.l = 0 then r.acc.map fun _ => (0, 0)
  else r.acc.map fun e => rounded f m (XR.div (x32 e) (x32 r.l))

/-- AFIN. -/
def execAfin (w : AForm) (s : State) : Out :=
  finish s 3 do
    let a ← s.query
    let xs ← s.srcBlock a w.sa 2 (ftBit w 2)
    let per := 2048 / w.ty.width
    let n := (a.nq * a.hd + per - 1) / per
    runIn (regIdx w.dst) n
    s.dstRun (regIdx w.dst) n
    let es := xs.flatMap (finishRow w.ty.fmt (modeOf w.md.toNat 1))
    pure (s.landRun (regIdx w.dst) ((chunksOf per n (es.map (·.1))).map fun l => (packV w.ty.width l, fullV)) (joinFlags es))

/-! ### The Beam Map (R283, R284) -/

def beamV (e : BitVec 128) : Bool := e.getLsbD 127
def beamFork (e : BitVec 128) : Bool := e.getLsbD 126
def beamAsid (e : BitVec 128) : Nat := bitsNat e.toNat 123 116
def beamNb (e : BitVec 128) : Nat := bitsNat e.toNat 115 100
/-- The row an entry reads, and its spare row, as VA[55:6]. -/
def beamRow (e : BitVec 128) : Nat := bitsNat e.toNat 49 0
def beamSpare (e : BitVec 128) : Nat := bitsNat e.toNat 99 50
/-- A valid entry. -/
def beamMake (asid nb row : Nat) (fork : Bool) (spare : Nat) : BitVec 128 :=
  BitVec.ofNat 128 (2 ^ 127 + (if fork then 2 ^ 126 else 0) + asid * 2 ^ 116 + nb * 2 ^ 100 + spare * 2 ^ 50 + row)

/-- Entry e of the own A-die's Beam Map. -/
def State.beam (s : State) (e : Nat) : BitVec 128 := SMap.get 0 (s.adie s.myA).beam e
def State.setBeam (s : State) (e : Nat) (v : BitVec 128) : State := s.modADie s.myA fun a => { a with beam := SMap.put 0 a.beam e v }

/-- An entry is out of reach of the task: another ASID's, and the task is not a system task. -/
def State.beamOther (s : State) (e : BitVec 128) : Bool :=
  let asid := s.me.asid s.cur.2
  asid != 0 && beamAsid e != asid.toNat

/-- The checks of R283 on an entry index; `need` asks for a valid entry. -/
def State.beamCheck (s : State) (i : Nat) (need : Bool) : Chk (BitVec 128) := do
  shapeAIf (decide (255 < i)) 10 i
  let e := s.beam i
  shapeAIf (if beamV e then s.beamOther e else need) 13 i
  pure e

/-- BMAP.set. -/
def execBmapSet (w : AForm) (s : State) : Out :=
  finish s 3 do
    let i ← s.srcS w.sa 2 (ftBit w 2)
    let row ← s.srcS w.sb 3 (ftBit w 3)
    let nb ← s.srcS w.sc 4 (ftBit w 4)
    let _ ← s.beamCheck i.toNat false
    checkAlign row 64
    pure (s.setBeam i.toNat (beamMake (s.me.asid s.cur.2).toNat (nb.toNat % 65536) (bitsNat row.toNat 55 6) false 0))

/-- BMAP.rdlo and BMAP.rdhi. -/
def State.beamRead (s : State) (w : AForm) (hi : Bool) : Out :=
  finish s 3 do
    let i ← s.srcS w.sa 2 (ftBit w 2)
    s.dstS w.dst
    let e ← s.beamCheck i.toNat false
    pure (s.putOpnd w.dst (BitVec.ofNat 64 (if hi then e.toNat / 2 ^ 64 else e.toNat)))
/-- BMAP.rdlo. -/
def execBmapRdlo (w : AForm) (s : State) : Out := s.beamRead w false
/-- BMAP.rdhi. -/
def execBmapRdhi (w : AForm) (s : State) : Out := s.beamRead w true

/-- BMAP.clr. -/
def execBmapClr (w : AForm) (s : State) : Out :=
  finish s 3 do
    let i ← s.srcS w.sa 2 (ftBit w 2)
    let e ← s.beamCheck i.toNat false
    pure (s.setBeam i.toNat (e &&& BitVec.ofNat 128 (2 ^ 127 - 1)))

/-- Distinct elements, in order of first occurrence. -/
def distinct (l : List Nat) : List Nat := l.foldl (fun a x => if a.contains x then a else a ++ [x]) []
/-- Ascending order. -/
def ascending (l : List Nat) : List Nat := l.mergeSort (· ≤ ·)

/-- The net changes of counts of one row's pages: for entry i, new viewers less old viewers whose NB exceeds i; the flag of a view
says that it is a new one. -/
def rowDeltas (views : List (Nat × Nat × Bool)) (row : Nat) : List Int :=
  let vs := views.filter fun v => v.1 == row
  let len := (vs.map fun v => v.2.1).foldl max 0
  (List.range len).map fun i => (vs.map fun v => if i < v.2.1 then (if v.2.2 then (1 : Int) else -1) else 0).sum

/-- The pages of a row with their changes. -/
def State.rowPages (s : State) (row : Nat) : List (Nat × Int) → Chk (List (Nat × Int))
  | [] => .ok []
  | (i, d) :: ds => do
    let p ← s.aEntry (row * 64 + 4 * i)
    if p = noPage then s.rowPages row ds
    else do
      let _ ← s.aDesc p
      let rest ← s.rowPages row ds
      pure ((p, d) :: rest)

/-- The pages of several rows with their changes. -/
def State.rowsPages (s : State) (views : List (Nat × Nat × Bool)) : List Nat → Chk (List (Nat × Int))
  | [] => .ok []
  | r :: rs => do
    let ps ← s.rowPages r ((rowDeltas views r).zipIdx.map fun d => (d.2, d.1))
    let qs ← s.rowsPages views rs
    pure (ps ++ qs)

/-- Apply net changes of counts, page by page: raised, or lowered and returned (R273). -/
def State.applyDeltas (s : State) (ds : List (Nat × Int)) : State :=
  (distinct (ds.map (·.1))).foldl (fun s p =>
    let d := ((ds.filter fun e => e.1 == p).map (·.2)).sum
    if d < 0 then s.unrefPage p d.natAbs
    else s.modPage p fun q => { q with refc := q.refc + BitVec.ofNat 32 d.natAbs }) s

/-- The new entries of R284: rows in ascending order of lowest viewer, spare rows handed out in order; `short` answers for a
spare row that is missing. -/
def forkEntries (short : Nat → Nat) (views : List (Nat × Nat × Nat)) (free : List Nat) : List (BitVec 128) :=
  -- views hold the row, NB and ASID of each beam
  let rank (b : Nat) : Option Nat :=
    -- the place of beam b among the beams that take a spare row, in the order of R284
    let row (i : Nat) : Nat := (views.getD i (0, 0, 0)).1
    let order := (distinct (views.map (·.1))).flatMap fun r => ((List.range views.length).filter fun i => row i == r).tail
    (order.zipIdx.find? fun o => o.1 == b).map (·.2)
  views.zipIdx.map fun v =>
    match rank v.2 with
    | none => beamMake v.1.2.2 v.1.2.1 v.1.1 false 0
    | some k => beamMake v.1.2.2 v.1.2.1 v.1.1 true (free.getD k (short v.2))

/-- BMAP.ro. -/
def execBmapRo (w : AForm) (s : State) : Out :=
  finish s 3 do
    s.aHold false
    let e0 ← s.srcS w.sa 2 (ftBit w 2)
    let pv ← s.srcV w.sb 3 (ftBit w 3)
    let n := w.imm.toNat % 64 + 1
    let i0 := e0.toNat
    shapeAIf (decide (256 < i0 + n)) 10 i0
    let bs := List.range n
    let old := bs.map fun b => s.beam (i0 + b)
    match old.zipIdx.find? fun e => !beamV e.1 || s.beamOther e.1 with
    | some e => shapeA 13 (i0 + e.2)
    | none => do
      let par := bs.map fun b => elemOf 32 b pv.toNat
      match par.zipIdx.find? fun p => decide (n ≤ p.1) with
      | some p => shapeA 15 (i0 + p.2)
      | none => do
        let from' (b : Nat) : BitVec 128 := old.getD (par.getD b 0) 0
        let oldRows := old.map beamRow
        let newRows := bs.map fun b => beamRow (from' b)
        let views := (old.map fun e => (beamRow e, beamNb e, false)) ++ bs.map fun b => (beamRow (from' b), beamNb (from' b), true)
        waitIf (s.copyFrozen s.myA)
        let ds ← s.rowsPages views (distinct (oldRows ++ newRows))
        let free := ascending ((distinct oldRows).filter fun r => !newRows.contains r) ++
          ascending ((old.filter beamFork).map beamSpare)
        let short (b : Nat) : Nat := (Config.freeInfo (s.free + b)).toNat % 2 ^ 50
        let es := forkEntries short (bs.map fun b => (beamRow (from' b), beamNb (from' b), beamAsid (old.getD b 0))) free
        let t : State := { s with free := s.free + n }
        pure (es.zipIdx.foldl (fun s e => s.setBeam (i0 + e.2) e.1) (t.applyDeltas ds))

/-! ### KVGATH and KVAPP (R285, R286) -/

/-- KVGATH: only present lanes are read and checked. -/
def execKvgath (w : PForm) (s : State) : Out :=
  finish s 15 do
    let h := w.head
    s.aHold false
    let fs ← s.params (.kvgath w) w.par
    let a ← s.srcS h.sa 2 (ftBit h 2)
    let bv ← s.srcV h.sb 3 (ftBit h 3)
    let d ← s.dstV h.dst
    s.dstK h.sc
    let (row, len) ← (if fs.getD 2 0 = 1 then do
        let e ← s.beamCheck a.toNat true
        pure (beamRow e * 64, beamNb e)
      else do
        checkAlign a 4
        pure (a.toNat, fs.getD 3 0) : Chk (Nat × Nat))
    let idx := (List.range 64).map fun i => elemOf 32 i bv.toNat
    let parts := (idx.zipIdx.filter fun b => decide (b.1 < len)).map fun b =>
      (({ off := 4 * b.2, va := row + 4 * b.1, pa := 0, len := 4 } : Piece), false)
    let ps ← s.aReach s.aMaster parts
    let pages := (List.range 64).map fun i => match ps.find? fun p => p.off == 4 * i with
      | some p => bytesNat (s.bytes p.pa 4)
      | none => noPage
    let mask : MWord := BitVec.ofNat 256 (bitsOf (pages.map fun p => p != noPage))
    let t := s.resultLong d (packV 32 pages) fullV 0
    pure (if h.sc = .null then t else t.resultLong h.sc (mask.setWidth 2048) fullV 0)

/-- The token image (R286). -/
def State.tokenImage (s : State) (a : AEng) (w : AForm) : Chk (List Byte) :=
  let i := regIdx w.sc
  let ft := ftBit w 4
  if a.cfr % 4 = 2 then do
    let (d, k) ← s.srcB4Phys (mapV s.ctx.vrb i) 4 ft
    pure ((natBytes 256 d.toNat).take a.hd ++ (natBytes 16 k.toNat).take (a.hd / 16))
  else do
    let n := (a.hb + 255) / 256
    runIn i n
    let vs ← s.srcRun i 4 ft n
    pure ((vs.flatMap fun v => natBytes 256 v.toNat).take a.hb)

/-- A token in a slot of a page appended by a cluster of one A-die: its own A-die sees it, and so the whole page (21 R310); the others may not
see it until they have synchronised (21 R312). A page's first token begins a new page. -/
def ADie.newToken (a : ADie) (own : Bool) (pg slot : Nat) : ADie :=
  { a with unseen := if own then a.unseen.filter fun e => e.1 != pg
      else (a.unseen.filter fun e => !(e.1 == pg && decide (slot ≤ e.2))) ++ [(pg, slot)] }

/-- The A-die whose copy engine copies a page sees the copied slots (21 R311); what another has not seen of the page it has not seen of the
copy (R286, 21 R312). -/
def ADie.copiedTokens (a : ADie) (own : Bool) (p n : Nat) : ADie :=
  { a with unseen := (a.unseen.filter fun e => e.1 != n) ++ (if own then [] else (a.unseen.filter fun e => e.1 == p).map fun e => (n, e.2)) }

/-- Every A-die of the module. -/
def State.modADies (s : State) (f : Nat → ADie → ADie) : State := (List.range 4).foldl (fun s n => s.modADie n (f n)) s

/-- Write the token and advance the page (R286). The token belongs to the A engine queue until it is performed at MOD scope (R272, 21
R312). -/
def State.append (s : State) (a : AEng) (pg slot : Nat) (img : List Byte) : State :=
  let pa := slotPa a (s.page pg) a.kvh slot
  let t := (((s.aStore pa pa img true).modPage pg fun d => { d with seq := d.seq + 2, fill := slot + 1 }).modADies fun n q =>
    q.newToken (n == s.myA) pg slot).aXst
  { t.modMe fun k => { k with mq := k.mq ++ [s.newAccess 0 (.token pg slot) pa [{ off := 0, va := pa, pa := pa, len := a.hb }]] } with
    seq := t.seq + 1 }

/-- Copy the written slots of every head of page p to page n (R286). -/
def State.copySlots (s : State) (a : AEng) (p n : Nat) : State :=
  let len := (s.page p).fill * a.hb
  ((List.range (cfrNkvh a.cfr)).foldl (fun s h =>
    let dst := slotPa a (s.page n) h 0
    s.aStore dst dst (s.bytes (slotPa a (s.page p) h 0) len) true) s).modADies fun m q => q.copiedTokens (m == s.myA) p n

/-- The written slots of every head of a page may be read, or those of its copy written, by the copy engine. -/
def State.slotsOk (s : State) (a : AEng) (d : Desc) (fill : Nat) (wr : Bool) : Nat → Chk Unit
  | 0 => .ok ()
  | h + 1 => do
    s.slotsOk a d fill wr h
    s.aPage s.copyMaster wr (slotPa a d h 0) (fill * a.hb)

/-- The written slots of every head of a page are correctable. -/
def State.slotsEcc (s : State) (a : AEng) (d : Desc) : Nat → Chk Unit
  | 0 => .ok ()
  | h + 1 => do
    s.slotsEcc a d h
    s.aEcc (slotPa a d h 0) (d.fill * a.hb)

/-- Allocate a page on the own A-die for an A-engine instruction with issue number `own` (R287). -/
def State.aAlloc (s : State) (own : Nat) (pin : Bool) : State × Option Nat :=
  let a := s.adie s.myA
  let (b, r) := a.allocPage a.rsv s.seq (s.horizon own) pin
  (s.modADie s.myA fun _ => b, r.map fun i => s.myA * 2 ^ 30 + i)

/-- Write a page number into a row. -/
def State.setRow (s : State) (ps : List Piece) (pg : Nat) : State := (s.aWrite ps (natBytes 4 pg)).aXst

/-- The fork of an append: the NB entries read stand in SPARE, which becomes the row of the entry as it was read (R283, R286). -/
def State.forked (s : State) (r : Append) : State :=
  match r.entry, r.fork with
  | some i, some (e, ps, bs) => (s.aWrite ps bs).aXst.setBeam i (beamMake (beamAsid e) (beamNb e) (beamSpare e) false 0)
  | _, _ => s

/-- The copy engine of the own A-die can take a copy now: it is not frozen, and what it has started has ended (21 R309). -/
def State.copyReady (s : State) : Chk Unit := waitIf (s.copyFrozen s.myA || !(s.adie s.myA).moves.isEmpty)

/-- The page is copied before it is written (R286). -/
def Desc.sharedPage (d : Desc) : Bool := decide (1 < d.refc.toNat) || d.shared

/-- The page's descriptor allows an append at a slot (R286). -/
def State.mayAppend (s : State) (p slot : Nat) : Chk Desc := do
  let d ← s.aDesc p
  if d.ro then .error (.trap { cause := .roWrite })
  shapeAIf (slot != d.fill) 9 p
  pure d

/-- A row entry at a virtual address, translated and checked for a write by master m. -/
def State.rowOut (s : State) (m va : Nat) : Chk (List Piece) := s.aReach m (flagParts true (granuleParts 0 va 4))

/-- Everything a KVAPP reads, once, and every check made before it has any effect (R275, R283, R286); and the state with its issue number
taken. -/
def State.readAppend (s : State) (w : AForm) (beam : Bool) : Chk (Append × State) := do
  s.aHold true
  let x ← s.srcS w.sa 2 (ftBit w 2)
  let b ← s.srcS w.sb 3 (ftBit w 3)
  let a ← s.query
  let img ← s.tokenImage a w
  let pos := b.toNat % 2 ^ 32
  let blk := pos / 32
  let slot := pos % 32
  shapeAIf (decide (w.imm.toNat % 65536 ≤ blk)) 10 0
  let entry ← (if beam then do
      let e ← s.beamCheck x.toNat true
      pure (some (x.toNat, e))
    else do
      checkAlign x 4
      pure none : Chk (Option (Nat × BitVec 128)))
  let fork ← (match entry with
    | some (_, e) => if beamFork e then do
        let bs ← s.aRead s.copyMaster (beamRow e * 64) (4 * beamNb e)
        let ps ← s.aReach s.copyMaster (flagParts true (granuleParts 0 (beamSpare e * 64) (4 * beamNb e)))
        s.copyReady
        pure (some (e, ps, bs))
      else pure none
    | none => pure none : Chk (Option (BitVec 128 × List Piece × List Byte)))
  let row := (match entry with
    | some (_, e) => (if beamFork e then beamSpare e else beamRow e) * 64
    | none => x.toNat) + 4 * blk
  let pg ← (match fork with
    | some (_, _, bs) => if 4 * blk < bs.length then pure (bytesNat ((bs.drop (4 * blk)).take 4)) else s.aEntry row
    | none => s.aEntry row : Chk Nat)
  let r : Append :=
    { id := s.seq, cyc := s.cycle.toNat, word := w, isBeam := beam, entry := entry.map (·.1), page := pg, copy := none, row := row
      rowParts := none, blk := blk, slot := slot, img := img, fork := fork }
  let t : State := { s with seq := s.seq + 1 }
  if pg = noPage then do
    shapeAIf (slot != 0 || entry.any fun e => blk != beamNb e.2) 9 0
    let ps ← s.rowOut s.aMaster row
    pure ({ r with rowParts := some ps }, t)
  else do
    let d ← s.mayAppend pg slot
    if d.sharedPage then do
      let ps ← s.rowOut s.copyMaster row
      pure ({ r with rowParts := some ps }, t)
    else pure (r, t)

/-- What an append comes to: it completes with a predicate, or waits for its page with what it then holds. -/
inductive App where
  | done (s : State) (ok : Bool)
  | later (s : State) (r : Append)

/-- Page n may take a copy-on-write of a page with descriptor d and then the token (R286). -/
def State.copyOk (s : State) (a : AEng) (d : Desc) (n slot : Nat) : Chk Unit := do
  s.slotsOk a (s.page n) d.fill true (cfrNkvh a.cfr)
  s.aPage s.aMaster true (slotPa a (s.page n) a.kvh slot) a.hb

/-- The page of a copy-on-write: the one that was taken when the old page was asked for, or a new one now. -/
def State.copyPage? (s : State) (r : Append) : State × Option Nat :=
  match r.copy with
  | some n => (s, some n)
  | none => s.aAlloc r.id false

/-- A page that was taken for a copy which is not made goes back. -/
def State.dropCopy (s : State) (r : Append) : State :=
  match r.copy with
  | some n => s.unrefPage n 1
  | none => s

/-- What an append has done before it is undone (R275, R286): the page of its copy goes back, and so does a page that it has brought in. -/
def State.undone (s : State) (r : Append) : State :=
  let t := s.dropCopy r
  if r.moved then (t.tierRequest r.id r.page { queue := 0, asid := 0, toIn := false, cl := s.cur.1 }).1 else t

/-- A KVAPP asks for a tier-1 page, or has its answer: it makes every check first on the frame that the page will have, and takes the page
of a copy-on-write, so that no allocation can be refused once the page moves (R275, R286). -/
def State.appendAsks (s : State) (a : AEng) (r : Append) (d : Desc) : Chk App := do
  waitIf (s.copyFrozen (pageDie r.page))
  let (t, got) := if d.sharedPage then s.copyPage? r else (s, r.copy)
  if d.sharedPage ∧ got = none then pure (.done (t.forked r) false)
  else
    match t.tierRequest r.id r.page { queue := 0, asid := 0, toIn := true, cl := s.cur.1 } with
    | (u, .refused) => pure (.done ((u.dropCopy { r with copy := got }).forked r) false)
    | (u, _) => do
      s.aEcc d.addr.toNat (s.adie (pageDie r.page)).pageSize
      let frame := (((u.adie (pageDie r.page)).moves.find? fun m => m.page == pageIdx r.page && !m.still).map (·.frame)).getD 0
      match if d.sharedPage then got else none with
      | some n => do
        u.slotsOk a { d with addr := frame } d.fill false (cfrNkvh a.cfr)
        u.copyOk a d n r.slot
      | none => u.aPage u.aMaster true (slotPa a { d with addr := frame } a.kvh r.slot) a.hb
      pure (.later u { r with copy := got, moved := true })

/-- An append from what has been read, on the page as the arbiter now finds it. A page below the top tier is asked for first; nothing else
changes before every check is made. An allocation that is refused leaves the fork, what it evicted (25 R337), and nothing more (R286). -/
def State.appendNow (s : State) (a : AEng) (r : Append) : Chk App := do
  if r.fork.isSome then s.copyReady
  let f := s.forked r
  if r.page = noPage then do
    match f.aAlloc r.id false with
    | (t, none) => pure (.done t false)
    | (t, some n) => do
      t.aPage t.aMaster true (slotPa a (t.page n) a.kvh r.slot) a.hb
      let t := t.setRow (r.rowParts.getD []) n
      let t := match r.entry with
        | some i =>
          let e := t.beam i
          t.setBeam i (beamMake (beamAsid e) (r.blk + 1) (beamRow e) (beamFork e) (beamSpare e))
        | none => t
      pure (.done (t.append a n r.slot r.img) true)
  else do
    let d ← s.mayAppend r.page r.slot
    if d.tier = 2 then pure (.later s r)
    else if d.tier = 1 then s.appendAsks a r d
    else if d.sharedPage then do
      s.copyReady
      s.slotsOk a d d.fill false (cfrNkvh a.cfr)
      s.slotsEcc a d (cfrNkvh a.cfr)
      let ps ← (match r.rowParts with
        | some ps => pure ps
        | none => s.rowOut s.copyMaster r.row : Chk (List Piece))
      match f.copyPage? r with
      | (t, none) => pure (.done (t.undone r) false)
      | (t, some n) => do
        t.copyOk a d n r.slot
        let t := (t.copySlots a r.page n).modPage n fun q => { q with fill := d.fill }
        pure (.done (((t.unrefPage r.page 1).setRow ps n).append a n r.slot r.img) true)
    else do
      s.aPage s.aMaster true (slotPa a d a.kvh r.slot) a.hb
      pure (.done ((f.dropCopy r).append a r.page r.slot r.img) true)

/-- What a KVAPP works with: what it has read before, or reads now under the next issue number. -/
def State.appendOf (s : State) (w : AForm) (beam : Bool) : Chk (Append × State) :=
  match s.ctx.phase with
  | .kvapp r => .ok (r, s)
  | _ => s.readAppend w beam

/-- The issuing context stands in its section's body, or in a phase of its word. -/
def State.inPhase (s : State) (p : Phase) : State := s.modCtx fun e => { e with phase := p }

/-- KVAPP and KVAPP.beam. A trap in the step that reads leaves nothing of it; one that the page shows after a wait undoes what the wait
took (log 61). -/
def State.kvapp (s : State) (w : AForm) (beam : Bool) : Out :=
  match s.appendOf w beam with
  | .error e => .next (s.stopped e)
  | .ok (r, t) => match t.appendNow t.me.a r with
    | .error (.trap e) => .next (((s.undone r).inPhase .body).trapHere e)
    | .error e => .next ((t.inPhase (.kvapp r)).stopped e)
    | .ok (.later u q) => .next (u.inPhase (.kvapp q)).used
    | .ok (.done u ok) => .next (((u.putPred w.dst ok).inPhase .body).complete 3)

/-- KVAPP. -/
def execKvapp (w : AForm) (s : State) : Out := s.kvapp w false
/-- KVAPP.beam. -/
def execKvappBeam (w : AForm) (s : State) : Out := s.kvapp w true

/-! ### Pages (R287, R292) -/

/-- PGALLOC. -/
def execPgalloc (w : AForm) (s : State) : Out :=
  finish s 3 do
    s.aHold true
    s.dstS w.sc
    let (t, r) := { s with seq := s.seq + 1 }.aAlloc s.seq (w.imm.getLsbD 0)
    pure ((t.putPred w.dst r.isSome).putOpnd w.sc (BitVec.ofNat 64 (r.getD noPage)))

/-- PGFREE. -/
def execPgfree (w : AForm) (s : State) : Out :=
  finish s 3 do
    s.aHold true
    let x ← s.srcS w.sa 2 (ftBit w 2)
    let p := x.toNat % 2 ^ 32
    let d ← s.aDesc p
    trapIf (d.refc == 0) .illegal 2
    if d.ro then .error (.trap { cause := .roWrite })
    pure (s.unrefPage p 1)

/-- SEQRD. -/
def execSeqrd (w : AForm) (s : State) : Out :=
  finish s 3 do
    s.aHold false
    let x ← s.srcS w.sa 2 (ftBit w 2)
    s.dstS w.dst
    let d ← s.aDesc (x.toNat % 2 ^ 32)
    let bit (b : Bool) (i : Nat) : Nat := if b then 2 ^ i else 0
    pure (s.putOpnd w.dst (BitVec.ofNat 64 (min 65535 d.refc.toNat * 2 ^ 48 + bit d.intree 43 + bit d.pinned 42 + bit d.shared 41 +
      bit d.ro 40 + d.tier * 2 ^ 38 + d.fill * 2 ^ 32 + d.seq.toNat)))

/-! ### The Prefix Index (R288 to R290) -/

/-- The tokens of a run of registers. -/
def tokensOf (vs : List VWord) : List Nat := vs.flatMap fun v => (List.range 64).map fun i => elemOf 32 i v.toNat
/-- Chunk k of a run: 32 tokens. -/
def chunkAt (toks : List Nat) (k : Nat) : BitVec 1024 := BitVec.ofNat 1024 (packElems 32 ((toks.drop (32 * k)).take 32))

/-- Walk the tree along chunks (R288): each match pins its page and touches its node. -/
def ADie.walk (ns : BitVec 32) : List (BitVec 1024) → Option Nat → ADie → ADie × List Nat
  | [], _, a => (a, [])
  | t :: ts, parent, a =>
    match a.child ns parent t with
    | none => (a, [])
    | some n =>
      let pg := match SMap.get? a.nodes n with
        | some m => m.page
        | none => noPage
      let a := (a.modDesc (pageIdx pg) fun d => { d with refc := d.refc + 1 }).touchNode n
      let (a, ps) := ADie.walk ns ts (some n) a
      (a, pg :: ps)

/-- The nodes that chunks walk, from a parent. -/
def ADie.path (a : ADie) (ns : BitVec 32) : List (BitVec 1024) → Option Nat → List Nat
  | [], _ => []
  | t :: ts, parent => match a.child ns parent t with
    | none => []
    | some n => n :: a.path ns ts (some n)

/-- The nodes of a walk are correctable, and so are the descriptors of their pages (R272). -/
def State.aWalk (s : State) : List Nat → Chk Unit
  | [] => .ok ()
  | n :: ns => do
    s.aNodes [n]
    match SMap.get? (s.adie s.myA).nodes n with
    | some m => do
      let _ ← s.aDesc m.page
      s.aWalk ns
    | none => s.aWalk ns

/-- PXLOOK. -/
def execPxlook (w : PForm) (s : State) : Out :=
  finish s 15 do
    let h := w.head
    s.aHold true
    let fs ← s.params (.pxlook w) w.par
    let n := fs.getD 2 0
    let cnt := (n + 63) / 64
    runIn (regIdx h.sa) cnt
    let vs ← s.srcRun (regIdx h.sa) 2 (ftBit h 2) cnt
    let d ← s.dstV h.dst
    s.dstS h.sc
    let ns : BitVec 32 := BitVec.ofNat 32 (fs.getD 4 0)
    let chunks := (List.range (min (n / 32) (fs.getD 3 0))).map (chunkAt (tokensOf vs))
    s.aWalk ((s.adie s.myA).path ns chunks none)
    let (a, ps) := ADie.walk ns chunks none (s.adie s.myA)
    let t := (s.modADie s.myA fun _ => a).resultLong d (packV 32 (ps ++ List.replicate (64 - ps.length) noPage)) fullV 0
    pure (t.putOpnd h.sc (BitVec.ofNat 64 ps.length))

/-- Room for a node: the tree evicts when it is full, passing over the nodes of the path (R289). -/
def ADie.nodeRoom (a : ADie) (path : List Nat) (now : Nat) : Option ADie :=
  if a.nodes.length < Config.maxNodes then some a
  else match a.oldestLeaf fun n _ => !path.contains n with
    | some n => some (a.evict n now)
    | none => none

/-- Create nodes for chunks and their pages below a path; insertion stops at the first that finds no room. Answers how many. -/
def ADie.insert (ns : BitVec 32) (now free : Nat) : List (BitVec 1024 × Nat) → List Nat → ADie → ADie × Nat
  | [], _, a => (a, 0)
  | (t, pg) :: ts, path, a =>
    match a.nodeRoom path now with
    | none => (a, 0)
    | some a =>
      let (a, n) := a.newNode (Config.freeNode free % Config.maxNodes) ns path.getLast? t pg
      let (a, k) := ADie.insert ns now (free + 1) ts (path ++ [n]) a
      (a, k + 1)

/-- Every chunk that needs a node has a full page of the own A-die, or SHAPE 12. -/
def State.fullPages (s : State) : List Nat → Chk Unit
  | [] => .ok ()
  | p :: ps => do
    shapeAIf (p == noPage || pageDie p != s.myA) 12 p
    let d ← s.aDesc p
    shapeAIf (d.fill != 32) 12 p
    s.fullPages ps

/-- PXINS. -/
def execPxins (w : AForm) (s : State) : Out :=
  finish s 3 do
    s.aHold true
    let c ← s.srcS w.sc 4 (ftBit w 4)
    let n := c.toNat % 2 ^ 32
    let ns : BitVec 32 := BitVec.ofNat 32 (c.toNat / 2 ^ 32)
    trapIfInfo (decide (n < 1) || decide (2048 < n)) .illegal (BitVec.ofNat 64 n) 4
    let cnt := (n + 63) / 64
    runIn (regIdx w.sa) cnt
    let vs ← s.srcRun (regIdx w.sa) 2 (ftBit w 2) cnt
    let pv ← s.srcV w.sb 3 (ftBit w 3)
    s.dstS w.dst
    let chunks := (List.range (n / 32)).map (chunkAt (tokensOf vs))
    let a := s.adie s.myA
    let path := a.path ns chunks none
    s.aNodes path
    let new := (chunks.zipIdx.drop path.length).map fun t => (t.1, elemOf 32 t.2 pv.toNat)
    s.fullPages (new.map (·.2))
    let (b, k) := ADie.insert ns s.seq s.free new path (path.foldl ADie.touchNode a)
    let t : State := { s with free := s.free + new.length }
    pure ((t.modADie s.myA fun _ => b).putOpnd w.dst (BitVec.ofNat 64 k))

/-- The cumulative check of R290; `seen` holds the pages of earlier lanes. -/
def State.mayUnref (s : State) : List Nat → List Nat → Chk Unit
  | _, [] => .ok ()
  | seen, p :: ps => do
    let d ← s.aDesc p
    trapIfInfo (decide (d.refc.toNat ≤ seen.count p)) .illegal (BitVec.ofNat 64 (p * 2 ^ 32)) 2
    s.mayUnref (p :: seen) ps

/-- PXREL. -/
def execPxrel (w : AForm) (s : State) : Out :=
  finish s 3 do
    s.aHold true
    let v ← s.srcV w.sa 2 (ftBit w 2)
    let n ← s.srcS w.sb 3 (ftBit w 3)
    trapIf (decide (64 < n.toNat)) .illegal 3
    let ps := ((List.range n.toNat).map fun i => elemOf 32 i v.toNat).filter fun p => p != noPage
    s.mayUnref [] ps
    pure (ps.foldl (fun s p => s.unrefPage p 1) s)

/-! ### Tiers (R291) -/

/-- TIERIN and TIEROUT. -/
def State.tierMove (s : State) (w : AForm) (toIn : Bool) : Out :=
  finish s 3 do
    s.aHold true
    let x ← s.srcS w.sa 2 (ftBit w 2)
    let q ← s.srcS w.sb 3 (ftBit w 3)
    let p := x.toNat % 2 ^ 32
    let d ← s.aDesc p
    let (t, res) := { s with seq := s.seq + 1 }.tierRequest s.seq p { queue := q, asid := s.me.asid s.cur.2, toIn := toIn, cl := s.cur.1 }
    waitIf (res != .refused && s.copyFrozen (pageDie p))
    if res = .started then s.aEcc d.addr.toNat (s.adie (pageDie p)).pageSize
    pure (t.putPred w.dst (res != .refused))

/-- TIERIN. -/
def execTierin (w : AForm) (s : State) : Out := s.tierMove w true
/-- TIEROUT. -/
def execTierout (w : AForm) (s : State) : Out := s.tierMove w false

end Sys2Proof.Machine
end

