-- ==== Sys2Proof/Machine/Distributor.lean ====
section
/-! DEFINITION. The Distributor and the Escapement's release (03 R39 to R57): publication, signals, release, issue, retirement,
the timing source of an A-die. -/

namespace Sys2Proof.Machine

/-! ### Publication (R40, R44, R45, R47) -/

/-- What a publication comes to. -/
inductive PubRes where
  | accepted | busy | refused
  deriving DecidableEq, Repr

/-- Two ranges of granules share one. -/
def rangesMeet (a b : Nat × Nat) : Bool := a.2 != 0 && b.2 != 0 && decide (a.1 < b.1 + b.2) && decide (b.1 < a.1 + a.2)

/-- Some range of kind w of `a` meets one of kind w' of `b`. -/
def kindsMeet (a b : BitVec 1024) (w w' : Bool) : Bool :=
  (List.range 4).any fun i => (List.range 4).any fun j => rangesMeet (recRange a w i) (recRange b w' j)

/-- A new task depends on an earlier one (R45). -/
def dependsOn (new old : BitVec 1024) : Bool :=
  recAsid new == recAsid old && (kindsMeet new old false true || kindsMeet new old true false || kindsMeet new old true true)

/-- The reserved fields of a record are zero (R39). -/
def recReserved (r : BitVec 1024) : Bool :=
  field r 6 1 % 8 == 0 && field r 0xF 1 == 0 && field r 0x13 1 == 0 && field r 0x16 1 / 16 == 0 && field r 0x7A 6 == 0

/-- The ranges of a record stay below virtual address 2^56. -/
def recRangesOk (r : BitVec 1024) : Bool :=
  [false, true].all fun w => (List.range 4).all fun i =>
    let (b, n) := recRange r w i
    n == 0 || decide (b + n ≤ 2 ^ 44)

/-- A record passes the checks of R40 at the Distributor of die t. -/
def State.recOk (s : State) (t : Nat) (r : BitVec 1024) : Bool :=
  recReserved r && decide (recRelt r < s.flenOf t) && !(recKeyed r && decide (8 ≤ t)) &&
    (recClaff r == 0xFFFF || decide (recClaff r < clustersOn t)) && recRangesOk r &&
    !((s.dist t).tasks.any fun x => x.tid == recTid r)

/-- A task as it enters the Distributor; `early` is its early-signal count. -/
def newTask (q : Dist) (r : BitVec 1024) (early : Nat) : Task :=
  { tid := recTid r, rcd := r, seq := q.nseq, waits := (q.tasks.filter fun x => dependsOn r x.rcd).map (·.seq)
    cnt := recDepn r - early, released := false, ready := none, place := .waiting, issued := 0, xst := false, wrel := false
    holds := none, missed := [], deadline := recDeadline r, ranOn := none
    issueNo := 0, sram := [] }

/-- The first two words of a task's parameter area: the index range it covers (R49). -/
def State.paramRange (s : State) (t : Nat) (r : BitVec 1024) : BitVec 64 × BitVec 64 :=
  let w (o : Nat) : BitVec 64 := match s.translate (clusterNo t 0) (recAsid r) ((recParam r).toNat + o) with
    | some (pa, _) => BitVec.ofNat 64 (bytesNat ((s.seenBy t).bytes pa 8))
    | none => 0
  (w 0, w 8)

/-- Publish a record at the Distributor of die t, by master `src` while task `by` runs. The master keeps the range of a
reissue-safe task (R49). -/
def State.publish (s : State) (t : Nat) (r : BitVec 1024) (src byTid : Nat) : State × PubRes :=
  let q := s.dist t
  if Config.maxTasks ≤ q.tasks.length then (s, .busy)
  else if !s.recOk t r then (s.logFault t { Fault.Rec.plain .taskRef src with tid := byTid }, .refused)
  else
    let early := (SMap.get { count := 0, tick := 0 } q.early (recTid r).toNat).count
    let s' := s.modDist t fun q =>
      { q with tasks := q.tasks ++ [newTask q r early], nseq := q.nseq + 1, early := SMap.del q.early (recTid r).toNat }
    let (first, count) := s.paramRange t r
    (if recSafe r && decide (q.master < 8) then s'.modDist q.master fun m => { m with kept := m.kept ++ [{ die := t, tid := recTid r, rcd := r, first := first, count := count, src := src }] }
     else s', .accepted)

/-- Equal parts of a range for n takers, the remainder to the first ones: first index and count of taker i. -/
def partOfRange (first count n i : Nat) : Nat × Nat :=
  let q := count / n
  let r := count % n
  (first + i * q + min i r, q + if i < r then 1 else 0)

/-- The Distributor of die t can take a task of this number now. -/
def State.hasRoom (s : State) (t : Nat) (tid : BitVec 32) : Bool :=
  decide ((s.dist t).tasks.length < Config.maxTasks) && !((s.dist t).tasks.any fun x => x.tid == tid)

/-- Publish one part of a task on die t for master `src`: the range is written at its parameter area (R49, R50). A Distributor that is full
takes it later, and so does one that still holds the number of a reissued task; a launch of such a number is refused (R40). The Distributor's
own accesses carry no master number (log 72). -/
def State.launchPart (s : State) (t : Nat) (r : BitVec 1024) (first count src : Nat) : State :=
  let put (s : State) (o v : Nat) : State := match s.translate (clusterNo t 0) (recAsid r) ((recParam r).toNat + o) with
    | some (pa, _) => s.storeNat pa 8 v
    | none => s
  if s.hasRoom t (recTid r) then ((put (put s 0 first) 8 count).publish t r src 0).1
  else if (s.dist t).tasks.length < Config.maxTasks ∧ src ≠ 0xFFF then (s.publish t r src 0).1
  else s.modDist t fun q => { q with todo := q.todo ++
    [{ die := t, tid := recTid r, rcd := r, first := BitVec.ofNat 64 first, count := BitVec.ofNat 64 count, src := src }] }

/-- Split a range over dies, in order, and `far` dies of other modules behind them, whose parts leave as messages (R49, R50). -/
def State.launchOver (s : State) (dies : List Nat) (far : Nat) (r : BitVec 1024) (first count src : Nat) : State :=
  let n := dies.length + far
  dies.zipIdx.foldl (fun s d => s.launchPart d.1 r (partOfRange first count n d.2).1 (partOfRange first count n d.2).2 src) s

/-- The live dies of other modules that share a partition's ring, all numbered behind those of the master's module: how many is not known
here (R49, log 49). -/
def State.farLive (s : State) (p : Nat) : Nat :=
  if (s.liveDies p).any s.ringSpans then (Config.freeInfo s.free).toNat % 505 else 0

/-- Parts that wait on die t are tried again, in order. -/
def State.launchTodo (s : State) (t : Nat) : State :=
  (s.dist t).todo.foldl (fun s e => s.launchPart t e.rcd e.first.toNat e.count.toNat e.src) (s.modDist t fun q => { q with todo := [] })

/-! ### Signals (R47, R48) -/

/-- TSIG at the Distributor of die t: whether the signal is applied, ignored or recorded. -/
def State.signal (s : State) (t : Nat) (tid : BitVec 32) : State × Bool :=
  let q := s.dist t
  if q.tasks.any fun x => x.tid == tid then (s.modTask t tid fun x => { x with cnt := x.cnt - 1 }, true)
  else match SMap.get? q.early tid.toNat with
    | some e =>
      if e.count ≥ 255 then (s, false)
      else (s.modDist t fun q => { q with early := SMap.set q.early tid.toNat { e with count := e.count + 1 } }, true)
    | none =>
      if Config.maxEarly ≤ q.early.length then (s, false)
      else (s.modDist t fun q => { q with early := SMap.set q.early tid.toNat { count := 1, tick := s.ticksOf t } }, true)

/-- EARLY_SIGNAL_EXPIRY. -/
def execEarlySignalExpiry (t : Nat) (tid : BitVec 32) (s : State) : Out :=
  match SMap.get? (s.dist t).early tid.toNat with
  | none => .next s
  | some e =>
    if e.tick + Config.earlyTicks ≤ s.ticksOf t then
      .next ((s.modDist t fun q => { q with early := SMap.del q.early tid.toNat }).logFault t
        { Fault.Rec.plain .earlyExp 0xFFF with tid := tid.toNat, info := e.count })
    else .next s

/-- A hub core acts: it runs and is not frozen (29 R370, 31 R384). -/
def State.coreActs (s : State) (core : Nat) : Bool :=
  decide (core < 16) && (s.host || (s.hub.coresRun.getLsbD core && !(s.sup 12).frz.getLsbD core))

/-- Physical address of an offset of hub configuration space (27 R357). -/
def State.cfgPa (s : State) (off : Nat) : Nat := s.here (7 * 2 ^ 42 + off)

/-- A hub core writes at an offset of configuration space: the space may refuse it (01 R25, R26). -/
def State.coreWrite (s : State) (core off : Nat) (f : State → State) : State :=
  if !s.coreActs core then s
  else if s.mayAccess (0xA00 + core) bitW (s.cfgPa off) then f s
  else s.agentRefused (0xA00 + core) (s.cfgPa off)

/-- HUB_SUBMISSION: a hub core publishes a record through the submission port of die t, and reads back whether it was busy (R44); or it
launches the record over an index range, which the partition's master splits over its live ring dies (R49, log 49); a master in another
module sends the parts as messages. A die that is not up takes nothing (31 R394, R396). -/
def execHubSubmission (core t : Nat) (r : Submission) (s : State) : Out :=
  if s.coreActs core && decide (t < 12) then
    if !s.hub.dieUp t then .next { s with bus := .failed }
    else if Config.maxTasks ≤ (s.dist t).tasks.length then .next { s with bus := .busy }
    else match r.range with
      | some (first, count) => .next { (if (s.masterHere (s.partOf t)).isSome then
            s.launchOver (s.liveDies (s.partOf t)) (s.farLive (s.partOf t)) r.rcd first.toNat count.toNat (0xA00 + core) else s) with
          bus := .done [], free := s.free + 1 }
      | none => .next { (s.publish t r.rcd (0xA00 + core) 0).1 with bus := .done [] }
  else .next s

/-! ### Release (R46, R53) -/

/-- Every condition of R46 but the release holds for a task that has not been released. -/
def Task.free (x : Task) : Bool := x.waits.isEmpty && x.cnt == 0 && !x.released && decide (x.place = .waiting)

/-- A task joins the ready tasks of its class, last (R56). -/
def State.makeReady (s : State) (t : Nat) (tid : BitVec 32) (f : Task → Task) : State :=
  let n := (s.dist t).norder
  let now := s.ticksOf t
  (s.modTask t tid fun x => { f x with ready := some (n, now) }).modDist t fun q => { q with norder := n + 1 }

/-- TASK_RELEASE: TICK is at or past RELT; for a keyed task the window holds its tag, which it then holds, and no stall is on
(R53, 23 R321). -/
def execTaskRelease (t : Nat) (tid : BitVec 32) (s : State) : Out :=
  match (s.dist t).tasks.find? fun x => x.tid == tid with
  | none => .next s
  | some x =>
    let g := s.genNow t
    let keyOk := !recKeyed x.rcd || ((g.map fun g => g.tag == recKey x.rcd).getD false && !(s.ring t).stall)
    if x.free && decide (recRelt x.rcd ≤ (s.tickOf t).toNat) && keyOk then
      .next (s.makeReady t tid fun x => { x with released := true, holds := if recKeyed x.rcd then g else none })
    else .next s

/-! ### Issue (R31, R56, 07 R92) -/

/-- A task could use cluster c of its die. -/
def Task.canUse (x : Task) (c : Nat) : Bool := recClaff x.rcd == 0xFFFF || recClaff x.rcd == localOf c

/-- Task x heads y in the order of R56: a lower class, or the same class and ready earlier. -/
def Task.heads (x y : Task) : Bool :=
  decide (recPrio x.rcd < recPrio y.rcd) ||
    (recPrio x.rcd == recPrio y.rcd && decide ((x.ready.map (·.1)).getD 0 < (y.ready.map (·.1)).getD 0))

/-- The first of a list of ready tasks. -/
def firstReady : List Task → Option Task
  | [] => none
  | x :: xs => match firstReady xs with
    | none => some x
    | some y => if y.heads x then some y else some x

/-- The ready tasks of die t that could use cluster c; under SWAPOUT only those published since, that name it (29 R382). -/
def State.readyFor (s : State) (t c : Nat) : List Task :=
  (s.dist t).tasks.filter fun x => x.ready.isSome && x.canUse c &&
    (!(s.cl c).swapped || (decide ((s.sup t).swapSeq ≤ x.seq) && recClaff x.rcd == localOf c))

/-- Clusters of die t that hold a task. -/
def State.busyClusters (s : State) (t : Nat) : Nat := ((dieClusters t).filter fun c => (s.cl c).task.isSome).length

/-- The Distributor may give cluster c a task: it is free, neither frozen nor halted, its image is out if SWAPOUT
has halted it, it is not being saved, and the power limit leaves room (31 R396). -/
def State.openCluster (s : State) (c : Nat) : Bool :=
  let k := s.cl c
  k.task.isNone && !s.frozen c && !k.byHalt && !k.halted && (!k.swapped || s.onLoan c) && !k.saving && !(s.sup (dieOf c)).esc.getLsbD (localOf c) &&
    !s.hub.ms && (s.hub.power == .p0 || (s.hub.power == .p1 && decide (s.busyClusters (dieOf c) < s.hub.maxcl.toNat)))

/-- Start the C engine of a task (R31). -/
def startC (r : BitVec 1024) : Ctx :=
  { Ctx.reset with run := .running, pc := recEntry r 0
                   s := [(0, recParam r), (1, (recTid r).setWidth 64)].filter fun e => e.2 != 0 }

/-- What the arrival handlers of a cluster have in flight stays when its task comes or goes (29 R383): every other landing, result and POST
of a list goes. -/
def Cluster.ofHandlers (k : Cluster) : Cluster :=
  { k with land := k.land.filter fun l => decide (5 ≤ l.x), pend := k.pend.filter fun p => decide (5 ≤ p.x), posts := k.posts.filter fun p => decide (5 ≤ p.x) }

/-- A cluster as it starts a task (R31, 07 R92, 17 R250, 19 R272): its handler contexts and receive slots, its bank states, PROGC and
ECNTW stay. -/
def Cluster.setUp (k : Cluster) (r : BitVec 1024) : Cluster :=
  { k.ofHandlers with
    v := [], bind := [], k := [], kgen := [], vm := [], hold := [], q := [], ev := [], vflags := 0, vmode := 1, mmode := 1
    task := some r, tid := recTid r, traps := [], spill := [], mq := [], qf := [], fails := []
    m := MEng.reset, a := AEng.reset, ctx := (0, startC r) :: k.ctx.filter fun e => 5 ≤ e.1 }

/-- A holder that takes a cluster while a stall is on: the stall's record of it names that cluster (R55). -/
def State.noteSrc (s : State) (d : Nat) (tid : BitVec 32) (c : Nat) : State :=
  s.modRing d fun r => { r with stallers := r.stallers.map fun x => if x.tid = tid then { x with src := c } else x }

/-- Task x takes cluster c: it is the latest task issued (29 R374), and what the cluster's SRAM holds is kept for a restartable one
(29 R376). -/
def State.placeTask (s : State) (t c : Nat) (x : Task) : State :=
  let q := s.dist t
  let sram := if recRst x.rcd then s.sramOf c else []
  let now := s.ticksOf t
  ((s.noteSrc t x.tid c).modTask t x.tid fun y => { y with place := .running c, ranOn := some c, ready := none, issued := now, issueNo := q.norder, sram := sram }).modDist t
    fun q => { q with norder := q.norder + 1 }

/-- TASK_ISSUE: the ready task that heads the order for cluster c is issued to it. -/
def execTaskIssue (t c : Nat) (s : State) : Out :=
  if decide (dieOf c = t) && decide (c < 320) && s.openCluster c then
    match firstReady (s.readyFor t c) with
    | none => .next s
    | some x =>
      match x.place with
      | .saved _ => .next s
      | _ =>
        .next (((s.placeTask t c x).modTask t x.tid fun y => { y with xst := false }).modCl c fun k => k.setUp x.rcd)
  else .next s

/-! ### Retirement (R33) -/

/-- Every access a cluster's task has issued is performed or has failed, what it read has landed, and nothing of its work is left. -/
def State.quiet (s : State) (c : Nat) : Bool :=
  let k := s.cl c
  !(k.mq.any fun a => (a.live && !s.accessDead c a) || a.pieces.isEmpty || !a.landsNothing) && k.accepting.isEmpty && k.m.nests.isEmpty && k.m.movers.isEmpty

/-- Error-pending marks of a cluster: address, engine and target of each (13 R186). -/
def Cluster.marks (k : Cluster) : List (BitVec 64 × Nat × Nat) :=
  let of (h : SMap Hold) := h.filterMap fun e => match e.2 with
    | .mark a g t => some (a, g, t)
    | .empty => none
  of k.hold ++ (k.ctx.filter fun e => e.1 < 5).flatMap fun e => of e.2.sHold

/-- Records of the marks still pending when a task retires, in ascending source. -/
def State.markRecords (s : State) (c : Nat) : State :=
  let ms := (s.cl c).marks
  (([0, 1, 2, 3, 4].flatMap fun g => ms.filter fun m => m.2.1 == g)).foldl
    (fun s m => s.logFault (dieOf c) { Fault.Rec.plain .eccFatal (masterOf c m.2.1) with
      tid := (s.cl c).tid.toNat, addr := m.1.toNat, target := m.2.2, asid := (recAsid (s.cl c).rec0).toNat }) s

/-- Records of dropped nests that were never reported (17 R265). -/
def State.dropRecords (s : State) (c : Nat) : State :=
  (s.cl c).m.drop.foldl (fun s d => s.logFault (dieOf c) { Fault.Rec.plain .staleBind (masterOf c 2) with
    tid := (s.cl c).tid.toNat, pc := d.pc.toNat, info := d.info.toNat, asid := (recAsid (s.cl c).rec0).toNat }) s

/-- A task leaves the Distributor: its ranges no longer match, and tasks that waited for it wait no longer. -/
def State.forget (s : State) (t : Nat) (x : Task) : State :=
  let s := s.modDist t fun q =>
    { q with tasks := (q.tasks.filter fun y => y.tid != x.tid).map fun y => { y with waits := y.waits.filter (· != x.seq) } }
  (s.modDist (s.dist t).master fun m => { m with kept := m.kept.filter fun e => !(e.die == t && e.tid == x.tid) }).launchTodo t

/-- A cluster is left by its task: queue entries are discarded and its engines idle. -/
def Cluster.vacate (k : Cluster) : Cluster :=
  { k.ofHandlers with
    task := none, tid := 0, q := [], traps := [], mq := [], qf := []
    ctx := k.ctx.filterMap fun e =>
      if e.1 < 5 then some (e.1, { e.2 with run := .idle, phase := .header, inSec := false, stopped := false })
      else match e.2.hnd with
        | some ⟨_, some _, _, _⟩ => none
        | _ => some e }

/-- What a task has seen happens before what its die issues once it has retired (21 R307); its own accesses are performed. -/
def State.taskSync (s : State) (c : Nat) : State :=
  s.noteSeen (fun _ _ v => v.seen.any fun y => y.covers c s.seq) (.die (dieOf c) s.seq)

/-- Steps 2 to 4 of R33. -/
def State.retireTask (s0 : State) (c : Nat) : State :=
  let s := s0.taskSync c
  let s := match s.taskOn c with
    | some x => s.forget (dieOf c) x
    | none => s
  s.modCl c Cluster.vacate

/-- A killed task has gone (29 R372): its cluster is free and no longer frozen or escalated, and a handler context that had trapped is
dormant. -/
def State.killed (s : State) (c : Nat) : State :=
  let keep := BitVec.ofNat 32 (2 ^ 32 - 1 - 2 ^ localOf c)
  let s := ((s.markRecords c).dropRecords c).retireTask c
  let s := s.modCl c fun k => { k with
    halted := false, saving := false
    slots := k.slots.filter fun m => !(k.ctx.any fun e => decide (5 ≤ e.1) && decide (e.2.run = .trapped) && e.2.hnd.any fun h => h.slot == some m.1)
    ctx := k.ctx.filter fun e => !(decide (5 ≤ e.1) && decide (e.2.run = .trapped)) }
  s.modSup (dieOf c) fun p => ({ p with esc := p.esc &&& keep, frz := p.frz &&& keep }).finish true 0

/-- TASK_RETIREMENT: the C engine has arrived by END, and no Discard has halted the cluster, or the task is being killed; and every access is
performed. -/
def execTaskRetirement (c : Nat) (s : State) : Out :=
  let k := s.cl c
  if (s.sup (dieOf c)).cmd = some (.kill c) then .next (if s.quiet c then s.killed c else s)
  else if k.task.isSome && !s.beingDropped c && decide ((k.cx 0).run = .arrived) && s.quiet c && k.pend.isEmpty && k.land.isEmpty &&
      !(k.cx 5).trapHandler && !(k.cx 6).trapHandler then
    .next (((s.markRecords c).dropRecords c).retireTask c)
  else .next s

/-! ### The timing source (R52) -/

/-- The timing source A-die a should have. -/
def State.sourceFor (s : State) (a : Nat) : Option Nat :=
  if !s.bypassed (2 * a) then some (2 * a)
  else if !s.bypassed (2 * a + 1) then some (2 * a + 1)
  else (List.range 8).find? fun d => !s.bypassed d && s.partOf d == s.partOf (8 + a)

/-- Add a difference of frames to the deadlines of every task in flight. -/
def Dist.shift (q : Dist) (old new : BitVec 48) : Dist :=
  { q with tasks := q.tasks.map fun x =>
      { x with deadline := (((x.deadline >>> 16).setWidth 48 + (new - old)).setWidth 64 <<< 16) ||| (x.deadline &&& 0xFFFF) } }

/-- TIMING_SOURCE_CHANGE: at a tick boundary A-die a takes the source it should have, or holds the last values when there is none. -/
def execTimingSourceChange (a : Nat) (s : State) : Out :=
  if a ≥ 4 ∨ s.cycle.toNat % Config.cyclesPerTick ≠ 0 then .next s
  else
    let t := 8 + a
    let q := s.dist t
    match s.sourceFor a with
    | some d =>
      if d = q.srcDie t ∧ q.held = false then .next s
      else .next (s.modDist t fun q => { (q.shift (s.frameOf t) (s.ring d).frame) with src := some d, held := false })
    | none =>
      if q.held then .next s
      else .next (s.modDist t fun q => { q with held := true, hframe := s.frameOf t, htick := s.tickOf t, hrot := s.rotOf t })

end Sys2Proof.Machine
end

