-- ==== Sys2Proof/Machine/Control.lean ====
section
/-! DEFINITION. The C engine's control instructions (11 R162 to R178). -/

namespace Sys2Proof.Machine

/-- The context is an arrival handler's (13 R206). -/
def State.inArrival (s : State) : Bool :=
  match s.ctx.hnd with
  | some ⟨some _, _, _, _⟩ => true
  | _ => false

/-- Instructions an arrival-handler context may not make (R163). -/
def State.notArrival (s : State) : Chk Unit := trapIf s.inArrival .illegal
/-- Instructions only a system task may make (R163): an arrival handler, which runs in its sender's ASID, is one when that is 0
(log 66). -/
def State.systemOnly (s : State) : Chk Unit := trapIf (s.me.asid s.cur.2 != 0) .priv

/-! ### FORK and RDV (R164, 03 R32) -/

/-- An engine as a FORK starts it: its section counter goes on. -/
def forkCtx (old : Ctx) (pc : Parcel) (param : Word) : Ctx :=
  { old with run := .running, phase := .header, pc := pc, inSec := false, forked := true, loops := [], vrb := 0, p := 0
             b := [], bAge := [], s := [(0, param)].filter fun e => e.2 != 0, sHold := [], stopped := false }

/-- FORK. -/
def execFork (w : CForm) (s : State) : Out :=
  finish s 3 do
    s.notArrival
    trapIf (decide (2 ^ 32 ≤ w.off.toNat)) .illegal
    let g := w.cf.toNat % 8
    let e := s.me.cx g
    trapIf (!(e.run == .idle || e.run == .arrived)) .illegal
    pure (s.modMe fun k => k.setCx g (forkCtx e (recEntry k.rec0 g + w.off.setWidth 32) (recParam k.rec0)))

/-- RDV: a new fork period begins. -/
def execRdv (_w : AForm) (s : State) : Out :=
  finish s 3 do
    s.notArrival
    waitIf (!s.me.allArrived)
    pure (s.modMe fun k => { k with ctx := k.ctx.map fun e => (e.1, { e.2 with forked := false }) })

/-- A queue register is configured, or will be at the end of the cycle. -/
def Cluster.configured (k : Cluster) (i : BitVec 4) : Bool :=
  (k.getQ i.toNat).cfg.isSome || k.land.any fun l => match l.kind with
    | .cfg _ _ => l.dst == .q false i
    | _ => false

/-- QCFG: seen by pushes and pops from the next cycle (R165). -/
def execQcfg (w : AForm) (s : State) : Out :=
  finish s 3 do
    s.notArrival
    let p := w.imm.toNat % 8
    let c := w.imm.toNat / 16 % 8
    match w.dst with
    | .q _ i =>
      trapIf (p == c || s.me.configured i) .illegal
      pure (s.modMe fun k => { k with land := k.land ++
        [{ due := s.cycle.toNat + 1, x := s.cur.2, sec := s.ctx.secNow, dst := w.dst, kind := .cfg p c, flags := 0 }] })
    | _ => trapWith .illegal 1

/-! ### TSPAWN, TSIG, TYIELD (R166 to R168) -/

/-- TSPAWN: it first waits for every access the cluster issued earlier. -/
def execTspawn (w : AForm) (s : State) : Out :=
  match s.srcS w.sa 2 (ftBit w 2) with
  | .error e => .next (s.stopped e)
  | .ok a =>
    if a.toNat % 64 ≠ 0 then .next (s.trapHere { cause := .misalign, info := some a })
    else
      let (f, s) := match s.ctx.phase with
        | .fence f => (f, s)
        | _ =>
          let f : FenceRec := { kind := 4, scope := 3, mask := 0xF, cyc := s.cycle.toNat, id := s.seq, expired := false }
          (f, { s with seq := s.seq + 1 })
      if s.fenceOpen s.cur.1 3 f || s.vaHeld s.cur.1 s.cur.2 a.toNat 128 then .next (s.modCtx fun e => { e with phase := .fence f }).waits
      else
        let s := s.modCtx fun e => { e with phase := .body }
        match s.readNow s.cur.1 s.cur.2 a.toNat 128 with
        | .error t => .next (s.trapHere t)
        | .ok bs =>
          let r := BitVec.ofNat 1024 (bytesNat bs)
          let asid := s.me.asid s.cur.2
          if asid ≠ 0 ∧ recAsid r ≠ asid then finish s 3 (.ok (s.putPred w.dst false))
          else
            let (s', res) := s.publish (dieOf s.cur.1) r (masterOf s.cur.1 0) s.me.tid.toNat
            finish s' 3 (.ok (s'.putPred w.dst (res == .accepted)))

/-- TSIG. -/
def execTsig (w : AForm) (s : State) : Out :=
  finish s 3 do
    let a ← s.srcS w.sa 2 (ftBit w 2)
    let (s', ok) := s.signal (dieOf s.cur.1) (a.setWidth 32)
    pure (s'.putPred w.dst ok)

/-- Slots of a die's context shadow store (29 R378). -/
def shadowSlots (t : Nat) : Nat := if t < 8 then 35 else 32

/-- The lowest free slot of a die's shadow store. -/
def State.freeShadow (s : State) (t : Nat) : Option Nat :=
  if shadowSlots t ≤ (s.dist t).shadow.length then none
  else (List.range (shadowSlots t)).find? fun n => (SMap.get? (s.dist t).shadow n).isNone

/-- A ready task of the same or a higher class, not yet issued, waits that could use the cluster (R168). -/
def State.yieldsTo (s : State) (c : Nat) (x : Task) : Bool :=
  (s.dist (dieOf c)).tasks.any fun y => y.ready.isSome && decide (y.place = .waiting) && y.canUse c && decide (recPrio y.rcd ≤ recPrio x.rcd)

/-- TYIELD: the word completes with pD = 1 and the cluster is then saved, or pD = 0. -/
def execTyield (w : AForm) (s : State) : Out :=
  let c := s.cur.1
  let t := dieOf c
  let no := finish s 3 (.ok (s.putPred w.dst false))
  if s.inArrival || !s.me.allArrived then .next (s.trapHere { cause := .illegal })
  else match s.taskOn c with
    | none => no
    | some x =>
      if s.cur.2 = 0 ∧ s.yieldsTo c x ∧ (s.freeShadow t).isSome then
        let s' := (s.putPred w.dst true).complete 3
        let s' := s'.modMe fun k => { k with saving := true, ctx := k.ctx.map fun e => if e.1 < 5 then (e.1, { e.2 with stopped := true }) else e }
        .next (s'.modTask t x.tid fun y => { y with place := .saving c true })
      else no

/-! ### Groups (R169) -/

/-- Set bits of a mask. -/
def popMask (m : BitVec 320) : Nat := ((List.range 320).filter fun i => m.getLsbD i).length

/-- A cluster arrives at a group's barrier. -/
def Group.arrive (g : Group) (c : Nat) : Group :=
  if g.arrived + 1 = popMask g.mask then { g with arrived := 0, phase := g.phase + 1, marks := 0 }
  else { g with arrived := g.arrived + 1, marks := g.marks ||| BitVec.ofNat 320 (2 ^ c) }

/-- GBAR. -/
def execGbar (w : AForm) (s : State) : Out :=
  finish s 3 do
    s.dstS w.dst
    let i ← s.groupIn (w.imm.toNat % 4)
    let g := s.group i
    waitIf (g.marks.getLsbD s.cur.1)
    pure ({ s with groups := SMap.set s.groups i (g.arrive s.cur.1) }.putOpnd w.dst (g.phase.setWidth 64))

/-- GWAIT. -/
def execGwait (w : AForm) (s : State) : Out :=
  finish s 3 do
    let v ← s.srcS w.sa 2 (ftBit w 2)
    let i ← s.groupIn (w.imm.toNat % 4)
    waitIf ((s.group i).phase == v.setWidth 16)
    pure s

/-! ### PROG, WREL (R170, R171) -/

/-- PROG: seen from the next cycle. -/
def execProg (w : AForm) (s : State) : Out :=
  finish s 3 do
    let v ← s.srcSOr w.sa 2 (ftBit w 2) (w.imm.setWidth 64)
    pure (s.modMe fun k => { k with land := k.land ++
      [{ due := s.cycle.toNat + 1, x := s.cur.2, sec := s.ctx.secNow, dst := .null, kind := .prog (BitVec.ofNat 16 (min v.toNat 65535)), flags := 0 }] })

/-- WREL: it waits until the nests that read the window have finished. -/
def execWrel (_w : AForm) (s : State) : Out :=
  finish s 3 do
    s.notArrival
    waitIf (s.me.m.nests.any fun n => n.gen.isSome)
    pure (s.modTaskOn s.cur.1 fun t => { t with wrel := t.wrel || recKeyed t.rcd })

/-! ### TRET (R172) -/

/-- The engine a TRET names is trapped, and this is the task trap handler. -/
def State.tretOk (s : State) (g : Nat) : Bool :=
  (match s.ctx.hnd with
    | some ⟨none, some _, _, _⟩ => true
    | _ => false) && decide ((s.me.cx g).run = .trapped)

/-- The engine leaves the list of traps that wait for a handler. -/
def State.unlistTrap (s : State) (c g : Nat) : State := s.modCl c fun k => { k with traps := k.traps.filter (· != g) }

/-- TRET. -/
def execTret (w : AForm) (s : State) : Out :=
  finish s 3 do
    let g := w.imm.toNat % 8
    trapIf (!s.tretOk g) .illegal
    pure ((s.resume s.cur.1 g).unlistTrap s.cur.1 g)

/-- TRET.skip. -/
def execTretSkip (w : AForm) (s : State) : Out :=
  finish s 3 do
    let g := w.imm.toNat % 8
    trapIf (!s.tretOk g) .illegal
    match (s.unlistTrap s.cur.1 g).resumeSkip s.cur.1 g with
    | none => trapWith .illegal
    | some s' => pure s'

/-! ### HALT (R173) -/

/-- The cluster a HALT, CTXSAVE or CTXLOAD names: another one of this die. -/
def State.otherCluster (s : State) (w : AForm) : Chk Nat :=
  let t := dieOf s.cur.1
  let i := w.imm.toNat % 32
  if i < clustersOn t ∧ clusterNo t i ≠ s.cur.1 then .ok (clusterNo t i) else trapWith .illegal

/-- HALT. -/
def execHalt (w : AForm) (s : State) : Out :=
  finish s 3 do
    s.systemOnly
    let c ← s.otherCluster w
    pure (s.modCl c fun k => { k with byHalt := true })

/-- HALT.go ends HALT alone: a cluster that is halted for another reason stays so. -/
def execHaltGo (w : AForm) (s : State) : Out :=
  finish s 3 do
    s.systemOnly
    let c ← s.otherCluster w
    pure (s.modCl c fun k => { k with byHalt := false })

/-! ### CTXSAVE and CTXLOAD (R174, 29 R379 to R381) -/

/-- The 4 KiB pieces of an image at a virtual address. -/
def imagePieces (va : Nat) : List Piece :=
  (List.range (Config.imageBytes / 4096)).map fun i => { off := 4096 * i, va := va + 4096 * i, pa := 0, len := 4096 }

/-- Those that a save of a cluster writes (29 R378). -/
def Cluster.savedPieces (k : Cluster) (va : Nat) : List Piece := (imagePieces va).filter fun p => !k.skipsPage p.off

/-- The physical pages of an image, checked as a transfer is: translated, writable when written, permitted, correctable when
read. -/
def State.imagePlaces (s : State) (pieces : List Piece) (wr : Bool) : Chk (List Piece) := do
  let ps ← s.reach (flagParts wr pieces) none
  let m := masterOf s.cur.1 s.cur.2
  match ps.find? fun p => s.refusesNow m p.pa p.len wr with
  | some p => .error (.trap { cause := .refused, info := some (BitVec.ofNat 64 p.va), tgt := s.targetCode p.pa })
  | none => match ps.find? fun p => wr && s.farSays p.pa p.len true .readOnly with
  | some p => .error (.trap { cause := .roWrite, info := some (BitVec.ofNat 64 p.va), tgt := s.targetCode p.pa })
  | none => match if wr then none else ps.find? fun p => s.readFails p.pa p.len with
    | some p => .error (.trap { cause := .eccFatal, info := some (BitVec.ofNat 64 p.va), tgt := s.targetCode p.pa })
    | none => .ok ps

/-- No long-latency result, queued matrix work or access of a cluster is outstanding (07 R103). -/
def State.settled (s : State) (c : Nat) : Bool :=
  let k := s.cl c
  k.pend.isEmpty && k.land.isEmpty && k.mq.isEmpty && s.quiet c && !(k.cx 2).waitsPage

/-- A page lies in this module's memory, whose bytes are listed. -/
def State.inMem (s : State) (p : Piece) : Bool := s.isMem p.pa && s.isMem (p.pa + p.len - 1)

/-- Write an image to its pages; a page that another module does not take is not written, and a C engine's access is in no queue whose
failures a FENCE reports (13 R201, 21 R293, 27 R361). -/
def State.putImage (s : State) (im : SMap Byte) (ps : List Piece) : State :=
  ps.foldl (fun s p =>
    if s.farSays p.pa p.len true .no then s
    else if s.inMem p then s.replace p.pa p.len ((imgPart im p.off p.len).map fun e => (e.1 - p.off, e.2))
    else (s.put (masterOf s.cur.1 s.cur.2) p.pa ((List.range p.len).map fun i => SMap.get 0 im (p.off + i))).1) s

/-- Read an image from its pages. -/
def State.takeImage (s : State) (ps : List Piece) : SMap Byte :=
  ps.flatMap fun p =>
    if s.inMem p then (s.mem.filter fun b => decide (p.pa ≤ b.1) && decide (b.1 < p.pa + p.len)).map fun b => (p.off + (b.1 - p.pa), b.2)
    else sparseBytes p.off (s.bytes p.pa p.len)

/-- CTXSAVE. -/
def execCtxsave (w : AForm) (s : State) : Out :=
  finish s 3 do
    s.systemOnly
    let c ← s.otherCluster w
    let a ← s.srcS w.sa 2 (ftBit w 2)
    trapIf (!(s.cl c).byHalt) .illegal
    checkAlign a 4096
    let ps ← s.imagePlaces ((s.cl c).savedPieces a.toNat) true
    waitIf (!s.settled c)
    pure ((s.putImage (s.saveImage c).img ps).markXstIf s.cur.1 (ps.any (s.offSram s.cur.1)))

/-- An engine after a CTXLOAD: the image names no section. One whose PC lies in the section the engine is in goes on there; any other PC is
reached as a header (log 20). -/
def Ctx.atPc (e : Ctx) : Ctx := { e with phase := if e.inside e.pc then .body else .header, inSec := e.inside e.pc }

/-- A granule of a cluster's SRAM that a load would write is read-only (27 R362). -/
def State.sramRo (s : State) (c : Nat) : Option Nat :=
  ((List.range 0x3F0).map fun i => s.here (sramBase c) + 4096 * i).find? s.isRo

/-- CTXLOAD. It writes no read-only granule: it traps ROWRITE with the granule's physical address. -/
def execCtxload (w : AForm) (s : State) : Out :=
  finish s 3 do
    s.systemOnly
    let c ← s.otherCluster w
    let a ← s.srcS w.sa 2 (ftBit w 2)
    trapIf (!(s.cl c).byHalt) .illegal
    checkAlign a 4096
    let ps ← s.imagePlaces (imagePieces a.toNat) false
    waitIf (ps.any fun p => s.readHeld s.cur.1 p.pa p.len)
    let im := s.takeImage ps
    trapIf (!imageOk (isRing c) im) .param
    match s.sramRo c with
    | some pa => trapInfo .roWrite (BitVec.ofNat 64 pa)
    | none => pure ()
    waitIf (!s.settled c)
    pure ((s.loadInto c im (s.cl c).ctx).modCl c fun k =>
      { k with ctx := k.ctx.map fun e => if e.1 < 5 then (e.1, e.2.atPc) else e })

/-! ### LTTW, BANK, ATTR (R175 to R177) -/

/-- A task in flight on a die, other than a system task, runs in an ASID. -/
def State.asidInUse (s : State) (t asid : Nat) : Bool :=
  asid != 0 && (s.dist t).tasks.any fun x => (recAsid x.rcd).toNat == asid

/-- The ASID of an LTT entry (27 R359). -/
def lttAsid (e : BitVec 128) : Nat := bitsNat e.toNat 126 119

/-- LTTW: the entry serves from the next cycle. -/
def execLttw (w : AForm) (s : State) : Out :=
  finish s 3 do
    s.systemOnly
    let i ← s.srcS w.sa 2 (ftBit w 2)
    let lo ← s.srcS w.sb 3 (ftBit w 3)
    let hi ← s.srcS w.sc 4 (ftBit w 4)
    trapIfInfo (decide (4095 < i.toNat)) .illegal i 2
    let t := dieOf s.cur.1
    let n := t * 4096 + i.toNat
    let e := hi ++ lo
    if s.asidInUse t (lttAsid (SMap.get 0 s.ltt n)) || s.asidInUse t (lttAsid e) then pure (s.putPred w.dst false)
    else pure ({ s with lttNew := s.lttNew ++ [(n, e)] }.putPred w.dst true)

/-- The fields of banks f to f + n - 1 of BANKCTL, each holding st. -/
def bankFields (f n st : Nat) : BitVec 64 :=
  BitVec.ofNat 64 (packElems 2 ((List.range 32).map fun b => if f ≤ b ∧ b < f + n then st else 0))

/-- BANK. -/
def execBank (w : AForm) (s : State) : Out :=
  finishWait s do
    let f := w.imm.toNat % 32
    let n := w.imm.toNat / 32 % 32 + 1
    let st := w.imm.toNat / 1024 % 4
    trapIf (st == 3 || decide (32 < f + n)) .illegal
    s.writeBank (bankFields f n st) (bankFields f n 3)

/-- The 4 KiB granules of an ATTR's range, by their physical address: the window has none. -/
def State.attrRange (s : State) (a n : Word) : Chk (List Nat) := do
  checkAlign a 4096
  if n.toNat % 4096 ≠ 0 ∨ n = 0 then trapWith .misalign
  else
    let ps ← s.reach (flagParts false ((List.range (n.toNat / 4096)).map fun i =>
      ({ off := 0, va := a.toNat + 4096 * i, pa := 0, len := 4096 } : Piece))) none
    pure ((ps.filter fun p => !isWin p.pa).map fun p => p.pa / 4096)

/-- A write to one of these granules has been accepted and not performed. -/
def State.writePending (s : State) (gs : List Nat) : Bool :=
  s.clusters.any fun k => k.2.mq.any fun a => a.live && a.op.writes && !s.accessDead k.1 a &&
    a.pieces.any fun p => gs.contains (p.pa / 4096)

/-- The home of a 4 KiB granule: a target of this module, or 256 more than the target of another module, coded as in 07 R112. -/
def State.homeOf (s : State) (g : Nat) : Nat :=
  if s.isFar (g * 4096) then 256 + s.targetCode (g * 4096) else (s.target (g * 4096)).getD 12

/-- The RO bits of granules are set. -/
def State.grantRo (s : State) (gs : List Nat) : State := { s with ro := gs.foldl (fun m g => SMap.put false m g true) s.ro }

/-- Runs of consecutive granules of one home, as (home, first granule, number). -/
def granuleRuns (home : Nat → Nat) : List Nat → List (Nat × Nat × Nat)
  | [] => []
  | g :: gs => match granuleRuns home gs with
    | (h, f, n) :: rest => if h = home g ∧ f = g + 1 then (h, g, n + 1) :: rest else (home g, g, 1) :: (h, f, n) :: rest
    | [] => [(home g, g, 1)]

/-- A destination of an ATTR. -/
def attrDst (w : AForm) : Option (BitVec 6) :=
  match w.dst with
  | .s i => some i
  | _ => none

/-- The dies, and the other modules (64 and more), that answer a shoot-down of a home in this module: its FABRIC instance (03 R64). -/
def State.answerers (s : State) : List Nat :=
  List.range 12 ++ (s.hub.gwroute.filter fun g => g.2.getLsbD 3 && g.1 != s.hub.modNo.toNat).map fun g => 64 + g.1

/-- The answers that an ATTR waits for: one of each home's run of granules. For 1 ms after a change of LEASE the larger value counts (27
R364); the LEASE of another module is not known, and may be as short as 1 µs. -/
def State.attrShoots (s : State) (grant : Bool) (c x : Nat) (gs : List Nat) : List Shoot :=
  let now := s.cycle.toNat
  let lease := s.hub.leaseNow now
  (granuleRuns s.homeOf gs).map fun u =>
    { home := u.1, gran := u.2.1, n := u.2.2, start := now, need := if grant then [] else if u.1 < 256 then s.answerers else List.range 12
      lease := if u.1 < 256 then lease else 1, c := c, x := x, grant := grant }

/-- The engine waits for the homes' answers. -/
def State.awaitHomes (s : State) (d : Option (BitVec 6)) (sh : List Shoot) : State :=
  { s with shoots := s.shoots ++ sh }.modCtx fun e => { e with phase := .shoot d (sh.map Shoot.home) false }

/-- The answer of an ATTR, which waits when the flag is set. -/
def attrDone (s : State) (r : Chk (State × Bool)) : Out :=
  match r with
  | .ok (s', true) => finishWait s (.ok s')
  | .ok (s', false) => finish s 3 (.ok s')
  | .error e => finish s 3 (.error e)

/-- ATTR.set: RO is granted once the accepted writes to the range are performed; a home in another module answers when it has granted it. -/
def execAttrSet (w : AForm) (s : State) : Out :=
  attrDone s do
    s.systemOnly
    let a ← s.srcS w.sa 2 (ftBit w 2)
    let n ← s.srcS w.sb 3 (ftBit w 3)
    s.dstS w.dst
    let gs ← s.attrRange a n
    if w.imm.getLsbD 0 then do
      waitIf (s.writePending gs)
      let far := gs.filter fun g => s.isFar (g * 4096)
      let t := s.grantRo (gs.filter fun g => !s.isFar (g * 4096))
      if far.isEmpty then pure (t.putOpnd w.dst 0, false)
      else pure (t.awaitHomes (attrDst w) (s.attrShoots true s.cur.1 s.cur.2 far), true)
    else pure (s.putOpnd w.dst 0, false)

/-- ATTR.clr: every home starts a shoot-down (27 R365); the engine waits for all of them. -/
def execAttrClr (w : AForm) (s : State) : Out :=
  attrDone s do
    s.systemOnly
    let a ← s.srcS w.sa 2 (ftBit w 2)
    let n ← s.srcS w.sb 3 (ftBit w 3)
    s.dstS w.dst
    let gs ← s.attrRange a n
    if w.imm.getLsbD 0 && !gs.isEmpty then pure (s.awaitHomes (attrDst w) (s.attrShoots false s.cur.1 s.cur.2 gs), true)
    else pure (s.putOpnd w.dst 0, false)

end Sys2Proof.Machine
end

