-- ==== Sys2Proof/Machine/Sections.lean ====
section
/-! DEFINITION. The sequencer's own steps: headers, the start and the retirement of sections (09 R114 to R118, 03 R34, R35, R63,
23 R324), bank wakes (07 R104), and the task trap handler (29 R368). -/

namespace Sys2Proof.Machine

/-- The context may use its issue slot of this cycle. -/
def State.mayIssue (s : State) (c x : Nat) : Bool := s.canIssue c x && !(s.cl c).clash x

/-! ### Headers -/

/-- Bits of a header. -/
def headerOf (h : Nat) (key : Option (BitVec 24 × BitVec 32 × Nat)) : Header :=
  { len := bitsNat h 59 48, aft := [bitsNat h 47 38, bitsNat h 37 28, bitsNat h 27 18, bitsNat h 17 8].map (BitVec.ofNat 10)
    exposed := h.testBit 7, key := key }

/-- What a header comes to: an end of stream, a section with the parcel its words begin at, or a trap at a parcel. -/
inductive HeaderRes where
  | eos
  | sect (h : Header) (f : Parcel)
  | bad (p : Parcel) (t : Trap)

/-- The first of n parcels from a that no LTT entry covers. -/
def State.uncovered (s : State) (c x : Nat) (a : Parcel) (n : Nat) : Option Nat :=
  (List.range n).find? fun i => (s.translate c ((s.cl c).asid x) (4 * (a + BitVec.ofNat 32 i).toNat)).isNone

/-- Read and check the header at a parcel (R116 to R118). -/
def State.readHeader (s : State) (c x : Nat) (a : Parcel) : HeaderRes :=
  let ill : HeaderRes := .bad a { cause := .illegal }
  let run (h : Nat) (key : Option (BitVec 24 × BitVec 32 × Nat)) (f : Parcel) : HeaderRes :=
    match s.uncovered c x f (3 * bitsNat h 59 48) with
    | some i => .bad a { cause := .unmapped, info := some (BitVec.ofNat 64 (4 * (f + BitVec.ofNat 32 i).toNat)) }
    | none => .sect (headerOf h key) f
  match s.fetchRun c x a 2 with
  | .error (p, t) => .bad p t
  | .ok ps =>
    let h := (ps.getD 0 0).toNat + (ps.getD 1 0).toNat * 2 ^ 32
    if bitsNat h 63 60 = 0xA then (if bitsNat h 59 0 = 0 then .eos else ill)
    else if bitsNat h 63 60 ≠ 5 ∨ bitsNat h 59 48 = 0 ∨ bitsNat h 5 0 ≠ 0 then ill
    else if !h.testBit 6 then run h none (a + 2)
    else if !isRing c then ill
    else match s.fetchRun c x (a + 2) 3 with
      | .error (p, t) => .bad p t
      | .ok ks =>
        let k := (ks.getD 0 0).toNat + (ks.getD 1 0).toNat * 2 ^ 32 + (ks.getD 2 0).toNat * 2 ^ 64
        if bitsNat k 37 0 ≠ 0 then ill
        else run h (some (BitVec.ofNat 24 (bitsNat k 95 72), BitVec.ofNat 32 (bitsNat k 71 40), bitsNat k 39 38)) (a + 5)

/-- The key of the section of a header is judged (R324): the section will start with p7, is skipped, traps, or goes on waiting. -/
def State.judgeKey (s : State) (h : Header) (f : Parcel) (key : BitVec 24 × BitVec 32 × Nat) (rot : Bool) : State :=
  let (c, x) := s.cur
  let goes (k : KeyState) : State := s.modCtx fun e => { e with phase := .start h f k }
  let trap : State := (s.modCtx fun e => { e with phase := .header }).takeTrap c x s.ctx.pc
    { cause := .segMiss, info := some (key.1.setWidth 64) }
  match s.keyCheck c key.1 key.2.1 with
  | .hit => goes (.judged true)
  | .waits => goes .waits
  | k =>
    match key.2.2 with
    | 0 => if k = .missOwn then (if rot then s else (goes .rotate).rotateWait c) else trap
    | 1 => s.leaveTo (f + BitVec.ofNat 32 (3 * h.len))
    | 2 => trap
    | _ => goes (.judged false)

/-- HEADER_REACHED: the context reads the header at its PC, in one issue cycle; a key is judged at once (R324). -/
def execHeaderReached (c x : Nat) (s : State) : Out :=
  let s1 : State := { s with cur := (c, x) }
  if !s.mayIssue c x then .next s
  else match s1.ctx.phase with
    | .header =>
      match s1.readHeader c x s1.ctx.pc with
      | .eos => s1.actEnd
      | .sect h f => match h.key with
        | none => .next (s1.modCtx fun e => { e with phase := .start h f .free }).used
        | some key => .next (s1.judgeKey h f key false).used
      | .bad p t => .next (s1.takeTrap c x p t).used
    | _ => .next s

/-! ### The start of a section (03 R35, R59, R63) -/

/-- The engines other than g, ascending. -/
def othersOf (g : Nat) : List Nat := [0, 1, 2, 3, 4].filter (· != g)

/-- The wait of an AFT field on engine g. -/
def Cluster.aftOk (k : Cluster) (g : Nat) (a : BitVec 10) : Bool :=
  let e := k.cx g
  a == 0x3FF || (g != 0 && !e.forked) || (match e.last with
    | none => false
    | some l => decide ((l % 1023 + 1023 - a.toNat) % 1023 ≤ 510))

/-- An access that keeps its section, or a change of mode, waiting: it can still be performed, or its result has not landed. -/
def Access.pending (a : Access) : Bool := a.live || a.pieces.isEmpty

/-- A context is between the issue and the completion of a word. -/
def Ctx.midWord (e : Ctx) : Bool :=
  match e.phase with
  | .accept .. | .fence _ | .shoot .. | .post | .bank .. | .kvapp _ => true
  | _ => false

/-- Every operation issued by every engine of the cluster has completed (R63). -/
def Cluster.drained (k : Cluster) : Bool :=
  !(k.mq.any Access.pending) && k.pend.isEmpty && k.land.isEmpty && k.posts.isEmpty && !k.m.busy && !(k.ctx.any fun e => e.2.midWord)

/-- Nothing but the key holds back the section of a header. -/
def State.mayStart (s : State) (c x : Nat) (h : Header) : Bool :=
  let k := s.cl c
  ((othersOf (engOf x)).zip h.aft).all (fun p => k.aftOk p.1 p.2) &&
    ((k.cx x).lastMode.getD false == h.exposed || k.drained)

/-- The section of a header starts; a keyed one writes p7. -/
def Ctx.startSection (e : Ctx) (h : Header) (f : Parcel) (p7 : Option Bool) : Ctx :=
  let e := match p7 with
    | some b => e.putP 7 b
    | none => e
  { e with phase := .body, pc := f, secF := f, secE := f.toNat + 3 * h.len, exposed := h.exposed, lastMode := some h.exposed
           next := e.next + 1, openSecs := e.openSecs ++ [e.next], inSec := true }

/-- A section that no key holds back any more starts, once its other waits allow it. -/
def State.startIfFree (s : State) (c x : Nat) : State :=
  match ((s.cl c).cx x).phase with
  | .start h f .free => if s.mayStart c x h then s.modCx c x fun e => e.startSection h f none else s
  | .start h f (.judged b) => if s.mayStart c x h then s.modCx c x fun e => e.startSection h f (some b) else s
  | _ => s

/-- SECTION_START: a section without a key, or whose key has been judged, starts once its waits allow it. -/
def execSectionStart (c x : Nat) (s : State) : Out := if s.mayIssue c x then .next (s.startIfFree c x) else .next s

/-- SEGMENT_KEY_HIT: the key of a waiting section is judged again, and the section starts when nothing else holds it back; or it is skipped,
traps, or goes on waiting. A WSEG that waits is attempted again. -/
def execSegmentKeyHit (c x : Nat) (s : State) : Out :=
  let s1 : State := { s with cur := (c, x) }
  if !s.mayIssue c x then .next s
  else match s1.ctx.phase with
    | .wseg _ => match s1.wordAt with
      | .ok (.wseg w) => execWseg w s1
      | _ => .next s
    | .start h f k =>
      match h.key with
      | some key => if k = .waits ∨ k = .rotate then .next ((s1.judgeKey h f key (k == .rotate)).startIfFree c x) else .next s
      | none => .next s
    | _ => .next s

/-! ### Retirement of sections (R34) -/

/-- Something of section n of context x is not complete, or not performed at CLUS scope. -/
def Cluster.sectionOpen (k : Cluster) (x n : Nat) : Bool :=
  let e := k.cx x
  ((e.inSec || e.midWord) && e.next == n + 1) ||
    (k.mq.any fun a => a.x == x && a.sec == n && a.pending && (a.pieces.isEmpty || !a.doneAt 1)) || (k.pend.any fun p => p.x == x && p.sec == n) ||
    (k.land.any fun l => l.x == x && l.sec == n) ||
    (x == 2 && ((k.m.nests.any fun q => q.sec == n) || k.m.movers.any fun v => v.sec == n))

/-- What the cluster issues once a section has retired comes after the section's stores (21 R301, R306). -/
def State.sectionSync (s : State) (c x n : Nat) : State :=
  s.noteSeen (fun j b _ => j == c && b.x == x && b.sec == n) (.cluster c s.seq)

/-- SECTION_RETIRE: the oldest section of a context retires. -/
def execSectionRetire (c x : Nat) (s : State) : Out :=
  match ((s.cl c).cx x).openSecs with
  | [] => .next s
  | n :: ns =>
    if (s.cl c).sectionOpen x n then .next s
    else .next ((s.sectionSync c x n).modCx c x fun e => { e with openSecs := ns, last := some n })

/-! ### Bank wake (07 R104, R105) -/

/-- BANK_WAKE: a waking bank becomes ON, and BANKCTL shows it. -/
def execBankWake (c b : Nat) (s : State) : Out :=
  if decide (b < 32) && (s.cl c).waking.getLsbD b then
    .next (s.modCl c fun k => { k with
      waking := k.waking &&& ~~~(BitVec.ofNat 32 (2 ^ b))
      bankctl := k.bankctl &&& ~~~(BitVec.ofNat 64 (3 * 4 ^ b)) })
  else .next s

/-! ### The task trap handler (29 R368) -/

/-- TASK_TRAP_HANDLER_START: the oldest trap that waits gets a dormant context, 1 when both are dormant. A TVEC that has become zero
or unreadable escalates it (R369). -/
def execTaskTrapHandlerStart (c : Nat) (s : State) : Out :=
  let k := s.cl c
  let x := if k.dormant 6 then some 6 else if k.dormant 5 then some 5 else none
  match x, k.traps with
  | some x, g :: gs =>
    if !s.handlersRun c then .next s
    else
      let t := k.cx g
      let s := s.modCl c fun k => { k with traps := gs }
      match s.tvec c with
      | some pc =>
        let h : Hnd := { slot := none, eng := some g, asid := recAsid k.rec0, still := true }
        .next (s.modCl c fun k => k.setCx x (handlerCtx pc h
          [recParam k.rec0, BitVec.ofNat 64 g, t.cause.setWidth 64, t.tpc.setWidth 64, t.tinfo]))
      | none => .next ((s.tvecRefused c).escalate c g { cause := causeOf t.cause, info := some t.tinfo, tgt := t.tgt })
  | _, _ => .next s

end Sys2Proof.Machine
end

