-- ==== Sys2Proof/Machine/Supervisor.lean ====
section
/-! DEFINITION. Pre-emption (29 R374 to R378), the supervisor's commands and registers (R370 to R372), swapping (R382). -/

namespace Sys2Proof.Machine

/-! ### The context shadow store (R378) -/

/-- Physical address of a slot of A-die t's shadow store. -/
def State.slotPa (s : State) (t n : Nat) : Nat := (SMap.get 0 s.hub.shadowBase t).toNat + n * Config.imageBytes

/-- The runs of 4 KiB pages of an image that a save of a cluster writes, as (offset, bytes): it skips the regions of OFF banks. -/
def Cluster.savedRuns (k : Cluster) : List (Nat × Nat) :=
  (0, 0x2000) :: ((List.range 32).map fun b => (0x2000 + 4096 * b, 4096)).filter (fun r => !k.skipsPage r.1) ++
    [(0x22000, Config.imageBytes - 0x22000)]

/-- Fill a slot with the image of a cluster: an A-die's image stands in its HBM. -/
def State.putShadow (s : State) (t n : Nat) (k : Cluster) (w : Saved) : State :=
  let s := s.modDist t fun q => { q with shadow := SMap.set q.shadow n w }
  if t < 8 then s
  else k.savedRuns.foldl (fun s r => s.replace (s.slotPa t n + r.1) r.2 ((imgPart w.img r.1 r.2).map fun e => (e.1 - r.1, e.2))) s

/-- What a slot holds. -/
def State.getShadow (s : State) (t n : Nat) : Saved :=
  let w := SMap.get { img := [], ctxs := [], fails := [], steps := 0, traps := [] } (s.dist t).shadow n
  if t < 8 then w
  else
    let pa := s.slotPa t n
    { w with img := (s.mem.filter fun b => decide (pa ≤ b.1) && decide (b.1 < pa + Config.imageBytes)).map fun b => (b.1 - pa, b.2) }

/-- Free a slot. -/
def State.freeSlot (s : State) (t n : Nat) : State := s.modDist t fun q => { q with shadow := SMap.del q.shadow n }

/-- Free slots of a die. -/
def State.slotsFree (s : State) (t : Nat) : Nat := shadowSlots t - (s.dist t).shadow.length

/-- The slot of cluster i of die t under SWAPOUT (R382); a ring die's slots have no addresses, and the model numbers those of SWAPOUT
apart from those of Save. -/
def swapSlot (t i : Nat) : Nat := if t < 8 then 64 + i else i

/-! ### Saving (R377, R383) -/

/-- An engine that a Save need not wait for: it is idle, has arrived or has stopped. -/
def Ctx.atRest (e : Ctx) : Bool :=
  match e.run with
  | .idle | .arrived => true
  | .running => e.stopped
  | _ => false

/-- The key of a header that waits for it, as it now stands, keeps its section waiting (23 R324). -/
def State.keyWaits (s : State) (c : Nat) (key : BitVec 24 × BitVec 32 × Nat) (k : KeyState) : Bool :=
  match k, s.keyCheck c key.1 key.2.1 with
  | .waits, .waits | .rotate, .waits => true
  | .rotate, .missOwn => key.2.2 == 0
  | _, _ => false

/-- An engine that cannot reach its next pre-emption point: it is trapped, or blocked in a wait, which it has tried in this cycle. -/
def State.stuck (s : State) (c x : Nat) : Bool :=
  let e := (s.cl c).cx x
  decide (e.run = .trapped) || (match e.phase with
    | .start h _ k => (h.key.any fun key => s.keyWaits c key k) || ((k == .free || k == .judged true || k == .judged false) && !s.mayStart c x h)
    | .shoot _ _ _ => true
    | _ => e.blocked)

/-- The engines of a task. -/
def taskEngines : List Nat := [0, 1, 2, 3, 4]

/-- Nothing of a cluster's task is in the middle of a word, no handler of its traps runs (R383), and every result has landed. -/
def State.savable (s : State) (c : Nat) : Bool :=
  s.settled c && !((s.cl c).cx 5).trapHandler && !((s.cl c).cx 6).trapHandler && !(taskEngines.any fun x => match ((s.cl c).cx x).phase with
    | .accept .. | .post | .bank _ _ | .shoot _ _ _ | .kvapp _ => true
    | _ => false)

/-- A team of die t that still has a task on a cluster. -/
def State.teamRuns (s : State) (t : Nat) (team : BitVec 16) : Bool := (dieClusters t).any fun c => (s.cl c).ofTeam team

/-- A pre-emption by Save that has saved the whole team is over; a supervisor's SAVE is done. -/
def State.saveDone (s : State) (t : Nat) : State :=
  match (s.dist t).pre with
  | some p =>
    if p.act = .save ∧ s.teamRuns t p.team = false then
      let s := s.modDist t fun q => { q with pre := none }
      if p.noDrain then s.modSup t fun b => b.finish true 0 else s
    else s
  | none => s

/-- The image of cluster c goes to a slot and its task leaves it, ready again as if it had just become ready. A drop not yet reported has
its record (log 71). -/
def State.saveCluster (s : State) (c n : Nat) (x : Task) : State :=
  let t := dieOf c
  let s := s.dropRecords c
  let s := s.putShadow t n (s.cl c) (s.saveImage c)
  let s := (s.modCl c Cluster.vacate).modCl c fun k => { k with saving := false }
  (s.makeReady t x.tid fun y => { y with place := .saved n }).saveDone t

/-- SAVE_IMAGE_COMPLETE: the image of a cluster whose engines have all stopped is saved: under TYIELD or a Save into a free slot, under
SWAPOUT into its own. When every engine that has not stopped is stuck, the stopped ones run on. -/
def execSaveImageComplete (c : Nat) (s : State) : Out :=
  let t := dieOf c
  let k := s.cl c
  let b := s.sup t
  if decide (320 ≤ c) then .next s
  else if decide (b.cmd = some .swapout) && !k.saving && (SMap.get? b.swap (localOf c)).isNone then
    if s.savable c then
      let s := s.dropRecords c
      let s := (s.putShadow t (swapSlot t (localOf c)) k (s.saveImage c)).modSup t fun b => { b with swap := SMap.set b.swap (localOf c) k.task }
      let s := s.modCl c Cluster.vacate
      .next (if (s.sup t).swap.length = clustersOn t then s.modSup t fun b => b.finish true 0 else s)
    else .next s
  else match s.taskOn c with
    | none => .next s
    | some x =>
      if k.saving || (s.beingSaved c && taskEngines.all fun g => (k.cx g).atRest) then
        match s.freeShadow t with
        | some n => .next (if s.savable c then s.saveCluster c n x else s)
        | none => .next s
      else if s.beingSaved c && (taskEngines.any fun g => (k.cx g).stopped) &&
          taskEngines.all fun g => (k.cx g).atRest || s.stuck c g then
        .next (s.modCl c Cluster.unstop)
      else .next s

/-- SAVE_DRAIN_FALLBACK: a Save that is not finished within 4,096 ticks becomes Drain. -/
def execSaveDrainFallback (t : Nat) (s : State) : Out :=
  match (s.dist t).pre with
  | some p =>
    if p.act = .save ∧ p.noDrain = false ∧ p.since + 4096 ≤ s.ticksOf t then
      let s := s.modDist t fun q => { q with pre := some { p with act := .drain } }
      .next ((dieClusters t).foldl (fun s c => if (s.cl c).ofTeam p.team && !(s.cl c).saving then s.modCl c Cluster.unstop else s) s)
    else .next s
  | none => .next s

/-! ### Restoring (R377, R381, R382) -/

/-- Load a saved context into a cluster. -/
def State.loadSaved (s : State) (c : Nat) (w : Saved) : State :=
  (s.loadInto c w.img w.ctxs).modCl c fun k => { k with fails := w.fails, traps := w.traps, m := { k.m with steps := w.steps } }

/-- The fault record of a restore that fails (R381). -/
def State.restoreRecord (s : State) (c : Nat) (tid : BitVec 32) (asid : BitVec 8) : State :=
  s.logFault (dieOf c) { Fault.Rec.plain .param (masterOf c 0) with tid := tid.toNat, asid := asid.toNat }

/-- A restore fails (R381): a fault record, and the task retires as under KILL. -/
def State.restoreFails (s : State) (c : Nat) (x : Task) : State := (s.restoreRecord c x.tid (recAsid x.rcd)).forget (dieOf c) x

/-- No task published since SWAPOUT that names a cluster is in flight, and no cluster whose image is out runs one (R382). -/
def State.swapTasksDone (s : State) (t : Nat) : Bool :=
  !((s.dist t).tasks.any fun x => decide ((s.sup t).swapSeq ≤ x.seq) && recClaff x.rcd != 0xFFFF) &&
    (dieClusters t).all fun c => !s.onLoan c || (s.cl c).task.isNone

/-- A cluster's image is swapped in. -/
def State.swapInto (s : State) (c : Nat) (rcd : Option (BitVec 1024)) : State :=
  let t := dieOf c
  let n := swapSlot t (localOf c)
  let w := s.getShadow t n
  let s := s.freeSlot t n
  match rcd with
  | none =>
    if imageOk (isRing c) w.img then
      (s.loadSaved c w).modCl c fun k => { k with ctx := k.ctx.map fun e => if e.1 < 5 then (e.1, { e.2 with run := .idle }) else e }
    else s.restoreRecord c 0 0
  | some r =>
    if imageOk (isRing c) w.img then (s.modCl c fun k => k.setUp r).loadSaved c w
    else match (s.dist t).tasks.find? fun x => x.tid == recTid r with
      | some x => s.restoreFails c x
      | none => s

/-- CONTEXT_RESTORE: the saved task that heads the order for a free cluster is restored on it; under SWAPIN a cluster's own image is. -/
def execContextRestore (t c : Nat) (s : State) : Out :=
  if !(decide (dieOf c = t) && decide (c < 320)) then .next s
  else if (s.sup t).cmd = some .swapin then
    match SMap.get? (s.sup t).swap (localOf c) with
    | none => .next s
    | some rcd =>
      if !s.swapTasksDone t then .next s
      else
        let s := (s.swapInto c rcd).modSup t fun b => { b with swap := SMap.del b.swap (localOf c) }
        if (s.sup t).swap.isEmpty then
          let s := (dieClusters t).foldl (fun s c => s.modCl c fun k => { k with swapped := false }) s
          .next (s.modSup t fun b => b.finish true 0)
        else .next s
  else if s.openCluster c then
    match firstReady (s.readyFor t c) with
    | none => .next s
    | some x =>
      match x.place with
      | .saved n =>
        let w := s.getShadow t n
        let s := s.freeSlot t n
        if imageOk (isRing c) w.img then .next (((s.placeTask t c x).modCl c fun k => k.setUp x.rcd).loadSaved c w)
        else .next (s.restoreFails c x)
      | _ => .next s
  else .next s

/-! ### The choice of a pre-emption (R374 to R376) -/

/-- Clusters of die t that a task can use. -/
def usable (t : Nat) (x : Task) : List Nat := (dieClusters t).filter x.canUse

/-- A ready task that asks for a pre-emption. -/
def State.asksFor (s : State) (t : Nat) (x : Task) : Bool :=
  x.deadline != 0 && (match x.ready with
    | some (_, tick) => decide (tick + 1 ≤ s.ticksOf t)
    | none => false) && (usable t x).all fun c => match (s.cl c).task with
      | some r => decide (recPrio x.rcd < recPrio r)
      | none => false

/-- A team that may not be a victim. -/
def State.teamSpared (s : State) (t : Nat) (team : BitVec 16) : Bool :=
  ((s.dist t).tasks.any fun x => recTeam x.rcd == team && (s.genNow t).any x.isHolder) ||
    (dieClusters t).any fun c => (s.cl c).ofTeam team &&
      ((s.sup t).esc.getLsbD (localOf c) || ((s.cl c).cx 5).trapHandler || ((s.cl c).cx 6).trapHandler)

/-- The tasks of a team on clusters of die t. -/
def State.teamOn (s : State) (t : Nat) (team : BitVec 16) : List (Nat × Task) :=
  (dieClusters t).filterMap fun c => if (s.cl c).ofTeam team then (s.taskOn c).map fun x => (c, x) else none

/-- When the team was last issued a task. -/
def State.teamIssued (s : State) (t : Nat) (team : BitVec 16) : Nat := (s.teamOn t team).foldl (fun a p => max a p.2.issueNo) 0

/-- The victim for a task. -/
def State.victim (s : State) (t : Nat) (x : Task) : Option (BitVec 16) :=
  let cs := (usable t x).filterMap fun c => (s.cl c).task.map fun r => (recPrio r, recTeam r)
  ((cs.filter fun p => !s.teamSpared t p.2).foldl (fun (b : Option (Nat × BitVec 16)) p => match b with
    | none => some p
    | some q => if q.1 < p.1 ∨ (q.1 = p.1 ∧ s.teamIssued t q.2 < s.teamIssued t p.2) then some p else some q) none).map (·.2)

/-- OFF banks of a cluster. -/
def Cluster.offBanks (k : Cluster) : Nat := ((List.range 32).filter fun b => bankState k.bankctl b == 2).length

/-- D of R375: the drain estimate. -/
def State.drainTicks (s : State) (t : Nat) (team : BitVec 16) : Nat :=
  (s.teamOn t team).foldl (fun a p =>
    let e := s.ticksOf t - p.2.issued
    let n := (s.cl p.1).progc.toNat
    max a (if n = 0 then 2 ^ 32 - 1 else e * (65536 - n) / n)) 0

/-- S of R375: the save estimate. -/
def State.saveTicks (s : State) (t : Nat) (team : BitVec 16) : Nat :=
  (((s.teamOn t team).map fun p => Config.imageBytes - 4096 * (s.cl p.1).offBanks).sum + 155647) / 155648

/-- X of R375: the discard estimate. -/
def State.discardTicks (s : State) (t : Nat) (team : BitVec 16) : Nat :=
  (s.teamOn t team).foldl (fun a p => max a (s.ticksOf t - p.2.issued)) 0

/-- W of R375: ticks until the deadline. -/
def State.slackTicks (s : State) (t : Nat) (x : Task) : Nat :=
  (((x.deadline.toNat / 65536 : Int) - (s.frameOf t).toNat) * s.flenOf t + (x.deadline.toNat % 65536 : Int) - (s.tickOf t).toNat).toNat

/-- The action of R376. -/
def chooseAct (d sv x w : Nat) (e slots : Bool) : PreAct :=
  if d ≤ w ∧ d ≤ 2 * sv then .drain
  else if e ∧ x ≤ 2 * sv then .discard
  else if sv ≤ w ∧ slots then .save
  else if e then .discard
  else if sv ≤ d ∧ slots then .save
  else .drain

/-- The estimator's choice for a team. -/
def State.estimate (s : State) (t : Nat) (team : BitVec 16) (p : Task) : PreAct :=
  let ts := s.teamOn t team
  chooseAct (s.drainTicks t team) (s.saveTicks t team) (s.discardTicks t team) (s.slackTicks t p)
    (ts.all fun q => recRst q.2.rcd && !q.2.xst) (decide (ts.length ≤ s.slotsFree t))

/-- A pre-emption of a team begins. -/
def State.beginPre (s : State) (t : Nat) (team : BitVec 16) (act : PreAct) (noDrain : Bool) : State :=
  let s := s.modDist t fun q => { q with pre := some { team := team, act := act, noDrain := noDrain, since := s.ticksOf t } }
  if act = .discard then
    (dieClusters t).foldl (fun s c => if (s.cl c).ofTeam team then s.modCl c fun k => { k with halted := true } else s) s
  else s

/-- Discard on one cluster whose accesses are performed: registers, queue entries and SRAM changes are dropped, and the task is ready
again, to start afresh. -/
def State.discardOn (s : State) (c : Nat) (x : Task) : State :=
  let t := dieOf c
  let s := s.replace (s.here (sramBase c)) 0x3F0000 x.sram
  let s := (s.modCl c Cluster.vacate).modCl c fun k => { k with halted := false }
  s.makeReady t x.tid fun y => { y with place := .waiting, xst := false }

/-- A pre-emption in force goes on: Discard drops what it can of the clusters that it halted, and ends with them; Drain and Save end with the
team. -/
def State.goOnPre (s : State) (t : Nat) (p : Preempt) : State :=
  let s := if p.act = .discard then
      (s.teamOn t p.team).foldl (fun s q => if s.beingDropped q.1 && s.quiet q.1 then s.discardOn q.1 q.2 else s) s
    else s
  if p.act = .save then s.saveDone t
  else if p.act = .discard then
    (if (dieClusters t).any s.beingDropped then s else s.modDist t fun q => { q with pre := none })
  else if s.teamRuns t p.team = false then s.modDist t fun q => { q with pre := none } else s

/-- PREEMPTION_CHECK: what a Distributor does at a tick; it looks for a victim, and samples the estimator's inputs, at the tick's start (R374,
R375). A supervisor's SAVE that found another pre-emption in force begins. -/
def execPreemptionCheck (t : Nat) (s : State) : Out :=
  let q := s.dist t
  if decide (12 ≤ t) then .next s
  else match q.pre with
    | some p => .next (s.goOnPre t p)
    | none =>
      match (s.sup t).cmd with
      | some (.save team) => .next ((s.beginPre t team .save true).saveDone t)
      | _ =>
        if s.cycle.toNat % Config.cyclesPerTick ≠ 0 then .next s
        else match firstReady (q.tasks.filter fun x => s.asksFor t x && (s.victim t x).isSome) with
          | none => .next s
          | some x => match s.victim t x with
            | none => .next s
            | some team => .next (s.beginPre t team (s.estimate t team x) false)

/-! ### The supervisor block (R370 to R372, 03 R48) -/

/-- Offset of a register of die t's supervisor block. -/
def supOff (t o : Nat) : Nat := 0x13000 + t * 0x100 + o

/-- A core writes a register of die t's supervisor block: only the partition's supervisor may. -/
def State.supWrite (s : State) (core t o : Nat) (f : State → State) : State :=
  s.coreWrite core (supOff t o) fun s =>
    if decide (t < 12) && s.superOfDie t == some core then f s else s.cfgIgnored core (supOff t o)

/-- A core writes a register of the hub's own block: a core set in SUPV may. -/
def State.hubBlockWrite (s : State) (core o : Nat) (f : State → State) : State :=
  s.coreWrite core (supOff 12 o) fun s => if s.hub.supv.getLsbD core then f s else s.cfgIgnored core (supOff 12 o)

/-- A write of SUPCMD: ignored while a command is not done. -/
def State.supCommand (s : State) (core t : Nat) (f : State → State) : State :=
  s.supWrite core t 0x18 fun s => if (s.sup t).rspDone then f s else s.cfgIgnored core (supOff t 0x18)

/-- A command is done. -/
def State.supDone (s : State) (t : Nat) (ok : Bool) : State := s.modSup t fun b => b.finish ok 0

/-- A command begins. -/
def State.supBegin (s : State) (t : Nat) (cmd : SupCmd) : State :=
  s.modSup t fun b => { b with rspDone := false, rspOk := false, rspRes := 0, cmd := some cmd }

/-- RETRY and SKIP: each trapped engine resumes, after the word at TRAPPC for SKIP. A header at TRAPPC that has no words to skip is
reached again (log 26). -/
def State.resumeAll (s : State) (t : Nat) (cl : BitVec 5) (skip : Bool) : State :=
  let b := s.sup t
  if !b.esc.getLsbD cl.toNat || b.frz.getLsbD cl.toNat then s.supDone t false
  else
    let c := clusterNo t cl.toNat
    let s := s.modSup t fun b => { b with esc := b.esc &&& ~~~(BitVec.ofNat 32 (2 ^ cl.toNat)) }
    let s := (s.modCl c fun k => { k with halted := false, traps := [] }).supDone t true
    [0, 5, 6, 1, 2, 3, 4].foldl (fun s x =>
      if ((s.cl c).cx x).run = .trapped then
        (if skip then (s.resumeSkip c x).getD (s.resume c x) else s.resume c x)
      else s) s

/-- RETRY. -/
def execRetry (core t : Nat) (cl : BitVec 5) (s : State) : Out := .next (s.supCommand core t fun s => s.resumeAll t cl false)
/-- SKIP. -/
def execSkip (core t : Nat) (cl : BitVec 5) (s : State) : Out := .next (s.supCommand core t fun s => s.resumeAll t cl true)

/-- KILL: the cluster halts; TASK_RETIREMENT ends the command once its accesses are performed or have failed. -/
def execKill (core t : Nat) (cl : BitVec 5) (s : State) : Out :=
  .next (s.supCommand core t fun s =>
    let c := clusterNo t cl.toNat
    if clustersOn t ≤ cl.toNat ∨ (s.cl c).task = none then s.supDone t false
    else (s.supBegin t (.kill c)).modCl c fun k => { k with halted := true })

/-- SAVE. -/
def execSaveTeam (core t : Nat) (team : BitVec 16) (s : State) : Out :=
  .next (s.supCommand core t fun s =>
    if !((s.dist t).tasks.any fun x => recTeam x.rcd == team) then s.supDone t false
    else
      let s := s.supBegin t (.save team)
      if (s.dist t).pre.isNone then (s.beginPre t team .save true).saveDone t else s)

/-- SWAPOUT: every cluster of the die halts at its next issue point. -/
def execSwapout (core t : Nat) (s : State) : Out :=
  .next (s.supCommand core t fun s =>
    if s.slotsFree t < 32 ∨ (s.sup t).esc ≠ 0 ∨ (dieClusters t).any (fun c => ((s.cl c).cx 5).trapHandler || ((s.cl c).cx 6).trapHandler) ∨
        (s.sup t).swap ≠ [] then s.supDone t false
    else
      let s := match (s.dist t).pre with
        | some p => s.cancelPre t p.team
        | none => s
      let s := (s.supBegin t .swapout).modSup t fun b => { b with swapSeq := (s.dist t).nseq }
      (dieClusters t).foldl (fun s c => s.modCl c fun k => { k with swapped := true }) s)

/-- SWAPIN. -/
def execSwapin (core t : Nat) (s : State) : Out :=
  .next (s.supCommand core t fun s => if (s.sup t).swap.isEmpty then s.supDone t false else s.supBegin t .swapin)

/-- FRZ: bits written with 1 are released. Of the hub's block, a core set in SUPV writes the bits of the other cores. -/
def execFrz (core t : Nat) (v : BitVec 32) (s : State) : Out :=
  if t = 12 then
    .next (s.hubBlockWrite core 0 fun s =>
      s.modSup 12 fun b => { b with frz := b.frz &&& ~~~(v &&& ~~~(BitVec.ofNat 32 (2 ^ core))) })
  else .next (s.supWrite core t 0 fun s => s.modSup t fun b => { b with frz := b.frz &&& ~~~v })

/-- The frozen agent of die t is released: a copy engine goes on with its operations (29 R370). -/
def State.releaseAgent (s : State) (t : Nat) : State :=
  let s := s.modSup t fun b => { b with agfrz := false }
  if 8 ≤ t ∧ t < 12 then s.modADie (t - 8) fun a => a.goOn false else s

/-- AGFRZ: a write of 1 releases the die's agent. -/
def execAgfrz (core t : Nat) (v : BitVec 1) (s : State) : Out :=
  .next (s.supWrite core t 0x10 fun s => if v != 0 then s.releaseAgent t else s)

/-- ESTCLR: early-signal entries are freed. -/
def execEstclr (core t : Nat) (all : Bool) (tid : BitVec 32) (s : State) : Out :=
  .next (s.supWrite core t 0x38 fun s => s.modDist t fun q => { q with early := if all then [] else SMap.del q.early tid.toNat })

end Sys2Proof.Machine
end

