-- ==== Sys2Proof/Machine/PageCmd.lean ====
section
/-! DEFINITION. The hub's commands to a page arbiter, and the Page Allocator's enabling (25 R336, R342 to R344). -/

namespace Sys2Proof.Machine

/-- Offset of a register of A-die a's block (25 R343). -/
def pageOff (a o : Nat) : Nat := 0x10800 + a * 0x100 + o

/-- A command is answered. -/
def ADie.respond (a : ADie) (ok : Bool) (res : BitVec 32) : ADie := { a with rspDone := true, rspOk := ok, rspRes := res }

/-- A hub core writes PGCMD of A-die a: while a command is not done the write is ignored, and a record says so. An A-die the module does not
have has no such register. -/
def State.pageCommand (s : State) (core a : Nat) (f : State → State) : State :=
  if 4 ≤ a then s else s.coreWrite core (pageOff a 0x38) fun s => if (s.adie a).rspDone then f s else s.cfgIgnored core (pageOff a 0x38)

/-- A command on a page (R344): it has no effect on a page that is free or beyond the table, and none when `f` answers none. -/
def State.onPage (s : State) (a : Nat) (page : BitVec 30) (f : State → ADie → Desc → Option ADie) : State :=
  let q := s.adie a
  let i := page.toNat
  let d := q.descOf i
  match if q.ndesc ≤ i ∨ d.free then none else f s q d with
  | some q' => s.modADie a fun _ => q'.respond true 0
  | none => s.modADie a fun q => q.respond false 0

/-- ALLOC: a page with limit 0, pinned as ARG[0] says. -/
def execAlloc (core a : Nat) (arg : BitVec 28) (_page : BitVec 30) (s : State) : Out :=
  .next (s.pageCommand core a fun s => s.modADie a fun q =>
    match q.allocPage 0 s.seq (s.horizon s.seq) (arg.getLsbD 0) with
    | (q, some i) => q.respond true (BitVec.ofNat 32 (a * 2 ^ 30 + i))
    | (q, none) => q.respond false 0xFFFFFFFF)

/-- REF. -/
def execRefPage (core a : Nat) (arg : BitVec 28) (page : BitVec 30) (s : State) : Out :=
  .next (s.pageCommand core a fun s => s.onPage a page fun _ q d =>
    if arg = 0 ∨ 65535 < arg.toNat ∨ 2 ^ 32 ≤ d.refc.toNat + arg.toNat then none
    else some (q.modDesc page.toNat fun d => { d with refc := d.refc + arg.setWidth 32 }))

/-- UNREF: a page whose count falls to 0 returns. -/
def execUnref (core a : Nat) (arg : BitVec 28) (page : BitVec 30) (s : State) : Out :=
  .next (s.pageCommand core a fun s => s.onPage a page fun _ q d =>
    if arg = 0 ∨ d.refc.toNat < arg.toNat then none else some (q.unref page.toNat arg.toNat s.seq))

/-- SETRO. -/
def execSetro (core a : Nat) (_arg : BitVec 28) (page : BitVec 30) (s : State) : Out :=
  .next (s.pageCommand core a fun s => s.onPage a page fun _ q _ => some (q.modDesc page.toNat fun d => { d with ro := true }))

/-- CLRRO: refused while a granule of the page's frame holds the RO attribute (R342). -/
def execClrro (core a : Nat) (_arg : BitVec 28) (page : BitVec 30) (s : State) : Out :=
  .next (s.pageCommand core a fun s => s.onPage a page fun s q d =>
    if (List.range (q.pageSize / 4096)).any fun g => s.isRo (d.addr.toNat + 4096 * g) then none
    else some (q.modDesc page.toNat fun d => { d with ro := false }))

/-- SETPIN. -/
def execSetpin (core a : Nat) (_arg : BitVec 28) (page : BitVec 30) (s : State) : Out :=
  .next (s.pageCommand core a fun s => s.onPage a page fun _ q _ => some (q.modDesc page.toNat fun d => { d with pinned := true }))

/-- CLRPIN. -/
def execClrpin (core a : Nat) (_arg : BitVec 28) (page : BitVec 30) (s : State) : Out :=
  .next (s.pageCommand core a fun s => s.onPage a page fun _ q _ => some (q.modDesc page.toNat fun d => { d with pinned := false }))

/-- Evict up to n evictable leaves, oldest first: the number evicted. -/
def ADie.evictUpTo (a : ADie) (now : Nat) : Nat → ADie × Nat
  | 0 => (a, 0)
  | n + 1 => match a.oldestLeaf fun _ _ => true with
    | none => (a, 0)
    | some m =>
      let (a, k) := (a.evict m now).evictUpTo now n
      (a, k + 1)

/-- EVICT; no more leaves can go than there are nodes. -/
def execEvict (core a : Nat) (arg : BitVec 28) (_page : BitVec 30) (s : State) : Out :=
  .next (s.pageCommand core a fun s => s.modADie a fun q =>
    if arg = 0 then q.respond false 0
    else
      let (q, k) := q.evictUpTo s.seq (min arg.toNat q.nodes.length)
      q.respond true (BitVec.ofNat 32 k))

/-- PUBLISH. -/
def execPublish (core a : Nat) (arg : BitVec 28) (page : BitVec 30) (s : State) : Out :=
  .next (s.pageCommand core a fun s => s.onPage a page fun _ q d =>
    if 32 < arg.toNat ∨ d.seq.getLsbD 0 ∨ d.tier ≠ 0 then none
    else some { (q.modDesc page.toNat fun d => { d with fill := arg.toNat, seq := d.seq + 2 }) with
      unseen := q.unseen.filter fun e => e.1 != a * 2 ^ 30 + page.toNat })

/-- The lists, the descriptor table and the node store as EN leaves them (R336). -/
def ADie.initLists (a : ADie) : ADie :=
  { a with initing := true, written := 0, desc := [], dcap := a.ndesc, dback := [], dfresh := 0, nodes := []
           hbm := { a.hbm with cap := a.hbm.nf, back := [], fresh := 0 }, cxl := { a.cxl with cap := a.cxl.nf, back := [], fresh := 0 } }

/-- A write of PGCFG: fields are set while EN = 0; while EN = 1 only EN is written (R343). Setting EN starts the initialisation, on an A-die
that is up (31 R394, R396). -/
def State.writePgcfg (s : State) (core a : Nat) (v : BitVec 64) : State :=
  let q := s.adie a
  let n := bitsNat v.toNat 26 0
  let big := v.getLsbD 32
  let en := v.getLsbD 63
  if q.en then
    let s := s.modADie a fun q => { q with en := en }
    if n = q.ndesc ∧ big = q.big then s else s.cfgIgnored core (pageOff a 8)
  else if n = 0 ∨ 2 ^ 26 < n ∨ (en ∧ !s.hub.dieUp (8 + a)) ∨ (big ∧ (q.hbm.base.getLsbD 16 ∨ q.cxl.base.getLsbD 16)) then s.cfgIgnored core (pageOff a 8)
  else s.modADie a fun q =>
    let q := { q with ndesc := n, big := big, en := en }
    if en then q.initLists else q

/-- PAGE_ALLOCATOR_ENABLE: a write of PGCFG. -/
def execPageAllocatorEnable (core a : Nat) (v : BitVec 64) (s : State) : Out :=
  .next (if 4 ≤ a then s else s.coreWrite core (pageOff a 8) fun s => s.writePgcfg core a v)

/-- PAGE_ALLOCATOR_INIT_DONE. -/
def execPageAllocatorInitDone (a : Nat) (s : State) : Out :=
  .next (if a < 4 ∧ (s.adie a).initing then s.modADie a fun q => { q with initing := false, written := q.ndesc } else s)

end Sys2Proof.Machine
end

