-- ==== Sys2Proof/Machine/Ring.lean ====
section
/-! DEFINITION. The ring (23): segments, frames, the window's states at each tick, forwarding, re-fetching and repair; the master's
election and reissue (03 R49, R50). -/

namespace Sys2Proof.Machine

/-! ### Segments (R317, R318, R328) -/

/-- n bytes of a segment's block, from an offset of its header's first byte. -/
def Seg.block (w : Seg) (o n : Nat) : List Byte := (List.range n).map fun i => SMap.get 0 w.bytes (o + i)
/-- A header field. -/
def Seg.hdr (w : Seg) (o n : Nat) : Nat := bytesNat (w.block o n)

/-- A segment read from a block of sparse bytes, at a ring position. -/
def Seg.ofBlock (pos : Nat) (bytes : SMap Byte) (bad : SMap Bool) : Seg :=
  let f (o n : Nat) : Nat := bytesNat ((List.range n).map fun i => SMap.get 0 bytes (o + i))
  { pos := pos, tag := BitVec.ofNat 24 (f 0 4), len := f 4 4, splen := f 12 4, fmt := BitVec.ofNat 64 (f 16 8), first := f 24 2 % 2 == 1
    bytes := bytes, bad := bad, lost := false, moved := 0 }

/-- The Ring Forwarder accepts a segment: reserved header fields are zero, LEN and SPOFF are as R317 sets, the CRC holds. -/
def Seg.accepted (w : Seg) : Bool :=
  let len := w.hdr 4 4
  w.hdr 3 1 == 0 && decide (w.hdr 24 2 < 2) && w.hdr 26 222 == 0 &&
    len % 131072 == 0 && decide (131072 ≤ len) && decide (len ≤ 8388608) && w.hdr 8 4 == 256 + len &&
    (crc64 (w.block 0 248 ++ w.block 256 (len + w.splen))).toNat == w.hdr 248 8

/-- Ring position p in the backing image of die d. -/
def State.backingPa (s : State) (d p : Nat) : Nat := (s.ring d).bkbase.toNat + p * Config.backingStride

/-- The segment at ring position p as the backing image holds it. -/
def State.backing (s : State) (d p : Nat) : Seg :=
  let base := s.backingPa d p
  let all := (s.mem.filter fun b => decide (base ≤ b.1) && decide (b.1 < base + Config.backingStride)).map fun b => (b.1 - base, b.2)
  let head := Seg.ofBlock p all []
  let size := 256 + head.len + head.splen
  let bad := (s.bad.filter fun u => decide (base ≤ u.1 * 8) && decide (u.1 * 8 < base + size)).map fun u => (u.1 - base / 8, u.2)
  { head with bytes := all.filter fun b => decide (b.1 < size), bad := bad }

/-- A segment that must be fetched again before a fill or a forward uses it (R325). -/
def Seg.broken (w : Seg) : Bool := w.lost || !w.bad.isEmpty

/-! ### Filling (R320) -/

/-- The Ring Forwarder of die d takes new operations: the ring runs and the Forwarder is not frozen (29 R370). -/
def State.forwarderOn (s : State) (d : Nat) : Bool :=
  decide (d < 8) && s.ringOn d && !(s.sup d).agfrz

/-- Window buffers in use. -/
def Ring.buffers (r : Ring) : Nat := (if r.inWin then 1 else 0) + r.fwd.length + r.incoming.toList.length

/-- Fill the incoming window from the FIFO head, when a buffer is free and the head is whole. -/
def State.fill (s : State) (d : Nat) : State :=
  if s.forwarderOn d then
    s.modRing d fun r => match r.fifo with
      | w :: ws => if r.incoming.isNone && decide (r.buffers < 2) && !w.broken then { r with incoming := some w, fifo := ws } else r
      | [] => r
  else s

/-! ### Frames (R320, R324) -/

/-- ROTSEL of the own-tag key that a cluster's engine waits for in rotate. -/
def State.rotateKey (s : State) (c x : Nat) : Option (BitVec 32) :=
  match ((s.cl c).cx x).phase with
  | .start h _ .rotate => h.key.map fun k => k.2.1
  | .wseg true =>
    let s1 : State := { s with cur := (c, x) }
    match s1.wordAt with
    | .ok (.wseg w) => match s1.srcSOr w.sa 2 (ftBit w 2) 0xFFFFFFFF with
      | .ok r => some (r.setWidth 32)
      | .error _ => none
    | _ => none
  | _ => none

/-- Tasks in a rotate wait hold the generation that has arrived, when it matches. -/
def State.reHold (s : State) (d : Nat) (g : Gen) : State :=
  (dieClusters d).foldl (fun t c =>
    match t.taskOn c with
    | none => t
    | some k =>
      if recKeyed k.rcd && recKey k.rcd == g.tag &&
          (List.range 7).any fun x => match s.rotateKey c x with
            | some sel => sel == 0xFFFFFFFF || sel == g.rot
            | none => false then
        t.modTaskOn c fun k => { k with holds := some g, wrel := false }
      else t) s

/-- The incoming window becomes current: a frame starts. -/
def State.startFrame (s : State) (d : Nat) : State :=
  match (s.ring d).incoming with
  | none => s
  | some w =>
    let s := s.modRing d fun r => { r with
      win := some w, inWin := true, incoming := none, rot := if w.first then r.rot + 1 else r.rot, tick := 0, starve := false
      stall := false, stallers := [], fmts := w.fmt }
    let s := match s.genNow d with
      | some g => s.reHold d g
      | none => s
    s.fill d

/-- A frame may start on die d: the previous window is released and the incoming one is complete and accepted. -/
def Ring.ready (r : Ring) : Bool := r.run && !r.halted && !r.inWin && r.incoming.isSome

/-- FRAME_START: at a tick boundary. -/
def execFrameStart (d : Nat) (s : State) : Out :=
  let r := s.ring d
  if decide (d < 8) && r.ready && s.ringOn d && s.cycle.toNat == Config.cyclesPerTick * r.ticks then .next (s.startFrame d) else .next s

/-! ### The end of a tick (R321 to R323) -/

/-- Holders of the current window of die d. -/
def State.holders (s : State) (d : Nat) : List Task :=
  match s.genNow d with
  | some g => (s.dist d).tasks.filter fun t => t.isHolder g
  | none => []

/-- The source an event about a task names: the cluster it runs on, or ran on last (03 R55); of a task that has run on none, a free value
(log 18). -/
def State.srcOfTask (s : State) (d : Nat) (t : Task) : Nat :=
  match t.place with
  | .running c => c
  | .saving c _ => c
  | _ => t.ranOn.getD (d * 32 + (Config.freeInfo s.free).toNat % 32)

/-- Insert by ascending source. -/
def insertSrc (x : Staller) : List Staller → List Staller
  | [] => [x]
  | y :: ys => if x.src < y.src then x :: y :: ys else y :: insertSrc x ys
/-- Ascending source. -/
def sortSrc (l : List Staller) : List Staller := l.foldl (fun a x => insertSrc x a) []

/-- The holders as stallers. -/
def State.asStallers (s : State) (d : Nat) : List Staller :=
  (s.holders d).map fun t => { tid := t.tid, src := s.srcOfTask d t, ticks := 0, holding := true }

/-- A SLIP event (03 R55). FLG[0] is 0 for a task that stopped holding before the skip rule ended the stall (log 66). -/
def State.slip (s : State) (d : Nat) (x : Staller) : State :=
  s.logEvent d (natBytes 1 3 ++ natBytes 1 0 ++ natBytes 2 x.src ++ natBytes 4 x.tid.toNat ++ natBytes 8 s.cycle.toNat ++
    natBytes 8 (s.ring d).frame.toNat ++ natBytes 4 (match (s.ring d).win with | some w => w.tag.toNat | none => 0) ++ natBytes 2 (min 65535 x.ticks) ++
    natBytes 2 (if x.holding then 1 else 0) ++ natBytes 32 0)

/-- The SLIP events of a stall, in ascending source. -/
def State.slips (s : State) (d : Nat) (l : List Staller) : State := (sortSrc l).foldl (fun s x => s.slip d x) s

/-- RELEASE: FRAME advances and the buffer goes to the forwards; a ring that is to halt stops (31 R396). The next frame starts at this
boundary when it can. -/
def State.release (s : State) (d : Nat) : State :=
  let s := s.modRing d fun r => { r with
    frame := r.frame + 1, inWin := false, tick := 0, stall := false, stallers := [], starve := true
    fwd := r.fwd ++ r.win.toList, run := r.run && !r.haltNext, haltNext := false }
  let s := s.fill d
  if (s.ring d).ready then s.startFrame d else s

/-- The skip rule (R323), then the release. -/
def State.skipWindow (s : State) (d : Nat) (l : List Staller) : State :=
  match s.genNow d with
  | none => s
  | some g =>
    let held := s.holders d
    let s := (dieClusters d).foldl (fun s c => s.modM c fun m => m.abortGen g) s
    let s := s.modDist d fun q => { q with tasks := q.tasks.map fun t => if t.isHolder g then t.miss g else t }
    let s := (sortSrc (l.filter fun x => held.any fun t => t.tid == x.tid)).foldl (fun s x => s.missLog d x.src x.tid g 0) s
    (s.slips d l).release d

/-- The stalled tick counted against each task that held through it, with the cluster it runs on by now. -/
def State.stallTick (s : State) (d : Nat) (held : List Task) (l : List Staller) : List Staller :=
  l.map fun x => if x.holding then { x with
      ticks := x.ticks + 1, holding := held.any fun t => t.tid == x.tid
      src := match held.find? fun t => t.tid == x.tid with
        | some t => s.srcOfTask d t
        | none => x.src } else x

/-- The state machine of R322 at the end of a tick in which the window was open. -/
def State.tickOpen (s : State) (d : Nat) : State :=
  let r := s.ring d
  let held := s.holders d
  if r.stall then
    let l := s.stallTick d held r.stallers
    let s := s.modRing d fun r => { r with slack := r.slack - 1, stallers := l }
    if held.isEmpty then (s.slips d l).release d
    else if (s.ring d).slack = 0 then s.skipWindow d l
    else s
  else if r.tick.toNat + 1 < r.flen.toNat then
    if !held.isEmpty || decide (r.tick.toNat + 1 < r.flenMin.toNat) || decide (r.slackMax ≤ r.slack) then
      s.modRing d fun r => { r with tick := r.tick + 1 }
    else
      (s.modRing d fun r => { r with
        slack := BitVec.ofNat 16 (min r.slackMax.toNat (r.slack.toNat + r.flen.toNat - 1 - r.tick.toNat)) }).release d
  else if held.isEmpty then s.release d
  else if 1 ≤ r.slack.toNat then s.modRing d fun r => { r with stall := true, stallers := s.asStallers d }
  else s.skipWindow d (s.asStallers d)

/-- TICK_END: a tick of a running die ends, with the last of its 64 cycles (00 R6). A ring of modules whose members do not all run has not
started (31 R394): its ticks count, and nothing else happens. -/
def execTickEnd (d : Nat) (s : State) : Out :=
  let r := s.ring d
  if decide (d < 8) && r.run && !r.halted && decide (Config.cyclesPerTick * (r.ticks + 1) ≤ s.cycle.toNat + 1) then
    let s := s.modRing d fun r => { r with ticks := r.ticks + 1 }
    if !s.ringOn d then .next s
    else if r.inWin then .next (s.tickOpen d)
    else
      let s := s.modRing d fun r => { r with starve := true, starveN := if r.starveN = 0xFFFF then r.starveN else r.starveN + 1 }
      let s := s.fill d
      .next (if (s.ring d).ready then s.startFrame d else s)
  else .next s

/-! ### Forwarding (R318, R320, R325) -/

/-- The successor lies in this module. -/
def State.succHere (s : State) (d : Nat) : Option Nat :=
  if (s.ring d).succMod = s.hub.modNo then some (s.ring d).succD.toNat else none

/-- Free FIFO slots of a die, those for segments on their way counted as taken. -/
def State.freeSlots (s : State) (d : Nat) : Nat :=
  Config.fifoSlots - (s.ring d).fifo.length -
    ((List.range 8).map fun p => if s.succHere p = some d then (s.ring p).onWay.length else 0).sum

/-- The way from a die to its successor is dead. -/
def State.ringDead (s : State) (d : Nat) : Bool :=
  match s.succHere d with
  | some u => (pathIn d u).any fun i => (s.link i).dead
  | none => ((pathIn d 12) ++ [54 + (SMap.get 0 s.hub.gwroute (s.ring d).succMod.toNat).toNat % 8]).any fun i => (s.link i).dead

/-- SEGMENT_FORWARD: the oldest released buffer of die d is forwarded, when the successor has a free slot; re-injected segments go
before it (R326). A frame that waited for a free buffer is filled. -/
def execSegmentForward (d : Nat) (s : State) : Out :=
  match (s.ring d).fwd with
  | [] => .next s
  | w :: ws =>
    if !s.forwarderOn d || w.broken || s.ringDead d then .next s
    else match s.succHere d with
      | some u =>
        if s.freeSlots u = 0 || !(s.ring u).lost.isEmpty then .next s
        else .next ((s.modRing d fun r => { r with fwd := ws, onWay := r.onWay ++ [{ w with moved := s.cycle.toNat }], lastOut := BitVec.ofNat 20 w.pos }).fill d)
      | none => .next ((s.modRing d fun r => { r with fwd := ws, lastOut := BitVec.ofNat 20 w.pos }).fill d)

/-- A segment arrives at die d: at the FIFO tail, lost when it is rejected. -/
def State.arriveSeg (s : State) (d : Nat) (w : Seg) : State :=
  (s.modRing d fun r => { r with fifo := r.fifo ++ [{ w with lost := !w.accepted }], lastIn := BitVec.ofNat 20 w.pos }).fill d

/-- The ring position after one. -/
def Ring.posAfter (r : Ring) (p : Nat) : Nat := if r.nseg = 0 then p + 1 else (p + 1) % r.nseg.toNat

/-- SEGMENT_ARRIVAL: from the predecessor in this module, or (`ext`, its bytes) from one in another module, whose forwards wait for the
re-injected positions (R326). -/
def execSegmentArrival (d : Nat) (ext : List Byte) (s : State) : Out :=
  let r := s.ring d
  if !s.forwarderOn d then .next s
  else match (List.range 8).find? fun p => s.succHere p == some d && !(s.ring p).onWay.isEmpty && !r.bypass.getLsbD p with
    | some p =>
      if s.ringDead p then .next s
      else match (s.ring p).onWay with
        | w :: ws => .next ((s.modRing p fun q => { q with onWay := ws }).arriveSeg d w)
        | [] => .next s
    | none =>
      if ext.isEmpty || !r.lost.isEmpty || decide (Config.fifoSlots ≤ r.fifo.length) || ((List.range 8).any fun p => (s.ring p).run && s.succHere p == some d) then
        .next s
      else
        .next (s.arriveSeg d (Seg.ofBlock (r.posAfter r.lastIn.toNat)
          ((ext.zipIdx.map fun b => (b.2, b.1)).filter fun b => b.2 != 0) []))

/-- Replace a broken segment by its copy. -/
def Seg.mend (p : Nat) (b w : Seg) : Seg := if w.pos = p ∧ w.broken then { b with lost := !b.accepted } else w

/-- SEGMENT_REFETCH: position p of die d is read again from the backing image by the Ring Forwarder; or, under repair, the copy
engine of the station, when what it has started has ended (21 R309), writes the first lost position to the FIFO tail (R325, R326). -/
def execSegmentRefetch (d p : Nat) (s : State) : Out :=
  let r := s.ring d
  let pa := s.backingPa d p
  if !(decide (d < 8) && s.ringOn d) then .next s
  else if (r.fifo ++ r.fwd ++ r.win.toList ++ r.incoming.toList).any fun w => w.pos == p && w.broken then
    if (s.sup d).agfrz || s.dieHeld d then .next s
    else if !s.isFar pa && !s.mayAccess (0xA18 + d) bitR pa then .next (s.agentRefused (0xA18 + d) pa)
    else
      let b := s.backing d p
      .next ((s.modRing d fun r => { r with
        fifo := r.fifo.map (Seg.mend p b), fwd := r.fwd.map (Seg.mend p b), win := r.win.map (Seg.mend p b)
        incoming := r.incoming.map (Seg.mend p b) }).fill d)
  else match r.lost with
    | q :: qs =>
      let n := d / 2
      if q ≠ p ∨ s.freeSlots d = 0 ∨ (s.sup (8 + n)).agfrz ∨ !(s.adie n).moves.isEmpty ∨ s.dieHeld (8 + n) then .next s
      else if !s.isFar pa && !s.mayAccess (0xA10 + n) bitR pa then .next (s.agentRefused (0xA10 + n) pa)
      else .next ((s.modRing d fun r => { r with lost := qs }).arriveSeg d (s.backing d p))
    | [] => .next s

/-! ### Election and reissue (03 R49, R50) -/

/-- A partition's dies take a new master, which takes over the copies the old one kept; a master in another module stays (log 49). -/
def State.elect (s : State) (p : Nat) : State :=
  match s.liveDies p with
  | [] => s
  | m :: _ =>
    let old := (s.dist m).master
    if 8 ≤ old then s else
    let kept := if old < 8 ∧ old ≠ m then (s.dist old).kept else []
    let s := if old < 8 ∧ old ≠ m then s.modDist old fun q => { q with kept := [] } else s
    let s := (List.range 12).foldl (fun s t => if s.partOf t = p ∧ (s.dist t).master < 8 then s.modDist t fun q => { q with master := m } else s) s
    s.modDist m fun q => { q with kept := q.kept ++ kept }

/-- The master acts on the tasks of a die that is fenced off. One in another module does so there, and its reissues arrive as messages. -/
def State.reissue (s : State) (p lost : Nat) : State :=
  match s.masterHere p with
  | none => s.modDist lost fun q => { q with tasks := [], early := [], todo := [] }
  | some m =>
    let live := s.liveDies p
    let far := s.farLive p
    let tasks := (s.dist lost).tasks
    let todo := (s.dist lost).todo
    let kept := (s.dist m).kept.filter fun e => e.die == lost
    let range (x : Task) : Nat × Nat := match kept.find? fun e => e.tid == x.tid with
      | some e => (e.first.toNat, e.count.toNat)
      | none => ((s.paramRange lost x.rcd).1.toNat, (s.paramRange lost x.rcd).2.toNat)
    let s := ({ s with free := s.free + 1 } : State).modDist lost fun q => { q with tasks := [], early := [], todo := [] }
    let s := s.modDist m fun q => { q with kept := q.kept.filter fun e => e.die != lost }
    let s := tasks.foldl (fun s x =>
      if recSafe x.rcd then s.launchOver live far x.rcd (range x).1 (range x).2 0xFFF
      else s.logFault m { Fault.Rec.plain .dieTask 0xFFF with tid := x.tid.toNat }) s
    todo.foldl (fun s e => s.launchOver live far e.rcd e.first.toNat e.count.toNat e.src) s

/-! ### Repair (R326, R327) -/

/-- The REPAIR entry of partition p, in the log of the coordinator, which the master is; `lost` is the member's module and die as the entry
holds them. A ring that halts informs the supervisor (R326). A coordinator in another module writes it there. -/
def State.repairEntry (s : State) (p why lost nrei first flg : Nat) : State :=
  match s.masterHere p with
  | none => s
  | some m =>
    let t := s.logEvent m (natBytes 1 5 ++ natBytes 1 why ++ natBytes 2 lost ++ natBytes 4 nrei ++ natBytes 8 s.cycle.toNat ++
      natBytes 8 (s.ring m).frame.toNat ++ natBytes 4 first ++ natBytes 1 flg ++ natBytes 35 0)
    if 2 ≤ flg then t.interrupt m else t

/-- Ring positions after a and up to b, in ring order. -/
def Ring.between (r : Ring) (a b : Nat) : List Nat :=
  let n := r.nseg.toNat
  if n = 0 then [] else (List.range ((b + n - a % n) % n)).map fun i => (a + 1 + i) % n

/-- A fenced die issues nothing further: its clusters halt and its ring part stops. -/
def State.fenceOff (s : State) (d : Nat) : State :=
  (dieClusters d).foldl (fun s c => s.modCl c fun k => { k with halted := true })
    (s.modRing d fun r => { r with run := false, inWin := false, incoming := none, fwd := [], onWay := [], fifo := [], stall := false })

/-- A ring member of this module is lost (R326); `why` as the REPAIR entry names it. -/
def State.repair (s : State) (lost why : Nat) : State :=
  if !(decide (lost < 8) && (s.ring lost).run && !s.bypassed lost) then s
  else
    let p := s.partOf lost
    let old := (s.dist lost).master
    let next := s.succHere lost
    let pred := (List.range 8).find? fun d => d != lost && s.partOf d == p && s.succHere d == some lost && (s.ring d).run
    let live := (s.liveDies p).filter (· != lost)
    -- 1: every live member bypasses the lost die
    let s := live.foldl (fun s d => s.modRing d fun r => { r with bypass := r.bypass ||| BitVec.ofNat 8 (2 ^ lost) }) s
    let s := s.elect p
    let reelected := if old = lost then 1 else 0
    -- 2: the predecessor's forward stream goes to the next live die
    let succMod := (s.ring lost).succMod
    let succD := (s.ring lost).succD
    let s := match pred with
      | some q => s.modRing q fun r => { r with succMod := succMod, succD := succD, onWay := [] }
      | none => s
    let unreachable := match pred with
      | some q => s.ringDead q
      | none => false
    -- 3: the lost positions; the LASTOUT of a predecessor in another module is not known here (log 18)
    let lastOut := match pred with
      | some q => (s.ring q).lastOut.toNat
      | none => (Config.freeInfo s.free).toNat
    let lostPos := match next with
      | some n => (s.ring n).between (s.ring n).lastIn.toNat (lastOut % max 1 (s.ring n).nseg.toNat)
      | none => []
    -- of a receiver in another module, its LASTIN is not known here: how many positions it takes, and which first, are free values
    let f (i : Nat) : Nat := (Config.freeInfo (s.free + i)).toNat % ((s.ring lost).nseg.toNat + 1)
    let nrei := if next.isSome then lostPos.length else f 1
    let firstPos := if next.isSome then lostPos.headD 0 else f 2
    let s : State := { s with free := s.free + 3 }
    let s := s.fenceOff lost
    let halt := unreachable || !(s.ring lost).rcap
    let s := if halt then live.foldl (fun s d => s.modRing d fun r => { r with halted := true }) s
      else
        let s := live.foldl (fun s d => s.modRing d fun r => { r with repairing := true }) s
        match next with
        | some n => s.modRing n fun r => { r with lost := r.lost ++ lostPos }
        | none => s
    -- 4: the master reissues
    let s := s.reissue p lost
    s.repairEntry p why (s.hub.modNo.toNat * 256 + lost) (if halt then 0 else nrei) (if halt then 0 else firstPos)
      (reelected + if halt then 2 else 0)

/-- The way out of the module that a die's ring takes is dead (R326): the member it leads to is lost, no other way goes there, and the ring
halts. -/
def State.ringCut (s : State) (d : Nat) : State :=
  if (s.ring d).run && !(s.ring d).halted && (s.succHere d).isNone && s.ringDead d then
    let s := (s.liveDies (s.partOf d)).foldl (fun s e => s.modRing e fun r => { r with halted := true }) s
    s.repairEntry (s.partOf d) 0 ((s.ring d).succMod.toNat * 256 + (s.ring d).succD.toNat) 0 0 2
  else s

/-- No die of this module forwards to die d, whose ring leaves the module: its predecessor lies in another one. -/
def State.farPred (s : State) (d : Nat) : Bool :=
  s.ringSpans d && !((List.range 8).any fun p => (s.ring p).run && s.succHere p == some d)

/-- A die of another module as one number. -/
def farDie (m d : Nat) : Nat := 256 * (m + 1) + d

/-- The member of another module that die d forwards to. -/
def State.farSucc (s : State) (d : Nat) : Nat := farDie (s.ring d).succMod.toNat (s.ring d).succD.toNat

/-- The loss of a master in another module: the lowest-numbered live die takes its place, which may lie in any module (03 R49); which does is
free, until an election's result arrives (log 49). -/
def State.electFar (s : State) (d lost : Nat) : State :=
  let p := s.partOf d
  let v := (Config.freeInfo s.free).toNat
  let m := (s.liveDies p).head?.getD d
  let new := if v % 2 = 0 then m else farDie (v / 2 % 64) (v / 128 % 8)
  { (List.range 12).foldl (fun s t => if s.partOf t = p ∧ (s.dist t).master = lost then s.modDist t fun q => { q with master := new } else s) s with
    free := s.free + 1 }

/-- A neighbour of die d in another module is lost (R326). A lost master's successor is elected first. A lost predecessor leaves positions to
write to d's FIFO tail: those after d's LASTIN, up to the LASTOUT of the die before it. Behind a lost successor d forwards to that die's SUCC,
in whose module the rest of the repair runs. What only the other module knows (that LASTOUT, that SUCC, what is re-injected there) is a free
value (log 29). -/
def State.repairFar (s : State) (d lost : Nat) : State :=
  let p := s.partOf d
  let live := s.liveDies p
  let n := (s.ring d).nseg.toNat
  let name := lost - 256
  let master := live.any fun e => (s.dist e).master == lost
  let flg := if master then 1 else 0
  let s := if master then s.electFar d lost else s
  let f (i : Nat) : Nat := (Config.freeInfo (s.free + i)).toNat
  let s : State := { s with free := s.free + 3 }
  if !(s.ring d).rcap then
    (live.foldl (fun s e => s.modRing e fun r => { r with halted := true }) s).repairEntry p 1 name 0 0 (flg + 2)
  else
    let s := live.foldl (fun s e => s.modRing e fun r => { r with repairing := true }) s
    if (s.succHere d).isNone && s.farSucc d == lost then
      (s.modRing d fun r => { r with succMod := BitVec.ofNat 6 (f 0), succD := BitVec.ofNat 3 (f 0 / 64) }).repairEntry p 1 name
        (f 1 % (n + 1)) (f 2 % (n + 1)) flg
    else
      let pos := (s.ring d).between (s.ring d).lastIn.toNat (f 0 % max 1 n)
      (s.modRing d fun r => { r with lost := r.lost ++ pos }).repairEntry p 1 name pos.length (pos.headD 0) flg

/-- Die `lost` is a neighbour of die d: it follows or precedes it; a die of another module as `farDie` numbers it. -/
def State.neighbours (s : State) (d lost : Nat) : Bool :=
  if lost < 256 then d != lost && (s.succHere d == some lost || s.succHere lost == some d)
  else lost / 256 - 1 != s.hub.modNo.toNat && decide (lost / 256 ≤ 64) && decide (lost % 256 < 8) &&
    (((s.succHere d).isNone && s.farSucc d == lost) || s.farPred d)

/-- HEARTBEAT_TIMEOUT: die d, a neighbour, has had no heartbeat from `lost` for HBTO ticks, and has run that long. -/
def execHeartbeatTimeout (d lost : Nat) (s : State) : Out :=
  if decide (d < 8) && s.ringOn d && decide ((s.ring d).since + (s.ring d).hbto.toNat ≤ (s.ring d).ticks) && s.neighbours d lost then
    .next (if lost < 256 then s.repair lost 1 else s.repairFar d lost)
  else .next s

/-- SEGMENT_STORE_ERROR: an uncorrectable error strikes the Segment Store control state of die d. -/
def execSegmentStoreError (d : Nat) (s : State) : Out := .next (s.repair d 2)

/-- REPAIR_COMPLETE: the last lost position has been written to die d. -/
def execRepairComplete (d : Nat) (s : State) : Out :=
  let p := s.partOf d
  let members := (List.range 8).filter fun e => s.partOf e == p
  if decide (d < 8) && (s.ring d).repairing && members.all fun e => (s.ring e).lost.isEmpty then
    .next (members.foldl (fun s e => s.modRing e fun r => { r with repairing := false }) s)
  else .next s

end Sys2Proof.Machine
end

