-- ==== Sys2Proof/Machine/ConfigRegs.lean ====
section
/-! DEFINITION. Writes of hub configuration space (00 R7, 01 R21, R25, 03 R43, 23 R328, R329, 25 R343, 27 R350, R351, R364, 29 R371,
R373, 31 R385, R395), and the start of a ring. -/

namespace Sys2Proof.Machine

/-- The state an answer gives. -/
def stateOf (s : State) : Out → State
  | .next t => t
  | _ => s

/-! ### Partitions (01 R21) -/

/-- PARTCFG by a hub core. -/
def execPartcfg (core : Nat) (v : BitVec 32) (s : State) : Out :=
  .next (s.coreWrite core 0x14018 fun s => s.writePartcfg (s.cfgIgnored core 0x14018) v.toNat)

/-- PARTSUP by a hub core. -/
def execPartsup (core : Nat) (v : BitVec 64) (s : State) : Out :=
  .next (s.coreWrite core 0x14020 fun s => s.writePartsup (s.cfgIgnored core 0x14020) v)

/-! ### Access and group tables (01 R25, 03 R42, R43) -/

/-- A master other than a cluster engine whose write is refused; a cluster engine's context takes the trap (01 R26). -/
def State.masterRefused (s : State) (m pa : Nat) : State :=
  if m < 0xA00 then
    let c := m / 8
    let x := m % 8
    if ((s.cl c).cx x).run = .running then
      s.takeTrap c x ((s.cl c).cx x).pc { cause := .refused, info := some (BitVec.ofNat 64 pa), tgt := s.targetCode pa + 65536 }
    else s.refuse c x (s.targetCode pa + 65536) pa ((s.cl c).cx x).pc.toNat
  else s.agentRefused m pa

/-- ACCESS_TABLE_WRITE: hub application cores and the Hub Security Core write entries; any other master is refused. -/
def execAccessTableWrite (master : BitVec 12) (t : Nat) (m : BitVec 12) (v : BitVec 8) (s : State) : Out :=
  let w := master.toNat
  let pa := s.cfgPa (0x200000 + t * 4096 + m.toNat)
  if 14 ≤ t then .next s
  else if isCore w && !s.coreActs (w - 0xA00) then .next s
  else if s.mayAccess w bitW pa then .next { s with access := SMap.set s.access (t * 4096 + m.toNat) (v.setWidth 4) }
  else .next (s.masterRefused w pa)

/-- Groups other than i that cluster c belongs to. -/
def State.otherGroups (s : State) (i c : Nat) : Nat :=
  (s.groups.filter fun e => e.1 != i && e.2.mask.getLsbD c).length

/-- GROUP_TABLE_WRITE: a write that would give a cluster a fifth membership is not performed; one that changes MASK resets PHASE and
ARRIVED. -/
def execGroupTableWrite (core i : Nat) (mask : BitVec 320) (s : State) : Out :=
  let off := 0x210000 + i * 64
  if 256 ≤ i then .next s
  else .next (s.coreWrite core off fun s =>
    if (List.range 320).any fun c => mask.getLsbD c && decide (4 ≤ s.otherGroups i c) then s.cfgIgnored core off
    else if (s.group i).mask = mask then s
    else { s with groups := SMap.set s.groups i { mask := mask, phase := 0, arrived := 0, marks := 0 } })

/-! ### The ring's registers (23 R319, R328, R329) -/

/-- Offset of a register of ring die d's block. -/
def ringOff (d o : Nat) : Nat := 0x10000 + d * 0x100 + o

/-- The ring of die d's partition leaves the module, or may yet do so: not every member's RFCFG has been written (23 R328). -/
def State.ringMaySpan (s : State) (d : Nat) : Bool :=
  s.ringSpans d || (partSize s.hub.shape == 8 && (List.range 8).any fun e => (s.ring e).nseg == 0 && !s.bypassed e)

/-- Members of die d's ring; of a ring of modules all eight ring dies of each module, 2 to 64 of them (01 R20, log 28). -/
def State.ringMembers (s : State) (d : Nat) : Nat :=
  if s.ringMaySpan d then 8 * max 2 (min 64 Config.ringModules) else partSize s.hub.shape

/-- LENMAX: the largest LEN in the backing image of n segments at an address. -/
def State.lenMax (s : State) (base n : Nat) : Nat :=
  (List.range n).foldl (fun a i => max a (bytesNat (s.bytes (base + i * Config.backingStride + 4) 4))) 0

/-- FLENMIN (R319): 4 TB/s a hop in the module, 400 GB/s through a Gateway port. -/
def State.flenMinOf (s : State) (d : Nat) (base n : Nat) : BitVec 12 :=
  let len := s.lenMax base n
  let per := if s.ringSpans d then 2560000 else 25600000
  BitVec.ofNat 12 (max 2 ((len * 105 + per - 1) / per))

/-- Where the access tables refuse the Ring Forwarder of die d a read of the backing image of n segments at an address (01 R24, R25). -/
def State.backingRefused (s : State) (d base n : Nat) : Option Nat :=
  ((List.range n).map fun i => base + i * Config.backingStride).find? fun pa => !s.isFar pa && !s.mayAccess (0xA18 + d) bitR pa

/-- The Ring Forwarder of die d reads the lengths of its backing image for FLENMIN (R319); a refused read freezes it, and a frozen one reads
nothing (01 R26): the next accepted write has it read them. -/
def State.lookLen (s : State) (d : Nat) : State :=
  let r := s.ring d
  if r.nseg = 0 || (s.sup d).agfrz then s
  else match s.backingRefused d r.bkbase.toNat r.nseg.toNat with
    | some pa => s.agentRefused (0xA18 + d) pa
    | none => s.modRing d fun r => { r with flenMin := s.flenMinOf d r.bkbase.toNat r.nseg.toNat }

/-- Every member of die d's ring computes FLENMIN anew (R319). -/
def State.lookLens (s : State) (d : Nat) : State :=
  ((List.range 8).filter fun e => s.partOf e == s.partOf d).foldl State.lookLen s

/-- The successor, past bypassed dies of this module. -/
def State.liveSucc (s : State) : Nat → BitVec 6 × BitVec 3 → BitVec 6 × BitVec 3
  | 0, u => u
  | n + 1, u =>
    if u.1 = s.hub.modNo ∧ s.bypassed u.2.toNat then s.liveSucc n ((s.ring u.2.toNat).succMod, (s.ring u.2.toNat).succD) else u

/-- Nothing of a ring has been placed on a die. -/
def Ring.blank (r : Ring) : Bool := r.fifo.isEmpty && r.fwd.isEmpty && r.onWay.isEmpty && !r.inWin && r.incoming.isNone

/-- The share of the ring that die d starts with: first position and count. Positions run backwards round the live members, from the
lowest-numbered one on (log 28). -/
def State.firstShare (s : State) (d : Nat) : Nat × Nat :=
  let live := s.liveDies (s.partOf d)
  let k := live.length
  let o := (k - live.idxOf d) % k
  partOfRange 0 (s.ring d).nseg.toNat k o

/-- Place a die's share of the segments, read from the backing image; those of a refused read, or of a frozen Forwarder, must be fetched
(01 R26). -/
def State.placeShare (s : State) (d : Nat) : State :=
  let n := (s.ring d).nseg.toNat
  if !(s.ring d).blank || s.ringSpans d || n = 0 then s
  else
    let (first, count) := s.firstShare d
    let still := (s.sup d).agfrz
    let no := if still then none else s.backingRefused d (s.backingPa d first) count
    let segs := (List.range count).map fun i =>
      let w := s.backing d (first + i)
      { w with lost := !w.accepted || no.isSome || still }
    let s := match no with
      | some pa => s.agentRefused (0xA18 + d) pa
      | none => s
    s.modRing d fun r => { r with
      fifo := segs, lastIn := BitVec.ofNat 20 ((first + count + n - 1) % n), lastOut := BitVec.ofNat 20 ((first + n - 1) % n) }

/-- The partition of die d has lost more members than its ring can (31 R394). -/
def State.tooFew (s : State) (d : Nat) : Bool :=
  let gone := ((List.range 8).filter fun e => s.partOf e == s.partOf d && s.bypassed e).length
  (gone != 0 && !(s.ring d).rcap) || decide (2 ≤ gone)

/-- RUN is set on die d: a partition that has lost too many members stays halted. -/
def State.startRing (s : State) (d : Nat) : State :=
  if s.tooFew d then s.modRing d fun r => { r with halted := true }
  else
    let u := s.liveSucc 8 ((s.ring d).succMod, (s.ring d).succD)
    let s := s.modHub fun h => { h with power := if h.power = .h then .p0 else h.power, hot := false }
    let s := s.modRing d fun r => { r with
      run := true, halted := false, haltNext := false, succMod := u.1, succD := u.2, ticks := max r.ticks (s.cycle.toNat / 64)
      since := max r.ticks (s.cycle.toNat / 64), starve := r.starve || !r.inWin }
    (s.placeShare d).fill d

/-- Members of a partition agree on NSEG, FLEN and BKBASE (R328). -/
def State.membersAgree (s : State) (d : Nat) (r : Ring) : Bool :=
  (s.liveDies (s.partOf d)).all fun e =>
    e == d || ((s.ring e).nseg == r.nseg && (s.ring e).flen == r.flen && (s.ring e).bkbase == r.bkbase)

/-- A ring may be started: the dies are up (31 R392, R396), and in state H every die is below TWARN. -/
def State.mayRun (s : State) : Bool := s.hub.diesUp && (s.hub.power != .h || s.hub.cool)

/-- A write of RFCFG. While RUN = 1 only RUN is written, and a write of its other fields' own values leaves no record; HBTO keeps its value
under a write of 0; FLEN is held to FLENMIN when RUN is set (log 72). A split module joins no other's ring (01 R20). A write that is accepted
lets every member compute FLENMIN anew (R319). -/
def State.writeRfcfg (s : State) (core d : Nat) (v : BitVec 64) : State :=
  let n := v.toNat
  let r := s.ring d
  let run := v.getLsbD 63
  let hb : BitVec 16 := BitVec.ofNat 16 n
  let r' : Ring := { r with
    rcap := v.getLsbD 62, nseg := BitVec.ofNat 20 (bitsNat n 51 32), succMod := BitVec.ofNat 6 (bitsNat n 25 20)
    succD := BitVec.ofNat 3 (bitsNat n 18 16), hbto := if hb = 0 then r.hbto else hb }
  let bad := s.cfgIgnored core (ringOff d 0x20)
  if r.run then
    let s := s.modRing d fun r => { r with run := run }
    if r' = r then s else s.cfgIgnored core (ringOff d 0x20)
  else
    let room := ((s.modRing d fun _ => r').ringMembers d - if r'.rcap then 1 else 0) * Config.fifoSlots
    let r' := if r'.nseg = r.nseg then r' else { r' with fifo := [], fwd := [], onWay := [], inWin := false, incoming := none }
    let t := (s.modRing d fun _ => r').lookLens d
    let r' := t.ring d
    if r'.nseg = 0 ∨ room < r'.nseg.toNat ∨ (partSize s.hub.shape ≠ 8 ∧ r'.succMod ≠ s.hub.modNo) then bad
    else if run && (decide (r'.flen < r'.flenMin) || !t.membersAgree d r' || !t.mayRun) then bad
    else if run then t.startRing d else t

/-- RFCFG. -/
def execRfcfg (core d : Nat) (v : BitVec 64) (s : State) : Out :=
  .next (if 8 ≤ d then s else s.coreWrite core (ringOff d 0x20) fun s => s.writeRfcfg core d v)

/-- A write of ESCCFG. SLACK stays as it is, also above a lower SLACKMAX (log 72). -/
def State.writeEsccfg (s : State) (core d : Nat) (v : BitVec 64) : State :=
  let flen := BitVec.ofNat 12 v.toNat
  if (s.ring d).run || decide (flen < (s.ring d).flenMin) then s.cfgIgnored core (ringOff d 0)
  else s.modRing d fun r => { r with flen := flen, slackMax := BitVec.ofNat 16 (bitsNat v.toNat 47 32) }

/-- A write of BKBASE: the image is read anew when the ring next starts. On a running die it is ignored when it breaks R319 or R328. -/
def State.writeBkbase (s : State) (core d : Nat) (v : BitVec 64) : State :=
  let b := BitVec.ofNat 52 v.toNat
  let r := s.ring d
  let r := if r.run then { r with bkbase := b } else { r with bkbase := b, fifo := [], fwd := [], onWay := [], inWin := false, incoming := none }
  let t := (s.modRing d fun _ => r).lookLen d
  let r := t.ring d
  if b.toNat % 4096 ≠ 0 ∨ (r.run = true ∧ (r.flen < r.flenMin ∨ s.membersAgree d r = false)) then s.cfgIgnored core (ringOff d 0x28)
  else t

/-- BYPASS: while RUN = 1 a write that clears a bit is ignored, and a bit that is set starts a repair (R326). -/
def execBypass (core d : Nat) (v : BitVec 8) (s : State) : Out :=
  .next (if 8 ≤ d then s
    else s.coreWrite core (ringOff d 0x40) fun s =>
      let r := s.ring d
      if !r.run then (s.modRing d fun r => { r with bypass := v }).setMasters
      else if r.bypass &&& ~~~v ≠ 0 then s.cfgIgnored core (ringOff d 0x40)
      else
        let new := (List.range 8).filter fun e => v.getLsbD e && !r.bypass.getLsbD e
        let s := new.foldl (fun s e => s.repair e 3) s
        s.modRing d fun r => { r with bypass := r.bypass ||| v })

/-! ### Hub registers (27 R350, R351, R364, 31 R385, R395) -/

/-- FABCFG by a hub core. -/
def execFabcfg (core : Nat) (v : BitVec 64) (s : State) : Out :=
  .next (s.coreWrite core 0x10F00 fun s => s.writeFabcfg (s.cfgIgnored core 0x10F00) v)

/-- HOSTWIN. -/
def execHostwin (core : Nat) (v : BitVec 64) (s : State) : Out :=
  .next (s.coreWrite core 0x14010 fun s =>
    let b := bitsNat v.toNat 8 1
    if 192 < b then s.cfgIgnored core 0x14010
    else s.modHub fun h => { h with hostBase := BitVec.ofNat 8 b, hostEn := v.getLsbD 0 })

/-- PWRCAP. -/
def execPwrcap (core : Nat) (v : BitVec 64) (s : State) : Out :=
  .next (s.coreWrite core 0x14000 fun s =>
    let n := v.toNat
    let tc := bitsNat n 47 40
    let tw := bitsNat n 39 32
    let mc := bitsNat n 21 16
    let cw := bitsNat n 15 0
    if 85 ≤ tc ∧ tc ≤ 110 ∧ tw < tc ∧ 1 ≤ mc ∧ mc ≤ 32 ∧ 1000 ≤ cw ∧ cw ≤ 6200 then
      s.modHub fun h => { h with tcrit := BitVec.ofNat 8 tc, twarn := BitVec.ofNat 8 tw, maxcl := BitVec.ofNat 6 mc, capw := BitVec.ofNat 16 cw }
    else s.cfgIgnored core 0x14000)

/-! ### The event log's registers (29 R371, R373) -/

/-- A write of EVBASE or EVPTR of die t's block. -/
def State.writeEvent (s : State) (core t o : Nat) (v : BitVec 64) : State :=
  let f (s : State) : State :=
    if o = 0x28 then
      (if bitsNat v.toNat 51 0 % 4096 = 0 then s.modSup t fun b => { b with evBase := BitVec.ofNat 52 v.toNat }
       else s.cfgIgnored core (supOff t o))
    else if 10 < bitsNat v.toNat 43 40 then s.cfgIgnored core (supOff t o)
    else s.modSup t fun b => { b with depth := BitVec.ofNat 4 (bitsNat v.toNat 43 40), rd := BitVec.ofNat 20 v.toNat }
  if t = 12 then s.hubBlockWrite core o f else s.supWrite core t o f

/-- A write of SUPCMD (29 R372). -/
def State.writeSupcmd (s : State) (core t : Nat) (v : BitVec 64) : State :=
  let n := v.toNat
  let cl := BitVec.ofNat 5 n
  let bad := s.supWrite core t 0x18 fun s => s.cfgIgnored core (supOff t 0x18)
  if bitsNat n 59 48 ≠ 0 ∨ bitsNat n 31 5 ≠ 0 then bad
  else match bitsNat n 63 60 with
    | 1 => stateOf s (execRetry core t cl s)
    | 2 => stateOf s (execSkip core t cl s)
    | 3 => stateOf s (execKill core t cl s)
    | 4 => stateOf s (execSaveTeam core t (BitVec.ofNat 16 (bitsNat n 47 32)) s)
    | 5 => stateOf s (execSwapout core t s)
    | 6 => stateOf s (execSwapin core t s)
    | _ => bad

/-! ### The page blocks (25 R343, R344) -/

/-- A write of PGCMD. -/
def State.writePgcmd (s : State) (core a : Nat) (v : BitVec 64) : State :=
  let n := v.toNat
  let arg := BitVec.ofNat 28 (bitsNat n 59 32)
  let pg := BitVec.ofNat 30 n
  let bad := s.coreWrite core (pageOff a 0x38) fun s => s.cfgIgnored core (pageOff a 0x38)
  if bitsNat n 31 30 ≠ 0 then bad
  else match bitsNat n 63 60 with
    | 1 => stateOf s (execAlloc core a arg pg s)
    | 2 => stateOf s (execRefPage core a arg pg s)
    | 3 => stateOf s (execUnref core a arg pg s)
    | 4 => stateOf s (execSetro core a arg pg s)
    | 5 => stateOf s (execClrro core a arg pg s)
    | 6 => stateOf s (execSetpin core a arg pg s)
    | 7 => stateOf s (execClrpin core a arg pg s)
    | 8 => stateOf s (execEvict core a arg pg s)
    | 9 => stateOf s (execPublish core a arg pg s)
    | _ => bad

/-- A pool with a register's value: frames and base; the list stays as it is until EN is set (25 R343). -/
def poolOf (p : Pool) (v : BitVec 64) : Pool :=
  { p with base := BitVec.ofNat 52 (bitsNat v.toNat 35 0 * 65536), nf := bitsNat v.toNat 63 40 }

/-- A write of PRIVBASE, HBMPOOL, CXLPOOL or PGRES: set while EN = 0 and within its limit. -/
def State.writePageReg (s : State) (core a o : Nat) (v : BitVec 64) : State :=
  let q := s.adie a
  let n := v.toNat
  let bad := s.cfgIgnored core (pageOff a o)
  let poolOk := !(q.big && v.getLsbD 0)
  if q.en then bad
  else if o = 0 then (if bitsNat n 51 0 % 2 ^ 30 = 0 then s.modADie a fun q => { q with privBase := BitVec.ofNat 52 n } else bad)
  else if o = 0x10 then (if poolOk && decide (q.wmark ≤ bitsNat n 63 40) then s.modADie a fun q => { q with hbm := poolOf q.hbm v } else bad)
  else if o = 0x18 then (if poolOk then s.modADie a fun q => { q with cxl := poolOf q.cxl v } else bad)
  else if bitsNat n 23 0 ≤ bitsNat n 47 24 ∧ bitsNat n 47 24 ≤ q.hbm.nf then
    s.modADie a fun q => { q with wmark := bitsNat n 47 24, rsv := bitsNat n 23 0 }
  else bad

/-! ### Every write of configuration space -/

/-- Eight access-table entries. -/
def State.writeTables (s : State) (core o : Nat) (v : BitVec 64) : State :=
  (List.range 8).foldl (fun s i =>
    stateOf s (execAccessTableWrite (BitVec.ofNat 12 (0xA00 + core)) ((o - 0x200000) / 4096) (BitVec.ofNat 12 ((o - 0x200000) % 4096 + i))
      (BitVec.ofNat 8 (elemOf 8 i v.toNat)) s)) s

/-- A hub core writes the 8 bytes at an 8-byte aligned offset. Offsets that hold nothing writable ignore it (R7), and leave no record (log
71) but where a core that is not the supervisor writes a supervisor block (29 R371). -/
def State.cfgWrite (s : State) (core o : Nat) (v : BitVec 64) : State :=
  let reg (f : State → State) : State := s.coreWrite core o f
  if 0x200000 ≤ o ∧ o < 0x20E000 then s.writeTables core o v
  else if 0x210000 ≤ o ∧ o < 0x214000 then
    (let i := (o - 0x210000) / 64
     let j := o % 64 / 8
     if j < 5 then
       let m := (s.group i).mask.toNat
       stateOf s (execGroupTableWrite core i (BitVec.ofNat 320 (m - elemOf 64 j m * 2 ^ (64 * j) + v.toNat * 2 ^ (64 * j))) s)
     else reg id)
  else if 0x10000 ≤ o ∧ o < 0x10800 then
    (let d := (o - 0x10000) / 256
     if o % 256 = 0 then reg fun s => s.writeEsccfg core d v
     else if o % 256 = 0x20 then stateOf s (execRfcfg core d v s)
     else if o % 256 = 0x28 then reg fun s => s.writeBkbase core d v
     else if o % 256 = 0x40 then stateOf s (execBypass core d (BitVec.ofNat 8 v.toNat) s)
     else reg id)
  else if 0x10800 ≤ o ∧ o < 0x10C00 then
    (let a := (o - 0x10800) / 256
     let r := o % 256
     if r = 8 then stateOf s (execPageAllocatorEnable core a v s)
     else if r = 0x38 then s.writePgcmd core a v
     else if r = 0 ∨ r = 0x10 ∨ r = 0x18 ∨ r = 0x20 then reg fun s => s.writePageReg core a r v
     else reg id)
  else if 0x13000 ≤ o ∧ o < 0x13D00 then
    (let t := (o - 0x13000) / 256
     let r := (o - 0x13000) % 256
     if r = 0 then stateOf s (execFrz core t (BitVec.ofNat 32 v.toNat) s)
     else if r = 0x28 ∨ r = 0x30 then s.writeEvent core t r v
     else if t = 12 then reg id
     else if r = 0x10 then stateOf s (execAgfrz core t (BitVec.ofNat 1 v.toNat) s)
     else if r = 0x18 then s.writeSupcmd core t v
     else if r = 0x38 then stateOf s (execEstclr core t (v.getLsbD 63) (BitVec.ofNat 32 v.toNat) s)
     else s.supWrite core t r id)
  else if o = 0x14000 then stateOf s (execPwrcap core v s)
  else if o = 0x14010 then stateOf s (execHostwin core v s)
  else reg fun s => (s.openReg (s.cfgIgnored core o) o v).getD s

/-- CONFIG_REGISTER_WRITE. -/
def execConfigRegisterWrite (core off : Nat) (v : BitVec 64) (s : State) : Out :=
  .next (if off % 8 = 0 then s.cfgWrite core off v else s)

end Sys2Proof.Machine
end

