-- ==== Sys2Proof/Machine/Fabric.lean ====
section
/-! DEFINITION. The fabric (27): flits, keys, links, leases and shoot-downs; requests of hub cores, of the host and of other modules (27 R351,
29 R370, 31 R385); messages between Distributors (03 R49). -/

namespace Sys2Proof.Machine

/-! ### Flits (R346 to R354) -/

/-- Receive slots of a link for a virtual channel (R347). -/
def slotsOf (link vc : Nat) : Nat :=
  if link < 28 then [128, 128, 64, 32].getD vc 0 else if link < 54 then [128, 128, 0, 32].getD vc 0 else [256, 256, 256, 64].getD vc 0

/-- The direction of a link that flits travel in. -/
def Link.dir (l : Link) (d : Bool) : LinkDir := if d then l.d1 else l.d0
def Link.setDir (l : Link) (d : Bool) (x : LinkDir) : Link := if d then { l with d1 := x } else { l with d0 := x }

/-- The virtual channel of a header (R346). -/
def hdrVc (h : Nat) : Nat := bitsNat h 126 124
/-- Flits sent under a key bank. -/
def LinkDir.count (d : LinkDir) (kg : Bool) : Nat := d.fcnt.getD kg.toNat 0

/-- A new flit bears the sender's key bank and its FCNT, which never reaches 2^48 (R346, R352, R353). -/
def LinkDir.stamps (d : LinkDir) (h : Nat) : Bool :=
  bitsNat h 127 127 == d.kg.toNat && bitsNat h 95 80 == d.count d.kg % 2 ^ 16 && decide (d.count d.kg + 1 < 2 ^ 48)

/-- The sender holds credit for the flit's channel (R348); an idle flit needs none. -/
def LinkDir.credit (d : LinkDir) (link h : Nat) : Bool :=
  let v := hdrVc h
  decide (4 ≤ v) || decide ((d.sent.getD v 0 - d.lastf.getD v 0).toNat < slotsOf link v)

/-- The header returns counts that the receiver of the other direction has freed, in order: a flit on its way may bear an older one (log
12). -/
def LinkDir.returns (o : LinkDir) (h : Nat) : Bool :=
  (List.range 4).all fun v =>
    let l := o.lastf.getD v 0
    decide ((BitVec.ofNat 16 (bitsNat h (16 * v + 31) (16 * v + 16)) - l).toNat ≤ (o.freed.getD v 0 - l).toNat)

/-- The module fields of a header (R346, R350, R351): zero inside the module; a flit that leaves names this module as its source, and a
module that its port reaches or a listed multicast group; one that arrives is for this module. Idle flits name no destination. -/
def State.hdrModules (s : State) (link : Nat) (dir : Bool) (h : Nat) : Bool :=
  let dst := bitsNat h 123 118
  if link < 54 then bitsNat h 123 103 == 0
  else if dir then hdrVc h == 7 || bitsNat h 111 111 == 1 || dst == s.hub.modNo.toNat
  else bitsNat h 117 112 == s.hub.modNo.toNat && (hdrVc h == 7 ||
    (if bitsNat h 111 111 = 1 then decide (bitsNat h 110 103 < 64) && SMap.get false s.hub.gwval (bitsNat h 110 103)
     else (SMap.get 0 s.hub.gwroute dst).getLsbD 3 && (SMap.get 0 s.hub.gwroute dst).toNat % 8 == link - 54))

/-- The header has a reserved channel or a reserved bit (R346). -/
def hdrBad (h : Nat) : Bool := (decide (4 ≤ hdrVc h) && hdrVc h != 7) || bitsNat h 102 96 != 0 || bitsNat h 15 0 != 0

/-- The flit that the sender sends: one the receiver has asked to have again, with its original header (R352, R354), or a new one, which may
go before a replay. -/
def State.sends (s : State) (link : Nat) (dir : Bool) (hdr : BitVec 128) : Bool :=
  let l := s.link link
  let d := l.dir dir
  let h := hdr.toNat
  d.replay.contains hdr ||
    (d.stamps h && (hdrBad h || (d.credit link h && (l.dir !dir).returns h && s.hdrModules link dir h)))

/-- A flit has been sent: SENT of its channel and FCNT of its bank count it (R348, R352). -/
def LinkDir.sentOne (d : LinkDir) (h : Nat) : LinkDir :=
  let v := hdrVc h
  { d with sent := if v < 4 then d.sent.set v (d.sent.getD v 0 + 1) else d.sent, fcnt := d.fcnt.set d.kg.toNat (d.count d.kg + 1) }

/-- The counts accepted from a header (R348). -/
def acceptRet (link : Nat) (resync : Bool) (ret last : List (BitVec 16)) : List (BitVec 16) :=
  (List.range 4).map fun v =>
    let c := ret.getD v 0
    let l := last.getD v 0
    if resync || decide ((c - l).toNat ≤ slotsOf link v) then c else l

/-- The two ring dies that a link joins. -/
def ringEnds (link : Nat) : Option (Nat × Nat) :=
  (((List.range 8).flatMap fun a => (List.range 8).map fun b => (a, b)).find? fun p => decide (p.1 < p.2) && linkIndex p.1 p.2 == some link)

/-- Dead in-module links of a ring die. -/
def State.deadLinks (s : State) (d : Nat) : Nat :=
  ((List.range 13).filter fun u => u != d && (match linkIndex (min d u) (max d u) with
    | some i => (s.link i).dead
    | none => false)).length

/-- The ring die that a link joins to its station's A-die or to the hub. -/
def dieEnd (link : Nat) : Option Nat :=
  if 28 ≤ link ∧ link < 36 then some (link - 28) else if 42 ≤ link ∧ link < 50 then some (link - 42) else none

/-- A dead ring link takes one member out: the end with more dead links, or the one that forwards over it (log 29); a dead link from a ring die
to its A-die or to the hub takes that die out (R326). One on the ring's way to another module halts the ring. -/
def State.ringLinkLost (s : State) (link : Nat) : State :=
  match ringEnds link with
  | none =>
    let s := match dieEnd link with
      | some d => s.repair d 0
      | none => s
    (List.range 8).foldl State.ringCut s
  | some (a, b) =>
    let fwd := if s.succHere a = some b ∧ (s.ring a).run = true then some a
      else if s.succHere b = some a ∧ (s.ring b).run = true then some b else none
    match fwd with
    | none => s
    | some f =>
      let x := s.deadLinks a
      let y := s.deadLinks b
      s.repair (if y < x then a else if x < y then b else f) 0

/-- A link is declared dead (R355): the accesses it holds have failed under DEADLINK, and a ring link starts a repair. A store that some
reader already sees has passed it before. -/
def State.killLink (s : State) (link : Nat) : State :=
  let s := s.flushShown.modLink link fun l => { l with dead := true, up := false, lostAt := none }
  let fail (c : Nat) (a : Access) : Access := if a.live && s.accessDead c a then { a with fail := some .deadlink } else a
  let waits (c : Nat) (e : Ctx) : Ctx := match e.phase with
    | .accept as grp undo pops => { e with phase := .accept (as.map (fail c)) grp undo pops }
    | _ => e
  let s : State := { s with clusters := s.clusters.map fun k =>
      (k.1, { k.2 with mq := k.2.mq.map (fail k.1), ctx := k.2.ctx.map fun e => (e.1, waits k.1 e.2) }) }
  s.ringLinkLost link

/-- A flit that fails its tag, or whose header is reserved: a first failure asks for the replay, a second locks the port (R354). -/
def State.badFlit (s : State) (link : Nat) (dir : Bool) (hdr : BitVec 128) : State :=
  let d := (s.link link).dir dir
  if d.replay.contains hdr then
    ((s.modLink link fun l => { l with locked := true }).modHub fun h => { h with notified := true }).killLink link
  else s.modLink link fun l =>
    { (l.setDir dir { d.sentOne hdr.toNat with replay := d.replay ++ [hdr] }) with tagFail := if l.tagFail = 0xFFFF then l.tagFail else l.tagFail + 1 }

/-- A flit that passes: the sender's counts, the slot it takes and gives back, the returns it carries for the other direction, and
the flits counted under a new key. -/
def State.goodFlit (s : State) (link : Nat) (dir : Bool) (hdr : BitVec 128) : State :=
  let h := hdr.toNat
  let vc := hdrVc h
  let ret := (List.range 4).map fun v => BitVec.ofNat 16 (bitsNat h (16 * v + 31) (16 * v + 16))
  s.modLink link fun l =>
    let d := l.dir dir
    let o := l.dir !dir
    let fresh := d.rekey && (bitsNat h 127 127 == 1) == d.kg
    let done := fresh && decide (63 ≤ d.newFlits)
    let d := { (if d.replay.contains hdr then d else d.sentOne h) with
      freed := if vc < 4 then d.freed.set vc (d.freed.getD vc 0 + 1) else d.freed, replay := d.replay.erase hdr
      newFlits := if done then 0 else if fresh then d.newFlits + 1 else d.newFlits, rekey := d.rekey && !done }
    let o := { o with lastf := acceptRet link (bitsNat h 85 80 == 0) ret o.lastf }
    { ((l.setDir dir d).setDir (!dir) o) with lastFlit := s.cycle.toNat, nrekey := if done then l.nrekey + 1 else l.nrekey }

/-- FLIT_RECEIVED: `hdr` is the header that the sender sent, `tagOk` whether the flit passes its tag. A header that no sender sends now is
no flit. -/
def execFlitReceived (link : Nat) (dir : Bool) (hdr : BitVec 128) (tagOk : Bool) (s : State) : Out :=
  let l := s.link link
  if 62 ≤ link || !l.up || l.dead || l.locked || !s.sends link dir hdr then .next s
  else if !tagOk || hdrBad hdr.toNat then .next (s.badFlit link dir hdr)
  else .next (s.goodFlit link dir hdr)

/-- KEY_UPDATE: the sender uses the new bank from the next flit on; none starts while an old bank is held (R353). -/
def execKeyUpdate (link : Nat) (dir : Bool) (s : State) : Out :=
  let l := s.link link
  let d := l.dir dir
  if decide (62 ≤ link) || !l.up || d.rekey then .next s
  else .next (s.modLink link fun l => l.setDir dir { d with kg := !d.kg, fcnt := d.fcnt.set (!d.kg).toNat 0, rekey := true, newFlits := 0 })

/-! ### Links (R355) -/

/-- LINK_LOSES_TRAINING. -/
def execLinkLosesTraining (link : Nat) (s : State) : Out :=
  if link < 62 ∧ (s.link link).up then .next (s.modLink link fun l => { l with up := false, lostAt := some s.cycle.toNat }) else .next s

/-- LINK_DECLARED_DEAD: a locked link, one that has not retrained within 100 µs, or one silent for 100 µs. -/
def execLinkDeclaredDead (link : Nat) (s : State) : Out :=
  let l := s.link link
  let now := s.cycle.toNat
  let late := match l.lostAt with
    | some t => decide (t + Config.cycles100us ≤ now)
    | none => l.up && decide (l.lastFlit + Config.cycles100us ≤ now)
  if decide (link < 62) && !l.dead && (l.locked || late) then .next (s.killLink link) else .next s

/-- The accesses of a cluster after a link's reset: one given up under TIMEOUT that lies behind it is no longer performed (21 R316). -/
def State.portReset (s : State) (link c : Nat) (k : Cluster) : Cluster :=
  { k with mq := k.mq.filter fun a => !(a.fail == some .timeout && a.pieces.any fun p => (s.path (dieOf c) p.pa).contains link) }

/-- The dies at the ends of an in-module link are up (31 R392, R394, R396). -/
def State.endsUp (s : State) (link : Nat) : Bool :=
  (List.range 12).all fun t => s.hub.dieUp t ||
    !((List.range 13).any fun u => u != t && linkIndex (min t u) (max t u) == some link)

/-- LINK_UP: retraining and a new session bring a link back, with its counts and key banks afresh; a Gateway port learns its peer. -/
def execLinkUp (link : Nat) (peer : BitVec 6) (s : State) : Out :=
  if decide (link < 62) && s.endsUp link then
    .next (({ s with clusters := s.clusters.map fun e => (e.1, s.portReset link e.1 e.2) } : State).modLink link fun l => { l with
      up := true, dead := false, locked := false, lostAt := none, lastFlit := s.cycle.toNat, d0 := LinkDir.reset, d1 := LinkDir.reset
      peer := if 54 ≤ link then peer else 0 })
  else .next s

/-! ### Leases and shoot-downs (R363, R365) -/

/-- LEASE_EXPIRY: the line of a granule is dropped once its lease has ended. -/
def execLeaseExpiry (d line : Nat) (s : State) : Out :=
  .next (s.modRing d fun r => { r with lines := r.lines.filter fun l => !(l.gran == line && decide (l.leaseEnd ≤ s.cycle.toNat)) })

/-- The oldest shoot-down of a home. -/
def State.shootOf (s : State) (home : Nat) : Option Shoot := s.shoots.find? fun h => h.home == home

/-- Put the oldest shoot-down of a home back, changed, or take it away. -/
def putShoot (home : Nat) (f : Shoot → Option Shoot) : List Shoot → List Shoot
  | [] => []
  | h :: hs => if h.home = home then (f h).toList ++ hs else h :: putShoot home f hs

/-- Links between a die and the home of a shoot-down. -/
def State.homeWay (s : State) (h : Shoot) (die : Nat) : List Nat :=
  if 64 ≤ die then (if h.home < 256 then s.path h.home ((die - 64) * 2 ^ 46) else [])
  else if h.home < 256 then pathIn die h.home else s.path die (h.gran * 4096)

/-- SHOOT_DOWN: a holder drops its lines of the range and answers its home, over live links; 64 and more: the dies of another module. For a
home in another module that no master of this one asked, whose range is not known here, the die drops every line of that home (log 55). -/
def execShootDown (home die : Nat) (s : State) : Out :=
  match s.shootOf home with
  | none =>
    .next (if 256 ≤ home ∧ die < 8 then s.modRing die fun r => { r with lines := r.lines.filter fun l => s.homeOf (l.gran / 64) != home } else s)
  | some h =>
    if (s.homeWay h die).any fun i => (s.link i).dead then .next s
    else
      let s := if die < 8 then s.modRing die fun r => { r with lines := r.lines.filter fun l =>
          !(decide (h.gran ≤ l.gran / 64) && decide (l.gran / 64 < h.gran + h.n)) } else s
      .next { s with shoots := putShoot home (fun h => some { h with need := h.need.filter (· != die) }) s.shoots }

/-- A home has answered an ATTR.clr that no cluster's engine asked for. -/
def Hub.homeAnswers (h : Hub) (key home : Nat) (late : Bool) : Hub :=
  match SMap.get? h.clears key with
  | some (hs, l) => { h with clears := SMap.set h.clears key (hs.erase home, l || late) }
  | none => h

/-- RO_CLEAR_AT_HOME: every die has answered, or the lease has passed since step 1. The last home completes the ATTR.clr, be it an engine's
or another master's. A home in another module answers an ATTR.set in the same way, when it has granted RO. -/
def execRoClearAtHome (home : Nat) (s : State) : Out :=
  match s.shootOf home with
  | none => .next s
  | some h =>
    if !h.need.isEmpty && decide (s.cycle.toNat < h.start + h.lease * Config.cyclesPerUs) then .next s
    else
      let s : State := { s with
        shoots := putShoot home (fun _ => none) s.shoots
        ro := if h.grant then (s.grantRo ((List.range h.n).map fun i => h.gran + i)).ro
          else s.ro.filter fun g => !(decide (h.gran ≤ g.1) && decide (g.1 < h.gran + h.n)) }
      if 320 ≤ h.c then .next (s.modHub fun hb => hb.homeAnswers h.x home (!h.need.isEmpty))
      else match ((s.cl h.c).cx h.x).phase with
      | .shoot d homes late =>
        let homes := homes.erase home
        let late := late || !h.need.isEmpty
        if homes.isEmpty then
          let v : Word := if late then 1 else 0
          let s := match d with
            | some i =>
              let old := s.cur
              let t := ({ s with cur := (h.c, h.x) } : State).putOpnd (.s i) v
              { t with cur := old }
            | none => s
          .next (s.finishWord h.c h.x 3)
        else .next (s.modCx h.c h.x fun e => { e with phase := .shoot d homes late })
      | _ => .next s

/-! ### Requests from outside (29 R370, 31 R385, 27 R351) -/

/-- The register a narrow write falls into, as it is where nothing is written: zero for registers that clear on 1. -/
def State.mergeBase (s : State) (o : Nat) : Nat :=
  if 0x13000 ≤ o ∧ o < 0x13D00 ∧ ((o - 0x13000) % 256 = 0 ∨ (o - 0x13000) % 256 = 0x10) then 0 else (s.cfgWord o).toNat

/-- A hub core writes len bytes within 8 aligned bytes of configuration space. -/
def State.cfgWriteBytes (s : State) (core off len v : Nat) : State :=
  let o := off - off % 8
  if 0x200000 ≤ o ∧ o < 0x20E000 then
    (List.range len).foldl (fun s i =>
      stateOf s (execAccessTableWrite (BitVec.ofNat 12 (0xA00 + core)) ((off + i - 0x200000) / 4096)
        (BitVec.ofNat 12 ((off + i - 0x200000) % 4096)) (BitVec.ofNat 8 (elemOf 8 i v)) s)) s
  else if len = 8 ∧ off % 8 = 0 then s.cfgWrite core o (BitVec.ofNat 64 v)
  else
    let b := s.mergeBase o
    let lo := 8 * (off % 8)
    let m := elemOf (8 * len) 0 (b / 2 ^ lo)
    s.cfgWrite core o (BitVec.ofNat 64 (b - m * 2 ^ lo + v % 2 ^ (8 * len) * 2 ^ lo))

/-- A hub core writes bytes of configuration space, 8 aligned bytes after another. -/
def State.cfgWriteSpan (s : State) (core off len v : Nat) : State :=
  (List.range ((off % 8 + len + 7) / 8)).foldl (fun s i =>
    let o := off - off % 8 + 8 * i
    let lo := max off o
    s.cfgWriteBytes core lo (min (off + len) (o + 8) - lo) (v / 2 ^ (8 * (lo - off)))) s

/-- The answer to a request. -/
def State.answer (s : State) (r : BusRes) : State := { s with bus := r }

/-- The access-table bit a request needs. -/
def reqBit : ReqKind → BitVec 4
  | .read => bitR
  | .write | .attrSet | .attrClr => bitW
  | .atomicAdd | .atom .. | .reduce .. | .qpush _ | .qpop _ => bitA
  | .message => bitM
  | .fence => 0

/-- A request that a granule's RO bit stops (27 R362). -/
def reqWrites : ReqKind → Bool
  | .read | .fence | .attrSet | .attrClr => false
  | _ => true

/-- Bytes of a request's target; that of an atomic is as wide as its type. -/
def reqWidth (len : Nat) : ReqKind → Nat
  | .atom _ ty => ty.width / 8
  | _ => len

/-- A reducing store on the elements from an address up (13 R198). -/
def reduceBytes (op : Nat) (ty : Ty) (old : List Byte) (v : Nat) : List Byte :=
  let w := ty.width
  (List.range (8 * old.length / w)).flatMap fun i => natBytes (w / 8) (redNew op ty (elemOf w i (bytesNat old)) (elemOf w i v))

/-- The parts of a queue's entry for a requester that has translated its BASE. -/
def slotAt (base : Nat) (push : Bool) (d : QDesc) : Except Nat (List (Piece × Bool × Bool)) :=
  .ok ((granuleParts 0 (d.slot push - d.base + base) d.esz).map fun p => ({ p with pa := p.va }, push, false))

/-- A push or a pop asked by a master m (R204): the answer's first byte is the predicate. `deny` is what a refusal at an address leaves. -/
def State.serveQueue (s : State) (m : Nat) (base pa : Nat) (src : Option (List Byte)) (deny : Nat → State) (far : FarMap) : State :=
  match s.queueOn m (slotAt base src.isSome) pa pa src false far with
  | .trap t => if t.cause = .refused then (deny (t.info.getD 0).toNat).answer .refused
    else s.answer (if t.cause = .roWrite then .readOnly else .failed)
  | .not => s.answer (.done [0])
  | .fails _ _ _ => s.answer .failed
  | .done t got err _ => if err.isSome then t.answer .failed else t.answer (.done (1 :: got))

/-- ATTR on a range asked by no cluster's engine (27 R365): the grant waits for the accepted writes; an ATTR.clr starts the homes' shoot-downs,
and is answered when the last home has, with 1 if one ended on its lease. `key` tells the masters apart (`Hub.clears`). -/
def State.serveAttr (s : State) (key : Nat) (set : Bool) (pa len : Nat) : State :=
  let gs := (List.range (len / 4096)).map fun i => pa / 4096 + i
  if pa % 4096 ≠ 0 ∨ len % 4096 ≠ 0 ∨ len = 0 then s.answer .failed
  else if set then (if s.writePending gs then s.answer .busy else (s.grantRo gs).answer (.done []))
  else match SMap.get? s.hub.clears key with
    | some ([], late) => (s.modHub fun h => { h with clears := SMap.del h.clears key }).answer (.done [if late then 1 else 0])
    | some _ => s.answer .busy
    | none =>
      let sh := s.attrShoots false 320 key gs
      (({ s with shoots := s.shoots ++ sh } : State).modHub fun h =>
        { h with clears := SMap.set h.clears key (sh.map Shoot.home, false) }).answer .busy

/-- The first and the last byte of each granule that a request of w bytes touches: of each 4 KiB granule of an ATTR's range. -/
def reqBytes (kind : ReqKind) (pa w : Nat) : List Nat :=
  if kind = .attrSet ∨ kind = .attrClr then (List.range ((w + 4095) / 4096)).map fun i => pa + 4096 * i
  else (granuleParts 0 pa (max 1 w)).flatMap fun p => [p.va, p.va + p.len - 1]

/-- A request that returns what memory holds. -/
def reqReads : ReqKind → Bool
  | .read | .atomicAdd | .atom .. | .reduce .. | .qpush _ | .qpop _ => true
  | _ => false

/-- A permitted request at its home; `core` is the hub core as which configuration space is written, `key` names the master of an ATTR,
`deny` what a refusal of a queue's entry leaves, `far` the other modules' answers. -/
def State.serve (s : State) (m key : Nat) (core : Option Nat) (kind : ReqKind) (pa len0 : Nat) (v : Nat) (deny : Nat → State := fun _ => s)
    (far : FarMap := []) : State :=
  let len := reqWidth len0 kind
  if reqWrites kind ∧ (reqBytes kind pa len).any s.isRo then s.answer .readOnly
  else if s.badAt pa len ∧ kind ≠ .write then s.answer .failed
  else
    let old := s.bytes pa len
    let put (v : Nat) : State :=
      if isCfg pa && !s.isFar pa then
        match core with
        | some c => s.cfgWriteSpan c (pa % 2 ^ 24) len v
        | none => s.cfgPut m (pa % 2 ^ 24) (natBytes len v)
      else s.storeNat pa len v
    match kind with
    | .read => s.answer (.done old)
    | .write => (put v).answer (.done [])
    | .atomicAdd => (put ((bytesNat old + v) % 2 ^ (8 * len))).answer (.done old)
    | .atom op ty => (put (atomNew op ty (bytesNat old) (elemOf ty.width 0 v) (elemOf ty.width 1 v))).answer (.done old)
    | .reduce op ty => (put (bytesNat (reduceBytes op ty old v))).answer (.done [])
    | .qpush base => s.serveQueue m base pa (some (natBytes len v)) deny far
    | .qpop base => s.serveQueue m base pa none deny far
    | .attrSet => s.serveAttr key true pa len
    | .attrClr => s.serveAttr key false pa len
    | .message | .fence => s.answer .failed

/-- A request of a hub core for another module (27 R350, R351): by way of a valid route; `far` is that module's answer, and a refusal freezes
the core here. -/
def State.farRequest (s : State) (core : Nat) (kind : ReqKind) (pa len v : Nat) (far : FarMap) : State :=
  let as := (reqBytes kind pa (reqWidth len kind)).map fun b => if farUnbacked b then .no else far.at b
  let refused := (s.modSup 12 fun b => { b with frz := b.frz ||| BitVec.ofNat 32 (2 ^ core) }).answer .refused
  if !(SMap.get 0 s.hub.gwroute (pa / 2 ^ 46)).getLsbD 3 then s.answer .failed
  else if as.contains .no then s.answer .failed
  else if as.contains .refused then refused
  else if reqWrites kind && as.contains .readOnly then s.answer .readOnly
  else s.serve (0xA00 + core) core (some core) kind pa len v (fun pa => if s.isFar pa then refused else s.agentRefused (0xA00 + core) pa) far

/-- A hub core's fence: an ar fence at HOST scope toward every queue of the module (21 R293). It starts, and completes once every access
and agents' operation of its cycle or before is performed; later ones wait for it. After 2 ms it no longer waits for the agents (R316). -/
def State.coreFence (s : State) (core : Nat) : State :=
  match SMap.get? s.hub.fences core with
  | none => (s.modHub fun h => { h with fences := SMap.set h.fences core s.cycle.toNat }).answer .busy
  | some t =>
    let late (n : Nat) : Bool := decide (n ≤ t)
    if decide (s.cycle.toNat ≤ t) || (s.clusters.any fun k => ((k.2.mq ++ k.2.accepting).any fun a => a.isOpen && !a.doneAt 7 && late a.cyc) ||
          (k.2.m.nests.any fun n => late n.cyc) || (match (k.2.cx 2).phase with
            | .kvapp r => late r.cyc
            | _ => false)) ||
        (!s.over2ms t && ((s.rings.any fun r => r.2.onWay.any fun w => late w.moved) ||
          s.adies.any fun a => a.2.moves.any fun m => late m.cyc)) then
      s.answer .busy
    else (s.modHub fun h => { h with fences := SMap.del h.fences core }).answer (.done [])

/-- No target of this module answers at an address: it is unbacked (R361), or its die is off or in reset (31 R392, R394, R396). -/
def State.noTarget (s : State) (pa : Nat) : Bool :=
  !s.isFar pa && (match s.target pa with
    | some t => decide (t < 12) && !s.hub.dieUp t
    | none => true)

/-- A request on the physical map, whose addresses have 52 bits (R357), by a hub core, or by the host as hub core 0. One that returns what
memory holds waits for stores that are performed at the hub before their homes. -/
def State.coreRequest (s : State) (core : Nat) (kind : ReqKind) (pa len v : Nat) (far : FarMap := []) : State :=
  let m := 0xA00 + core
  let bs := reqBytes kind pa (reqWidth len kind)
  if kind = .fence then s.coreFence core
  else if bs.any fun b => decide (2 ^ 52 ≤ b) || s.noTarget b then s.answer .failed
  else if (s.path 12 pa).any fun i => (s.link i).dead then s.answer .failed
  else if reqReads kind && s.dieHeld 12 then s.answer .busy
  else if s.isFar pa then s.farRequest core kind pa len v far
  else match bs.find? fun b => !s.mayAccess m (reqBit kind) b with
    | some b => (s.agentRefused m b).answer .refused
    | none => s.serve m core (some core) kind pa len v fun pa => s.agentRefused m pa

/-- HUB_CORE_ACCESS; a fence in progress completes even when its core has been frozen meanwhile. -/
def execHubCoreAccess (core : Nat) (req : BusReq) (s : State) : Out :=
  .next (if s.coreActs core || (req.kind == .fence && (SMap.get? s.hub.fences core).isSome) then
      s.coreRequest core req.kind req.addr req.len req.data.toNat req.far
    else s)

/-- The requests that a PCIe host makes: reads, writes and atomics (31 R385). -/
def reqOfHost : ReqKind → Bool
  | .read | .write | .atomicAdd | .atom .. | .message => true
  | _ => false

/-- The host's request on the physical map, checked as hub core 0's, whether or not that core runs (31 R385, log 34). -/
def State.hostRequest (s : State) (req : BusReq) (pa : Nat) : State :=
  { ({ s with host := true } : State).coreRequest 0 req.kind pa req.len req.data.toNat with host := false }

/-- HOST_BAR_ACCESS: BAR0 is configuration space, BAR2 the window into LPDDR6. -/
def execHostBarAccess (bar2 : Bool) (req : BusReq) (s : State) : Out :=
  if s.hub.power = .off then .next s
  else if !reqOfHost req.kind then .next (s.answer .unsupported)
  else if bar2 then
    if !s.hub.hostEn then .next (s.answer (if req.kind = .write then .none else .unsupported))
    else if 2 ^ 36 ≤ req.addr then .next (s.answer .unsupported)
    else .next (s.hostRequest req (s.here (s.hub.hostBase.toNat * 2 ^ 30 + req.addr)))
  else if 2 ^ 24 ≤ req.addr then .next (s.answer .unsupported)
  else .next (s.hostRequest req (s.cfgPa req.addr))

/-- A request through the Gateway is refused: the record names the source module and master (R351). -/
def State.remoteRefused (s : State) (r : RemoteReq) (t pa : Nat) : State :=
  (s.logFault (if t < 12 then t else 12)
    { Fault.Rec.plain .refused 0xA21 with
      addr := pa, target := s.hub.modNo.toNat * 256 + t, flg := 4, info := r.srcMod.toNat * 2 ^ 16 + r.srcMaster.toNat }).answer .refused

/-- A payload from another module that did not reach its slot whole: its fault record (13 R186). -/
def State.remoteSlotFails (s : State) (r : RemoteReq) (cl : Nat) : State :=
  let pa := s.here (sramBase cl) + slotOff (((s.cl cl).freeSlot).getD 0)
  s.logFault (dieOf cl) { Fault.Rec.plain .eccFatal 0xA21 with
    addr := pa, target := s.targetCode pa, flg := 4, info := r.srcMod.toNat * 2 ^ 16 + r.srcMaster.toNat, asid := r.asid.toNat }

/-- REMOTE_ACCESS_ARRIVAL: GWRMT's entry of the source module, then the target's entry for the Gateway. -/
def execRemoteAccessArrival (r : RemoteReq) (s : State) : Out :=
  let pa := s.here (r.addr % 2 ^ 46)
  let gw := (SMap.get 0 s.hub.gwrmt r.srcMod.toNat) &&& reqBit r.kind == reqBit r.kind
  match r.kind with
  | .message =>
    let cl := r.addr % 512
    if 320 ≤ cl then .next (s.answer .failed)
    else if !gw || s.permits (dieOf cl) 0xA21 &&& bitM == 0 then
      .next (s.remoteRefused r (dieOf cl) 0)
    else if s.slotRo cl then .next (s.answer .readOnly)
    else match (if s.slotWhole cl r.bytes then s else s.remoteSlotFails r cl).deliver cl r.bytes (BitVec.ofNat 22 (r.srcMod.toNat * 2 ^ 16 + r.srcMaster.toNat)) r.asid r.hnd with
      | some s' => .next (s'.answer (.done [1]))
      | none => .next (s.answer (.done [0]))
  | k =>
    let t := targetA s.cxl (r.addr % 2 ^ 46)
    if !gw then .next (s.remoteRefused r (t.getD 0xFF) pa)
    else match t with
      | none => .next (s.answer .failed)
      | some t =>
        let bs := reqBytes k pa (reqWidth r.bytes.length k)
        if bs.any s.noTarget then .next (s.answer .failed)
        else if reqReads k && s.dieHeld 13 then .next (s.answer .busy)
        else match bs.find? fun b => !s.mayAccess 0xA21 (reqBit k) b with
          | some b => .next (s.remoteRefused r ((s.target b).getD t) b)
          | none => .next (s.serve 0xA21 (16 + r.srcMod.toNat * 4096 + r.srcMaster.toNat) none k pa r.bytes.length (bytesNat r.bytes)
              fun pa => s.remoteRefused r ((s.target pa).getD 12) pa)

/-! ### Messages between Distributors (03 R49) -/

/-- DISTRIBUTOR_MESSAGE_ARRIVAL: a die that is not up takes none. -/
def execDistributorMessageArrival (msg : DistMsg) (s : State) : Out :=
  match msg with
  | .ringRun on => .next (s.modHub fun h => { h with farRun := on })
  | .election t master => .next (if t < 12 then s.modDist t fun q => { q with master := master } else s)
  | .launch t r src first count => .next (if t < 12 ∧ s.hub.dieUp t = true then s.launchPart t r first.toNat count.toNat src.toNat else s)
  | .reissue t r first count => .next (if t < 12 ∧ s.hub.dieUp t = true then s.launchPart t r first.toNat count.toNat 0xFFF else s)

end Sys2Proof.Machine
end

