-- ==== Sys2Proof/Machine/Bundle.lean ====
section
/-! DEFINITION. Files that the module's firmware reads: the Voxven bundle (09 R135 to R140), with what the hub runtime checks before it
loads one and the relocations its loader applies (the loads themselves are writes of hub cores, and the records reach a Distributor by
HUB_SUBMISSION, log 63); and the form of the configuration record (31 R390, R391), whose items' payloads have no stated layout (log 64). -/

namespace Sys2Proof.Machine

/-! ### The file's parts (R135 to R140) -/

/-- n bytes of a file at an offset, as a number. -/
def fileNat (f : List Byte) (o n : Nat) : Nat := bytesNat ((f.drop o).take n)

/-- A stream of the directory (R136). -/
structure StreamEnt where
  krn : Nat
  eng : Nat
  cls : Nat
  npar : Nat
  off : Nat
  deriving DecidableEq, Repr

/-- A synchronisation token (R137). -/
structure TokenEnt where
  kind : Nat
  idx : Nat
  prod : Nat
  cons : Nat
  krn : Nat
  name : Nat
  uses : Nat
  deriving DecidableEq, Repr

/-- A task template with its parameter image (R138). -/
structure TemplateEnt where
  rcd : BitVec 1024
  krn : Nat
  psz : Nat
  poff : Nat
  deriving DecidableEq, Repr

/-- An entry of the segment manifest (R139). -/
structure ManifestEnt where
  tag : BitVec 24
  fmt : BitVec 32
  krn : Nat
  use : Nat
  deriving DecidableEq, Repr

/-- A relocation (R139). -/
structure RelocEnt where
  kind : Nat
  loc : Nat
  sym : Nat
  pos : Nat
  add : Int
  deriving DecidableEq, Repr

/-- A symbol (R139). -/
structure SymbolEnt where
  name : Nat
  kind : Nat
  bind : Nat
  loc : Nat
  value : Nat
  deriving DecidableEq, Repr

/-- The signature block (R140). -/
structure SigBlock where
  magic : Nat
  alg : Nat
  keyId : BitVec 64
  siga : Nat
  sigb : Nat
  deriving DecidableEq, Repr

/-- A bundle: the file and the entries of its tables. -/
structure Bundle where
  file : List Byte
  nkrn : Nat
  streams : List StreamEnt
  tokens : List TokenEnt
  templates : List TemplateEnt
  manifest : List ManifestEnt
  relocs : List RelocEnt
  symbols : List SymbolEnt
  sigOff : Nat
  sig : SigBlock
  deriving DecidableEq, Repr

/-- Big-endian bytes of a signature integer. -/
def bytesBig (l : List Byte) : Nat := bytesNat l.reverse

/-- The entries of a table of n entries of `size` bytes at an offset. -/
def entries {α : Type} (o n size : Nat) (f : Nat → α) : List α := (List.range n).map fun i => f (o + i * size)

/-- Reads a bundle's tables by its header. -/
def bundleOf (f : List Byte) : Bundle :=
  let g := fileNat f
  { file := f, nkrn := g 8 4
    streams := entries (g 0x10 8) (g 0x0C 4) 24 fun o =>
      { krn := g o 2, eng := g (o + 2) 1, cls := g (o + 3) 1, npar := g (o + 4) 4, off := g (o + 8) 8 }
    tokens := entries (g 0x20 8) (g 0x18 4) 16 fun o =>
      { kind := g o 1, idx := g (o + 1) 1, prod := g (o + 2) 1, cons := g (o + 3) 1, krn := g (o + 4) 2, name := g (o + 8) 4, uses := g (o + 12) 4 }
    templates := entries (g 0x28 8) (g 0x1C 4) 144 fun o =>
      { rcd := BitVec.ofNat 1024 (g o 128), krn := g (o + 0x80) 2, psz := g (o + 0x84) 4, poff := g (o + 0x88) 8 }
    manifest := entries (g 0x38 8) (g 0x30 4) 16 fun o =>
      { tag := BitVec.ofNat 24 (g o 3), fmt := BitVec.ofNat 32 (g (o + 4) 4), krn := g (o + 8) 2, use := g (o + 10) 2 }
    relocs := entries (g 0x40 8) (g 0x34 4) 24 fun o =>
      { kind := g o 1, loc := g (o + 2) 2, sym := g (o + 4) 4, pos := g (o + 8) 8, add := (BitVec.ofNat 64 (g (o + 16) 8)).toInt }
    symbols := entries (g 0x50 8) (g 0x48 4) 24 fun o =>
      { name := g o 4, kind := g (o + 4) 1, bind := g (o + 5) 1, loc := g (o + 6) 2, value := g (o + 8) 8 }
    sigOff := g 0x60 8
    sig :=
      let o := g 0x60 8
      { magic := g o 4, alg := g (o + 4) 4, keyId := BitVec.ofNat 64 (g (o + 8) 8)
        siga := bytesBig ((f.drop (o + 0x10)).take 66), sigb := bytesBig ((f.drop (o + 0x52)).take 66) } }

/-! ### The checks of R140 and R139 -/

/-- Every offset and count stays inside the file, and each part begins on 8 bytes. -/
def Bundle.inside (b : Bundle) : Bool :=
  let n := b.file.length
  let g := fileNat b.file
  let part (o size : Nat) : Bool := g o 8 % 8 == 0 && decide (g o 8 + size ≤ n)
  decide (0x80 ≤ n) && part 0x10 (g 0x0C 4 * 24) && part 0x20 (g 0x18 4 * 16) && part 0x28 (g 0x1C 4 * 144) &&
    part 0x38 (g 0x30 4 * 16) && part 0x40 (g 0x34 4 * 24) && part 0x50 (g 0x48 4 * 24) && part 0x58 (g 0x4C 4) && part 0x60 152 &&
    (b.streams.all fun e => decide (e.off + 4 * e.npar ≤ n) && decide (e.krn < b.nkrn) && decide (e.eng < 5)) &&
    (b.templates.all fun t => decide (t.poff + t.psz ≤ n) && decide (t.krn < b.nkrn)) &&
    (b.tokens.all fun k => decide (k.name < g 0x4C 4) && decide (k.krn < b.nkrn)) &&
    (b.symbols.all fun y => decide (y.name < g 0x4C 4)) &&
    b.manifest.all fun m => decide (m.krn < b.nkrn)

/-- Every reserved field is zero. -/
def Bundle.reservedZero (b : Bundle) : Bool :=
  let g := fileNat b.file
  let each (o n size at_ w : Nat) : Bool := (List.range n).all fun i => g (o + i * size + at_) w == 0
  g 6 2 == 0 && g 0x68 24 == 0 && each (g 0x10 8) (g 0x0C 4) 24 0x10 8 && each (g 0x20 8) (g 0x18 4) 16 6 2 &&
    each (g 0x28 8) (g 0x1C 4) 144 0x82 2 && (b.templates.all fun t => recReserved t.rcd) &&
    each (g 0x38 8) (g 0x30 4) 16 3 1 && each (g 0x38 8) (g 0x30 4) 16 0x0C 4 && (b.manifest.all fun m => decide (m.use < 4)) &&
    each (g 0x40 8) (g 0x34 4) 24 1 1 && each (g 0x50 8) (g 0x48 4) 24 0x10 8 && g (b.sigOff + 0x94) 4 == 0

/-- What the loader fills in is zero in a template (R138): TID, TEAM, PARAM, ASID, DEADLINE and ENTRY. -/
def TemplateEnt.blank (t : TemplateEnt) : Bool :=
  field t.rcd 0 6 == 0 && field t.rcd 8 8 == 0 && field t.rcd 0x17 9 == 0 && field t.rcd 0x20 20 == 0

/-- A stream begins with a section header and ends with an end-of-stream header. -/
def Bundle.streamOk (b : Bundle) (e : StreamEnt) : Bool :=
  let g := fileNat b.file
  decide (4 ≤ e.npar) && g (e.off + 4) 4 / 2 ^ 28 == 5 && g (e.off + 4 * (e.npar - 2)) 8 == 0xA000000000000000

/-- A class of the manifest matches a format byte (R139): AX takes no part. -/
def classMatches (c b : Nat) : Bool :=
  let ty := b % 32
  match c with
  | 0 => ty == 0
  | 1 => ty == 0x0E
  | 2 => ty == 0x0C || ty == 0x0D
  | 3 => ty == 1
  | 4 => ty == 0x0A
  | 15 => true
  | _ => false

/-- The format bytes of the segment with a tag in the backing image of the ring of die d. -/
def State.tagFormats (s : State) (d : Nat) (tag : BitVec 24) : Option (BitVec 64) :=
  ((List.range (s.ring d).nseg.toNat).find? fun p =>
      bytesNat (s.bytes (s.backingPa d p) 4) == tag.toNat).map fun p =>
    BitVec.ofNat 64 (bytesNat (s.bytes (s.backingPa d p + 16) 8))

/-- A manifest entry agrees with a segment of some ring of the partition. -/
def State.manifestOk (s : State) (part : Nat) (m : ManifestEnt) : Bool :=
  match (s.liveDies part).findSome? fun d => s.tagFormats d m.tag with
  | some f => (List.range 8).all fun g => classMatches (elemOf 4 g m.fmt.toNat) (fmtByte f g)
  | none => false

/-- The hub runtime loads a bundle for a partition: its signature verifies (an input, log 12) with a trusted key, and every check
holds; any other bundle is refused whole. -/
def State.bundleAccepted (s : State) (part : Nat) (trusted : List (BitVec 64)) (sigOk : Bool) (b : Bundle) : Bool :=
  fileNat b.file 0 4 == 0x31425856 && fileNat b.file 4 2 == 1 && b.inside && b.reservedZero &&
    b.sig.magic == 0x47495356 && b.sig.alg == 1 && sigOk && trusted.contains b.sig.keyId && b.sig.keyId != 0 &&
    (b.templates.all TemplateEnt.blank) && (b.streams.all b.streamOk) && b.manifest.all (s.manifestOk part)

/-! ### Placement and relocation (R139, R140) -/

/-- Where the loader places a bundle: the first parcel of each stream, and PARAM of each template. -/
structure Placement where
  base : List (BitVec 32)
  param : List (BitVec 64)
  deriving DecidableEq, Repr

/-- What is placed: the bytes of each stream and of each parameter image, and the records. -/
structure Loaded where
  streams : List (List Byte)
  images : List (List Byte)
  rcds : List (BitVec 1024)
  deriving DecidableEq, Repr

/-- The bytes as the file holds them. -/
def Bundle.start (b : Bundle) : Loaded :=
  { streams := b.streams.map fun e => (b.file.drop e.off).take (4 * e.npar)
    images := b.templates.map fun t => (b.file.drop t.poff).take t.psz
    rcds := b.templates.map (·.rcd) }

/-- The value of a symbol: a stream label's parcel address, a datum's virtual address, or a constant. -/
def Bundle.symValue (b : Bundle) (p : Placement) (n : Nat) : Option Int :=
  match b.symbols[n]? with
  | none => none
  | some y =>
    if y.kind = 1 then (p.base[y.loc]?).map fun a => (a.toNat + y.value : Int)
    else if y.kind = 2 then (if 0x8000 ≤ y.loc then (p.param[y.loc - 0x8000]?).map fun a => (a.toNat + y.value : Int) else none)
    else if y.kind = 3 then some (BitVec.ofNat 64 y.value).toInt
    else none

/-- The immediate of a word is read as signed (11 R156 to R159, 13 R180, 15 R224). -/
def immSigned (w : Nat) : Bool :=
  let opc := w / 2 ^ 88
  let sub := w / 2 ^ 84 % 16
  (opc == 0x11 && (decide (sub ≤ 4) || sub == 8 || sub == 9)) || (opc == 0x14 && decide (sub < 6)) || (opc == 0x16 && sub == 0) ||
    opc == 0x19 || (decide (0x40 ≤ opc) && decide (opc ≤ 0x49)) ||
    (opc == 0x83 && ((Ty.ofCode (w / 2 ^ 52 % 32)).map Ty.width) == some 64)

/-- A value fits a field of w bits. -/
def fits (signed : Bool) (w : Nat) (v : Int) : Bool :=
  if signed then decide (-(2 ^ (w - 1) : Int) ≤ v) && decide (v < 2 ^ (w - 1)) else decide (0 ≤ v) && decide (v < 2 ^ w)

/-- Replace n bytes at an offset. -/
def putBytes (l : List Byte) (o n v : Nat) : List Byte := l.take o ++ natBytes n v ++ l.drop (o + n)
/-- Put the low 8 n bits of a value at an offset; none when it lies outside. -/
def putAt (l : List Byte) (o n : Nat) (v : Int) : Option (List Byte) :=
  if o + n ≤ l.length then some (putBytes l o n (v % (2 ^ (8 * n) : Nat)).toNat) else none

/-- Put a value at an offset of a record. -/
def putRecord (r : BitVec 1024) (o n : Nat) (v : Int) : Option (BitVec 1024) :=
  (putAt (natBytes 128 r.toNat) o n v).map fun l => BitVec.ofNat 1024 (bytesNat l)

/-- Change one member of a list. -/
def changeAt {α : Type} (l : List α) (i : Nat) (f : α → Option α) : Option (List α) :=
  match l[i]? with
  | none => none
  | some a => (f a).map fun b => l.set i b

/-- Apply one relocation; none refuses the bundle. -/
def Bundle.relocate (b : Bundle) (p : Placement) (x : Loaded) (r : RelocEnt) : Option Loaded :=
  match b.symValue p r.sym with
  | none => none
  | some y =>
    let v : Int := y + r.add
    let tpl := r.loc - 0x8000
    let word (l : List Byte) : Nat := bytesNat ((l.drop (4 * r.pos)).take 12)
    let sgn (l : List Byte) : Bool := immSigned (word l)
    let stream (f : List Byte → Option (List Byte)) : Option Loaded :=
      if 0x8000 ≤ r.loc then none else (changeAt x.streams r.loc f).map fun s => { x with streams := s }
    let image (f : List Byte → Option (List Byte)) : Option Loaded :=
      if r.loc < 0x8000 then none else (changeAt x.images tpl f).map fun s => { x with images := s }
    let rcd (f : BitVec 1024 → Option (BitVec 1024)) : Option Loaded :=
      if r.loc < 0x8000 then none else (changeAt x.rcds tpl f).map fun s => { x with rcds := s }
    match r.kind with
    | 1 => stream fun l => if fits (sgn l) 48 v then putAt l (4 * r.pos) 6 v else none
    | 2 => stream fun l => if fits (sgn l) 24 v then putAt l (4 * r.pos) 3 v else none
    | 3 => stream fun l => if fits false 32 v || fits true 32 v then putAt l (4 * r.pos) 4 v else none
    | 4 => rcd fun t => if fits false 32 v then putRecord t r.pos 4 v else none
    | 5 => rcd fun t => if fits false 56 v && v % 4096 == 0 then
        putRecord t r.pos 8 (v / 4096 * 2 ^ 20 + (field t r.pos 8 % 2 ^ 20 : Nat)) else none
    | 6 => image fun l => if fits false 64 v || fits true 64 v then putAt l r.pos 8 v else none
    | 7 => image fun l => if fits false 32 v || fits true 32 v then putAt l r.pos 4 v else none
    | _ => none

/-- Apply relocations in order. -/
def Bundle.relocateAll (b : Bundle) (p : Placement) : List RelocEnt → Loaded → Option Loaded
  | [], x => some x
  | r :: rs, x => match b.relocate p x r with
    | none => none
    | some y => b.relocateAll p rs y

/-- Load a bundle for a partition: refused whole, or its streams, images and records as they are placed. -/
def State.loadBundle (s : State) (part : Nat) (trusted : List (BitVec 64)) (sigOk : Bool) (p : Placement) (f : List Byte) : Option Loaded :=
  let b := bundleOf f
  if s.bundleAccepted part trusted sigOk b then b.relocateAll p b.relocs b.start else none

/-- The record of a template as the loader completes it (R138). -/
def TemplateEnt.complete (t : BitVec 1024) (tid team asid : Nat) (param deadline : BitVec 64) : BitVec 1024 :=
  let put (o n v : Nat) (r : BitVec 1024) : BitVec 1024 := r ||| BitVec.ofNat 1024 (v % 2 ^ (8 * n) * 2 ^ (8 * o))
  put 0 4 tid (put 4 2 team (put 8 8 param.toNat (put 0x17 1 asid (put 0x18 8 deadline.toNat t))))

/-! ### The configuration record (31 R390, R391) -/

/-- The items of a record: type, length in 8-byte words, offset of the payload; none when an item runs past the end. -/
def recordItems (f : List Byte) (stop : Nat) : Nat → Nat → Option (List (Nat × Nat × Nat))
  | 0, _ => some []
  | n + 1, o =>
    let len := fileNat f (o + 2) 2
    if stop < o + 4 + 8 * len then none
    else (recordItems f stop n (o + 4 + 8 * len)).map fun l => (fileNat f o 2, len, o + 4) :: l

/-- Bytes of a signature block (09 R140). -/
def sigBytes : Nat := 152

/-- The record is there: its magic, version, length and signature block are those of R390 and 09 R140. -/
def recordHeadOk (f : List Byte) : Bool :=
  let g := fileNat f
  let len := g 8 4
  g 0 4 == 0x47524643 && g 4 2 == 1 && decide (0x60 + sigBytes ≤ len) && decide (len ≤ f.length) &&
    g (len - sigBytes) 4 == 0x47495356 && g (len - sigBytes + 4) 4 == 1

/-- The items of a record; none when one runs past its end. -/
def recordParts (f : List Byte) : Option (List (Nat × Nat × Nat)) :=
  recordItems f (fileNat f 8 4 - sigBytes) (fileNat f 6 2) 0x60

/-- What R391 asks of a record's bytes: reserved fields, item types, their repetition and their ends. -/
def recordFormOk (f : List Byte) : Bool :=
  let g := fileNat f
  g 0x18 8 == 0 && g (g 8 4 - sigBytes + 0x94) 4 == 0 &&
    match recordParts f with
    | none => false
    | some l => (l.all fun i => decide (1 ≤ i.1) && decide (i.1 ≤ 8)) &&
        [1, 4, 5, 7].all fun t => decide ((l.filter fun i => i.1 == t).length ≤ 1)

/-- The record has an item of a type. -/
def recordHas (f : List Byte) (t : Nat) : Bool := ((recordParts f).getD []).any fun i => i.1 == t

/-- The type of the item whose payload becomes a register (R390). -/
def itemOf (off : Nat) : Nat :=
  if off = 0x14018 ∨ off = 0x14020 then 1
  else if 0x10000 ≤ off ∧ off < 0x10800 then 2
  else if 0x12400 ≤ off ∧ off < 0x13000 then 3
  else if 0x10800 ≤ off ∧ off < 0x10C00 then (if off % 256 = 0x18 then 4 else 5)
  else if 0x200000 ≤ off ∧ off < 0x20E000 then 6
  else if off = 0x14000 then 7
  else 0

/-- The keys a record trusts for bundles and the OS loader. -/
def recordTrust (f : List Byte) : List (BitVec 64) :=
  ((List.range 8).map fun i => BitVec.ofNat 64 (fileNat f (0x20 + 8 * i) 8)).filter (· != 0)

end Sys2Proof.Machine
end

