-- ==== Sys2Proof/Machine/HubSteps.lean ====
section
/-! DEFINITION. Boot, reset, firmware update, attestation and power (31 R386 to R396). -/

namespace Sys2Proof.Machine

/-! ### Boot stages (R388, R389, R391) -/

/-- Why a stage rejects an image: absent 7, unreadable 8, signature `sig`, security version 4. -/
def imageFail (counter sig : Nat) (f : FlashImage) : Option Nat :=
  if !f.present then some 7 else if !f.readable then some 8 else if !f.sigOk then some sig
  else if f.svn < counter then some 4 else none

/-- Extend measurement register i with a digest. -/
def Hub.measure (h : Hub) (i : Nat) (digest : BitVec 512) : Hub :=
  { h with meas := h.meas.set i (Config.freeExtend (h.meas.getD i 0) digest) }

/-- The register writes that the record's items become: an item that the record does not have becomes none. -/
def recordWrites (f : FlashBank) : List (Nat × BitVec 64) :=
  (f.writes.filter fun w => recordHas f.recordBytes (itemOf w.off)).map fun w => (w.off, w.val)

/-- A record asks for a split partition shape while it joins a multi-module ring (01 R20): its last PARTCFG has a shape other than 8, and
some die's RFCFG names a successor in another module. -/
def splitJoin (f : FlashBank) : Bool :=
  let split := (((recordWrites f).filter fun w => w.1 == 0x14018).getLast?.map fun w => w.2.toNat % 4 != 0).getD false
  split && (recordWrites f).any fun w => (List.range 8).any fun d =>
    w.1 == ringOff d 0x20 && bitsNat w.2.toNat 25 20 != f.modNo.toNat

/-- The record as stage 1 verifies it (R390): malformed bytes are no record, the key that signed it is one that the stage-1 image accepts, and
its security version stands in its header. -/
def recImageOf (f : FlashBank) : FlashImage :=
  { f.record with
    present := f.record.present && recordHeadOk f.recordBytes
    sigOk := f.record.sigOk && f.acceptedKeys.contains (BitVec.ofNat 64 (fileNat f.recordBytes 0x10 8))
    svn := fileNat f.recordBytes 0xC 4 }

/-- The OS loader as stage 2 verifies it: against a key that the record trusts (R388). -/
def loaderImageOf (f : FlashBank) : FlashImage :=
  { f.loader with sigOk := f.loader.sigOk && (recordTrust f.recordBytes).contains f.loaderKey }

/-- A hub core's write was ignored: an entry has reached the hub's event arbiter. -/
def State.hubLogged (s t : State) : Bool := (s.sup 12).evq.length != (t.sup 12).evq.length

/-- Write registers as core 0; none when one of the writes is ignored. -/
def State.writeAll : State → List (Nat × BitVec 64) → Option State
  | s, [] => some s
  | s, (o, v) :: ws =>
    let t := s.cfgWrite 0 o v
    if s.hubLogged t then none else t.writeAll ws

/-- The record's values in their places: the module number, the decoded CXL ranges, the shadow slots, and the registers (R390); none when a
register write is ignored. -/
def State.writeRecord (s : State) (f : FlashBank) : Option State :=
  let has (t : Nat) : Bool := recordHas f.recordBytes t
  let s : State := { s with cxl := if has 4 then f.cxl.foldl (fun m r => SMap.set m r.1 (SMap.get [] m r.1 ++ [r.2])) [] else [] }
  let s := s.modHub fun h => { h with
    modNo := if has 1 then f.modNo else 0
    shadowBase := if has 8 then f.shadow.foldl (fun m r => SMap.set m (8 + r.1) (BitVec.ofNat 52 r.2)) [] else [] }
  s.writeAll (recordWrites f)

/-- A value of the record breaks the limit of the register it fills (R391): on a module as stage 2 will find it, a write is ignored. -/
def State.breaksLimit (s : State) (f : FlashBank) : Bool := ((s.modHub fun h => { h with coresRun := 1 }).writeRecord f).isNone

/-- Stages 0 and 1 on a bank: the hub, and the first failure. -/
def State.tryBank (s : State) (b : Option FlashBank) : Hub × Option Nat :=
  let h := { s.hub with stage := 0 }
  match b with
  | none => (h, some 7)
  | some f =>
    match imageFail h.svn 1 f.stage1 with
    | some r => (h, some r)
    | none =>
      let h := { h.measure 0 f.stage1.digest with stage := 1 }
      match imageFail h.svn 2 (recImageOf f) with
      | some r => (h, some r)
      | none =>
        let h := { h.measure 1 f.record.digest with recDigest := f.record.digest }
        if !recordFormOk f.recordBytes || !f.recordOk || splitJoin f || s.breaksLimit f then (h, some 5)
        else match imageFail h.svn 2 f.firmware with
          | some r => (h, some r)
          | none => (h.measure 2 f.firmware.digest, none)

/-- Record a failure of a bank. -/
def Hub.setReason (h : Hub) (bank : Bool) (r : Nat) : Hub :=
  if bank then { h with rsn1 := BitVec.ofNat 8 r } else { h with rsn0 := BitVec.ofNat 8 r }

/-- The management state (R392): only core 0 runs. -/
def Hub.manage (h : Hub) (r : Nat) : Hub := { h with ms := true, mgmt := BitVec.ofNat 8 r, coresRun := 1 }

/-- Stage 2 starts on a bank: images with a higher security version raise the counter. -/
def Hub.stageTwo (h : Hub) (bank : Bool) (f : FlashBank) : Hub :=
  { h with booted := true, bank := bank, stage := 2, svn := max h.svn (max f.stage1.svn (max (recImageOf f).svn f.firmware.svn))
           coresRun := 1 }

/-! ### Bringing the dies up (R394 steps 3 to 6) -/

/-- In-module links train, each with a session of its own (27 R353); one that fails shows dead. -/
def State.trainLinks (s : State) (failed : List Nat) : State :=
  (List.range 54).foldl (fun s i => s.modLink i fun l =>
    { l with up := !failed.contains i, dead := failed.contains i, locked := false, lostAt := none, lastFlit := s.cycle.toNat
             d0 := LinkDir.reset, d1 := LinkDir.reset }) s

/-- Failed in-module links of a ring die. -/
def failedAt (failed : List Nat) (d : Nat) : Nat :=
  ((List.range 13).filter fun u => u != d && (match linkIndex (min d u) (max d u) with
    | some i => failed.contains i
    | none => false)).length

/-- The links of A-dies that stay in reset. -/
def heldLinks (held : List Nat) : List Nat :=
  (List.range 54).filter fun i => held.any fun n => (List.range 13).any fun u => u != 8 + n && linkIndex (min u (8 + n)) (max u (8 + n)) == some i

/-- The ring dies that firmware bypasses for failed links (R394). In a ring of two dies both forward over the link: the lower-numbered one is
bypassed (log 36). -/
def bootBypass (part : Nat → Nat) (next : Nat → Nat) (failed : List Nat) : List Nat :=
  (List.range 8).filter fun d =>
    failed.contains (28 + d) || failed.contains (42 + d) || failed.contains (50 + d / 2) ||
      (List.range 8).any fun e =>
        e != d && part d == part e && (next d == e || next e == d) && (match linkIndex (min d e) (max d e) with
          | some i => failed.contains i
          | none => false) &&
          (decide (failedAt failed e < failedAt failed d) || (failedAt failed e == failedAt failed d && next d == e && (next e != d || decide (d < e))))

/-- The die after d in its partition's ring (01 R19). -/
def nextIn (size d : Nat) : Nat := d / size * size + (d % size + 1) % size

/-- Set the BYPASS bits of the dies that are lost, on every member of their partition; their clusters are held. -/
def State.setBypass (s : State) (lost : List Nat) : State :=
  let s := (List.range 8).foldl (fun s d => s.modRing d fun r =>
    { r with bypass := BitVec.ofNat 8 ((lost.filter fun e => s.partOf e == s.partOf d).map fun e => 2 ^ e).sum }) s
  lost.foldl (fun s d => (dieClusters d).foldl (fun s c => s.modCl c fun k => { k with halted := true }) s) s

/-- Gateway ports whose peer completes its session come up; the others stay down (step 5, 27 R349). -/
def State.trainPorts (s : State) (peers : List (Nat × BitVec 6)) : State :=
  peers.foldl (fun s p => if p.1 < 8 then s.modLink (54 + p.1) fun l =>
      { l with up := true, dead := false, locked := false, lostAt := none, lastFlit := s.cycle.toNat, peer := p.2
               d0 := LinkDir.reset, d1 := LinkDir.reset } else s) s

/-- A partition that has lost more members than its ring can stays halted, and every die of it shows so (R394). -/
def State.haltShort (s : State) : State :=
  (List.range 8).foldl (fun t d =>
    if (s.ring d).nseg != 0 && s.tooFew d then t.modRing d fun r => { r with halted := true } else t) s

/-! ### The capability list (01 R22, R23) -/

/-- The payload of a capability as boot firmware writes it from the record, the module, and what the ports trained at (R23, 25 R340; word
layout log 14). -/
def State.capPayload (s : State) (cxlPorts : List (Nat × BitVec 64)) (c : Cap) : List (BitVec 64) :=
  let w (n : Nat) : BitVec 64 := BitVec.ofNat 64 n
  let g (i : Nat) : BitVec 64 := c.given.getD i 0
  match c.id.toNat with
  | 1 => [g 0, g 1, w s.hub.modNo.toNat] ++ c.given.drop 2
  | 2 => [w s.hub.shape.toNat, w (ringOff 0 0x40)] ++
      ((List.range (8 / partSize s.hub.shape)).map fun p => w (flagAt 0 (s.ring (p * partSize s.hub.shape)).rcap)) ++ c.given
  | 3 => (List.range 66).map fun i =>
      if (if i < 62 then (s.link i).up else cxlPorts.any fun p => p.1 == i - 62) then c.given.getD i 0xFFF else 0
  | 4 => ((List.range 4).flatMap fun n =>
      match cxlPorts.find? fun p => p.1 == n with
      | some p => [1, w ((SMap.get [] s.cxl n).map fun x => x.2).sum, p.2]
      | none => [0, 0, 0]) ++ c.given
  | 5 => ((List.range 8).map fun p => w (fieldAt 8 (s.link (54 + p)).peer.toNat + flagAt 0 (s.link (54 + p)).up)) ++ c.given
  | 7 => ((List.range 12).flatMap fun t => [w (s.sup t).evBase.toNat, w (s.sup t).depth.toNat]) ++ c.given
  | _ => c.given

/-- The words of the list from an offset: each entry is a header and its payload, and NEXT is the offset behind it, or 0 (R22). -/
def capWords : Nat → List (BitVec 16 × BitVec 8 × List (BitVec 64)) → List (BitVec 64)
  | _, [] => []
  | off, (id, ver, pay) :: cs =>
    let next := off + 8 * (1 + pay.length)
    BitVec.ofNat 64 (fieldAt 48 id.toNat + fieldAt 40 ver.toNat + fieldAt 32 pay.length + (if cs.isEmpty then 0 else next)) ::
      (pay ++ capWords next cs)

/-- Boot firmware builds the list, which does not change until the next module reset: identifiers 0 and 0xFFFF do not appear. The list lies
from offset 0x1000, where there is room for 29 entries of any length (log 14). -/
def State.buildCaps (s : State) (cxlPorts : List (Nat × BitVec 64)) (cs : List Cap) : State :=
  if s.hub.capptr ≠ 0 then s
  else
    let es := ((cs.filter fun c => c.id != 0 && c.id != 0xFFFF).take 29).map fun c => (c.id, c.ver, (s.capPayload cxlPorts c).take 255)
    s.modHub fun h => { h with caps := capWords 0x1000 es, capptr := if es.isEmpty then 0 else 0x1000 }

/-- Steps 3 to 6: links, the record's registers, bypasses, EN and RUN; none when a register write is ignored. An A-die whose hub link failed
stays in reset, with every link of it down (R394). -/
def State.bringUp (s : State) (env : ResetEnv) (f : FlashBank) : Option State :=
  let held := (List.range 4).filter fun n => env.failed.contains (50 + n)
  match (s.trainLinks (env.failed ++ heldLinks held)).writeRecord f with
  | none => none
  | some s =>
    let s := (s.trainPorts env.peers).buildCaps env.cxlPorts f.caps
    let lost := bootBypass s.partOf (nextIn (partSize s.hub.shape)) env.failed
    let s := ((s.setBypass lost).setMasters.haltShort).modHub fun h => { h with held := BitVec.ofNat 4 (held.map fun n => 2 ^ n).sum }
    let s := held.foldl (fun s n => (dieClusters (8 + n)).foldl (fun s c => s.modCl c fun k => { k with halted := true }) s) s
    let bit63 : BitVec 64 := BitVec.ofNat 64 (2 ^ 63)
    let ens := ((List.range 4).filter fun n => (s.adie n).ndesc != 0 && !held.contains n).map fun n =>
      (pageOff n 8, s.cfgWord (pageOff n 8) ||| bit63)
    -- in state H, which a suspended module keeps, RUN is written once every die is below TWARN (R396)
    let runs := ((List.range 8).filter fun d => (s.ring d).nseg != 0 && !lost.contains d && s.mayRun).map fun d =>
      (ringOff d 0x20, s.cfgWord (ringOff d 0x20) ||| bit63)
    s.writeAll (ens ++ runs)

/-! ### Module reset (R394) -/

/-- The module as reset leaves it before stage 0: boot flash, the certificate in it, its counter, and the replies and interrupt messages
already sent stand, and so does what the model keeps for itself; CYCLE starts from 0 (07 R109). -/
def State.cleared (s : State) : State :=
  { State.reset with
    turns := s.turns, free := s.free, seq := s.seq, meter := s.meter
    hub := { Hub.reset with
      flash0 := s.hub.flash0, flash1 := s.hub.flash1, svn := s.hub.svn, replies := s.hub.replies, cert := s.hub.cert, msix := s.hub.msix } }

/-- Stage 2 and what follows on a bank whose first stages passed. -/
def State.bootFrom (s : State) (env : ResetEnv) (bank : Bool) (f : FlashBank) : State :=
  let s := s.modHub fun h => h.stageTwo bank f
  match imageFail s.hub.svn 3 (loaderImageOf f) with
  | some r => s.modHub fun h => (h.setReason bank r).manage r
  | none =>
    let s := s.modHub fun h => { h.measure 3 f.loader.digest with svn := max h.svn f.loader.svn }
    match s.bringUp env f with
    | none => s.modHub fun h => (h.setReason bank 5).manage 5
    -- stage 3 extends M4 with what it loads, by its own rules
    | some t => t.modHub fun h => env.loaded.foldl (fun h g => h.measure 4 g) { h with stage := 3, coresRun := 0xFFFF }

/-- MODULE_RESET: helper data that fails its check, then bank 0, then bank 1. -/
def execModuleReset (env : ResetEnv) (s : State) : Out :=
  let s := s.cleared
  if !env.pufOk then .next (s.modHub fun h => h.manage 6)
  else
    let s := s.modHub fun h => { h with cert := Config.freeCertificate }
    let (h0, r0) := s.tryBank s.hub.flash0
    match r0, s.hub.flash0 with
    | none, some f => .next ((s.modHub fun _ => h0).bootFrom env false f)
    | _, _ =>
      let a := r0.getD 7
      let (h1, r1) := (s.modHub fun _ => h0.setReason false a).tryBank s.hub.flash1
      match r1, s.hub.flash1 with
      | none, some f => .next ((s.modHub fun _ => h1).bootFrom env true f)
      | _, _ =>
        let b := r1.getD 7
        .next (s.modHub fun _ => (h1.setReason true b).manage b)

/-! ### Firmware update (R386) -/

/-- PLDM_FIRMWARE_UPDATE: the inactive bank, or either one in the management state. -/
def execPldmFirmwareUpdate (bank : Bool) (img : FlashBank) (s : State) : Out :=
  let h := s.hub
  if h.power = .off || (h.booted && !h.ms && bank == h.bank) then .next s
  else .next (s.modHub fun h => if bank then { h with flash1 := some img } else { h with flash0 := some img })

/-! ### Attestation (R393) -/

/-- The Hub Security Core answers a request; without an identity key it has nothing to sign with (R389 code 6). -/
def State.reply (s : State) (f : BitVec 1056 → Reply) (nonce : Nat) : State :=
  if s.hub.power = .off ∨ s.hub.mgmt = 6 then s
  else
    let n := s.free
    { s with free := n + 1, hub := { s.hub with replies := s.hub.replies ++ [f (Config.freeSignature n nonce)] } }

/-- GET_CERTIFICATE. -/
def execGetCertificate (s : State) : Out := .next (s.reply (fun _ => .certificate s.hub.cert) 0)
/-- CHALLENGE. -/
def execChallenge (nonce : Nat) (s : State) : Out := .next (s.reply (fun g => .challenge nonce g) nonce)
/-- GET_MEASUREMENTS: indices 1 to 5 are M0 to M4, index 6 the record's digest. -/
def execGetMeasurements (nonce : Nat) (s : State) : Out :=
  .next (s.reply (fun g => .measurements nonce (s.hub.meas ++ [s.hub.recDigest]) g) nonce)
/-- KEY_EXCHANGE. -/
def execKeyExchange (nonce : Nat) (s : State) : Out := .next (s.reply (fun g => .session nonce g) nonce)

/-! ### Power (R396) -/

/-- State H holds, also while the dies are off in S. -/
def Hub.tooHot (h : Hub) : Bool := h.power == .h || (h.power == .s && h.hot)

/-- What the next measurement does, which is used up; without one, nothing. -/
def State.measured (s : State) (f : BitVec 16 → BitVec 8 → Hub → Hub) : State :=
  match s.meter with
  | [] => s
  | (watts, temp) :: ms => { s with meter := ms, hub := f watts temp s.hub }

/-- P1_ENTRY: the 1 ms average power, or the hottest die's temperature, is over its limit; in H, a die is above TWARN again. -/
def execP1Entry (s : State) : Out :=
  .next (s.measured fun watts temp h =>
    if h.power = .p0 then (if decide (h.twarn < temp) || decide (h.capw < watts) then { h with power := .p1 } else h)
    else if h.tooHot && decide (h.twarn < temp) then { h with cool := false }
    else h)

/-- P1_EXIT: for 1 ms the power has been below CAPW and every die below TWARN; in H, every die is below TWARN. -/
def execP1Exit (s : State) : Out :=
  .next (s.measured fun watts temp h =>
    if h.power = .p1 then (if decide (temp < h.twarn) && decide (watts < h.capw) then { h with power := .p0 } else h)
    else if h.tooHot && decide (temp < h.twarn) then { h with cool := true }
    else h)

/-- THERMAL_HALT: a die passes TCRIT (the hub's own die is 12 or 13, none is above), or coolant flow is lost. -/
def execThermalHalt (target : Nat) (temp : BitVec 8) (coolant : Bool) (s : State) : Out :=
  let hot := decide (target < 14) && decide (s.hub.tcrit < temp)
  if !(hot || coolant) then .next s
  else if s.hub.tooHot then .next (if hot then s.modHub fun h => { h with cool := false } else s)
  else if !s.hub.power.runs then .next s
  else
    let s := s.modHub fun h => { h with power := .h, cool := false }
    let s := (List.range 8).foldl (fun s d => if (s.ring d).run then s.modRing d fun r => { r with haltNext := true } else s) s
    .next (s.logFault 12 { Fault.Rec.plain .haltPwr 0xA20 with
      target := if hot then s.hub.modNo.toNat * 256 + target else 0xFF
      info := (if hot then temp.toNat else 0) + (if coolant then 256 else 0) })

/-- Memory that lies in LPDDR6 or behind a CXL port, and so outlives the dies. -/
def outlives (pa : Nat) : Bool :=
  let r := pa % 2 ^ 46 / 2 ^ 42
  r == 0 || (decide (2 ≤ r) && decide (r < 6))

/-- SUSPEND: the dies are off and LPDDR6 refreshes itself; of the cores core 0 goes on. State H holds on behind S. In the management state no
die is up. -/
def execSuspend (s : State) : Out :=
  if s.hub.power = .off ∨ s.hub.power = .s ∨ s.hub.ms = true then .next s
  else .next
    { (s.modHub fun h => { h with power := .s, coresRun := h.coresRun &&& 1, hot := h.power == .h, clears := [] }) with
      clusters := [], rings := [], adies := [], dists := [], shoots := [], ltt := [], lttNew := []
      sups := s.sups.filter fun b => b.1 == 12
      access := s.access.filter fun a => decide (12 * 4096 ≤ a.1)
      mem := s.mem.filter fun b => outlives b.1
      bad := s.bad.filter fun u => outlives (u.1 * 8)
      ro := s.ro.filter fun g => outlives (g.1 * 4096)
      links := s.links.map fun l => (l.1, if l.1 < 54 then { l.2 with up := false, lostAt := none } else l.2) }

/-- WAKE: steps 3 to 6 of the reset order, from the bank that booted; back into H when S was entered from it. A failure is the bank's (R389). -/
def execWake (env : ResetEnv) (s : State) : Out :=
  if s.hub.power ≠ .s ∨ s.hub.ms = true then .next s
  else
    let s := s.modHub fun h => { h with power := if h.hot then .h else .p0, coresRun := 1 }
    match if s.hub.bank then s.hub.flash1 else s.hub.flash0 with
    | none => .next (s.modHub fun h => (h.setReason h.bank 7).manage 7)
    | some f => match s.bringUp env f with
      | none => .next (s.modHub fun h => (h.setReason h.bank 5).manage 5)
      | some t => .next (t.modHub fun h => { h with coresRun := 0xFFFF })

/-- POWER_REMOVED. -/
def execPowerRemoved (s : State) : Out := .next (s.cleared.modHub fun h => { h with power := .off })

end Sys2Proof.Machine
end

