-- ==== Sys2Proof/Machine/Dispatch.lean ====
section
/-! DEFINITION. One arm per instruction: a direct call of its meaning. -/

namespace Sys2Proof.Machine

/-- The meaning of an instruction in a state. -/
def exec (i : Instr) (s : State) : Host.Outcome State Fault Refusal :=
  match i with
  | .nop w => Sys2Proof.Machine.execNop w s
  | .endI w => Sys2Proof.Machine.execEndI w s
  | .bri w => Sys2Proof.Machine.execBri w s
  | .br w => Sys2Proof.Machine.execBr w s
  | .pbr w => Sys2Proof.Machine.execPbr w s
  | .jtab w => Sys2Proof.Machine.execJtab w s
  | .call w => Sys2Proof.Machine.execCall w s
  | .ret w => Sys2Proof.Machine.execRet w s
  | .loop w => Sys2Proof.Machine.execLoop w s
  | .lbrk w => Sys2Proof.Machine.execLbrk w s
  | .lidx w => Sys2Proof.Machine.execLidx w s
  | .post w => Sys2Proof.Machine.execPost w s
  | .await w => Sys2Proof.Machine.execAwait w s
  | .awaitNb w => Sys2Proof.Machine.execAwaitNb w s
  | .wseg w => Sys2Proof.Machine.execWseg w s
  | .trapI w => Sys2Proof.Machine.execTrapI w s
  | .addI w => Sys2Proof.Machine.execAddI w s
  | .subI w => Sys2Proof.Machine.execSubI w s
  | .andI w => Sys2Proof.Machine.execAndI w s
  | .orI w => Sys2Proof.Machine.execOrI w s
  | .xorI w => Sys2Proof.Machine.execXorI w s
  | .shl w => Sys2Proof.Machine.execShl w s
  | .shr w => Sys2Proof.Machine.execShr w s
  | .sar w => Sys2Proof.Machine.execSar w s
  | .minI w => Sys2Proof.Machine.execMinI w s
  | .maxI w => Sys2Proof.Machine.execMaxI w s
  | .minn w => Sys2Proof.Machine.execMinn w s
  | .maxn w => Sys2Proof.Machine.execMaxn w s
  | .clz w => Sys2Proof.Machine.execClz w s
  | .popc w => Sys2Proof.Machine.execPopc w s
  | .bext w => Sys2Proof.Machine.execBext w s
  | .bins w => Sys2Proof.Machine.execBins w s
  | .addImm w => Sys2Proof.Machine.execAddImm w s
  | .subImm w => Sys2Proof.Machine.execSubImm w s
  | .andImm w => Sys2Proof.Machine.execAndImm w s
  | .orImm w => Sys2Proof.Machine.execOrImm w s
  | .xorImm w => Sys2Proof.Machine.execXorImm w s
  | .shlImm w => Sys2Proof.Machine.execShlImm w s
  | .shrImm w => Sys2Proof.Machine.execShrImm w s
  | .sarImm w => Sys2Proof.Machine.execSarImm w s
  | .minImm w => Sys2Proof.Machine.execMinImm w s
  | .maxImm w => Sys2Proof.Machine.execMaxImm w s
  | .minnImm w => Sys2Proof.Machine.execMinnImm w s
  | .maxnImm w => Sys2Proof.Machine.execMaxnImm w s
  | .mulI w => Sys2Proof.Machine.execMulI w s
  | .mulh w => Sys2Proof.Machine.execMulh w s
  | .mulhn w => Sys2Proof.Machine.execMulhn w s
  | .madd w => Sys2Proof.Machine.execMadd w s
  | .divI w => Sys2Proof.Machine.execDivI w s
  | .divn w => Sys2Proof.Machine.execDivn w s
  | .rem w => Sys2Proof.Machine.execRem w s
  | .remn w => Sys2Proof.Machine.execRemn w s
  | .cmp w => Sys2Proof.Machine.execCmp w s
  | .cmpi w => Sys2Proof.Machine.execCmpi w s
  | .sel w => Sys2Proof.Machine.execSel w s
  | .li w => Sys2Proof.Machine.execLi w s
  | .liHi w => Sys2Proof.Machine.execLiHi w s
  | .mov w => Sys2Proof.Machine.execMov w s
  | .plog w => Sys2Proof.Machine.execPlog w s
  | .lea w => Sys2Proof.Machine.execLea w s
  | .leaPc w => Sys2Proof.Machine.execLeaPc w s
  | .spld w => Sys2Proof.Machine.execSpld w s
  | .spst w => Sys2Proof.Machine.execSpst w s
  | .getc w => Sys2Proof.Machine.execGetc w s
  | .setc w => Sys2Proof.Machine.execSetc w s
  | .fork w => Sys2Proof.Machine.execFork w s
  | .rdv w => Sys2Proof.Machine.execRdv w s
  | .qcfg w => Sys2Proof.Machine.execQcfg w s
  | .tspawn w => Sys2Proof.Machine.execTspawn w s
  | .tsig w => Sys2Proof.Machine.execTsig w s
  | .tyield w => Sys2Proof.Machine.execTyield w s
  | .gbar w => Sys2Proof.Machine.execGbar w s
  | .gwait w => Sys2Proof.Machine.execGwait w s
  | .prog w => Sys2Proof.Machine.execProg w s
  | .wrel w => Sys2Proof.Machine.execWrel w s
  | .tret w => Sys2Proof.Machine.execTret w s
  | .tretSkip w => Sys2Proof.Machine.execTretSkip w s
  | .ctxsave w => Sys2Proof.Machine.execCtxsave w s
  | .ctxload w => Sys2Proof.Machine.execCtxload w s
  | .lttw w => Sys2Proof.Machine.execLttw w s
  | .bank w => Sys2Proof.Machine.execBank w s
  | .attrSet w => Sys2Proof.Machine.execAttrSet w s
  | .attrClr w => Sys2Proof.Machine.execAttrClr w s
  | .halt w => Sys2Proof.Machine.execHalt w s
  | .haltGo w => Sys2Proof.Machine.execHaltGo w s
  | .ld w => Sys2Proof.Machine.execLd w s
  | .st w => Sys2Proof.Machine.execSt w s
  | .lda w => Sys2Proof.Machine.execLda w s
  | .stl w => Sys2Proof.Machine.execStl w s
  | .vld w => Sys2Proof.Machine.execVld w s
  | .vst w => Sys2Proof.Machine.execVst w s
  | .ldq w => Sys2Proof.Machine.execLdq w s
  | .stq w => Sys2Proof.Machine.execStq w s
  | .kld w => Sys2Proof.Machine.execKld w s
  | .kst w => Sys2Proof.Machine.execKst w s
  | .gath w => Sys2Proof.Machine.execGath w s
  | .scat w => Sys2Proof.Machine.execScat w s
  | .copy w => Sys2Proof.Machine.execCopy w s
  | .fill w => Sys2Proof.Machine.execFill w s
  | .atom w => Sys2Proof.Machine.execAtom w s
  | .redst w => Sys2Proof.Machine.execRedst w s
  | .mcst w => Sys2Proof.Machine.execMcst w s
  | .fenceAcq w => Sys2Proof.Machine.execFenceAcq w s
  | .fenceRel w => Sys2Proof.Machine.execFenceRel w s
  | .fenceAr w => Sys2Proof.Machine.execFenceAr w s
  | .fenceSc w => Sys2Proof.Machine.execFenceSc w s
  | .qfence w => Sys2Proof.Machine.execQfence w s
  | .qpush w => Sys2Proof.Machine.execQpush w s
  | .qpop w => Sys2Proof.Machine.execQpop w s
  | .msgsend w => Sys2Proof.Machine.execMsgsend w s
  | .pref w => Sys2Proof.Machine.execPref w s
  | .vadd w => Sys2Proof.Machine.execVadd w s
  | .vsub w => Sys2Proof.Machine.execVsub w s
  | .vmul w => Sys2Proof.Machine.execVmul w s
  | .vfma w => Sys2Proof.Machine.execVfma w s
  | .vmin w => Sys2Proof.Machine.execVmin w s
  | .vmax w => Sys2Proof.Machine.execVmax w s
  | .vabs w => Sys2Proof.Machine.execVabs w s
  | .vdiv w => Sys2Proof.Machine.execVdiv w s
  | .vrcp w => Sys2Proof.Machine.execVrcp w s
  | .vrsq w => Sys2Proof.Machine.execVrsq w s
  | .vexp w => Sys2Proof.Machine.execVexp w s
  | .vlog w => Sys2Proof.Machine.execVlog w s
  | .vact w => Sys2Proof.Machine.execVact w s
  | .viadd w => Sys2Proof.Machine.execViadd w s
  | .visub w => Sys2Proof.Machine.execVisub w s
  | .vimul w => Sys2Proof.Machine.execVimul w s
  | .vimac w => Sys2Proof.Machine.execVimac w s
  | .vbit w => Sys2Proof.Machine.execVbit w s
  | .vsh w => Sys2Proof.Machine.execVsh w s
  | .vimm w => Sys2Proof.Machine.execVimm w s
  | .vcmp w => Sys2Proof.Machine.execVcmp w s
  | .vsel w => Sys2Proof.Machine.execVsel w s
  | .vmsk w => Sys2Proof.Machine.execVmsk w s
  | .vcvt w => Sys2Proof.Machine.execVcvt w s
  | .vrnd w => Sys2Proof.Machine.execVrnd w s
  | .vqnt w => Sys2Proof.Machine.execVqnt w s
  | .vdq w => Sys2Proof.Machine.execVdq w s
  | .vunp3 w => Sys2Proof.Machine.execVunp3 w s
  | .vtmac w => Sys2Proof.Machine.execVtmac w s
  | .vred w => Sys2Proof.Machine.execVred w s
  | .vscan w => Sys2Proof.Machine.execVscan w s
  | .vtopk w => Sys2Proof.Machine.execVtopk w s
  | .vperm w => Sys2Proof.Machine.execVperm w s
  | .vbcst w => Sys2Proof.Machine.execVbcst w s
  | .vsld w => Sys2Proof.Machine.execVsld w s
  | .vilv w => Sys2Proof.Machine.execVilv w s
  | .vxpose w => Sys2Proof.Machine.execVxpose w s
  | .vmovs w => Sys2Proof.Machine.execVmovs w s
  | .vsmx w => Sys2Proof.Machine.execVsmx w s
  | .vrope w => Sys2Proof.Machine.execVrope w s
  | .vstat w => Sys2Proof.Machine.execVstat w s
  | .vmov w => Sys2Proof.Machine.execVmov w s
  | .kmov w => Sys2Proof.Machine.execKmov w s
  | .kset w => Sys2Proof.Machine.execKset w s
  | .ksetOne w => Sys2Proof.Machine.execKsetOne w s
  | .ksetS w => Sys2Proof.Machine.execKsetS w s
  | .kadd w => Sys2Proof.Machine.execKadd w s
  | .kmax w => Sys2Proof.Machine.execKmax w s
  | .kmin w => Sys2Proof.Machine.execKmin w s
  | .ktype w => Sys2Proof.Machine.execKtype w s
  | .kbind w => Sys2Proof.Machine.execKbind w s
  | .kunb w => Sys2Proof.Machine.execKunb w s
  | .kgen w => Sys2Proof.Machine.execKgen w s
  | .kgenB w => Sys2Proof.Machine.execKgenB w s
  | .kfrom w => Sys2Proof.Machine.execKfrom w s
  | .mnest w => Sys2Proof.Machine.execMnest w s
  | .msrc w => Sys2Proof.Machine.execMsrc w s
  | .mbselWin w => Sys2Proof.Machine.execMbselWin w s
  | .mbselScr w => Sys2Proof.Machine.execMbselScr w s
  | .mfmt w => Sys2Proof.Machine.execMfmt w s
  | .mgo w => Sys2Proof.Machine.execMgo w s
  | .mgoGrp w => Sys2Proof.Machine.execMgoGrp w s
  | .mdrain w => Sys2Proof.Machine.execMdrain w s
  | .mzero w => Sys2Proof.Machine.execMzero w s
  | .mload w => Sys2Proof.Machine.execMload w s
  | .mrnd w => Sys2Proof.Machine.execMrnd w s
  | .mgrp w => Sys2Proof.Machine.execMgrp w s
  | .mstat w => Sys2Proof.Machine.execMstat w s
  | .aqset w => Sys2Proof.Machine.execAqset w s
  | .astep w => Sys2Proof.Machine.execAstep w s
  | .amerge w => Sys2Proof.Machine.execAmerge w s
  | .afin w => Sys2Proof.Machine.execAfin w s
  | .kvapp w => Sys2Proof.Machine.execKvapp w s
  | .kvappBeam w => Sys2Proof.Machine.execKvappBeam w s
  | .kvgath w => Sys2Proof.Machine.execKvgath w s
  | .pgalloc w => Sys2Proof.Machine.execPgalloc w s
  | .pgfree w => Sys2Proof.Machine.execPgfree w s
  | .pxlook w => Sys2Proof.Machine.execPxlook w s
  | .pxins w => Sys2Proof.Machine.execPxins w s
  | .pxrel w => Sys2Proof.Machine.execPxrel w s
  | .bmapRo w => Sys2Proof.Machine.execBmapRo w s
  | .bmapSet w => Sys2Proof.Machine.execBmapSet w s
  | .bmapRdlo w => Sys2Proof.Machine.execBmapRdlo w s
  | .bmapRdhi w => Sys2Proof.Machine.execBmapRdhi w s
  | .bmapClr w => Sys2Proof.Machine.execBmapClr w s
  | .tierin w => Sys2Proof.Machine.execTierin w s
  | .tierout w => Sys2Proof.Machine.execTierout w s
  | .seqrd w => Sys2Proof.Machine.execSeqrd w s
  | .tierMoveEnd a => Sys2Proof.Machine.execTierMoveEnd a s
  | .headerReached c x => Sys2Proof.Machine.execHeaderReached c x s
  | .sectionStart c x => Sys2Proof.Machine.execSectionStart c x s
  | .segmentKeyHit c x => Sys2Proof.Machine.execSegmentKeyHit c x s
  | .sectionRetire c x => Sys2Proof.Machine.execSectionRetire c x s
  | .resultLands c n ext => Sys2Proof.Machine.execResultLands c n ext s
  | .ldqScalesLand c n ext => Sys2Proof.Machine.execLdqScalesLand c n ext s
  | .ldqDataLands c n ext => Sys2Proof.Machine.execLdqDataLands c n ext s
  | .acceptanceTimeout c x => Sys2Proof.Machine.execAcceptanceTimeout c x s
  | .fenceWaitExpiry c x => Sys2Proof.Machine.execFenceWaitExpiry c x s
  | .bankWake c bank => Sys2Proof.Machine.execBankWake c bank s
  | .taskTrapHandlerStart c => Sys2Proof.Machine.execTaskTrapHandlerStart c s
  | .messageArrival c far => Sys2Proof.Machine.execMessageArrival c far s
  | .arrivalHandlerStart c => Sys2Proof.Machine.execArrivalHandlerStart c s
  | .hubSubmission core t r => Sys2Proof.Machine.execHubSubmission core t r s
  | .earlySignalExpiry t tid => Sys2Proof.Machine.execEarlySignalExpiry t tid s
  | .taskRelease t tid => Sys2Proof.Machine.execTaskRelease t tid s
  | .taskIssue t c => Sys2Proof.Machine.execTaskIssue t c s
  | .taskRetirement c => Sys2Proof.Machine.execTaskRetirement c s
  | .timingSourceChange a => Sys2Proof.Machine.execTimingSourceChange a s
  | .tickEnd d => Sys2Proof.Machine.execTickEnd d s
  | .frameStart d => Sys2Proof.Machine.execFrameStart d s
  | .segmentArrival d ext => Sys2Proof.Machine.execSegmentArrival d ext s
  | .segmentForward d => Sys2Proof.Machine.execSegmentForward d s
  | .segmentRefetch d pos => Sys2Proof.Machine.execSegmentRefetch d pos s
  | .heartbeatTimeout d lost => Sys2Proof.Machine.execHeartbeatTimeout d lost s
  | .repairComplete d => Sys2Proof.Machine.execRepairComplete d s
  | .nestStart c => Sys2Proof.Machine.execNestStart c s
  | .nestStep c => Sys2Proof.Machine.execNestStep c s
  | .nestEnd c => Sys2Proof.Machine.execNestEnd c s
  | .mdrainRowLands c => Sys2Proof.Machine.execMdrainRowLands c s
  | .backgroundEviction a => Sys2Proof.Machine.execBackgroundEviction a s
  | .preemptionCheck t => Sys2Proof.Machine.execPreemptionCheck t s
  | .saveImageComplete c => Sys2Proof.Machine.execSaveImageComplete c s
  | .saveDrainFallback t => Sys2Proof.Machine.execSaveDrainFallback t s
  | .contextRestore t c => Sys2Proof.Machine.execContextRestore t c s
  | .retry core t cl => Sys2Proof.Machine.execRetry core t cl s
  | .skip core t cl => Sys2Proof.Machine.execSkip core t cl s
  | .kill core t cl => Sys2Proof.Machine.execKill core t cl s
  | .saveTeam core t team => Sys2Proof.Machine.execSaveTeam core t team s
  | .swapout core t => Sys2Proof.Machine.execSwapout core t s
  | .swapin core t => Sys2Proof.Machine.execSwapin core t s
  | .frz core t v => Sys2Proof.Machine.execFrz core t v s
  | .agfrz core t v => Sys2Proof.Machine.execAgfrz core t v s
  | .estclr core t all tid => Sys2Proof.Machine.execEstclr core t all tid s
  | .alloc core a arg page => Sys2Proof.Machine.execAlloc core a arg page s
  | .refPage core a arg page => Sys2Proof.Machine.execRefPage core a arg page s
  | .unref core a arg page => Sys2Proof.Machine.execUnref core a arg page s
  | .setro core a arg page => Sys2Proof.Machine.execSetro core a arg page s
  | .clrro core a arg page => Sys2Proof.Machine.execClrro core a arg page s
  | .setpin core a arg page => Sys2Proof.Machine.execSetpin core a arg page s
  | .clrpin core a arg page => Sys2Proof.Machine.execClrpin core a arg page s
  | .evict core a arg page => Sys2Proof.Machine.execEvict core a arg page s
  | .publish core a arg page => Sys2Proof.Machine.execPublish core a arg page s
  | .pageAllocatorEnable core a v => Sys2Proof.Machine.execPageAllocatorEnable core a v s
  | .pageAllocatorInitDone a => Sys2Proof.Machine.execPageAllocatorInitDone a s
  | .partcfg core v => Sys2Proof.Machine.execPartcfg core v s
  | .partsup core v => Sys2Proof.Machine.execPartsup core v s
  | .accessTableWrite master t m v => Sys2Proof.Machine.execAccessTableWrite master t m v s
  | .groupTableWrite core idx mask => Sys2Proof.Machine.execGroupTableWrite core idx mask s
  | .rfcfg core d v => Sys2Proof.Machine.execRfcfg core d v s
  | .bypass core d v => Sys2Proof.Machine.execBypass core d v s
  | .fabcfg core v => Sys2Proof.Machine.execFabcfg core v s
  | .hostwin core v => Sys2Proof.Machine.execHostwin core v s
  | .pwrcap core v => Sys2Proof.Machine.execPwrcap core v s
  | .configRegisterWrite core off v => Sys2Proof.Machine.execConfigRegisterWrite core off v s
  | .flitReceived link dir hdr tagOk => Sys2Proof.Machine.execFlitReceived link dir hdr tagOk s
  | .keyUpdate link dir => Sys2Proof.Machine.execKeyUpdate link dir s
  | .linkDeclaredDead link => Sys2Proof.Machine.execLinkDeclaredDead link s
  | .linkUp link peer => Sys2Proof.Machine.execLinkUp link peer s
  | .remoteAccessArrival req => Sys2Proof.Machine.execRemoteAccessArrival req s
  | .leaseExpiry d line => Sys2Proof.Machine.execLeaseExpiry d line s
  | .shootDown home die => Sys2Proof.Machine.execShootDown home die s
  | .roClearAtHome home => Sys2Proof.Machine.execRoClearAtHome home s
  | .hostBarAccess bar2 req => Sys2Proof.Machine.execHostBarAccess bar2 req s
  | .moduleReset env => Sys2Proof.Machine.execModuleReset env s
  | .pldmFirmwareUpdate bank img => Sys2Proof.Machine.execPldmFirmwareUpdate bank img s
  | .getCertificate => Sys2Proof.Machine.execGetCertificate s
  | .challenge nonce => Sys2Proof.Machine.execChallenge nonce s
  | .getMeasurements nonce => Sys2Proof.Machine.execGetMeasurements nonce s
  | .keyExchange nonce => Sys2Proof.Machine.execKeyExchange nonce s
  | .p1Entry => Sys2Proof.Machine.execP1Entry s
  | .p1Exit => Sys2Proof.Machine.execP1Exit s
  | .thermalHalt target temp coolant => Sys2Proof.Machine.execThermalHalt target temp coolant s
  | .suspend => Sys2Proof.Machine.execSuspend s
  | .wake env => Sys2Proof.Machine.execWake env s
  | .powerRemoved => Sys2Proof.Machine.execPowerRemoved s
  | .accessAccepted c x far => Sys2Proof.Machine.execAccessAccepted c x far s
  | .accessPerformed c a => Sys2Proof.Machine.execAccessPerformed c a s
  | .hubCoreAccess core req => Sys2Proof.Machine.execHubCoreAccess core req s
  | .segmentStoreError d => Sys2Proof.Machine.execSegmentStoreError d s
  | .linkLosesTraining link => Sys2Proof.Machine.execLinkLosesTraining link s
  | .distributorMessageArrival msg => Sys2Proof.Machine.execDistributorMessageArrival msg s

end Sys2Proof.Machine
end

