-- ==== Sys2Proof/Machine/Step.lean ====
section
/-! DEFINITION. One step: what is planned next, and the meaning of the instruction it names. -/

namespace Sys2Proof.Machine

/-- One step of the module. -/
def step (s : State) : Host.Outcome State Fault Refusal :=
  match s.plan with
  | .answer o => o
  | .run i t => exec i t

/-- The state with an instruction's bits stored where the next step fetches (log 4). -/
def State.withFetchWord (s : State) (nbits w : Nat) : State := s.placeWord (w % 2 ^ nbits)

end Sys2Proof.Machine
end

