-- ==== Sys2Proof/Safety.lean ====
section
/-! DEFINITION. What counts as a safe run, and the words the claims use: what completing a word may change, and the plain course of a
word. -/

namespace Sys2Proof.Machine

/-- A safe run: n steps from a state end in a state. -/
def SafeRun (n : Nat) (s : State) : Prop := ∃ t, Sys2Proof.core.run n s = .next t

/-- A context apart from where it stands in its program: PC, phase, section, loop stack and the VRB its loops rotate, the ages of its b
registers, and whether it has stopped or was held back. -/
def Ctx.rest (e : Ctx) : Ctx :=
  { e with pc := 0, phase := .header, inSec := false, loops := [], vrb := 0, bAge := [], stopped := false, blocked := false }
/-- A cluster apart from its contexts and the issue slots of the cycle. -/
def Cluster.rest (k : Cluster) : Cluster := { k with ctx := [], issued := [] }
/-- The module apart from its clusters: memory, tables, rings, A-dies, Distributors, supervisors, links, the hub. -/
def State.rest (s : State) : State := { s with clusters := [] }

/-- t is u but for where the issuing context of u stands in its program and the issue slot it has used: memory and every other unit,
every other cluster, the cluster's registers and flags, every other context, and the context's own registers are those of u. -/
structure OnlySequencing (u t : State) : Prop where
  module : t.rest = u.rest
  others : ∀ c, c ≠ u.cur.1 → t.cl c = u.cl c
  cluster : t.me.rest = u.me.rest
  engines : ∀ x, x ≠ u.cur.2 → t.me.cx x = u.me.cx x
  own : t.ctx.rest = u.ctx.rest

/-- The word at the PC has its sequential successor `len` parcels on in its section, or at its end, and every open loop of the context
starts in the section. -/
def Straight (s : State) (len : Nat) : Prop :=
  s.ctx.inSec = true ∧ s.ctx.secF.toNat ≤ (s.ctx.pc + BitVec.ofNat 32 len).toNat ∧
    (s.ctx.pc + BitVec.ofNat 32 len).toNat ≤ s.ctx.secE ∧ ∀ l ∈ s.ctx.loops, s.ctx.inside l.start = true

/-- A word completes with this outcome: it answers a next state, which is `u` but for the course of the issuing context. -/
def Gives (i : Instr) (s u : State) : Prop := ∃ t, exec i s = .next t ∧ OnlySequencing u t

/-- Every byte the module can read is the same in two states. -/
def SameBytes (s t : State) : Prop := ∀ pa, t.byte pa = s.byte pa

end Sys2Proof.Machine
end

