-- ==== Sys2Proof/Certificates/Slice0/Obligations.lean ====
section
/-! DEFINITION. The statements for the provers, from the spec's rules, with the relations they are said in. -/

/-! ### Scalar words (11 R155 to R160) -/

namespace Sys2Proof.Claims

open Sys2Proof.Machine

/-- An exact result, clamped to the signed 64-bit range when MD[3] is 1 and taken modulo 2^64 otherwise (R155). -/
def sat64 (w : BitVec 4) (exact : Int) (wrapped : Word) : Word :=
  if w.getLsbD 3 then BitVec.ofInt 64 (max (-2 ^ 63) (min (2 ^ 63 - 1) exact)) else wrapped

/-- Bits set in the mask of a bit field: LEN ones from POS on (R156). -/
def fieldMask (pos len : Nat) : Word := BitVec.ofNat 64 ((2 ^ len - 1) * 2 ^ pos)
/-- POS and LEN of a bit field (R156). -/
def posOf (b : Word) : Nat := b.toNat % 64
def lenOf (b : Word) : Nat := min (b.toNat / 256 % 128) 64

/-- The scalar operations on registers: sources read, latency, result of the source values (R130, R155 to R157). -/
def scalarOp : Instr → Option (AForm × Nat × Nat × (Word → Word → Word → Word))
  | .addI w => some (w, 2, 1, fun a b _ => sat64 w.md (a.toInt + b.toInt) (a + b))
  | .subI w => some (w, 2, 1, fun a b _ => sat64 w.md (a.toInt - b.toInt) (a - b))
  | .andI w => some (w, 2, 1, fun a b _ => a &&& b)
  | .orI w => some (w, 2, 1, fun a b _ => a ||| b)
  | .xorI w => some (w, 2, 1, fun a b _ => a ^^^ b)
  | .shl w => some (w, 2, 1, fun a b _ => sat64 w.md (a.toInt * 2 ^ b.toNat) (a <<< b.toNat))
  | .shr w => some (w, 2, 1, fun a b _ => a >>> b.toNat)
  | .sar w => some (w, 2, 1, fun a b _ => a.sshiftRight b.toNat)
  | .minI w => some (w, 2, 1, fun a b _ => if b.slt a then b else a)
  | .maxI w => some (w, 2, 1, fun a b _ => if a.slt b then b else a)
  | .minn w => some (w, 2, 1, fun a b _ => if b.ult a then b else a)
  | .maxn w => some (w, 2, 1, fun a b _ => if a.ult b then b else a)
  | .clz w => some (w, 1, 1, fun a _ _ => BitVec.ofNat 64 (64 - a.toNat.size))
  | .popc w => some (w, 1, 1, fun a _ _ => BitVec.ofNat 64 ((List.range 64).countP fun i => a.getLsbD i))
  | .bext w => some (w, 2, 1, fun a b _ => (a >>> posOf b) &&& fieldMask 0 (lenOf b))
  | .bins w => some (w, 3, 1, fun a b c =>
      (c &&& ~~~fieldMask (posOf b) (lenOf b)) ||| ((a <<< posOf b) &&& fieldMask (posOf b) (lenOf b)))
  | .mulI w => some (w, 2, 3, fun a b _ => sat64 w.md (a.toInt * b.toInt) (a * b))
  | .mulh w => some (w, 2, 3, fun a b _ => BitVec.ofInt 64 (a.toInt * b.toInt / 2 ^ 64))
  | .mulhn w => some (w, 2, 3, fun a b _ => BitVec.ofNat 64 (a.toNat * b.toNat / 2 ^ 64))
  | .madd w => some (w, 3, 3, fun a b c => sat64 w.md (a.toInt * b.toInt + c.toInt) (a * b + c))
  | _ => none

/-- The same with an immediate: IMM48 is zero-extended for the shifts and the unsigned minimum and maximum, else sign-extended (R156). -/
def immediateOp : Instr → Option (BForm × (Word → Word))
  | .addImm w => some (w, fun a => sat64 w.md (a.toInt + w.imm.toInt) (a + w.imm.signExtend 64))
  | .subImm w => some (w, fun a => sat64 w.md (a.toInt - w.imm.toInt) (a - w.imm.signExtend 64))
  | .andImm w => some (w, fun a => a &&& w.imm.signExtend 64)
  | .orImm w => some (w, fun a => a ||| w.imm.signExtend 64)
  | .xorImm w => some (w, fun a => a ^^^ w.imm.signExtend 64)
  | .shlImm w => some (w, fun a => sat64 w.md (a.toInt * 2 ^ w.imm.toNat) (a <<< w.imm.toNat))
  | .shrImm w => some (w, fun a => a >>> w.imm.toNat)
  | .sarImm w => some (w, fun a => a.sshiftRight w.imm.toNat)
  | .minImm w => some (w, fun a => if w.imm.toInt < a.toInt then w.imm.signExtend 64 else a)
  | .maxImm w => some (w, fun a => if a.toInt < w.imm.toInt then w.imm.signExtend 64 else a)
  | .minnImm w => some (w, fun a => if w.imm.toNat < a.toNat then w.imm.setWidth 64 else a)
  | .maxnImm w => some (w, fun a => if a.toNat < w.imm.toNat then w.imm.setWidth 64 else a)
  | _ => none

/-- The divisions (R157): a zero divisor, and the one signed quotient that does not fit. -/
def divisionOp : Instr → Option (AForm × (Word → Word → Word))
  | .divI w => some (w, fun a b => if b = 0 then BitVec.allOnes 64 else sat64 w.md (a.toInt.tdiv b.toInt) (a.sdiv b))
  | .divn w => some (w, fun a b => if b = 0 then BitVec.allOnes 64 else a / b)
  | .rem w => some (w, fun a b => if b = 0 then a else BitVec.ofInt 64 (a.toInt.tmod b.toInt))
  | .remn w => some (w, fun a b => if b = 0 then a else a % b)
  | _ => none

/-- The conditions of CMP and CMPI by SUB (R129, R158). -/
def condition (sub : Nat) (a b : Word) : Bool :=
  match sub with
  | 0 => decide (a = b)
  | 1 => decide (a ≠ b)
  | 2 => a.slt b
  | 3 => a.sle b
  | 4 => b.slt a
  | 5 => b.sle a
  | 6 => a.ult b
  | 7 => a.ule b
  | 8 => b.ult a
  | _ => b.ule a

/-- The moves and immediates of R159 with the value each writes. -/
inductive MoveWord (s : State) : Instr → Opnd → Word → Prop
  | sel (w a b p) : s.srcS w.sa 2 (ftBit w 2) = .ok a → s.srcS w.sb 3 (ftBit w 3) = .ok b → w.sc = .p p →
      MoveWord s (.sel w) w.dst (if s.ctx.getP p.toNat then a else b)
  | li (w) : MoveWord s (.li w) w.dst (w.imm.signExtend 64)
  | liHi (w a) : s.srcS w.dst 1 false = .ok a →
      MoveWord s (.liHi w) w.dst ((w.imm.setWidth 16 ++ a.setWidth 48 : BitVec 64))
  | movS (w i a) : w.sa = .s i → s.srcS w.sa 2 (ftBit w 2) = .ok a → MoveWord s (.mov w) w.dst a
  | movP (w i) : w.sa = .p i → MoveWord s (.mov w) w.dst (if s.ctx.getP i.toNat then 1 else 0)
  | movB (w i) : w.sa = .b i → MoveWord s (.mov w) w.dst ((s.ctx.getB i.toNat).setWidth 64)
  | plog (w a b) : w.sa = .p a → w.sb = .p b →
      MoveWord s (.plog w) w.dst
        (if w.imm.getLsbD (2 * (s.ctx.getP a.toNat).toNat + (s.ctx.getP b.toNat).toNat) then 1 else 0)
  | lea (w a) : s.srcS w.sa 2 w.ft = .ok a → MoveWord s (.lea w) w.dst (((a + w.imm.signExtend 64).setWidth 56).setWidth 64)
  | leaPc (w) : MoveWord s (.leaPc w) w.dst ((((s.ctx.pc.setWidth 56) <<< 2) + w.imm.signExtend 56).setWidth 64)

end Sys2Proof.Claims

open Sys2Proof Sys2Proof.Machine Sys2Proof.Claims

/-- R155 to R157: a scalar operation on readable registers whose destination is not empty completes with the rule's result, at the
rule's latency, and changes nothing else. -/
def Sys2Proof.Claims.ScalarOperations : Prop :=
  ∀ (i : Instr) (w : AForm) (n lat : Nat) (f : Word → Word → Word → Word) (s : State) (a b c : Word),
    scalarOp i = some (w, n, lat, f) → s.srcS w.sa 2 (ftBit w 2) = .ok a → (2 ≤ n → s.srcS w.sb 3 (ftBit w 3) = .ok b) →
    (3 ≤ n → s.srcS w.sc 4 (ftBit w 4) = .ok c) → s.dstS w.dst = .ok () → Straight s 3 →
    Gives i s (s.resultS lat w.dst (f a b c))

/-- R156: the same for the immediate forms. -/
def Sys2Proof.Claims.ScalarImmediates : Prop :=
  ∀ (i : Instr) (w : BForm) (f : Word → Word) (s : State) (a : Word),
    immediateOp i = some (w, f) → s.srcS w.sa 2 w.ft = .ok a → s.dstS w.dst = .ok () → Straight s 3 →
    Gives i s (s.resultS 1 w.dst (f a))

/-- R157, R62: a division is a long-latency result: the destination is empty until it lands. -/
def Sys2Proof.Claims.Divisions : Prop :=
  ∀ (i : Instr) (w : AForm) (f : Word → Word → Word) (s : State) (a b : Word),
    divisionOp i = some (w, f) → s.srcS w.sa 2 (ftBit w 2) = .ok a → s.srcS w.sb 3 (ftBit w 3) = .ok b →
    s.dstS w.dst = .ok () → Straight s 3 →
    Gives i s (s.resultLong w.dst ((f a b).setWidth 2048) (BitVec.allOnes 2048) 0)

/-- R158: a comparison writes its predicate, signed or unsigned as its condition says; a write to p0 is discarded; the words carry the
rule's opcodes. -/
def Obligations.Comparisons : Prop :=
  (∀ (w : AForm) (d : BitVec 3) (s : State) (a b : Word), w.dst = .p d → w.sub.toNat < 10 →
    s.srcS w.sa 2 (ftBit w 2) = .ok a → s.srcS w.sb 3 (ftBit w 3) = .ok b → Straight s 3 →
    ∃ t, exec (.cmp w) s = .next t ∧ OnlySequencing (s.modCtx fun e => e.putP d.toNat (condition w.sub.toNat a b)) t ∧
      t.ctx.getP d.toNat = (d = 0 || condition w.sub.toNat a b) ∧ (d = 0 → t.ctx.p = s.ctx.p)) ∧
  (∀ (w : BForm) (d : BitVec 3) (s : State) (a b : Word), w.dst = .p d → w.sub.toNat < 10 → s.srcS w.sa 2 w.ft = .ok a →
    b = (if w.sub.toNat < 6 then w.imm.signExtend 64 else w.imm.setWidth 64) → Straight s 3 →
    ∃ t, exec (.cmpi w) s = .next t ∧ OnlySequencing (s.modCtx fun e => e.putP d.toNat (condition w.sub.toNat a b)) t ∧
      t.ctx.getP d.toNat = (d = 0 || condition w.sub.toNat a b) ∧ (d = 0 → t.ctx.p = s.ctx.p)) ∧
  (∀ w : AForm, encode (.cmp w) = natParcels (packA 0x13 w)) ∧ ∀ w : BForm, encode (.cmpi w) = natParcels (packB 0x14 w)

/-- R159: the moves and immediates write what the table gives. -/
def Obligations.Moves : Prop :=
  ∀ (i : Instr) (d : Opnd) (v : Word) (s : State),
    MoveWord s i d v → s.dstS d = .ok () → Straight s 3 → Gives i s (s.putOpnd d v)

/-- R155 to R157, R62: scalar operations, their immediate forms and divisions. -/
def Obligations.ScalarArithmetic : Prop := Sys2Proof.Claims.ScalarOperations ∧ Sys2Proof.Claims.ScalarImmediates ∧ Sys2Proof.Claims.Divisions

/-! ### The sequencer (09 R115, 11 R143 to R154) -/

namespace Sys2Proof.Claims

open Sys2Proof.Machine

/-- The context c, x of a state has trapped: cause, operand at fault, TRAPPC and TRAPINFO (07 R109, R111, 29 R366). -/
def Trapped (t : State) (c x : Nat) (cause : Cause) (opnd : Nat) (pc : Parcel) (info : BitVec 64) : Prop :=
  ((t.cl c).cx x).run = .trapped ∧ ((t.cl c).cx x).cause = BitVec.ofNat 32 (opnd * 2 ^ 16 + cause.code) ∧
    ((t.cl c).cx x).tpc = pc ∧ ((t.cl c).cx x).tinfo = info

/-- The words that transfer control, with the state they leave apart from the transfer, and the target (R144 to R146). -/
inductive Branch (s : State) : Instr → State → Parcel → Prop
  | bri (w) : Branch s (.bri w) s (s.ctx.pc + w.off.setWidth 32)
  | call (w d) : w.dst = .b d → Branch s (.call w) (s.modCtx fun e => e.putB d.toNat (s.ctx.pc + 3)) (s.ctx.pc + w.off.setWidth 32)
  | br (w i) : w.sa = .b i → s.ctx.phase = .body → 4 ≤ (SMap.get? s.ctx.bAge i.toNat).getD 4 → Branch s (.br w) s (s.ctx.getB i.toNat)
  | brAfter (w i) : w.sa = .b i → s.ctx.phase = .brWait 0 → Branch s (.br w) s (s.ctx.getB i.toNat)
  | ret (w i) : w.sa = .b i → s.ctx.phase = .body → 4 ≤ (SMap.get? s.ctx.bAge i.toNat).getD 4 → Branch s (.ret w) s (s.ctx.getB i.toNat)
  | retAfter (w i) : w.sa = .b i → s.ctx.phase = .brWait 0 → Branch s (.ret w) s (s.ctx.getB i.toNat)
  | jtab (w i b a) : s.srcS w.sa 2 (ftBit w 2) = .ok i → s.srcS w.sb 3 (ftBit w 3) = .ok b →
      (b.toNat + 4 * min i.toNat w.imm.toNat) % 4 = 0 →
      s.fetch32 s.cur.1 s.cur.2 (b.toNat + 4 * min i.toNat w.imm.toNat) = .ok a → Branch s (.jtab w) s a

/-- The words of the sequencer that go on to their successor, with the state they leave apart from it. -/
inductive Plain (s : State) : Instr → State → Prop
  | nop (w) : Plain s (.nop w) s
  | pbr (w d) : w.dst = .b d → Plain s (.pbr w) (s.modCtx fun e => e.putB d.toNat (s.ctx.pc + w.off.setWidth 32))
  | lidx (w e) : s.ctx.loops[w.lv.toNat]? = some e → s.dstS w.dst = .ok () → Plain s (.lidx w) (s.putOpnd w.dst (e.index.setWidth 64))
  | await (w n) : s.countOf w = .ok n → n ≤ (s.me.event (eventOf w)).toNat → Plain s (.await w) (s.takeEvent (eventOf w) n)
  | awaitTaken (w n) : s.countOf w = .ok n → n ≤ (s.me.event (eventOf w)).toNat →
      Plain s (.awaitNb w) ((s.takeEvent (eventOf w) n).putOpnd w.dst 1)
  | awaitNot (w n) : s.countOf w = .ok n → (s.me.event (eventOf w)).toNat < n → Plain s (.awaitNb w) (s.putOpnd w.dst 0)
  | wsegHit (w r) : s.srcSOr w.sa 2 (ftBit w 2) 0xFFFFFFFF = .ok r → s.keyCheck s.cur.1 w.imm (r.setWidth 32) = .hit →
      Plain s (.wseg w) (s.putOpnd w.dst 1)
  | wsegMiss (w r) : s.srcSOr w.sa 2 (ftBit w 2) 0xFFFFFFFF = .ok r → w.sub = 3 →
      (s.keyCheck s.cur.1 w.imm (r.setWidth 32) = .missOwn ∨ s.keyCheck s.cur.1 w.imm (r.setWidth 32) = .missOther) →
      Plain s (.wseg w) (s.putOpnd w.dst 0)

end Sys2Proof.Claims

open Sys2Proof Sys2Proof.Machine Sys2Proof.Claims

/-- R143, R144, R149, R36, R151, R153: the words that go on to their successor. -/
def Obligations.PlainWords : Prop :=
  ∀ (i : Instr) (s u : State), Plain s i u → Straight s 3 → Gives i s u

/-- R115, R144 to R146: a transfer of control to a parcel of the section goes there; to a header outside it, it leaves for the header;
to anything else it traps ILLEGAL on the transferring word, with the target in TRAPINFO. A BR or RET whose b register was written
fewer than four words ago first waits for the words that are missing, one cycle each, and does nothing else in them. -/
def Obligations.TransfersOfControl : Prop :=
  (∀ (i : Instr) (s u : State) (a : Parcel), Branch s i u a →
    (s.ctx.inside a = true → ∃ t, exec i s = .next t ∧ OnlySequencing u t ∧ t.ctx.pc = a ∧ t.ctx.phase = .body) ∧
    (s.ctx.inside a = false → s.judge a = .ok true →
      ∃ t, exec i s = .next t ∧ OnlySequencing u t ∧ t.ctx.pc = a ∧ t.ctx.phase = .header ∧ t.ctx.inSec = false) ∧
    (s.ctx.inside a = false → s.judge a = .ok false →
      ∃ t, exec i s = .next t ∧ Trapped t s.cur.1 s.cur.2 .illegal 0 s.ctx.pc (a.setWidth 64))) ∧
  ∀ (w : AForm) (r : BitVec 3) (s : State) (n : Nat), w.sa = .b r →
    s.ctx.phase = .brWait (n + 1) ∨ (s.ctx.phase = .body ∧ SMap.get? s.ctx.bAge r.toNat = some (3 - n) ∧ n ≤ 3) →
    ∀ i ∈ [Instr.br w, .ret w], exec i s = .next (s.modCtx fun e => { e with phase := .brWait n }).used

/-- R147: LOOP opens an entry, skips a loop of no iterations, or traps. That a count of 2^31 or more puts 2 into TRAPCAUSE.OPND is the
model's choice (log 46). -/
def Sys2Proof.Claims.LoopOpens : Prop :=
  ∀ (w : CForm) (s : State) (c : Word), s.srcS w.sa 2 false = .ok c →
    let stop : Parcel := s.ctx.pc + w.off.setWidth 32
    (2 ^ 31 ≤ c.toNat → ∃ t, exec (.loop w) s = .next t ∧ Trapped t s.cur.1 s.cur.2 .illegal 2 s.ctx.pc c) ∧
    (c.toNat < 2 ^ 31 → w.off.toInt ≤ 3 → ∃ t i, exec (.loop w) s = .next t ∧ Trapped t s.cur.1 s.cur.2 .illegal 0 s.ctx.pc i) ∧
    (c = 0 → 3 < w.off.toInt → exec (.loop w) s = .next (s.succeed stop).issuedWord) ∧
    (0 < c.toNat → c.toNat < 2 ^ 31 → 3 < w.off.toInt → 6 ≤ s.ctx.loops.length →
      ∃ t i, exec (.loop w) s = .next t ∧ Trapped t s.cur.1 s.cur.2 .loopOver 0 s.ctx.pc i ∧ t.ctx.loops = s.ctx.loops) ∧
    (0 < c.toNat → c.toNat < 2 ^ 31 → 3 < w.off.toInt → s.ctx.loops.length < 6 → s.ctx.inside (s.ctx.pc + 3) = true → stop ≠ s.ctx.pc + 3 →
      ∃ t, exec (.loop w) s = .next t ∧ OnlySequencing s t ∧ t.ctx.pc = s.ctx.pc + 3 ∧
        t.ctx.loops = { index := 0, limit := BitVec.ofNat 32 (c.toNat + if w.cf.getLsbD 0 then 2 ^ 31 else 0)
                        start := s.ctx.pc + 3, stop := stop } :: s.ctx.loops)

/-- R149: LBRK n, coded LV = n − 1, pops n entries and goes to the end of the outermost of them. -/
def Sys2Proof.Claims.LoopBreaks : Prop :=
  ∀ (w : CForm) (s : State),
    (∀ (e : LoopEnt) (rest : List LoopEnt), s.ctx.loops.drop w.lv.toNat = e :: rest → s.ctx.inside e.stop = true →
      e.stop.toNat ≠ s.ctx.secE →
      ∃ t, exec (.lbrk w) s = .next t ∧ OnlySequencing s t ∧ t.ctx.pc = e.stop ∧ t.ctx.loops = rest) ∧
    (s.ctx.loops.length ≤ w.lv.toNat → ∃ t i, exec (.lbrk w) s = .next t ∧ Trapped t s.cur.1 s.cur.2 .illegal 0 s.ctx.pc i)

/-- VRB after the step of an entry: an entry with its rotation bit set moves BASE down by one, modulo SIZE, unless SIZE is 0 (R106, R148). -/
def turnedVrb (e : LoopEnt) (v : BitVec 32) : BitVec 32 :=
  if e.limit.getLsbD 31 = true ∧ v.toNat / 2 ^ 18 % 1024 ≠ 0 then
    BitVec.ofNat 32 (v.toNat / 512 * 512 + (v.toNat % 512 + v.toNat / 2 ^ 18 % 1024 - 1) % (v.toNat / 2 ^ 18 % 1024))
  else v

/-- The loop step of R148 at a parcel: the loop stack and VRB before, those after, and where the PC goes. -/
inductive LoopSteps (nx : Parcel) : List LoopEnt → BitVec 32 → List LoopEnt → BitVec 32 → Parcel → Prop
  | stays (ls v) : (∀ e ∈ ls.head?, e.stop ≠ nx) → LoopSteps nx ls v ls v nx
  | round (e es v) : e.stop = nx → e.index.toNat + 1 < e.limit.toNat % 2 ^ 31 →
      LoopSteps nx (e :: es) v ({ e with index := e.index + 1 } :: es) (turnedVrb e v) e.start
  | leaves (e es v ls v' a) : e.stop = nx → e.limit.toNat % 2 ^ 31 ≤ e.index.toNat + 1 → LoopSteps nx es (turnedVrb e v) ls v' a →
      LoopSteps nx (e :: es) v ls v' a

/-- R148: the whole loop step. An entry whose limit is reached is popped, its last rotation made, and the entry outside it that ends there
takes its step in turn. -/
def Sys2Proof.Claims.LoopStepsMade : Prop :=
  ∀ (s : State) (ls : List LoopEnt) (v : BitVec 32) (a : Parcel), Straight s 3 → s.ctx.vrb.toNat / 2 ^ 18 % 1024 ≤ 512 →
    LoopSteps (s.ctx.pc + 3) s.ctx.loops s.ctx.vrb ls v a →
    (s.complete 3).ctx.pc = a ∧ (s.complete 3).ctx.loops = ls ∧ (s.complete 3).ctx.vrb = v

/-- R148, R115: a loop step whose back-branch goes neither inside the section nor to a header traps ILLEGAL on the word that completed, the
target in TRAPINFO. -/
def Sys2Proof.Claims.LoopStepTraps : Prop :=
  ∀ (s : State) (e : LoopEnt) (es : List LoopEnt), s.ctx.loops = e :: es → e.stop = s.ctx.pc + 3 →
    e.index.toNat + 1 < e.limit.toNat % 2 ^ 31 → s.ctx.inside e.start = false → s.judge e.start = .ok false →
    Trapped (s.complete 3) s.cur.1 s.cur.2 .illegal 0 s.ctx.pc (e.start.setWidth 64)

/-- R148: at the end field of the innermost entry the loop goes round while its index has not reached its limit, and is left after
that, here where no entry outside it ends there. -/
def Sys2Proof.Claims.LoopStep : Prop :=
  ∀ (s : State) (e : LoopEnt) (es : List LoopEnt), s.ctx.loops = e :: es → e.stop = s.ctx.pc + 3 → Straight s 3 →
    (e.index.toNat + 1 < e.limit.toNat % 2 ^ 31 →
      (s.complete 3).ctx.pc = e.start ∧ (s.complete 3).ctx.loops = { e with index := e.index + 1 } :: es) ∧
    (e.limit.toNat % 2 ^ 31 ≤ e.index.toNat + 1 → (∀ f ∈ es.head?, f.stop ≠ s.ctx.pc + 3) →
      (s.complete 3).ctx.pc = s.ctx.pc + 3 ∧ (s.complete 3).ctx.loops = es) ∧
    (e.limit.getLsbD 31 = false → e.index.toNat + 1 < e.limit.toNat % 2 ^ 31 → (s.complete 3).ctx.vrb = s.ctx.vrb) ∧
    (e.limit.getLsbD 31 = true → s.ctx.vrb.toNat / 2 ^ 18 % 1024 ≤ 512 → e.index.toNat + 1 < e.limit.toNat % 2 ^ 31 →
      (s.complete 3).ctx.vrb.toNat / 512 = s.ctx.vrb.toNat / 512 ∧
      (0 < s.ctx.vrb.toNat / 2 ^ 18 % 1024 → (s.complete 3).ctx.vrb.toNat % 512 =
        (s.ctx.vrb.toNat % 512 + s.ctx.vrb.toNat / 2 ^ 18 % 1024 - 1) % (s.ctx.vrb.toNat / 2 ^ 18 % 1024)))

/-- R154: TRAP n traps SWTRAP with TRAPINFO = n, at the TRAP word itself. -/
def Sys2Proof.Claims.TrapWord : Prop :=
  ∀ (w : AForm) (s : State), ∃ t, exec (.trapI w) s = .next t ∧ Trapped t s.cur.1 s.cur.2 .swTrap 0 s.ctx.pc (w.imm.setWidth 64)

/-- R143: END makes an engine other than C arrive, makes the C engine's task context arrive once every forked engine has (its task
then retires), and makes a handler context dormant. -/
def Sys2Proof.Claims.EndWord : Prop :=
  ∀ (w : AForm) (s : State), s.me.m.drop = [] →
    (s.cur.2 ∈ [1, 3, 4] ∨ (s.cur.2 = 2 ∧ s.me.m.busy = false) ∨ (s.cur.2 = 0 ∧ s.me.allArrived = true) →
      ∃ t, exec (.endI w) s = .next t ∧ t.ctx.run = .arrived ∧ t.rest = s.rest ∧ t.me.rest = s.me.rest ∧
        (∀ c, c ≠ s.cur.1 → t.cl c = s.cl c) ∧ ∀ x, x ≠ s.cur.2 → t.me.cx x = s.me.cx x) ∧
    (∀ n g a b, s.cur.2 ∈ [5, 6] → s.ctx.hnd = some { slot := some n, eng := g, asid := a, still := b } →
      ∃ t, exec (.endI w) s = .next t ∧ t.ctx.run = .dormant ∧ t.ctx.hnd = none ∧ t.rest = s.rest ∧
        SMap.get? t.me.slots n = none ∧ ∀ x, x ≠ s.cur.2 → t.me.cx x = s.me.cx x)

/-- R151, R152: a POST waits for the end of its cycle, where its count is added and the word completes; a sum above 65,535 traps
EVOVER on the word, N and the count in TRAPINFO, and leaves the counter. -/
def Sys2Proof.Claims.Posts : Prop :=
  (∀ (w : AForm) (s : State) (n : Nat), s.countOf w = .ok n →
    exec (.post w) s = .next ((s.modMe fun k => { k with posts := k.posts ++ [{ x := s.cur.2, n := eventOf w, count := n, nest := false }] }).modCtx
      fun e => { e with phase := .post }).used) ∧
  (∀ (s : State) (c : Nat) (p : Post), p.nest = false →
    ((s.cl c).event p.n).toNat + p.count ≤ 65535 →
      (((s.postOne c p).cl c).event p.n).toNat = ((s.cl c).event p.n).toNat + p.count ∧
      (((s.cl c).cx p.x).inside (((s.cl c).cx p.x).pc + 3) = true → ((s.cl c).cx p.x).stepsAt (((s.cl c).cx p.x).pc + 3) = false →
        (((s.postOne c p).cl c).cx p.x).pc = ((s.cl c).cx p.x).pc + 3 ∧ (((s.postOne c p).cl c).cx p.x).phase = .body)) ∧
  (∀ (s : State) (c : Nat) (p : Post), p.nest = false → 65535 < ((s.cl c).event p.n).toNat + p.count →
      ((s.postOne c p).cl c).event p.n = (s.cl c).event p.n ∧
      (p.n < 64 → p.count ≤ 65535 → Trapped (s.postOne c p) c p.x .evOver 0 ((s.cl c).cx p.x).pc (BitVec.ofNat 64 (p.n + p.count * 2 ^ 16))))

/-- R147 to R149: how loops open, break and step. OPND 2 of a LOOP whose count is 2^31 or more is the model's choice (log 46). -/
def Obligations.Loops : Prop :=
  Sys2Proof.Claims.LoopOpens ∧ Sys2Proof.Claims.LoopBreaks ∧ Sys2Proof.Claims.LoopStep ∧ Sys2Proof.Claims.LoopStepsMade ∧
    Sys2Proof.Claims.LoopStepTraps

/-- R33, R143, R151, R152, R154: TRAP, END and POST. -/
def Obligations.TrapEndAndPost : Prop := Sys2Proof.Claims.TrapWord ∧ Sys2Proof.Claims.EndWord ∧ Sys2Proof.Claims.Posts

/-! ### Spill stores and control registers (11 R160, R161, 07 R109) -/

namespace Sys2Proof.Claims

open Sys2Proof.Machine

/-- The spill stores and loads that pass their checks: aligned to the operand's size and inside the store (R160). -/
inductive Spill (s : State) : Instr → State → Prop
  | ldS (w i) : w.dst = .s i → w.imm.toNat % 8 = 0 → w.imm.toNat + 8 ≤ spillSize s.cur.2 → s.dstS w.dst = .ok () →
      Spill s (.spld w) (s.putOpnd w.dst (BitVec.ofNat 64 (s.me.spillRead s.cur.2 w.imm.toNat 8)))
  | ldB (w i) : w.dst = .b i → w.imm.toNat % 4 = 0 → w.imm.toNat + 4 ≤ spillSize s.cur.2 →
      Spill s (.spld w) (s.putOpnd w.dst (BitVec.ofNat 64 (s.me.spillRead s.cur.2 w.imm.toNat 4)))
  | ldV (w i d) : w.dst = .v i → w.imm.toNat % 256 = 0 → w.imm.toNat + 256 ≤ spillSize s.cur.2 → s.dstV w.dst = .ok d →
      Spill s (.spld w)
        (s.lands 1 d (.write (BitVec.ofNat 2048 (s.me.spillRead s.cur.2 w.imm.toNat 256)) (BitVec.allOnes 2048) none) 0)
  | ldK (w i) : w.dst = .k i → w.imm.toNat % 16 = 0 → w.imm.toNat + 16 ≤ spillSize s.cur.2 → s.dstK w.dst = .ok () →
      Spill s (.spld w)
        (s.lands 1 w.dst (.write (BitVec.ofNat 2048 (s.me.spillRead s.cur.2 w.imm.toNat 16)) (BitVec.allOnes 2048) none) 0)
  | ldVM (w i) : w.dst = .vm i → w.imm.toNat % 32 = 0 → w.imm.toNat + 32 ≤ spillSize s.cur.2 → s.dstK w.dst = .ok () →
      Spill s (.spld w)
        (s.lands 1 w.dst (.write (BitVec.ofNat 2048 (s.me.spillRead s.cur.2 w.imm.toNat 32)) (BitVec.allOnes 2048) none) 0)
  | stS (w i v) : w.sa = .s i → w.imm.toNat % 8 = 0 → w.imm.toNat + 8 ≤ spillSize s.cur.2 →
      s.srcS w.sa 2 (ftBit w 2) = .ok v → Spill s (.spst w)
        (s.modMe fun k => { k with spill := spillWrite k.spill (spillKey s.cur.2 w.imm.toNat) (natBytes 8 v.toNat) })
  | stB (w i) : w.sa = .b i → w.imm.toNat % 4 = 0 → w.imm.toNat + 4 ≤ spillSize s.cur.2 → Spill s (.spst w)
        (s.modMe fun k => { k with spill := spillWrite k.spill (spillKey s.cur.2 w.imm.toNat) (natBytes 4 (s.ctx.getB i.toNat).toNat) })
  | stV (w i v) : w.sa = .v i → w.imm.toNat % 256 = 0 → w.imm.toNat + 256 ≤ spillSize s.cur.2 →
      s.srcV w.sa 2 (ftBit w 2) = .ok v → Spill s (.spst w)
        (s.modMe fun k => { k with spill := spillWrite k.spill (spillKey s.cur.2 w.imm.toNat) (natBytes 256 v.toNat) })
  | stK (w i v) : w.sa = .k i → w.imm.toNat % 16 = 0 → w.imm.toNat + 16 ≤ spillSize s.cur.2 →
      s.srcK w.sa 2 (ftBit w 2) = .ok v → Spill s (.spst w)
        (s.modMe fun k => { k with spill := spillWrite k.spill (spillKey s.cur.2 w.imm.toNat) (natBytes 16 v.toNat) })
  | stVM (w i v) : w.sa = .vm i → w.imm.toNat % 32 = 0 → w.imm.toNat + 32 ≤ spillSize s.cur.2 →
      s.srcVMi i.toNat 2 (ftBit w 2) = .ok v → Spill s (.spst w)
        (s.modMe fun k => { k with spill := spillWrite k.spill (spillKey s.cur.2 w.imm.toNat) (natBytes 32 v.toNat) })

/-- GETC and SETC of the control registers (R109, R161). -/
inductive ControlReg (s : State) : Instr → State → Prop
  | ecntwKept (w) : s.dstS w.dst = .ok () → w.imm = 0x011 → s.me.vAcc = false →
      ControlReg s (.getc w) ({ s with free := s.free + 1 }.putOpnd w.dst s.me.ecntw)
  | ecntwCounts (w) : s.dstS w.dst = .ok () → w.imm = 0x011 → s.me.vAcc = true →
      ControlReg s (.getc w) (({ s with free := s.free + 1 }.modMe fun k =>
        { k with ecntw := k.ecntw + Config.freeCount s.free, vAcc := false }).putOpnd w.dst (s.me.ecntw + Config.freeCount s.free))
  | get (w v) : s.dstS w.dst = .ok () → w.imm.toNat ≠ 0x011 → s.control w.imm.toNat = some v → ControlReg s (.getc w) (s.putOpnd w.dst (BitVec.ofNat 64 v))
  | vflags (w v) : w.imm = 0x000 → s.srcS w.sa 2 (ftBit w 2) = .ok v →
      ControlReg s (.setc w) (s.lands 1 .null (.clrFlags (v.setWidth 32)) 0)
  | vrb (w v) : w.imm = 0x003 → s.srcS w.sa 2 (ftBit w 2) = .ok v → vrbOk v.toNat = true →
      ControlReg s (.setc w) (s.modCtx fun e => { e with vrb := v.setWidth 32 &&& 0x0FFFFFFF })
  | cause (w v) : w.imm = 0x006 → s.srcS w.sa 2 (ftBit w 2) = .ok v →
      ControlReg s (.setc w) (s.modCtx fun e => { e with cause := v.setWidth 32 &&& 0x000F00FF })
  | ecntw (w v) : w.imm = 0x011 → s.srcS w.sa 2 (ftBit w 2) = .ok v → ControlReg s (.setc w) (s.lands 1 .null (.ecnt v) 0)

end Sys2Proof.Claims

open Sys2Proof Sys2Proof.Machine Sys2Proof.Claims

/-- R160: SPLD and SPST move an operand between its register and the engine's spill store. -/
def Sys2Proof.Claims.SpillWords : Prop :=
  ∀ (i : Instr) (s u : State), Spill s i u → Straight s 3 → Gives i s u

/-- R160, R108: what SPST stores is what SPLD reads, and no other byte of the store changes. -/
def Sys2Proof.Claims.SpillHolds : Prop :=
  ∀ (k : Cluster) (x off n v : Nat),
    let k' : Cluster := { k with spill := spillWrite k.spill (spillKey x off) (natBytes n v) }
    k'.spillRead x off n = v % 256 ^ n ∧
      ∀ a, ¬ (spillKey x off ≤ a ∧ a < spillKey x off + n) → SMap.get 0 k'.spill a = SMap.get 0 k.spill a

/-- R160: a spill access out of its alignment traps MISALIGN; one beyond the store traps ILLEGAL. -/
def Sys2Proof.Claims.SpillTraps : Prop :=
  ∀ (w : AForm) (s : State),
    (0 < spillBytes w.dst → w.imm.toNat % spillBytes w.dst ≠ 0 →
      ∃ t i, exec (.spld w) s = .next t ∧ Trapped t s.cur.1 s.cur.2 .misalign 0 s.ctx.pc i) ∧
    (0 < spillBytes w.dst → w.imm.toNat % spillBytes w.dst = 0 → spillSize s.cur.2 < w.imm.toNat + spillBytes w.dst →
      ∃ t i, exec (.spld w) s = .next t ∧ Trapped t s.cur.1 s.cur.2 .illegal 0 s.ctx.pc i) ∧
    (0 < spillBytes w.sa → w.imm.toNat % spillBytes w.sa ≠ 0 →
      ∃ t i, exec (.spst w) s = .next t ∧ Trapped t s.cur.1 s.cur.2 .misalign 0 s.ctx.pc i) ∧
    (0 < spillBytes w.sa → w.imm.toNat % spillBytes w.sa = 0 → spillSize s.cur.2 < w.imm.toNat + spillBytes w.sa →
      ∃ t i, exec (.spst w) s = .next t ∧ Trapped t s.cur.1 s.cur.2 .illegal 0 s.ctx.pc i)

/-- R109, R161: GETC reads a control register and SETC writes one of the five that can be written; a number that cannot be read or
written traps ILLEGAL; a SETC of BANKCTL by another engine than C traps PRIV, and the C engine's waits for the end of the cycle. A write of
VFLAGS and of ECNTW lands at the end of the cycle (R95): it clears the flags whose bits are 1, or sets the counter. A read of ECNTW gives
the counter, and with it a free count (log 9) where a word that names a v register has issued since the last read, SETC or reset.
The model's choices here: that free count (log 9), and OPND 2 of an illegal VRB value (log 46). -/
def Obligations.ControlRegisters : Prop :=
  (∀ (i : Instr) (s u : State), ControlReg s i u → Straight s 3 → Gives i s u) ∧
  (∀ (w : AForm) (s : State), w.imm.toNat ≠ 0x011 → s.control w.imm.toNat = none → s.dstS w.dst = .ok () →
    ∃ t i, exec (.getc w) s = .next t ∧ Trapped t s.cur.1 s.cur.2 .illegal 0 s.ctx.pc i) ∧
  (∀ (w : AForm) (s : State), w.imm ≠ 0x000 → w.imm ≠ 0x003 → w.imm ≠ 0x004 → w.imm ≠ 0x006 → w.imm ≠ 0x011 →
    ∃ t i, exec (.setc w) s = .next t ∧ Trapped t s.cur.1 s.cur.2 .illegal 0 s.ctx.pc i) ∧
  (∀ (w : AForm) (s : State), w.imm = 0x004 → s.cur.2 ∈ [1, 2, 3, 4] →
    ∃ t i, exec (.setc w) s = .next t ∧ Trapped t s.cur.1 s.cur.2 .priv 0 s.ctx.pc i) ∧
  (∀ (w : AForm) (s : State) (v : Word), w.imm = 0x004 → s.cur.2 ∈ [0, 5, 6] → s.srcS w.sa 2 (ftBit w 2) = .ok v →
    (∀ b, b < 32 → v.toNat / 4 ^ b % 4 ≠ 3) → exec (.setc w) s = .next (s.modCtx fun e => { e with phase := .bank v (BitVec.allOnes 64) }).used) ∧
  (∀ (k : Cluster) (l : Land) (m : BitVec 32), l.flags = 0 → l.kind = .clrFlags m → (k.land1 l).vflags = k.vflags &&& ~~~m) ∧
  (∀ (k : Cluster) (l : Land) (v : Word), l.kind = .ecnt v → (k.land1 l).ecntw = v ∧ (k.land1 l).vAcc = false) ∧
  (∀ (w : AForm) (s : State) (v : Word), w.imm = 0x003 → s.srcS w.sa 2 (ftBit w 2) = .ok v → s.ctx.loops = [] → Straight s 3 →
    (v.toNat / 2 ^ 9 % 512 + v.toNat / 2 ^ 18 % 1024 ≤ 512 → (v.toNat / 2 ^ 18 % 1024 = 0 → v.toNat % 512 = 0) →
      (0 < v.toNat / 2 ^ 18 % 1024 → v.toNat % 512 < v.toNat / 2 ^ 18 % 1024) →
      ∃ t, exec (.setc w) s = .next t ∧ t.ctx.vrb.toNat = v.toNat % 2 ^ 28) ∧
    (512 < v.toNat / 2 ^ 9 % 512 + v.toNat / 2 ^ 18 % 1024 →
      ∃ t i, exec (.setc w) s = .next t ∧ Trapped t s.cur.1 s.cur.2 .illegal 2 s.ctx.pc i))

/-! ### The C engine's words (11 R162 to R177) -/

namespace Sys2Proof.Claims

open Sys2Proof.Machine

/-- The words of the C engine that complete, with what they leave. -/
inductive CWord (s : State) : Instr → State → Prop
  | fork (w) : s.inArrival = false → w.off.toNat < 2 ^ 32 →
      (s.me.cx (w.cf.toNat % 8)).run = .idle ∨ (s.me.cx (w.cf.toNat % 8)).run = .arrived →
      CWord s (.fork w) (s.modMe fun k => k.setCx (w.cf.toNat % 8)
        (forkCtx (k.cx (w.cf.toNat % 8)) (recEntry k.rec0 (w.cf.toNat % 8) + w.off.setWidth 32) (recParam k.rec0)))
  | rdv (w) : s.inArrival = false → s.me.allArrived = true →
      CWord s (.rdv w) (s.modMe fun k => { k with ctx := k.ctx.map fun e => (e.1, { e.2 with forked := false }) })
  | qcfg (w i) : s.inArrival = false → w.dst = .q false i → w.imm.toNat % 8 ≠ w.imm.toNat / 16 % 8 → s.me.configured i = false →
      CWord s (.qcfg w) (s.modMe fun k => { k with land := k.land ++
        [{ due := s.cycle.toNat + 1, x := s.cur.2, sec := s.ctx.secNow, dst := w.dst
           kind := .cfg (w.imm.toNat % 8) (w.imm.toNat / 16 % 8), flags := 0 }] })
  | tsig (w a) : s.srcS w.sa 2 (ftBit w 2) = .ok a →
      CWord s (.tsig w) ((s.signal (dieOf s.cur.1) (a.setWidth 32)).1.putOpnd w.dst
        (if (s.signal (dieOf s.cur.1) (a.setWidth 32)).2 then 1 else 0))
  | gbar (w i) : s.dstS w.dst = .ok () → s.groupIn (w.imm.toNat % 4) = .ok i → (s.group i).marks.getLsbD s.cur.1 = false →
      CWord s (.gbar w) ({ s with groups := SMap.set s.groups i ((s.group i).arrive s.cur.1) }.putOpnd w.dst ((s.group i).phase.setWidth 64))
  | gwait (w v i) : s.srcS w.sa 2 (ftBit w 2) = .ok v → s.groupIn (w.imm.toNat % 4) = .ok i → (s.group i).phase ≠ v.setWidth 16 →
      CWord s (.gwait w) s
  | progI (w) : w.sa = .null → CWord s (.prog w) (s.modMe fun k => { k with land := k.land ++
      [{ due := s.cycle.toNat + 1, x := s.cur.2, sec := s.ctx.secNow, dst := .null
         kind := .prog (BitVec.ofNat 16 (min w.imm.toNat 65535)), flags := 0 }] })
  | progS (w v) : w.sa ≠ .null → s.srcS w.sa 2 (ftBit w 2) = .ok v → CWord s (.prog w) (s.modMe fun k => { k with land := k.land ++
      [{ due := s.cycle.toNat + 1, x := s.cur.2, sec := s.ctx.secNow, dst := .null
         kind := .prog (BitVec.ofNat 16 (min v.toNat 65535)), flags := 0 }] })
  | wrel (w) : s.inArrival = false → (∀ n ∈ s.me.m.nests, n.gen = none) →
      CWord s (.wrel w) (s.modTaskOn s.cur.1 fun t => { t with wrel := t.wrel || recKeyed t.rcd })
  | tret (w) : s.tretOk (w.imm.toNat % 8) = true →
      CWord s (.tret w) ((s.resume s.cur.1 (w.imm.toNat % 8)).unlistTrap s.cur.1 (w.imm.toNat % 8))
  | tretSkip (w r) : s.tretOk (w.imm.toNat % 8) = true →
      (s.unlistTrap s.cur.1 (w.imm.toNat % 8)).resumeSkip s.cur.1 (w.imm.toNat % 8) = some r → CWord s (.tretSkip w) r
  | halt (w) : s.me.asid s.cur.2 = 0 → w.imm.toNat % 32 < clustersOn (dieOf s.cur.1) →
      clusterNo (dieOf s.cur.1) (w.imm.toNat % 32) ≠ s.cur.1 →
      CWord s (.halt w) (s.modCl (clusterNo (dieOf s.cur.1) (w.imm.toNat % 32)) fun k => { k with byHalt := true })
  | haltGo (w) : s.me.asid s.cur.2 = 0 → w.imm.toNat % 32 < clustersOn (dieOf s.cur.1) →
      clusterNo (dieOf s.cur.1) (w.imm.toNat % 32) ≠ s.cur.1 →
      CWord s (.haltGo w) (s.modCl (clusterNo (dieOf s.cur.1) (w.imm.toNat % 32)) fun k => { k with byHalt := false })
  | ctxsave (w c a ps) : s.me.asid s.cur.2 = 0 → s.otherCluster w = .ok c → s.srcS w.sa 2 (ftBit w 2) = .ok a →
      (s.cl c).byHalt = true → a.toNat % 4096 = 0 → s.imagePlaces ((s.cl c).savedPieces a.toNat) true = .ok ps → s.settled c = true →
      CWord s (.ctxsave w) ((s.putImage (s.saveImage c).img ps).markXstIf s.cur.1 (ps.any (s.offSram s.cur.1)))
  | ctxload (w c a ps) : s.me.asid s.cur.2 = 0 → s.otherCluster w = .ok c → s.srcS w.sa 2 (ftBit w 2) = .ok a →
      (s.cl c).byHalt = true → a.toNat % 4096 = 0 → s.imagePlaces (imagePieces a.toNat) false = .ok ps →
      (∀ p ∈ ps, s.readHeld s.cur.1 p.pa p.len = false) →
      imageOk (isRing c) (s.takeImage ps) = true → s.sramRo c = none → s.settled c = true →
      CWord s (.ctxload w) ((s.loadInto c (s.takeImage ps) (s.cl c).ctx).modCl c fun k =>
        { k with ctx := k.ctx.map fun e => if e.1 < 5 then (e.1, e.2.atPc) else e })
  | lttwIn (w i lo hi) : s.me.asid s.cur.2 = 0 → s.srcS w.sa 2 (ftBit w 2) = .ok i → s.srcS w.sb 3 (ftBit w 3) = .ok lo →
      s.srcS w.sc 4 (ftBit w 4) = .ok hi → i.toNat ≤ 4095 →
      s.asidInUse (dieOf s.cur.1) (lttAsid (SMap.get 0 s.ltt (dieOf s.cur.1 * 4096 + i.toNat))) = false →
      s.asidInUse (dieOf s.cur.1) (lttAsid (hi ++ lo)) = false →
      CWord s (.lttw w) ({ s with lttNew := s.lttNew ++ [(dieOf s.cur.1 * 4096 + i.toNat, hi ++ lo)] }.putOpnd w.dst 1)
  | lttwBusy (w i lo hi) : s.me.asid s.cur.2 = 0 → s.srcS w.sa 2 (ftBit w 2) = .ok i → s.srcS w.sb 3 (ftBit w 3) = .ok lo →
      s.srcS w.sc 4 (ftBit w 4) = .ok hi → i.toNat ≤ 4095 →
      s.asidInUse (dieOf s.cur.1) (lttAsid (SMap.get 0 s.ltt (dieOf s.cur.1 * 4096 + i.toNat))) = true ∨
        s.asidInUse (dieOf s.cur.1) (lttAsid (hi ++ lo)) = true →
      CWord s (.lttw w) (s.putOpnd w.dst 0)
  | attrSet (w a n gs) : s.me.asid s.cur.2 = 0 → s.srcS w.sa 2 (ftBit w 2) = .ok a → s.srcS w.sb 3 (ftBit w 3) = .ok n →
      s.dstS w.dst = .ok () → s.attrRange a n = .ok gs → w.imm.getLsbD 0 = true → s.writePending gs = false →
      (∀ g ∈ gs, s.isFar (g * 4096) = false) →
      CWord s (.attrSet w) ({ s with ro := gs.foldl (fun m g => SMap.put false m g true) s.ro }.putOpnd w.dst 0)
  | attrSetNone (w a n gs) : s.me.asid s.cur.2 = 0 → s.srcS w.sa 2 (ftBit w 2) = .ok a → s.srcS w.sb 3 (ftBit w 3) = .ok n →
      s.dstS w.dst = .ok () → s.attrRange a n = .ok gs → w.imm.getLsbD 0 = false → CWord s (.attrSet w) (s.putOpnd w.dst 0)
  | attrClrNone (w a n gs) : s.me.asid s.cur.2 = 0 → s.srcS w.sa 2 (ftBit w 2) = .ok a → s.srcS w.sb 3 (ftBit w 3) = .ok n →
      s.dstS w.dst = .ok () → s.attrRange a n = .ok gs → w.imm.getLsbD 0 = false ∨ gs = [] → CWord s (.attrClr w) (s.putOpnd w.dst 0)

end Sys2Proof.Claims

open Sys2Proof Sys2Proof.Machine Sys2Proof.Claims

/-- R164 to R177: the words of the C engine complete with what their rules state, and change nothing else. The model's choices here:
where a loaded context stands (log 20), ATTR with bit 0 of IMM48 clear does nothing and answers 0 (log 55), and HALT.go ends what HALT
began and nothing else (log 66). -/
def Obligations.ControlWords : Prop :=
  ∀ (i : Instr) (s u : State), CWord s i u → s.ctx.run = .running → Straight s 3 → Gives i s u

/-- R164: an engine that FORK starts runs from the task's entry for it plus the offset, at a header, with PARAM in s0, every other s
register, predicate and b register zero, and no open loop. -/
def Sys2Proof.Claims.ForkStarts : Prop :=
  ∀ (w : CForm) (s : State), s.inArrival = false → w.off.toNat < 2 ^ 32 → w.cf.toNat % 8 ≠ s.cur.2 →
    (s.me.cx (w.cf.toNat % 8)).run = .idle ∨ (s.me.cx (w.cf.toNat % 8)).run = .arrived → Straight s 3 →
    ∃ t, exec (.fork w) s = .next t ∧ let e := t.me.cx (w.cf.toNat % 8)
      e.run = .running ∧ e.phase = .header ∧ e.pc = recEntry s.me.rec0 (w.cf.toNat % 8) + w.off.setWidth 32 ∧ e.getS 0 = recParam s.me.rec0 ∧
        (∀ n, 0 < n → e.getS n = 0) ∧ (∀ n, 0 < n → e.getP n = false) ∧ (∀ n, e.getB n = 0) ∧ e.loops = [] ∧ e.vrb = 0 ∧
        e.sHold = [] ∧ ∀ x, x ≠ s.cur.2 → x ≠ w.cf.toNat % 8 → t.me.cx x = s.me.cx x

/-- R163: a task's ASID is the one of its record, and ASID 0 makes it a system task; in any other, the instructions that only a system task
may issue trap PRIV, and in an arrival-handler context those it may not issue trap ILLEGAL, with no effect but the trap's. That an arrival
handler, which runs in its sender's ASID, is judged by that one is the model's choice (log 66). -/
def Obligations.SystemTasksOnly : Prop :=
  (∀ (k : Cluster) (x : Nat), (k.cx x).hnd = none → k.asid x = recAsid k.rec0) ∧
  (∀ (w : AForm) (s : State), s.me.asid s.cur.2 ≠ 0 →
    ∀ i ∈ [Instr.lttw w, .attrSet w, .attrClr w, .ctxsave w, .ctxload w, .halt w, .haltGo w],
      exec i s = .next (s.trapHere { cause := .priv }) ∧ ∃ d, Trapped (s.trapHere { cause := .priv }) s.cur.1 s.cur.2 .priv 0 s.ctx.pc d) ∧
  (∀ (v : CForm) (w : AForm) (s : State), s.inArrival = true →
    ∀ i ∈ [Instr.fork v, .rdv w, .qcfg w, .tyield w, .wrel w, .tret w, .tretSkip w],
      exec i s = .next (s.trapHere { cause := .illegal }) ∧ ∃ d, Trapped (s.trapHere { cause := .illegal }) s.cur.1 s.cur.2 .illegal 0 s.ctx.pc d)

/-- R166: TSPAWN, once nothing it waits for is open and no store that it must see is still on its way home, publishes the record it reads;
pD says whether it was taken. -/
def Sys2Proof.Claims.TaskSpawn : Prop :=
  ∀ (w : AForm) (s s0 : State) (a : Word) (f : FenceRec) (bs : List Byte) (r : BitVec 1024),
    s.srcS w.sa 2 (ftBit w 2) = .ok a → a.toNat % 64 = 0 → s.ctx.phase = .fence f → s.fenceOpen s.cur.1 3 f = false →
    s.vaHeld s.cur.1 s.cur.2 a.toNat 128 = false → s0 = (s.modCtx fun e => { e with phase := .body }) →
    s0.readNow s.cur.1 s.cur.2 a.toNat 128 = .ok bs → r = BitVec.ofNat 1024 (bytesNat bs) →
    (s.me.asid s.cur.2 = 0 ∨ recAsid r = s.me.asid s.cur.2 →
      exec (.tspawn w) s = .next
        (((s0.publish (dieOf s.cur.1) r (masterOf s.cur.1 0) s.me.tid.toNat).1.putOpnd w.dst
          (if (s0.publish (dieOf s.cur.1) r (masterOf s.cur.1 0) s.me.tid.toNat).2 = .accepted then 1 else 0)).complete 3)) ∧
    (s.me.asid s.cur.2 ≠ 0 → recAsid r ≠ s.me.asid s.cur.2 → exec (.tspawn w) s = .next ((s0.putOpnd w.dst 0).complete 3))

/-- R166, R46: a record that is published is in flight at the Distributor of its die, at its end of the list, and uses up the signals
that came early; with no room for it nothing is published. -/
def Sys2Proof.Claims.PublishRecord : Prop :=
  ∀ (s : State) (t : Nat) (r : BitVec 1024) (src tid : Nat),
    ((s.dist t).tasks.length < Config.maxTasks → s.recOk t r = true →
      (s.publish t r src tid).2 = .accepted ∧
      (∃ x, ((s.publish t r src tid).1.dist t).tasks = (s.dist t).tasks ++ [x] ∧ x.rcd = r ∧ x.tid = recTid r) ∧
      SMap.get? ((s.publish t r src tid).1.dist t).early (recTid r).toNat = none) ∧
    (Config.maxTasks ≤ (s.dist t).tasks.length → s.publish t r src tid = (s, .busy))

/-- R168: TYIELD gives up its cluster to a waiting task of its class or a higher one while a shadow slot is free; else pD is 0. -/
def Sys2Proof.Claims.TaskYield : Prop :=
  ∀ (w : AForm) (s : State), s.inArrival = false → s.me.allArrived = true →
    (∀ x, s.cur.2 = 0 → s.taskOn s.cur.1 = some x → s.yieldsTo s.cur.1 x = true → (s.freeShadow (dieOf s.cur.1)).isSome = true →
      Straight s 3 → ∃ t, exec (.tyield w) s = .next t ∧ t.me.saving = true ∧ t.ctx.stopped = true ∧ t.mem = s.mem ∧
        (∀ i : BitVec 3, w.dst = .p i → t.ctx.getP i.toNat = true) ∧
        (t.dist (dieOf s.cur.1)).tasks = (s.dist (dieOf s.cur.1)).tasks.map fun y =>
          if y.tid = x.tid then { y with place := .saving s.cur.1 true } else y) ∧
    (∀ x, s.taskOn s.cur.1 = some x → s.yieldsTo s.cur.1 x = false ∨ s.freeShadow (dieOf s.cur.1) = none → Straight s 3 →
      Gives (.tyield w) s (s.putOpnd w.dst 0))

/-- R176, R104: BANK waits with the fields of its banks, to be made the state it names whatever BANKCTL holds when the write is made, with
every other field left as it then is; a state it does not know, or banks beyond the last, trap ILLEGAL. -/
def Sys2Proof.Claims.BankWord : Prop :=
  ∀ (w : AForm) (s : State),
    (w.imm.toNat / 1024 % 4 ≠ 3 → w.imm.toNat % 32 + w.imm.toNat / 32 % 32 + 1 ≤ 32 →
      ∃ v m : BitVec 64, exec (.bank w) s = .next (s.modCtx fun e => { e with phase := .bank v m }).used ∧
        ∀ (k : Cluster) (b : Nat), b < 32 → bankState (k.bankVal v m) b =
          if w.imm.toNat % 32 ≤ b ∧ b ≤ w.imm.toNat % 32 + w.imm.toNat / 32 % 32 then w.imm.toNat / 1024 % 4 else bankState k.bankctl b) ∧
    (w.imm.toNat / 1024 % 4 = 3 ∨ 32 < w.imm.toNat % 32 + w.imm.toNat / 32 % 32 + 1 →
      ∃ t i, exec (.bank w) s = .next t ∧ Trapped t s.cur.1 s.cur.2 .illegal 0 s.ctx.pc i)

/-- R177, R365: ATTR.clr with a granule in its range starts a shoot-down at every home of the range, over all of it; the engine waits. One at
a home of this module every one of the twelve dies, and every module with a valid route, has still to answer; of one in another module, the
dies here. -/
def Sys2Proof.Claims.AttributeClear : Prop :=
  ∀ (w : AForm) (s : State) (a n : Word) (gs : List Nat), s.me.asid s.cur.2 = 0 → s.srcS w.sa 2 (ftBit w 2) = .ok a →
    s.srcS w.sb 3 (ftBit w 3) = .ok n → s.dstS w.dst = .ok () → s.attrRange a n = .ok gs → gs ≠ [] → w.imm.getLsbD 0 = true →
    ∃ t new, exec (.attrClr w) s = .next t ∧ t.shoots = s.shoots ++ new ∧
      (∀ h ∈ new, h.need = (if h.home < 256 then s.answerers else List.range 12) ∧ h.start = s.cycle.toNat ∧ h.c = s.cur.1 ∧
        h.x = s.cur.2 ∧ h.grant = false) ∧
      (∀ g ∈ gs, ∃ h ∈ new, h.gran ≤ g ∧ g < h.gran + h.n ∧
        h.home = if s.isFar (g * 4096) then 256 + s.targetCode (g * 4096) else (s.target (g * 4096)).getD 12) ∧
      (∀ h ∈ new, ∀ g, h.gran ≤ g → g < h.gran + h.n → g ∈ gs) ∧ (∀ c, c ≠ s.cur.1 → t.cl c = s.cl c) ∧ t.mem = s.mem ∧ t.ro = s.ro

/-- R177: ATTR.set over granules of another module grants RO to those of this one and waits until the other module's home has answered. -/
def Sys2Proof.Claims.AttributeGrant : Prop :=
  ∀ (w : AForm) (s : State) (a n : Word) (gs : List Nat) (f : Nat), s.me.asid s.cur.2 = 0 → s.srcS w.sa 2 (ftBit w 2) = .ok a →
    s.srcS w.sb 3 (ftBit w 3) = .ok n → s.dstS w.dst = .ok () → s.attrRange a n = .ok gs → w.imm.getLsbD 0 = true →
    s.writePending gs = false → f ∈ gs → s.isFar (f * 4096) = true →
    ∃ t new, exec (.attrSet w) s = .next t ∧ t.shoots = s.shoots ++ new ∧
      (∀ h ∈ new, h.grant = true ∧ h.need = [] ∧ h.c = s.cur.1 ∧ h.x = s.cur.2) ∧
      (∀ g ∈ gs, s.isFar (g * 4096) = true → ∃ h ∈ new, h.gran ≤ g ∧ g < h.gran + h.n) ∧
      (∀ h ∈ new, ∀ g, h.gran ≤ g → g < h.gran + h.n → g ∈ gs ∧ s.isFar (g * 4096) = true) ∧
      t.ro = (gs.filter fun g => !s.isFar (g * 4096)).foldl (fun m g => SMap.put false m g true) s.ro ∧
      (∀ c, c ≠ s.cur.1 → t.cl c = s.cl c) ∧ t.mem = s.mem

/-- R160: the spill store. -/
def Obligations.Spills : Prop := Sys2Proof.Claims.SpillWords ∧ Sys2Proof.Claims.SpillHolds ∧ Sys2Proof.Claims.SpillTraps

/-- R31, R40, R163, R166 to R168: FORK, TSPAWN and TYIELD. -/
def Obligations.EnginesAndTasks : Prop := Sys2Proof.Claims.ForkStarts ∧ Sys2Proof.Claims.TaskSpawn ∧ Sys2Proof.Claims.PublishRecord ∧ Sys2Proof.Claims.TaskYield

/-! ### Transfers at issue (13 R180 to R208) -/

namespace Sys2Proof.Claims

open Sys2Proof.Machine

/-- Bytes of an element of a type. -/
def bytesOf (t : Ty) : Nat := t.width / 8

/-- A transfer that passes its checks at issue (R181): its accesses, whether it is a group store, its destinations with the access that
fills a reserved queue entry, and the sources whose queue registers are popped when it is accepted. -/
inductive Transfer (s : State) : Instr → List Access → Bool → List Opnd → Nat → List Opnd → Prop
  | ld (w base ps) : s.srcS w.sa 2 (ftBit w 2) = .ok base → s.dstS w.dst = .ok () → (eaOf base w.imm).toNat < 2 ^ 56 →
      (eaOf base w.imm).toNat % bytesOf w.ty = 0 →
      s.reach (flagParts false (granuleParts 0 (eaOf base w.imm).toNat (bytesOf w.ty))) none = .ok ps →
      Transfer s (.ld w) [s.newAccess 0 (.loadS (sIdx w.dst) w.ty.signed (bytesOf w.ty)) (eaOf base w.imm).toNat ps] false [w.dst] 0 []
  | lda (w base ps) : s.srcS w.sa 2 (ftBit w 2) = .ok base → s.dstS w.dst = .ok () → (eaOf base w.imm).toNat < 2 ^ 56 →
      (eaOf base w.imm).toNat % bytesOf w.ty = 0 →
      s.reach (flagParts false (granuleParts 0 (eaOf base w.imm).toNat (bytesOf w.ty))) none = .ok ps →
      Transfer s (.lda w) [{ (s.newAccess 0 (.loadS (sIdx w.dst) w.ty.signed (bytesOf w.ty)) (eaOf base w.imm).toNat ps) with
        scope := w.md.toNat, acq := true }] false [w.dst] 0 []
  | st (w base v ps) : s.srcS w.sa 2 (ftBit w 2) = .ok base → s.srcS w.sb 3 (ftBit w 3) = .ok v → (eaOf base w.imm).toNat < 2 ^ 56 →
      (eaOf base w.imm).toNat % bytesOf w.ty = 0 →
      s.reach (flagParts true (granuleParts 0 (eaOf base w.imm).toNat (bytesOf w.ty))) none = .ok ps →
      Transfer s (.st w) [s.newAccess 0 (.store (natBytes (bytesOf w.ty) v.toNat)) (eaOf base w.imm).toNat ps] false [] 0 []
  | stl (w base v ps) : s.srcS w.sa 2 (ftBit w 2) = .ok base → s.srcS w.sb 3 (ftBit w 3) = .ok v → (eaOf base w.imm).toNat < 2 ^ 56 →
      (eaOf base w.imm).toNat % bytesOf w.ty = 0 →
      s.reach (flagParts true (granuleParts 0 (eaOf base w.imm).toNat (bytesOf w.ty))) none = .ok ps →
      Transfer s (.stl w) [{ (s.newAccess 0 (.store (natBytes (bytesOf w.ty) v.toNat)) (eaOf base w.imm).toNat ps) with
        scope := w.md.toNat, rel := true }] false [] 0 []
  | vld (w base m d ps) : s.srcS w.sa 2 (ftBit w 2) = .ok base → s.srcVMOr w.sc 4 (ftBit w 4) (BitVec.allOnes 256) = .ok m →
      s.dstV w.dst = .ok d → (eaOf base w.imm).toNat < 2 ^ 56 → (eaOf base w.imm).toNat % 4 = 0 →
      s.reach (flagParts false (laneParts m (eaOf base w.imm).toNat)) none = .ok ps →
      Transfer s (.vld w) [s.newAccess 0 (.loadV (regIdx d) (laneBits 32 64 m)) (eaOf base w.imm).toNat ps] false [d] 0 []
  | vst (w base v m ps) : s.srcS w.sa 2 (ftBit w 2) = .ok base → s.srcV w.sb 3 (ftBit w 3) = .ok v →
      s.srcVMOr w.sc 4 (ftBit w 4) (BitVec.allOnes 256) = .ok m → (eaOf base w.imm).toNat < 2 ^ 56 → (eaOf base w.imm).toNat % 4 = 0 →
      s.reach (flagParts true (laneParts m (eaOf base w.imm).toNat)) none = .ok ps →
      Transfer s (.vst w)
        [s.newAccess 0 (.store (natBytes 256 v.toNat)) (eaOf base w.imm).toNat ps] false [] 0 [w.sb]
  | ldqV (w base sc i dp kp) : s.srcS w.sa 2 (ftBit w 2) = .ok base → s.srcS w.sc 4 (ftBit w 4) = .ok sc →
      s.dstV w.dst (ftBit w 3) = .ok (.v i) → s.dstK w.sb = .ok () → s.twoStreams (eaOf base w.imm) sc false = .ok (dp, kp) →
      Transfer s (.ldq w) [s.newAccess 0 (.ldqScale (some (regIdx w.sb)) (some i.toNat)) sc.toNat kp,
        s.newAccess 1 (.ldqData (some i.toNat) (some (regIdx w.sb)) none s.seq) (eaOf base w.imm).toNat dp]
        false [.v i, w.sb] (s.seq + 1) []
  | ldqQ (w base sc p i dp kp) : s.srcS w.sa 2 (ftBit w 2) = .ok base → s.srcS w.sc 4 (ftBit w 4) = .ok sc →
      s.dstV w.dst (ftBit w 3) = .ok (.q p i) → s.dstK w.sb = .ok () → s.twoStreams (eaOf base w.imm) sc false = .ok (dp, kp) →
      Transfer s (.ldq w) [s.newAccess 0 (.ldqScale none none) sc.toNat kp,
        s.newAccess 1 (.ldqData none none (some i.toNat) s.seq) (eaOf base w.imm).toNat dp] false [.q p i] (s.seq + 1) []
  | stq (w base v k sc dp kp) : s.srcS w.sa 2 (ftBit w 2) = .ok base → s.srcB4 w.sb 3 (ftBit w 3) = .ok (v, k) →
      s.srcS w.sc 4 (ftBit w 4) = .ok sc → s.twoStreams (eaOf base w.imm) sc true = .ok (dp, kp) →
      Transfer s (.stq w) [s.newAccess 0 (.store (natBytes 256 v.toNat)) (eaOf base w.imm).toNat dp,
        { (s.newAccess 1 (.store (natBytes 16 k.toNat)) sc.toNat kp) with first := some s.seq }] false [] 0 []
  | kld (w base ps) : s.srcS w.sa 2 (ftBit w 2) = .ok base → s.dstK w.dst = .ok () → (eaOf base w.imm).toNat < 2 ^ 56 →
      (eaOf base w.imm).toNat % 16 = 0 → s.reach (flagParts false (granuleParts 0 (eaOf base w.imm).toNat 16)) none = .ok ps →
      Transfer s (.kld w) [s.newAccess 0 (.loadK (regIdx w.dst)) (eaOf base w.imm).toNat ps] false [w.dst] 0 []
  | kst (w base k ps) : s.srcS w.sa 2 (ftBit w 2) = .ok base → s.srcK w.sb 3 (ftBit w 3) = .ok k → (eaOf base w.imm).toNat < 2 ^ 56 →
      (eaOf base w.imm).toNat % 16 = 0 → s.reach (flagParts true (granuleParts 0 (eaOf base w.imm).toNat 16)) none = .ok ps →
      Transfer s (.kst w) [s.newAccess 0 (.store (natBytes 16 k.toNat)) (eaOf base w.imm).toNat ps] false [] 0 []
  | gathMask (w base idx d m ps) : s.srcS w.sa 2 (ftBit w 2) = .ok base → s.srcV w.sb 3 (ftBit w 3) = .ok idx → s.dstV w.dst = .ok d →
      w.sc = .vm m → s.dstK w.sc = .ok () → base.toNat % bytesOf w.ty = 0 →
      s.reach (flagParts false (indexParts base idx w.imm.toNat (bytesOf w.ty))) none = .ok ps →
      Transfer s (.gath w) [s.newAccess 0
        (.gath (regIdx d) (some m.toNat) (inBounds idx w.imm.toNat) (bytesOf w.ty) w.ty.signed) base.toNat ps] false [d, w.sc] 0 [w.sb]
  | gath (w base idx d ps) : s.srcS w.sa 2 (ftBit w 2) = .ok base → s.srcV w.sb 3 (ftBit w 3) = .ok idx → s.dstV w.dst = .ok d →
      w.sc = .null → base.toNat % bytesOf w.ty = 0 →
      s.reach (flagParts false (indexParts base idx w.imm.toNat (bytesOf w.ty))) none = .ok ps →
      Transfer s (.gath w) [s.newAccess 0
        (.gath (regIdx d) none (inBounds idx w.imm.toNat) (bytesOf w.ty) w.ty.signed) base.toNat ps] false [d, w.sc] 0 [w.sb]
  | scat (w base idx v ps) : s.srcS w.sa 2 (ftBit w 2) = .ok base → s.srcV w.sb 3 (ftBit w 3) = .ok idx →
      s.srcV w.sc 4 (ftBit w 4) = .ok v → base.toNat % bytesOf w.ty = 0 →
      s.reach (flagParts true (indexParts base idx w.imm.toNat (bytesOf w.ty))) none = .ok ps →
      Transfer s (.scat w)
        [s.newAccess 0 (.store (natBytes 256 v.toNat)) base.toNat ps] false [] 0 [w.sb, w.sc]
  | copy (w dst src len ps) : s.srcS w.sa 2 (ftBit w 2) = .ok dst → s.srcS w.sb 3 (ftBit w 3) = .ok src →
      s.srcS w.sc 4 (ftBit w 4) = .ok len → dst.toNat % 64 = 0 → src.toNat % 64 = 0 → len.toNat % 64 = 0 → 0 < len.toNat →
      len.toNat < 2 ^ 32 →
      s.reach (mergeParts (2 * (granuleParts 0 dst.toNat len.toNat).length) (flagParts true (granuleParts 0 dst.toNat len.toNat))
        (flagParts false (granuleParts (2 ^ 40) src.toNat len.toNat))) none = .ok ps →
      Transfer s (.copy w) (((ps.filter fun p => decide (p.off < 2 ^ 40)).zip (ps.filter fun p => decide (2 ^ 40 ≤ p.off))).zipIdx.map
        fun g => s.newAccess g.2 (.copy [g.1.2] s.seq) g.1.1.va [g.1.1]) false [] 0 []
  | fill (w dst pat len ps) : s.srcS w.sa 2 (ftBit w 2) = .ok dst → s.srcS w.sb 3 (ftBit w 3) = .ok pat →
      s.srcS w.sc 4 (ftBit w 4) = .ok len → dst.toNat % 64 = 0 → len.toNat % 64 = 0 → 0 < len.toNat → len.toNat < 2 ^ 32 →
      s.reach (flagParts true (granuleParts 0 dst.toNat len.toNat)) none = .ok ps →
      Transfer s (.fill w) (ps.zipIdx.map fun p =>
        s.newAccess p.2 (.store ((List.range 8).flatMap fun _ => natBytes 8 pat.toNat)) p.1.va [{ p.1 with off := 0 }]) false [] 0 []
  | atom (w ea b c ps) : s.srcS w.sa 2 (ftBit w 2) = .ok ea → s.srcS w.sb 3 (ftBit w 3) = .ok b →
      s.srcSOr w.sc 4 (ftBit w 4) 0 = .ok c → s.dstS w.dst = .ok () → ea.toNat % bytesOf w.ty = 0 →
      s.reach (flagParts true (granuleParts 0 ea.toNat (bytesOf w.ty))) (some (atomClass w.sub.toNat, w.md.toNat)) = .ok ps →
      Transfer s (.atom w) [{ (s.newAccess 0 (.atom (match w.dst with | .s i => some i | _ => none) w.sub.toNat w.ty
        (BitVec.ofNat 64 (b.toNat % 2 ^ w.ty.width)) (BitVec.ofNat 64 (c.toNat % 2 ^ w.ty.width))) ea.toNat ps) with
        scope := w.md.toNat, acq := decide (w.imm.toNat % 4 = 1 ∨ w.imm.toNat % 4 = 3), rel := decide (2 ≤ w.imm.toNat % 4) }]
        false [w.dst] 0 []
  | mcstS (w off x g) : s.srcS w.sa 2 (ftBit w 2) = .ok off → (∃ i, w.sb = .s i) → s.srcS w.sb 3 (ftBit w 3) = .ok x →
      s.groupIn (w.imm.toNat % 4) = .ok g → off.toNat % 8 = 0 → off.toNat + 8 ≤ 2 ^ 22 →
      s.groupCheck ((s.group g).members.map fun c => s.inSram c (granuleParts 0 off.toNat 8)) false = .ok () →
      Transfer s (.mcst w) (((s.group g).members.map fun c => s.inSram c (granuleParts 0 off.toNat 8)).zipIdx.map
        fun d => s.newAccess d.2 (.store (natBytes 8 x.toNat)) off.toNat d.1) true [] 0 [w.sb]
  | mcstV (w off x g) : s.srcS w.sa 2 (ftBit w 2) = .ok off → (∀ i, w.sb ≠ .s i) → s.srcV w.sb 3 (ftBit w 3) = .ok x →
      s.groupIn (w.imm.toNat % 4) = .ok g → off.toNat % 64 = 0 → off.toNat + 256 ≤ 2 ^ 22 →
      s.groupCheck ((s.group g).members.map fun c => s.inSram c (granuleParts 0 off.toNat 256)) false = .ok () →
      Transfer s (.mcst w) (((s.group g).members.map fun c => s.inSram c (granuleParts 0 off.toNat 256)).zipIdx.map
        fun d => s.newAccess d.2 (.store (natBytes 256 x.toNat)) off.toNat d.1) true [] 0 [w.sb]
  | redst (w base v m ps) : s.srcS w.sa 2 (ftBit w 2) = .ok base → s.srcV w.sb 3 (ftBit w 3) = .ok v →
      s.srcVMOr w.sc 4 (ftBit w 4) (BitVec.allOnes 256) = .ok m → w.imm.toNat / 256 ≠ 1 → base.toNat % 4 = 0 →
      s.reach (flagParts true (redParts w.ty m base.toNat)) (some (4, 0)) = .ok ps →
      Transfer s (.redst w) [s.newAccess 0 (.red w.sub.toNat w.ty v) base.toNat ps] false [] 0 [w.sb]
  | redstGroup (w base v m g) : s.srcS w.sa 2 (ftBit w 2) = .ok base → s.srcV w.sb 3 (ftBit w 3) = .ok v →
      s.srcVMOr w.sc 4 (ftBit w 4) (BitVec.allOnes 256) = .ok m → w.imm.toNat / 256 = 1 → s.groupIn (w.imm.toNat % 4) = .ok g →
      base.toNat % 64 = 0 → (∀ p ∈ redParts w.ty m base.toNat, p.va + p.len ≤ 2 ^ 22) →
      s.groupCheck ((s.group g).members.map fun c => s.inSram c (redParts w.ty m base.toNat)) true = .ok () →
      Transfer s (.redst w) (((s.group g).members.map fun c => s.inSram c (redParts w.ty m base.toNat)).zipIdx.map
        fun d => s.newAccess d.2 (.red w.sub.toNat w.ty v) base.toNat d.1) true [] 0 [w.sb]
  | qpushS (w a x ps) : s.srcS w.sa 2 (ftBit w 2) = .ok a → (∃ i, w.sb = .s i) → s.srcS w.sb 3 (ftBit w 3) = .ok x →
      a.toNat % 64 = 0 → s.reach (flagParts true (granuleParts 0 a.toNat 64)) none = .ok ps →
      Transfer s (.qpush w) [{ (s.newAccess 0
        (.qpush (BitVec.ofNat 3 (regIdx w.dst)) (natBytes 8 x.toNat) true) a.toNat ps) with scope := w.md.toNat, rel := true }] false [] 0 [w.sb]
  | qpushV (w a x ps) : s.srcS w.sa 2 (ftBit w 2) = .ok a → (∀ i, w.sb ≠ .s i) → s.srcV w.sb 3 (ftBit w 3) = .ok x →
      a.toNat % 64 = 0 → s.reach (flagParts true (granuleParts 0 a.toNat 64)) none = .ok ps →
      Transfer s (.qpush w) [{ (s.newAccess 0
        (.qpush (BitVec.ofNat 3 (regIdx w.dst)) (natBytes 256 x.toNat) false) a.toNat ps) with scope := w.md.toNat, rel := true }] false [] 0 [w.sb]
  | qpopS (w a i ps) : s.srcS w.sa 2 (ftBit w 2) = .ok a → w.dst = .s i → s.dstS w.dst = .ok () →
      a.toNat % 64 = 0 → s.reach (flagParts true (granuleParts 0 a.toNat 64)) none = .ok ps →
      Transfer s (.qpop w) [{ (s.newAccess 0 (.qpop (w.imm.setWidth 3) true i.toNat) a.toNat ps) with
        scope := w.md.toNat, acq := true }] false [w.dst] 0 []
  | qpopV (w a d ps) : s.srcS w.sa 2 (ftBit w 2) = .ok a → (∀ i, w.dst ≠ .s i) → s.dstV w.dst = .ok d →
      a.toNat % 64 = 0 → s.reach (flagParts true (granuleParts 0 a.toNat 64)) none = .ok ps →
      Transfer s (.qpop w) [{ (s.newAccess 0 (.qpop (w.imm.setWidth 3) false (regIdx d)) a.toNat ps) with
        scope := w.md.toNat, acq := true }] false [d] 0 []
  | msgsend (w a len tg ps) : s.srcS w.sa 2 (ftBit w 2) = .ok a → s.srcS w.sb 3 (ftBit w 3) = .ok len →
      s.srcS w.sc 4 (ftBit w 4) = .ok tg → 0 < len.toNat → len.toNat ≤ 4096 → tg.toNat / 2 ^ 22 % 2 ^ 10 = 0 →
      tg.toNat / 2 ^ 9 % 2 ^ 7 = 0 → tg.toNat % 2 ^ 9 ≤ 319 → s.reachesMod (tg.toNat / 2 ^ 16 % 2 ^ 6) = true → a.toNat % 8 = 0 →
      s.reach (flagParts false (granuleParts 0 a.toNat len.toNat)) none = .ok ps →
      Transfer s (.msgsend w) [{ (s.newAccess 0 (.msg (BitVec.ofNat 3 (regIdx w.dst)) [] (BitVec.ofNat 6 (tg.toNat / 2 ^ 16 % 2 ^ 6))
        (tg.toNat % 2 ^ 9) (BitVec.ofNat 32 (tg.toNat / 2 ^ 32))) a.toNat ps) with
          scope := s.scopeTo s.cur.1 (tg.toNat / 2 ^ 16 % 2 ^ 6) (tg.toNat % 2 ^ 9), rel := true }] false [] 0 []

/-- The fence in progress as a fence word first issues it (R200, 21 R303). -/
def fenceFrom (s : State) (w : AForm) (kind : Nat) : FenceRec :=
  { kind := kind, scope := w.md.toNat, mask := w.imm.setWidth 6, cyc := s.cycle.toNat, id := s.seq, expired := false }

/-- The fences by kind. -/
def fenceWord (w : AForm) (i : Instr) (n : Nat) : Prop :=
  (n, i) ∈ [(0, Instr.fenceAcq w), (1, .fenceRel w), (2, .fenceAr w), (3, .fenceSc w)]

/-- The words of the transfer group that complete at once. -/
inductive AtOnce (s : State) : Instr → State → Prop
  | copyNone (w dst src) : s.srcS w.sa 2 (ftBit w 2) = .ok dst → s.srcS w.sb 3 (ftBit w 3) = .ok src →
      s.srcS w.sc 4 (ftBit w 4) = .ok 0 → dst.toNat % 64 = 0 → src.toNat % 64 = 0 → AtOnce s (.copy w) s
  | fillNone (w dst pat) : s.srcS w.sa 2 (ftBit w 2) = .ok dst → s.srcS w.sb 3 (ftBit w 3) = .ok pat →
      s.srcS w.sc 4 (ftBit w 4) = .ok 0 → dst.toNat % 64 = 0 → AtOnce s (.fill w) s
  | fenceAcq (w f) : s.dstS w.dst = .ok () → s.ctx.phase = .fence f → s.fenceOpen s.cur.1 (queOf s.cur.2) f = false →
      AtOnce s (.fenceAcq w) (s.endFence w (queOf s.cur.2) f)
  | fenceRel (w f) : s.dstS w.dst = .ok () → s.ctx.phase = .fence f → s.fenceOpen s.cur.1 (queOf s.cur.2) f = false →
      AtOnce s (.fenceRel w) (s.endFence w (queOf s.cur.2) f)
  | fenceAr (w f) : s.dstS w.dst = .ok () → s.ctx.phase = .fence f → s.fenceOpen s.cur.1 (queOf s.cur.2) f = false →
      AtOnce s (.fenceAr w) (s.endFence w (queOf s.cur.2) f)
  | fenceSc (w f) : s.dstS w.dst = .ok () → s.ctx.phase = .fence f → s.fenceOpen s.cur.1 (queOf s.cur.2) f = false →
      AtOnce s (.fenceSc w) (s.endFence w (queOf s.cur.2) f)
  | fenceNow (w n i) : fenceWord w i n → s.dstS w.dst = .ok () → s.ctx.phase = .body →
      ({ s with seq := s.seq + 1 } : State).fenceOpen s.cur.1 (queOf s.cur.2) (fenceFrom s w n) = false →
      AtOnce s i (({ s with seq := s.seq + 1 } : State).endFence w (queOf s.cur.2) (fenceFrom s w n))
  | qfence (w) : AtOnce s (.qfence w) ({ s with seq := s.seq + 1 }.modMe fun k => { k with
      qf := (k.qf.filter fun (m : QMark) => decide (s.cycle.toNat ≤ m.cyc) || s.markOpen s.cur.1 m) ++
        [({ id := s.seq, que := queOf s.cur.2, cyc := s.cycle.toNat, mask := w.imm.setWidth 6, scope := w.md.toNat
            expired := false } : QMark)] })
  | pref (w a len) : s.srcS w.sa 2 (ftBit w 2) = .ok a → s.srcS w.sb 3 (ftBit w 3) = .ok len →
      AtOnce s (.pref w) ((granuleParts 0 a.toNat (min len.toNat (2 ^ 24))).foldl (fun t p =>
        match s.translate s.cur.1 (s.me.asid s.cur.2) p.va with
        | some (pa, _) => if s.mayAccess (masterOf s.cur.1 s.cur.2) bitR pa then t.fillLine (dieOf s.cur.1) pa else t
        | none => t) s)
  | prefDropped (w t) : s.srcS w.sa 2 (ftBit w 2) = .error (.trap t) → (∃ len, s.srcS w.sb 3 (ftBit w 3) = .ok len) → AtOnce s (.pref w) s

end Sys2Proof.Claims

open Sys2Proof Sys2Proof.Machine Sys2Proof.Claims

/-- R180 to R205: a transfer that passes the checks at issue makes its accesses, marks its destinations empty and waits for its
targets' answer; it writes no memory, and no register. That a queue register it takes a block from is popped when the access is accepted,
and not at issue, is the model's choice (log 69). -/
def Sys2Proof.Claims.TransfersIssue : Prop :=
  ∀ (i : Instr) (s t : State) (accs : List Access) (grp : Bool) (dests srcs : List Opnd) (qid : Nat),
    Transfer s i accs grp dests qid srcs → t = (s.beginXfer accs grp dests qid srcs).used →
      exec i s = .next t ∧ SameBytes s t ∧ t.ctx.pc = s.ctx.pc ∧ t.ctx.phase = .accept accs grp (dests.map fun o => (o, s.holdOf o)) srcs ∧
      t.ctx.s = s.ctx.s ∧ t.me.v = s.me.v ∧ t.me.k = s.me.k ∧ ∀ c, c ≠ s.cur.1 → t.cl c = s.cl c

/-- R194, R200 to R202, R208: the words of the group that complete at once: a copy or fill of no bytes, a fence that nothing it covers
holds, when it is first issued or after a wait, QFENCE, and PREF, which changes no memory. -/
def Sys2Proof.Claims.TransfersAtOnce : Prop :=
  ∀ (i : Instr) (s u : State), AtOnce s i u → Straight s 3 → Gives i s u ∧ SameBytes s u

/-- R200, R303: a fence that something it covers holds waits, when it is first issued and when it is issued again, and its engine issues no
later word. -/
def Sys2Proof.Claims.FencesWait : Prop :=
  ∀ (w : AForm) (s : State) (n : Nat) (i : Instr), fenceWord w i n → s.dstS w.dst = .ok () →
    (s.ctx.phase = .body → ({ s with seq := s.seq + 1 } : State).fenceOpen s.cur.1 (queOf s.cur.2) (fenceFrom s w n) = true →
      exec i s = .next (({ s with seq := s.seq + 1 } : State).modCtx fun e => { e with phase := .fence (fenceFrom s w n) }).used) ∧
    ∀ f, s.ctx.phase = .fence f → s.fenceOpen s.cur.1 (queOf s.cur.2) f = true →
      exec i s = .next (s.modCtx fun e => { e with phase := .fence f }).used

/-- R200, R201: a fence that waited and that nothing holds any more completes when it is issued again, and its destination is the status of
the queues it covers; a store is open that it covers and that is not performed at its scope. -/
def Sys2Proof.Claims.FencesAnswer : Prop :=
  ∀ (w : AForm) (s : State) (n : Nat) (i : Instr) (d : BitVec 6) (f : FenceRec), fenceWord w i n → w.dst = .s d → s.dstS w.dst = .ok () →
    s.ctx.phase = .fence f → s.fenceOpen s.cur.1 (queOf s.cur.2) f = false → Straight s 3 →
    ∃ t o, exec i s = .next t ∧ t.ctx.phase ≠ .fence f ∧
      t.ctx.getS d.toNat = fenceStatus s.me ((List.range 6).filter fun q => q == queOf s.cur.2 || f.mask.getLsbD q) o ∧
      (o = true ↔ ∃ a ∈ s.me.mq ++ s.me.accepting, a.isOpen = true ∧ a.doneAt f.scope = false ∧ a.op.writes = true ∧
        a.before (queOf s.cur.2) f.mask f.id f.cyc = true)

/-- R201: a fence's status: bit 0 says that no store failed and none is open, bits 1 to 3 why stores failed, bits 15 to 8 how many did, each once;
the failures of the queues the fence covers are then counted anew, and no other queue's. -/
def Sys2Proof.Claims.FenceStatus : Prop :=
  (∀ (k : Cluster) (qs : List Nat) (o : Bool),
    let v := fenceStatus k qs o
    let n := (qs.map fun q => (SMap.get FailRec.empty k.fails q).ids.length).sum
    (v.getLsbD 0 = true ↔ n = 0 ∧ o = false) ∧ (v.getLsbD 1 = true ↔ ∃ q ∈ qs, (SMap.get FailRec.empty k.fails q).dead = true) ∧
      (v.getLsbD 2 = true ↔ ∃ q ∈ qs, (SMap.get FailRec.empty k.fails q).ref = true) ∧
      (v.getLsbD 3 = true ↔ ∃ q ∈ qs, (SMap.get FailRec.empty k.fails q).tmo = true) ∧ v.toNat / 2 ^ 8 % 2 ^ 8 = min n 255) ∧
  (∀ (s : State) (w : AForm) (own : Nat) (f : FenceRec) (q : Nat),
    SMap.get? (s.endFence w own f).me.fails q = if q < 6 ∧ (q = own ∨ f.mask.getLsbD q) then none else SMap.get? s.me.fails q)

namespace Sys2Proof.Claims

open Sys2Proof.Machine

/-- What is wrong with an effective address, base and offset, of an access aligned to n bytes (R181 steps 1 and 2). -/
inductive OffEa (ea : Word) (n : Nat) : Cause → Prop
  | long : 2 ^ 56 ≤ ea.toNat → OffEa ea n .unmapped
  | skew : ea.toNat < 2 ^ 56 → ea.toNat % n ≠ 0 → OffEa ea n .misalign

/-- The same for the two streams of LDQ and STQ, which are checked in ascending order of address (R181, R189, R190). -/
inductive OffStreams (ea sc : Word) : Cause → Word → Prop
  | long : 2 ^ 56 ≤ ea.toNat → OffStreams ea sc .unmapped ea
  | data : ea.toNat < 2 ^ 56 → ea.toNat % 16 ≠ 0 → ea.toNat ≤ sc.toNat ∨ sc.toNat % 16 = 0 → OffStreams ea sc .misalign ea
  | scale : ea.toNat < 2 ^ 56 → sc.toNat % 16 ≠ 0 → sc.toNat < ea.toNat ∨ ea.toNat % 16 = 0 → OffStreams ea sc .misalign sc

/-- What is wrong with an address without an offset: it is not aligned to n bytes, or a part of what it names is unmapped (R181 steps 2 and
3). -/
inductive OffParts (s : State) (a : Word) (n : Nat) (ps : List (Piece × Bool)) : Cause → Word → Prop
  | skew : a.toNat % n ≠ 0 → OffParts s a n ps .misalign a
  | unmapped (va) : a.toNat % n = 0 → s.placeAll s.cur.1 (s.me.asid s.cur.2) ps = .error va → OffParts s a n ps .unmapped (BitVec.ofNat 64 va)

/-- The same for a group store's offset, into the 4 MiB of each cluster's SRAM (R181 step 3, R197). -/
inductive OffGroup (off : Word) (n : Nat) (ps : List Piece) : Cause → Word → Prop
  | skew : off.toNat % n ≠ 0 → OffGroup off n ps .misalign off
  | beyond (p) : off.toNat % n = 0 → ps.find? (fun p => decide (2 ^ 22 < p.va + p.len)) = some p →
      OffGroup off n ps .unmapped (BitVec.ofNat 64 (max p.va (2 ^ 22)))

/-- No access has been made: memory, the cluster's queues and the context's phase are as they were. -/
def NoAccess (s t : State) : Prop := t.mem = s.mem ∧ t.me.mq = s.me.mq ∧ t.ctx.phase = s.ctx.phase

/-- A transfer whose sources can be read and whose address is bad, with the trap's cause, operand and detail. -/
inductive BadAddress (s : State) : Instr → Cause → Nat → Word → Prop
  | ldPart (w base va) : s.srcS w.sa 2 (ftBit w 2) = .ok base → s.dstS w.dst = .ok () → (eaOf base w.imm).toNat < 2 ^ 56 →
      (eaOf base w.imm).toNat % bytesOf w.ty = 0 →
      s.placeAll s.cur.1 (s.me.asid s.cur.2) (flagParts false (granuleParts 0 (eaOf base w.imm).toNat (bytesOf w.ty))) = .error va →
      BadAddress s (.ld w) .unmapped 0 (BitVec.ofNat 64 va)
  | ldaPart (w base va) : s.srcS w.sa 2 (ftBit w 2) = .ok base → s.dstS w.dst = .ok () → (eaOf base w.imm).toNat < 2 ^ 56 →
      (eaOf base w.imm).toNat % bytesOf w.ty = 0 →
      s.placeAll s.cur.1 (s.me.asid s.cur.2) (flagParts false (granuleParts 0 (eaOf base w.imm).toNat (bytesOf w.ty))) = .error va →
      BadAddress s (.lda w) .unmapped 0 (BitVec.ofNat 64 va)
  | stPart (w base v va) : s.srcS w.sa 2 (ftBit w 2) = .ok base → s.srcS w.sb 3 (ftBit w 3) = .ok v → (eaOf base w.imm).toNat < 2 ^ 56 →
      (eaOf base w.imm).toNat % bytesOf w.ty = 0 →
      s.placeAll s.cur.1 (s.me.asid s.cur.2) (flagParts true (granuleParts 0 (eaOf base w.imm).toNat (bytesOf w.ty))) = .error va →
      BadAddress s (.st w) .unmapped 0 (BitVec.ofNat 64 va)
  | stlPart (w base v va) : s.srcS w.sa 2 (ftBit w 2) = .ok base → s.srcS w.sb 3 (ftBit w 3) = .ok v → (eaOf base w.imm).toNat < 2 ^ 56 →
      (eaOf base w.imm).toNat % bytesOf w.ty = 0 →
      s.placeAll s.cur.1 (s.me.asid s.cur.2) (flagParts true (granuleParts 0 (eaOf base w.imm).toNat (bytesOf w.ty))) = .error va →
      BadAddress s (.stl w) .unmapped 0 (BitVec.ofNat 64 va)
  | vldPart (w base m d va) : s.srcS w.sa 2 (ftBit w 2) = .ok base → s.srcVMOr w.sc 4 (ftBit w 4) (BitVec.allOnes 256) = .ok m →
      s.dstV w.dst = .ok d → (eaOf base w.imm).toNat < 2 ^ 56 → (eaOf base w.imm).toNat % 4 = 0 →
      s.placeAll s.cur.1 (s.me.asid s.cur.2) (flagParts false (laneParts m (eaOf base w.imm).toNat)) = .error va →
      BadAddress s (.vld w) .unmapped 0 (BitVec.ofNat 64 va)
  | vstPart (w base v m va) : s.srcS w.sa 2 (ftBit w 2) = .ok base → s.srcV w.sb 3 (ftBit w 3) = .ok v →
      s.srcVMOr w.sc 4 (ftBit w 4) (BitVec.allOnes 256) = .ok m → (eaOf base w.imm).toNat < 2 ^ 56 → (eaOf base w.imm).toNat % 4 = 0 →
      s.placeAll s.cur.1 (s.me.asid s.cur.2) (flagParts true (laneParts m (eaOf base w.imm).toNat)) = .error va →
      BadAddress s (.vst w) .unmapped 0 (BitVec.ofNat 64 va)
  | kldPart (w base va) : s.srcS w.sa 2 (ftBit w 2) = .ok base → s.dstK w.dst = .ok () → (eaOf base w.imm).toNat < 2 ^ 56 →
      (eaOf base w.imm).toNat % 16 = 0 →
      s.placeAll s.cur.1 (s.me.asid s.cur.2) (flagParts false (granuleParts 0 (eaOf base w.imm).toNat 16)) = .error va →
      BadAddress s (.kld w) .unmapped 0 (BitVec.ofNat 64 va)
  | kstPart (w base k va) : s.srcS w.sa 2 (ftBit w 2) = .ok base → s.srcK w.sb 3 (ftBit w 3) = .ok k → (eaOf base w.imm).toNat < 2 ^ 56 →
      (eaOf base w.imm).toNat % 16 = 0 →
      s.placeAll s.cur.1 (s.me.asid s.cur.2) (flagParts true (granuleParts 0 (eaOf base w.imm).toNat 16)) = .error va →
      BadAddress s (.kst w) .unmapped 0 (BitVec.ofNat 64 va)
  | ldqPart (w base sc d va) : s.srcS w.sa 2 (ftBit w 2) = .ok base → s.srcS w.sc 4 (ftBit w 4) = .ok sc →
      s.dstV w.dst (ftBit w 3) = .ok d → s.dstK w.sb = .ok () → (eaOf base w.imm).toNat < 2 ^ 56 → (eaOf base w.imm).toNat % 16 = 0 →
      sc.toNat % 16 = 0 → s.placeAll s.cur.1 (s.me.asid s.cur.2) (mergeParts 8 (flagParts false (granuleParts 0 (eaOf base w.imm).toNat 256))
        (flagParts false (granuleParts 4096 sc.toNat 16))) = .error va → BadAddress s (.ldq w) .unmapped 0 (BitVec.ofNat 64 va)
  | stqPart (w base vk sc va) : s.srcS w.sa 2 (ftBit w 2) = .ok base → s.srcB4 w.sb 3 (ftBit w 3) = .ok vk →
      s.srcS w.sc 4 (ftBit w 4) = .ok sc → (eaOf base w.imm).toNat < 2 ^ 56 → (eaOf base w.imm).toNat % 16 = 0 →
      sc.toNat % 16 = 0 → s.placeAll s.cur.1 (s.me.asid s.cur.2) (mergeParts 8 (flagParts true (granuleParts 0 (eaOf base w.imm).toNat 256))
        (flagParts true (granuleParts 4096 sc.toNat 16))) = .error va → BadAddress s (.stq w) .unmapped 0 (BitVec.ofNat 64 va)
  | vld (w base m d c) : s.srcS w.sa 2 (ftBit w 2) = .ok base → s.srcVMOr w.sc 4 (ftBit w 4) (BitVec.allOnes 256) = .ok m →
      s.dstV w.dst = .ok d → OffEa (eaOf base w.imm) 4 c → BadAddress s (.vld w) c 0 (eaOf base w.imm)
  | vst (w base v m c) : s.srcS w.sa 2 (ftBit w 2) = .ok base → s.srcV w.sb 3 (ftBit w 3) = .ok v →
      s.srcVMOr w.sc 4 (ftBit w 4) (BitVec.allOnes 256) = .ok m → OffEa (eaOf base w.imm) 4 c → BadAddress s (.vst w) c 0 (eaOf base w.imm)
  | kld (w base c) : s.srcS w.sa 2 (ftBit w 2) = .ok base → s.dstK w.dst = .ok () → OffEa (eaOf base w.imm) 16 c →
      BadAddress s (.kld w) c 0 (eaOf base w.imm)
  | kst (w base k c) : s.srcS w.sa 2 (ftBit w 2) = .ok base → s.srcK w.sb 3 (ftBit w 3) = .ok k → OffEa (eaOf base w.imm) 16 c →
      BadAddress s (.kst w) c 0 (eaOf base w.imm)
  | ldq (w base sc d c a) : s.srcS w.sa 2 (ftBit w 2) = .ok base → s.srcS w.sc 4 (ftBit w 4) = .ok sc →
      s.dstV w.dst (ftBit w 3) = .ok d → s.dstK w.sb = .ok () → OffStreams (eaOf base w.imm) sc c a → BadAddress s (.ldq w) c 0 a
  | stq (w base vk sc c a) : s.srcS w.sa 2 (ftBit w 2) = .ok base → s.srcB4 w.sb 3 (ftBit w 3) = .ok vk →
      s.srcS w.sc 4 (ftBit w 4) = .ok sc → OffStreams (eaOf base w.imm) sc c a → BadAddress s (.stq w) c 0 a
  | gath (w base idx d c a) : s.srcS w.sa 2 (ftBit w 2) = .ok base → s.srcV w.sb 3 (ftBit w 3) = .ok idx → s.dstV w.dst = .ok d →
      s.dstK w.sc = .ok () → OffParts s base (bytesOf w.ty) (flagParts false (indexParts base idx w.imm.toNat (bytesOf w.ty))) c a →
      BadAddress s (.gath w) c 0 a
  | scat (w base idx v c a) : s.srcS w.sa 2 (ftBit w 2) = .ok base → s.srcV w.sb 3 (ftBit w 3) = .ok idx →
      s.srcV w.sc 4 (ftBit w 4) = .ok v →
      OffParts s base (bytesOf w.ty) (flagParts true (indexParts base idx w.imm.toNat (bytesOf w.ty))) c a → BadAddress s (.scat w) c 0 a
  | copyDst (w dst src len) : s.srcS w.sa 2 (ftBit w 2) = .ok dst → s.srcS w.sb 3 (ftBit w 3) = .ok src →
      s.srcS w.sc 4 (ftBit w 4) = .ok len → len.toNat < 2 ^ 32 → dst.toNat % 64 ≠ 0 → BadAddress s (.copy w) .misalign 2 dst
  | copySrc (w dst src len) : s.srcS w.sa 2 (ftBit w 2) = .ok dst → s.srcS w.sb 3 (ftBit w 3) = .ok src →
      s.srcS w.sc 4 (ftBit w 4) = .ok len → len.toNat < 2 ^ 32 → dst.toNat % 64 = 0 → src.toNat % 64 ≠ 0 →
      BadAddress s (.copy w) .misalign 3 src
  | copyLen (w dst src len) : s.srcS w.sa 2 (ftBit w 2) = .ok dst → s.srcS w.sb 3 (ftBit w 3) = .ok src →
      s.srcS w.sc 4 (ftBit w 4) = .ok len → len.toNat < 2 ^ 32 → dst.toNat % 64 = 0 → src.toNat % 64 = 0 → len.toNat % 64 ≠ 0 →
      BadAddress s (.copy w) .misalign 4 len
  | copyParts (w dst src len va) : s.srcS w.sa 2 (ftBit w 2) = .ok dst → s.srcS w.sb 3 (ftBit w 3) = .ok src →
      s.srcS w.sc 4 (ftBit w 4) = .ok len → 0 < len.toNat → len.toNat < 2 ^ 32 → dst.toNat % 64 = 0 → src.toNat % 64 = 0 →
      len.toNat % 64 = 0 → s.placeAll s.cur.1 (s.me.asid s.cur.2) (mergeParts (2 * (granuleParts 0 dst.toNat len.toNat).length)
        (flagParts true (granuleParts 0 dst.toNat len.toNat)) (flagParts false (granuleParts (2 ^ 40) src.toNat len.toNat))) = .error va →
      BadAddress s (.copy w) .unmapped 0 (BitVec.ofNat 64 va)
  | fillDst (w dst pat len) : s.srcS w.sa 2 (ftBit w 2) = .ok dst → s.srcS w.sb 3 (ftBit w 3) = .ok pat →
      s.srcS w.sc 4 (ftBit w 4) = .ok len → len.toNat < 2 ^ 32 → dst.toNat % 64 ≠ 0 → BadAddress s (.fill w) .misalign 2 dst
  | fillLen (w dst pat len) : s.srcS w.sa 2 (ftBit w 2) = .ok dst → s.srcS w.sb 3 (ftBit w 3) = .ok pat →
      s.srcS w.sc 4 (ftBit w 4) = .ok len → len.toNat < 2 ^ 32 → dst.toNat % 64 = 0 → len.toNat % 64 ≠ 0 →
      BadAddress s (.fill w) .misalign 4 len
  | fillParts (w dst pat len va) : s.srcS w.sa 2 (ftBit w 2) = .ok dst → s.srcS w.sb 3 (ftBit w 3) = .ok pat →
      s.srcS w.sc 4 (ftBit w 4) = .ok len → 0 < len.toNat → len.toNat < 2 ^ 32 → dst.toNat % 64 = 0 → len.toNat % 64 = 0 →
      s.placeAll s.cur.1 (s.me.asid s.cur.2) (flagParts true (granuleParts 0 dst.toNat len.toNat)) = .error va →
      BadAddress s (.fill w) .unmapped 0 (BitVec.ofNat 64 va)
  | atom (w ea b x c a) : s.srcS w.sa 2 (ftBit w 2) = .ok ea → s.srcS w.sb 3 (ftBit w 3) = .ok b → s.srcSOr w.sc 4 (ftBit w 4) 0 = .ok x →
      s.dstS w.dst = .ok () → OffParts s ea (bytesOf w.ty) (flagParts true (granuleParts 0 ea.toNat (bytesOf w.ty))) c a →
      BadAddress s (.atom w) c 0 a
  | redst (w base v m c a) : s.srcS w.sa 2 (ftBit w 2) = .ok base → s.srcV w.sb 3 (ftBit w 3) = .ok v →
      s.srcVMOr w.sc 4 (ftBit w 4) (BitVec.allOnes 256) = .ok m → w.imm.toNat / 256 ≠ 1 →
      OffParts s base 4 (flagParts true (redParts w.ty m base.toNat)) c a → BadAddress s (.redst w) c 0 a
  | redstGroup (w base v m g c a) : s.srcS w.sa 2 (ftBit w 2) = .ok base → s.srcV w.sb 3 (ftBit w 3) = .ok v →
      s.srcVMOr w.sc 4 (ftBit w 4) (BitVec.allOnes 256) = .ok m → w.imm.toNat / 256 = 1 → s.groupIn (w.imm.toNat % 4) = .ok g →
      OffGroup base 64 (redParts w.ty m base.toNat) c a → BadAddress s (.redst w) c 0 a
  | mcstS (w off x g i c a) : s.srcS w.sa 2 (ftBit w 2) = .ok off → w.sb = .s i → s.srcS w.sb 3 (ftBit w 3) = .ok x →
      s.groupIn (w.imm.toNat % 4) = .ok g → OffGroup off 8 (granuleParts 0 off.toNat 8) c a → BadAddress s (.mcst w) c 0 a
  | mcstV (w off x g c a) : s.srcS w.sa 2 (ftBit w 2) = .ok off → (∀ i, w.sb ≠ .s i) → s.srcV w.sb 3 (ftBit w 3) = .ok x →
      s.groupIn (w.imm.toNat % 4) = .ok g → OffGroup off 64 (granuleParts 0 off.toNat 256) c a → BadAddress s (.mcst w) c 0 a
  | qpushS (w a x i c b) : s.srcS w.sa 2 (ftBit w 2) = .ok a → w.sb = .s i → s.srcS w.sb 3 (ftBit w 3) = .ok x →
      OffParts s a 64 (flagParts true (granuleParts 0 a.toNat 64)) c b → BadAddress s (.qpush w) c 0 b
  | qpushV (w a x c b) : s.srcS w.sa 2 (ftBit w 2) = .ok a → (∀ i, w.sb ≠ .s i) → s.srcV w.sb 3 (ftBit w 3) = .ok x →
      OffParts s a 64 (flagParts true (granuleParts 0 a.toNat 64)) c b → BadAddress s (.qpush w) c 0 b
  | qpopS (w a i c b) : s.srcS w.sa 2 (ftBit w 2) = .ok a → w.dst = .s i → s.dstS w.dst = .ok () →
      OffParts s a 64 (flagParts true (granuleParts 0 a.toNat 64)) c b → BadAddress s (.qpop w) c 0 b
  | qpopV (w a d c b) : s.srcS w.sa 2 (ftBit w 2) = .ok a → (∀ i, w.dst ≠ .s i) → s.dstV w.dst = .ok d →
      OffParts s a 64 (flagParts true (granuleParts 0 a.toNat 64)) c b → BadAddress s (.qpop w) c 0 b
  | msgsend (w a len tg c b) : s.srcS w.sa 2 (ftBit w 2) = .ok a → s.srcS w.sb 3 (ftBit w 3) = .ok len →
      s.srcS w.sc 4 (ftBit w 4) = .ok tg → 0 < len.toNat → len.toNat ≤ 4096 → tg.toNat / 2 ^ 22 % 2 ^ 10 = 0 →
      tg.toNat / 2 ^ 9 % 2 ^ 7 = 0 → tg.toNat % 2 ^ 9 ≤ 319 → s.reachesMod (tg.toNat / 2 ^ 16 % 2 ^ 6) = true →
      OffParts s a 8 (flagParts false (granuleParts 0 a.toNat len.toNat)) c b → BadAddress s (.msgsend w) c 0 b

end Sys2Proof.Claims

open Sys2Proof Sys2Proof.Machine Sys2Proof.Claims

/-- R181: every transfer with a bad address traps with it and makes no access; a part above 56 bits is unmapped. -/
def Sys2Proof.Claims.BadAddresses : Prop :=
  (∀ (i : Instr) (s : State) (c : Cause) (o : Nat) (a : Word), BadAddress s i c o a →
    ∃ t, exec i s = .next t ∧ Trapped t s.cur.1 s.cur.2 c o s.ctx.pc a ∧ NoAccess s t) ∧
  ∀ (c : Nat) (asid : BitVec 8) (s : State) (p : Piece), 2 ^ 56 ≤ p.va → s.placePart c asid p = .error p.va

/-- R181, R187 to R205: an address that is not aligned to its access traps MISALIGN with the address as detail, and one above 56 bits, or one
that the ASID does not map, traps UNMAPPED; no access is made: of every transfer. -/
def Obligations.AddressTraps : Prop :=
  Sys2Proof.Claims.BadAddresses ∧ ∀ (w : AForm) (s : State) (base : Word), s.srcS w.sa 2 (ftBit w 2) = .ok base →
    (∀ i ∈ [Instr.ld w, .lda w], s.dstS w.dst = .ok () →
      (2 ^ 56 ≤ (eaOf base w.imm).toNat → ∃ t, exec i s = .next t ∧ Trapped t s.cur.1 s.cur.2 .unmapped 0 s.ctx.pc (eaOf base w.imm) ∧ NoAccess s t) ∧
      ((eaOf base w.imm).toNat < 2 ^ 56 → (eaOf base w.imm).toNat % bytesOf w.ty ≠ 0 →
        ∃ t, exec i s = .next t ∧ Trapped t s.cur.1 s.cur.2 .misalign 0 s.ctx.pc (eaOf base w.imm) ∧ NoAccess s t)) ∧
    (∀ i ∈ [Instr.st w, .stl w], ∀ v, s.srcS w.sb 3 (ftBit w 3) = .ok v →
      (2 ^ 56 ≤ (eaOf base w.imm).toNat → ∃ t, exec i s = .next t ∧ Trapped t s.cur.1 s.cur.2 .unmapped 0 s.ctx.pc (eaOf base w.imm) ∧ NoAccess s t) ∧
      ((eaOf base w.imm).toNat < 2 ^ 56 → (eaOf base w.imm).toNat % bytesOf w.ty ≠ 0 →
        ∃ t, exec i s = .next t ∧ Trapped t s.cur.1 s.cur.2 .misalign 0 s.ctx.pc (eaOf base w.imm) ∧ NoAccess s t)) ∧
    (∀ i ∈ [Instr.qpop w], s.dstS w.dst = .ok () → (∃ d, w.dst = .s d) → base.toNat % 64 ≠ 0 →
      ∃ t, exec i s = .next t ∧ Trapped t s.cur.1 s.cur.2 .misalign 0 s.ctx.pc base ∧ NoAccess s t)

/-- R179 to R204: the transfer words at issue. That a queue source is popped when its transfer is accepted is the model's choice (log 69). -/
def Obligations.Transfers : Prop := Sys2Proof.Claims.TransfersIssue ∧ Sys2Proof.Claims.TransfersAtOnce

/-- R200, R201: FENCE waits and answers. -/
def Obligations.Fences : Prop := Sys2Proof.Claims.FencesWait ∧ Sys2Proof.Claims.FencesAnswer ∧ Sys2Proof.Claims.FenceStatus

/-! ### The steps of a transfer after its issue (13 R182 to R207, 21 R294) -/

namespace Sys2Proof.Claims

open Sys2Proof.Machine

/-- The operation is none of those that their home answers for themselves. -/
def plainOp : MemOp → Bool
  | .msg .. | .qpush .. | .qpop .. => false
  | _ => true

end Sys2Proof.Claims

open Sys2Proof Sys2Proof.Machine Sys2Proof.Claims

/-- R182, R181: accesses to this module that no target refuses enter their queue, and their word completes; else the first part in
ascending order of address traps ROWRITE where the home's RO bit is set, or REFUSED, which freezes the cluster (R26). A group store whose
destinations all permit it is accepted (R199). -/
def Sys2Proof.Claims.AccessesEnter : Prop :=
  ∀ (c x : Nat) (far : FarMap) (g : Bool) (s : State) (accs : List Access) (undo : List (Opnd × Option Hold)) (pops : List Opnd),
    ((s.cl c).cx x).phase = .accept accs g undo pops → (∀ a ∈ accs, plainOp a.op = true ∧ a.fail ≠ some .deadlink) →
    (∀ a ∈ accs, ∀ p ∈ a.pieces ++ a.sources, s.deadPath c p.pa = false ∧ s.isFar p.pa = false) →
    (g = false → s.roAt accs far = none → s.refusedAt c x accs far = none →
      exec (.accessAccepted c x far) s = .next (s.enterQueue c x accs pops)) ∧
    (∀ p, g = false → s.roAt accs far = some p →
      ∃ t, exec (.accessAccepted c x far) s = .next t ∧ Trapped t c x .roWrite 0 ((s.cl c).cx x).pc (BitVec.ofNat 64 p.va)) ∧
    (∀ p, g = false → s.roAt accs far = none → s.refusedAt c x accs far = some p →
      ∃ t, exec (.accessAccepted c x far) s = .next t ∧ Trapped t c x .refused 0 ((s.cl c).cx x).pc (BitVec.ofNat 64 p.va) ∧
        t.frozen c = true) ∧
    (g = true → (∀ a ∈ accs, s.roAt [a] [] = none ∧ s.refusedAt c x [a] [] = none) →
      exec (.accessAccepted c x far) s = .next (s.enterQueue c x accs pops))

/-- A QPUSH or QPOP that waits for the home of its descriptor, in plain memory of this module whose entry for the issuer has the A bit: the
access, with its descriptor's address, and the descriptor's bytes (13 R203, R204). -/
structure Sys2Proof.Claims.AtHome (s : State) (c x : Nat) (a : Access) (pa : Nat) (undo : List (Opnd × Option Hold)) (pops : List Opnd)
    (push : Bool) : Prop where
  phase : ((s.cl c).cx x).phase = .accept [a] false undo pops
  placed : ∃ p, a.pieces = [p] ∧ p.pa = pa
  live : s.accessDead c a = false ∧ a.fail ≠ some .deadlink ∧ a.landed = false
  turn : s.mayPerform c (s.withSlot c a push) = true
  near : pa % 64 = 0 ∧ s.isFar pa = false ∧ isCfg pa = false ∧ s.isMem pa = true ∧ s.isRo pa = false ∧ s.badAt pa 64 = false
  may : s.mayAccess (masterOf c x) bitA pa = true

/-- The entry that a push or a pop takes lies in plain memory of this module, over live links, and its home permits the access (R204). -/
def Sys2Proof.Claims.SlotGood (s : State) (c x pa : Nat) (push : Bool) (ps : List (Piece × Bool × Bool)) : Prop :=
  ∀ p ∈ ps, (push = true → p.2.2 = false ∧ s.isRo p.1.pa = false) ∧ s.isFar p.1.pa = false ∧ isCfg p.1.pa = false ∧
    (∀ i ∈ s.path ((s.target pa).getD 12) p.1.pa, (s.link i).dead = false) ∧
    s.mayAccess (masterOf c x) (if push then bitW else bitR) p.1.pa = true

/-- R204: a push on a queue with room writes its entry at BASE + (TAIL mod CAP) * ESZ, then TAIL + 1, and pD is 1; on a full queue nothing is
written and pD is 0. A pop of a queue with an entry reads it at BASE + (HEAD mod CAP) * ESZ, writes HEAD + 1, pN is 1, and its destination
takes the entry's bytes when the result lands; on an empty queue pN is 0, no byte of memory changes and the v registers keep their values. A
malformed descriptor, or an s register with entries of another size than 8 bytes, traps PARAM. -/
def Sys2Proof.Claims.MemoryQueues : Prop :=
  (∀ (s : State) (c x pa : Nat) (far : FarMap) (a : Access) (undo : List (Opnd × Option Hold)) (pops : List Opnd) (p : BitVec 3)
      (bs : List Byte) (small : Bool) (d : QDesc),
    AtHome s c x a pa undo pops true → a.op = .qpush p bs small → p ≠ 0 → qdescOf (s.bytes pa 64) = some d → (small = true → d.esz = 8) →
    (d.count = d.cap →
      ∃ t, exec (.accessAccepted c x far) s = .next t ∧ ((t.cl c).cx x).getP p.toNat = false ∧ t.mem = s.mem) ∧
    (∀ ps, d.count ≠ d.cap → s.slotParts c a.asid d true = .ok ps → SlotGood s c x pa true ps →
      ∃ t, exec (.accessAccepted c x far) s = .next t ∧ ((t.cl c).cx x).getP p.toNat = true ∧
        t.mem = ((ps.foldl (fun s p => (s.store p.1.pa ((bs.drop p.1.off).take p.1.len)).1) s).storeNat (pa + 24) 8 ((d.tail + 1) % 2 ^ 64)).mem)) ∧
  (∀ (s : State) (c x pa : Nat) (far : FarMap) (a : Access) (undo : List (Opnd × Option Hold)) (pops : List Opnd) (p : BitVec 3)
      (small : Bool) (o : Nat) (d : QDesc),
    AtHome s c x a pa undo pops false → a.op = .qpop p small o → p ≠ 0 → qdescOf (s.bytes pa 64) = some d → (small = true → d.esz = 8) →
    (d.count = 0 →
      ∃ t, exec (.accessAccepted c x far) s = .next t ∧ ((t.cl c).cx x).getP p.toNat = false ∧ t.mem = s.mem ∧
        ∀ n, (t.cl c).getV n = (s.cl c).getV n) ∧
    (∀ ps, d.count ≠ 0 → s.slotParts c a.asid d false = .ok ps → SlotGood s c x pa false ps →
      (∀ q ∈ ps, s.badAt q.1.pa q.1.len = false) →
      ∃ t b, exec (.accessAccepted c x far) s = .next t ∧ ((t.cl c).cx x).getP p.toNat = true ∧
        t.mem = (s.storeNat (pa + 16) 8 ((d.head + 1) % 2 ^ 64)).mem ∧
        b ∈ (t.cl c).mq ∧ b.id = a.id ∧ b.op = a.op ∧ b.err = none ∧
        b.data = keepBytes [] 0 (ps.flatMap fun q => s.bytes q.1.pa q.1.len))) ∧
  ∀ (s : State) (c x pa : Nat) (far : FarMap) (a : Access) (undo : List (Opnd × Option Hold)) (pops : List Opnd) (push : Bool)
      (p : BitVec 3) (bs : List Byte) (small : Bool) (o : Nat),
    AtHome s c x a pa undo pops push → a.op = (if push then .qpush p bs small else .qpop p small o) →
    (qdescOf (s.bytes pa 64) = none ∨ ∃ d, qdescOf (s.bytes pa 64) = some d ∧ small = true ∧ d.esz ≠ 8) →
    ∃ t, exec (.accessAccepted c x far) s = .next t ∧ Trapped t c x .param 0 ((s.cl c).cx x).pc (BitVec.ofNat 64 a.va)

/-- R181, R182, R199, R204: transfers are accepted, and queues answer. -/
def Obligations.TransfersAccepted : Prop := Sys2Proof.Claims.AccessesEnter ∧ Sys2Proof.Claims.MemoryQueues

/-- R294, R186, R315: performing a piece of a store at its home, whose units are all good, writes its bytes but those of a read-only granule,
and no other byte of the module changes. -/
def Sys2Proof.Claims.StorePerformed : Prop :=
  ∀ (c n sc : Nat) (s : State) (a : Access) (bs : List Byte) (p : Piece) (rest : List Piece), sc = 0 ∨ 11 < sc →
    (s.cl c).access n = some a → a.op = .store bs → a.pieces = p :: rest → a.fail ≠ some .deadlink → s.mayPerform c a = true →
    a.fail ≠ some .timeout ∨ s.mayAccess (masterOf c a.x) bitW p.pa = true →
    s.deadPath c p.pa = false → (∀ i, i < p.len → s.isMem (p.pa + i) = true) → s.badAt p.pa p.len = false → 0 < p.len →
    p.off + p.len ≤ bs.length →
    ∃ t, exec (.accessPerformed c ⟨n, sc⟩) s = .next t ∧
      (∀ i, i < p.len → t.byte (p.pa + i) = if s.isRo (p.pa + i) then s.byte (p.pa + i) else bs.getD (p.off + i) 0) ∧ ∀ pa, ¬ (p.pa ≤ pa ∧ pa < p.pa + p.len) → t.byte pa = s.byte pa

/-- R294: a store that may be shown is performed with respect to the readers in its issuer's instance of a scope, before it is performed at its
home, whose bytes stay: those readers' reads of its granules wait for it from then on, that no read returns an older value. That a store is
shown so is the model's choice (log 70). -/
def Sys2Proof.Claims.StoreShown : Prop :=
  ∀ (c n sc : Nat) (s : State) (a : Access), (s.cl c).access n = some a → s.mayShow c a sc = true →
    ∃ t b, exec (.accessPerformed c ⟨n, sc⟩) s = .next t ∧ SameBytes s t ∧ (t.cl c).access n = some b ∧ b.doneAt sc = true ∧
      b.pieces = a.pieces ∧ b.op = a.op ∧ (∀ j, j ≠ c → t.cl j = s.cl j) ∧
      (∀ j r, inScope sc c j = true → r ∈ a.pieces → a.pieces ≠ [] → t.heldAt j (fun g => g == r.pa / 64) = true) ∧
      ∀ j x, inScope sc c j = true → x.id ≠ a.id → x.vis = none → x.meets a = true → t.mayPerform j x = false

/-- R195, R294, R315: performing an atomic writes the new value at its home, unless that is read-only, and keeps the old one, extended, for its
destination. -/
def Sys2Proof.Claims.AtomicPerformed : Prop :=
  ∀ (c n sc : Nat) (s : State) (a : Access) (d : Option (BitVec 6)) (op : Nat) (ty : Ty) (x y : Word) (p : Piece) (old : Nat),
    sc = 0 ∨ 11 < sc → (s.cl c).access n = some a → a.op = .atom d op ty x y → a.pieces = [p] → a.fail ≠ some .deadlink → s.mayPerform c a = true →
    a.fail ≠ some .timeout ∨ s.mayAccess (masterOf c a.x) bitA p.pa = true →
    s.deadPath c p.pa = false → p.len = ty.width / 8 → p.len = 4 ∨ p.len = 8 → (∀ i, i < p.len → s.isMem (p.pa + i) = true) →
    s.badAt p.pa p.len = false → old = bytesNat (s.bytes p.pa p.len) →
    ∃ t, exec (.accessPerformed c ⟨n, sc⟩) s = .next t ∧
      ((∀ i, i < p.len → s.isRo (p.pa + i) = false) →
        bytesNat (t.bytes p.pa p.len) = atomNew op ty old x.toNat y.toNat % 2 ^ (8 * p.len)) ∧
      ((∀ i, i < p.len → s.isRo (p.pa + i) = true) → t.bytes p.pa p.len = s.bytes p.pa p.len) ∧
      (∀ r, d = some r → a.data = [] → a.err = none → ∃ b, (t.cl c).access n = some b ∧ b.pieces = [] ∧ b.landings = [(.s r, .write
        ((if ty = .i32 then BitVec.ofInt 64 (sgn 32 old) else BitVec.ofNat 64 old).setWidth 2048) (BitVec.allOnes 2048) none)]) ∧
      ∀ pa, ¬ (p.pa ≤ pa ∧ pa < p.pa + p.len) → t.byte pa = s.byte pa

/-- R195: the value an atomic writes, for each of its operations. -/
def Sys2Proof.Claims.AtomicValues : Prop :=
  ∀ (ty : Ty) (a b c : Nat), a < 2 ^ ty.width → b < 2 ^ ty.width → c < 2 ^ ty.width →
    atomNew 0 ty a b c = (a + b) % 2 ^ ty.width ∧ atomNew 1 ty a b c = a &&& b ∧ atomNew 2 ty a b c = a ||| b ∧
    atomNew 3 ty a b c = a ^^^ b ∧
    sgn ty.width (atomNew 4 ty a b c) = min (sgn ty.width a) (sgn ty.width b) ∧
    sgn ty.width (atomNew 5 ty a b c) = max (sgn ty.width a) (sgn ty.width b) ∧
    atomNew 6 ty a b c = min a b ∧ atomNew 7 ty a b c = max a b ∧ atomNew 8 ty a b c = b ∧
    atomNew 9 ty a b c = if a = c then b else a

/-- R93, R187 to R191, R189: results land: one that no memory holds, a read or an atomic that has been performed, and the two streams of
an LDQ, of which the second takes the binding. The results of an A-engine word land together (R272). -/
def Obligations.ResultsLand : Prop :=
  (∀ (c n : Nat) (ext : List Byte) (s : State) (p : Pend), (s.cl c).pend.find? (fun p => p.id == n) = some p →
    let mine (q : Pend) : Bool := q.id == n || (p.ofA && q.ofA)
    exec (.resultLands c n ext) s = .next (s.modCl c fun k => { k with
      pend := k.pend.filter fun q => !mine q
      land := k.land ++ (k.pend.filter mine).map fun q =>
        { due := s.cycle.toNat + 1, x := q.x, sec := q.sec, dst := q.dst, flags := q.flags
          kind := match q.dst with
            | .q _ _ => .push q.id (plainEnt (q.val &&& q.mask))
            | _ => .write q.val q.mask none } })) ∧
  (∀ (c n : Nat) (ext : List Byte) (s : State) (a : Access), (s.cl c).pend.find? (fun p => p.id == n) = none →
    (s.cl c).access n = some a → a.landings ≠ [] → a.pieces = [] → a.fail = none → a.cyc < s.cycle.toNat →
    exec (.resultLands c n ext) s = .next ((s.dropAccess c n).landAll c a.x a.sec a.landings)) ∧
  (∀ (c n i : Nat) (v : Option Nat) (ext : List Byte) (s : State) (a : Access), (s.cl c).access n = some a →
    a.op = .ldqScale (some i) v → a.landed = false → a.pieces = [] → a.fail = none → a.err = none → a.cyc < s.cycle.toNat →
    exec (.ldqScalesLand c n ext) s = .next ((s.modCl c fun q => { q with mq := q.mq.map fun b =>
      if b.id == n then { a with landed := true } else b }).landAll c a.x a.sec
        [(.k (BitVec.ofNat 8 i), .write (BitVec.ofNat 2048 (sliceNat a.data 0 16)) (BitVec.allOnes 2048) none)])) ∧
  (∀ (c n sid d i : Nat) (ext : List Byte) (s : State) (a sc : Access), (s.cl c).access n = some a →
    a.op = .ldqData (some d) (some i) none sid → (s.cl c).access sid = some sc → (s.cl c).scalesIn sc = true → sc.err = none →
    a.pieces = [] → a.fail = none → a.err = none → a.cyc < s.cycle.toNat →
    exec (.ldqDataLands c n ext) s = .next (((s.dropAccess c n).dropAccess c sid).landAll c a.x a.sec
      [(.v (BitVec.ofNat 9 d), .write (BitVec.ofNat 2048 (sliceNat a.data 0 256)) (BitVec.allOnes 2048)
        (some { kix := BitVec.ofNat 8 i, gen := (s.cl c).genOf i }))]))

/-- R183, R200, R201: an access that gets no answer for 2 ms, or whose way passes a dead link, counts as accepted and failed; one that has
held a fence for that long counts as failed. A read that was accepted and has no answer for 2 ms is error-pending (21 R316). Which
accesses and parts have had no answer is an input of the step (log 13). -/
def Obligations.AccessesFail : Prop :=
  (∀ (c x : Nat) (s : State) (a : Access) (bs : List Byte) (undo : List (Opnd × Option Hold)) (pops : List Opnd),
    ((s.cl c).cx x).phase = .accept [a] false undo pops → a.op = .store bs →
    (s.accessDead c a = true ∨ a.fail = some .deadlink → ∀ late far, exec (.acceptanceTimeout c ⟨x, late, far, []⟩) s =
      .next ((s.failStore c a.que a.store .deadlink (s.accessTarget c a)).enterQueue c x [] pops)) ∧
    (s.accessDead c a = false → a.fail ≠ some .deadlink → a.cyc + Config.cycles2ms ≤ s.cycle.toNat → ∀ i far,
      exec (.acceptanceTimeout c ⟨x, [(0, i)], far, []⟩) s =
        .next ((s.failStore c a.que a.store .timeout (s.accessTarget c a (a.part i))).enterQueue c x [{ a with fail := some .timeout }] pops)) ∧
    (s.accessDead c a = false → a.fail ≠ some .deadlink → s.cycle.toNat < a.cyc + Config.cycles2ms → ∀ late far,
      exec (.acceptanceTimeout c ⟨x, late, far, []⟩) s = .next s)) ∧
  (∀ (c x i n : Nat) (s : State) (a : Access) (d : BitVec 6) (g : Bool) (far : FarMap), s.shownStores = [] → (s.cl c).mq = [a] →
    a.op = .loadS d g n → a.isOpen = true → a.fail = none → s.accessDead c a = false → a.cyc + Config.cycles2ms ≤ s.cycle.toNat →
    (∀ accs grp undo pops, ((s.cl c).cx x).phase ≠ .accept accs grp undo pops) →
    exec (.acceptanceTimeout c ⟨x, [], far, [(a.id, i)]⟩) s = .next (s.modCl c fun k => { k with mq := [{ a with
      pieces := [], fail := some .timeout, err := some (BitVec.ofNat 64 a.va, s.accessTarget c a (a.part i)) }] })) ∧
  (∀ (c x : Nat) (s : State) (f : FenceRec) (a : Access) (bs : List Byte), c < 320 → ((s.cl c).cx x).phase = .fence f → f.kind < 4 →
    s.shownStores = [] → f.cyc + Config.cycles2ms ≤ s.cycle.toNat → (s.cl c).mq = [a] → a.op = .store bs → a.isOpen = true →
    a.before (queOf x) f.mask f.id f.cyc = true → a.fail ≠ some .deadlink → s.accessDead c a = false →
    a.cyc + Config.cycles2ms ≤ s.cycle.toNat →
    exec (.fenceWaitExpiry c x) s = .next (((s.failStore c a.que a.store .timeout (s.accessTarget c a)).modCl c fun k =>
      { k with mq := [{ a with fail := some .timeout }] }).modCx c x fun e => { e with phase := .fence { f with expired := true } }))

/-- R205, R206: a message to a cluster of this module takes the lowest free slot, and the sender's predicate says so; with no free slot
nothing is written and the predicate is 0; without the M bit the sender traps REFUSED, and where the slot is read-only it traps ROWRITE
(R181, 27 R362). A message to another module has that module's answer (27 R351). -/
def Sys2Proof.Claims.MessagesArrive : Prop :=
  ∀ (c cl : Nat) (far : MsgAns) (g : Bool) (s : State) (a : Access) (p : BitVec 3) (q : List Byte) (m : BitVec 6) (hnd : Parcel)
    (undo : List (Opnd × Option Hold)) (pops : List Opnd),
    ((s.cl c).cx 4).phase = .accept [a] g undo pops → a.op = .msg p q m cl hnd → s.accessDead c a = false → a.fail ≠ some .deadlink →
    s.mayPerform c a = true →
    s.refusedAt c 4 [a] far.payload = none → (∀ r ∈ a.pieces, s.badAt r.pa r.len = false ∧ s.farNone far.payload r.pa = false) →
    (m = s.hub.modNo → s.permits (dieOf cl) (masterOf c 4) &&& bitM ≠ 0 →
      s.slotRo cl = false → s.slotWhole cl (a.pieces.flatMap fun q => s.bytes q.pa q.len) = true →
      (∀ s', s.deliver cl (a.pieces.flatMap fun q => s.bytes q.pa q.len) (BitVec.ofNat 22 (s.hub.modNo.toNat * 2 ^ 16 + masterOf c 4)) a.asid hnd = some s' →
        exec (.messageArrival c far) s = .next (((s'.msgSync c a cl).modCx c 4 fun e => e.putP p.toNat true).finishWord c 4 3)) ∧
      ((s.cl cl).freeSlot = none →
        exec (.messageArrival c far) s = .next ((s.modCx c 4 fun e => e.putP p.toNat false).finishWord c 4 3))) ∧
    (m ≠ s.hub.modNo → far.target = .ok ∨ far.target = .no →
      exec (.messageArrival c far) s = .next ((s.modCx c 4 fun e => e.putP p.toNat (far.target == .ok)).finishWord c 4 3)) ∧
    ((m = s.hub.modNo ∧ s.permits (dieOf cl) (masterOf c 4) &&& bitM = 0) ∨ (m ≠ s.hub.modNo ∧ far.target = .refused) →
      ∃ t i, exec (.messageArrival c far) s = .next t ∧ Trapped t c 4 .refused 0 ((s.cl c).cx 4).pc i ∧ t.frozen c = true) ∧
    ((m = s.hub.modNo ∧ s.permits (dieOf cl) (masterOf c 4) &&& bitM ≠ 0 ∧ s.slotRo cl = true) ∨ (m ≠ s.hub.modNo ∧ far.target = .readOnly) →
      ∃ t i, exec (.messageArrival c far) s = .next t ∧ Trapped t c 4 .roWrite 0 ((s.cl c).cx 4).pc i)

/-- R206: the slot a message takes is the lowest free one; it holds the message's length, sender, ASID and handler, and its payload
stands in the slot. -/
def Sys2Proof.Claims.MessageSlots : Prop :=
  ∀ (s s' : State) (cl n : Nat) (bs : List Byte) (src : BitVec 22) (asid : BitVec 8) (hnd : Parcel),
    s.deliver cl bs src asid hnd = some s' → (s.cl cl).freeSlot = some n →
      (∃ m, SMap.get? (s'.cl cl).slots n = some m ∧ m.len = bs.length ∧ m.src = src ∧ m.asid = asid ∧ m.hnd = hnd ∧ m.started = false) ∧
      (∀ k, k < n → (SMap.get? (s.cl cl).slots k).isSome = true) ∧ SMap.get? (s.cl cl).slots n = none ∧
      (∀ k, k ≠ n → SMap.get? (s'.cl cl).slots k = SMap.get? (s.cl cl).slots k) ∧ ∀ c, c ≠ cl → s'.cl c = s.cl c

/-- R206, R368: a handler context starts for the message that waits, or for the trap that waits, with the registers the rules state. -/
def Obligations.HandlersStart : Prop :=
  (∀ (c n : Nat) (s : State) (m : Slot), (s.cl c).slots = [(n, m)] → m.started = false → (s.cl c).dormant 5 = true →
    ((s.cl c).traps = [] ∨ (s.cl c).dormant 6 = true) → s.handlersRun c = true →
    ∃ t, exec (.arrivalHandlerStart c) s = .next t ∧ let e := (t.cl c).cx 5
      e.run = .running ∧ e.phase = .header ∧ e.pc = m.hnd ∧ e.getS 0 = BitVec.ofNat 64 (0xFF000000000000 + 0x3F0000 + n * 0x1000) ∧
      e.getS 1 = BitVec.ofNat 64 m.len ∧ e.getS 2 = m.src.setWidth 64 ∧ e.getS 3 = m.asid.setWidth 64 ∧ (t.cl c).asid 5 = m.asid ∧
      t.mem = s.mem ∧ (∀ x, x ≠ 5 → (t.cl c).cx x = (s.cl c).cx x) ∧ ∀ j, j ≠ c → t.cl j = s.cl j) ∧
  (∀ (c g : Nat) (gs : List Nat) (s : State) (pc : Parcel), (s.cl c).dormant 6 = true → (s.cl c).traps = g :: gs →
    s.handlersRun c = true → s.tvec c = some pc →
    ∃ t, exec (.taskTrapHandlerStart c) s = .next t ∧ let e := (t.cl c).cx 6
      e.run = .running ∧ e.phase = .header ∧ e.pc = pc ∧ e.getS 0 = recParam (s.cl c).rec0 ∧ e.getS 1 = BitVec.ofNat 64 g ∧
      e.getS 2 = ((s.cl c).cx g).cause.setWidth 64 ∧ e.getS 3 = ((s.cl c).cx g).tpc.setWidth 64 ∧ e.getS 4 = ((s.cl c).cx g).tinfo ∧
      (t.cl c).traps = gs ∧ t.mem = s.mem ∧ (∀ x, x ≠ 6 → (t.cl c).cx x = (s.cl c).cx x) ∧ ∀ j, j ≠ c → t.cl j = s.cl j)

/-- R104: a waking bank becomes ON, and no other bank changes. -/
def Sys2Proof.Claims.BanksWake : Prop :=
  ∀ (c b : Nat) (s : State), b < 32 → (s.cl c).waking.getLsbD b = true →
    ∃ t, exec (.bankWake c b) s = .next t ∧ bankState (t.cl c).bankctl b = 0 ∧ (t.cl c).waking.getLsbD b = false ∧
      (∀ d, d < 32 → d ≠ b → bankState (t.cl c).bankctl d = bankState (s.cl c).bankctl d ∧
        (t.cl c).waking.getLsbD d = (s.cl c).waking.getLsbD d) ∧
      t.mem = s.mem ∧ ∀ j, j ≠ c → t.cl j = s.cl j

/-- 09 R114 to R118: a header opens a section, ends the stream, or traps at itself. The key of a section is judged there (23 R324): it is
met, it goes on waiting, or its MISS field says what a miss does. -/
def Sys2Proof.Claims.Headers : Prop :=
  ∀ (c x : Nat) (s : State), s.mayIssue c x = true → ((s.cl c).cx x).phase = .header →
    let s1 : State := { s with cur := (c, x) }
    (∀ h f, s1.readHeader c x ((s.cl c).cx x).pc = .sect h f → h.key = none →
      exec (.headerReached c x) s = .next (s1.modCtx fun e => { e with phase := .start h f .free }).used) ∧
    (∀ h f tag rot miss, s1.readHeader c x ((s.cl c).cx x).pc = .sect h f → h.key = some (tag, rot, miss) →
      (s1.keyCheck c tag rot = .hit →
        exec (.headerReached c x) s = .next (s1.modCtx fun e => { e with phase := .start h f (.judged true) }).used) ∧
      (s1.keyCheck c tag rot = .waits →
        exec (.headerReached c x) s = .next (s1.modCtx fun e => { e with phase := .start h f .waits }).used) ∧
      (s1.keyCheck c tag rot = .missOwn → miss = 0 →
        ∃ t, exec (.headerReached c x) s = .next t ∧ ((t.cl c).cx x).phase = .start h f .rotate) ∧
      ((s1.keyCheck c tag rot = .missOther ∧ miss = 0) ∨
          ((s1.keyCheck c tag rot = .missOwn ∨ s1.keyCheck c tag rot = .missOther) ∧ miss = 2) →
        ∃ t, exec (.headerReached c x) s = .next t ∧ Trapped t c x .segMiss 0 ((s.cl c).cx x).pc (tag.setWidth 64)) ∧
      (s1.keyCheck c tag rot = .missOwn ∨ s1.keyCheck c tag rot = .missOther →
        (miss = 1 → exec (.headerReached c x) s = .next (s1.leaveTo (f + BitVec.ofNat 32 (3 * h.len))).used) ∧
        (miss = 3 → exec (.headerReached c x) s = .next (s1.modCtx fun e => { e with phase := .start h f (.judged false) }).used))) ∧
    (s1.readHeader c x ((s.cl c).cx x).pc = .eos → exec (.headerReached c x) s = s1.actEnd) ∧
    (∀ p t, s1.readHeader c x ((s.cl c).cx x).pc = .bad p t → t.cause ≠ .refused →
      ∃ u i, exec (.headerReached c x) s = .next u ∧ Trapped u c x t.cause t.opnd p i)

/-- 03 R35, 23 R324, 03 R34: a section starts once its waits allow it; a keyed one that found its generation has p7 = 1. The key of one that
goes on waiting is judged again: it is skipped, traps, or starts with p7 as its MISS field says; a section retires once nothing of it is
open. -/
def Sys2Proof.Claims.SectionsRun : Prop :=
  (∀ (c x : Nat) (s : State) (h : Header) (f : Parcel), s.mayIssue c x = true → s.mayStart c x h = true →
    (((s.cl c).cx x).phase = .start h f .free → exec (.sectionStart c x) s = .next (s.modCx c x fun e => e.startSection h f none)) ∧
    ∀ b, ((s.cl c).cx x).phase = .start h f (.judged b) →
      exec (.sectionStart c x) s = .next (s.modCx c x fun e => e.startSection h f (some b))) ∧
  (∀ (c x : Nat) (s : State) (h : Header) (f : Parcel) (r : KeyState) (tag : BitVec 24) (rot : BitVec 32) (miss : Nat),
    ((s.cl c).cx x).phase = .start h f r → r = .waits ∨ r = .rotate → s.mayIssue c x = true → h.key = some (tag, rot, miss) →
    s.mayStart c x h = true →
    let s1 : State := { s with cur := (c, x) }
    (s1.keyCheck c tag rot = .hit →
      exec (.segmentKeyHit c x) s = .next (s1.modCtx fun e => e.startSection h f (some true))) ∧
    (s1.keyCheck c tag rot = .missOwn ∨ s1.keyCheck c tag rot = .missOther →
      (miss = 1 → exec (.segmentKeyHit c x) s = .next (s1.leaveTo (f + BitVec.ofNat 32 (3 * h.len)))) ∧
      (miss = 2 → ∃ t, exec (.segmentKeyHit c x) s = .next t ∧
        Trapped t c x .segMiss 0 ((s.cl c).cx x).pc (tag.setWidth 64)) ∧
      (miss = 3 → exec (.segmentKeyHit c x) s = .next (s1.modCtx fun e => e.startSection h f (some false))))) ∧
  (∀ (c x n : Nat) (ns : List Nat) (s : State), ((s.cl c).cx x).openSecs = n :: ns → (s.cl c).sectionOpen x n = false →
    exec (.sectionRetire c x) s = .next ((s.sectionSync c x n).modCx c x fun e => { e with openSecs := ns, last := some n }))

namespace Sys2Proof.Claims

open Sys2Proof.Machine

/-- The engines that the four AFT fields of a context's section name (R35, its table; a handler context is the C engine's). -/
def waitedOn : Nat → List Nat
  | 1 => [0, 2, 3, 4]
  | 2 => [0, 1, 3, 4]
  | 3 => [0, 1, 2, 4]
  | 4 => [0, 1, 2, 3]
  | _ => [1, 2, 3, 4]

/-- R35: the wait on engine g for section a is met: a is 0x3FF, or g is not forked in the current period, or the number of its last retired
section is past a by at most 510, modulo 1,023. -/
def WaitMet (k : Cluster) (g : Nat) (a : BitVec 10) : Prop :=
  a = 1023 ∨ (g ≠ 0 ∧ (k.cx g).forked = false) ∨ ∃ l, (k.cx g).last = some l ∧ ((l : Int) - a.toNat) % 1023 ≤ 510

end Sys2Proof.Claims

open Sys2Proof Sys2Proof.Machine Sys2Proof.Claims

/-- R35: a header's AFT fields are its bits 47 to 38, 37 to 28, 27 to 18 and 17 to 8; a section of an unchanged mode whose four waits are met
starts, and one of which a wait is not met does not. -/
def Sys2Proof.Claims.SectionWaits : Prop :=
  (∀ (h : Nat) (key : Option (BitVec 24 × BitVec 32 × Nat)), (headerOf h key).aft =
    [BitVec.ofNat 10 (h / 2 ^ 38), BitVec.ofNat 10 (h / 2 ^ 28), BitVec.ofNat 10 (h / 2 ^ 18), BitVec.ofNat 10 (h / 2 ^ 8)]) ∧
  ∀ (c x : Nat) (s : State) (h : Header) (f : Parcel), x < 7 → s.mayIssue c x = true → ((s.cl c).cx x).phase = .start h f .free →
    h.aft.length = 4 → ((s.cl c).cx x).lastMode.getD false = h.exposed →
    ((∀ p ∈ (waitedOn x).zip h.aft, WaitMet (s.cl c) p.1 p.2) →
      exec (.sectionStart c x) s = .next (s.modCx c x fun e => e.startSection h f none)) ∧
    ((∃ p ∈ (waitedOn x).zip h.aft, ¬ WaitMet (s.cl c) p.1 p.2) → exec (.sectionStart c x) s = .next s)

/-- R104, R105, R176, R177, R365: BANKCTL, waking banks, ATTR. Who has still to answer a shoot-down is the model's choice where R365 says only
'every die that may hold a line': the twelve dies and the modules with a valid route (log 55), and for a home in another module the dies here
(log 11). -/
def Obligations.BanksAndAttributes : Prop := Sys2Proof.Claims.BankWord ∧ Sys2Proof.Claims.BanksWake ∧
  Sys2Proof.Claims.AttributeClear ∧ Sys2Proof.Claims.AttributeGrant

/-- R186, R195, R294, R315: stores and atomics at their home, and a store that is performed at a scope before. That the pieces of an access are
performed in the order of its list is the model's choice (log 41), and so is which stores are performed at a scope first (log 70). -/
def Obligations.AccessesPerformed : Prop := Sys2Proof.Claims.StorePerformed ∧ Sys2Proof.Claims.StoreShown ∧ Sys2Proof.Claims.AtomicPerformed ∧ Sys2Proof.Claims.AtomicValues

/-- R182, R205, R206: messages and receive slots. -/
def Obligations.Messages : Prop := Sys2Proof.Claims.MessagesArrive ∧ Sys2Proof.Claims.MessageSlots

/-- R34, R35, R116 to R118, R324: headers and sections. -/
def Obligations.Sections : Prop := Sys2Proof.Claims.Headers ∧ Sys2Proof.Claims.SectionWaits ∧ Sys2Proof.Claims.SectionsRun

/-! ### Vector words (15 R209 to R243) -/

namespace Sys2Proof.Claims

open Sys2Proof.Machine

/-- Where the elements of a V instruction go: its result at its latency, the bits of its mask field written (R211, R212). -/
def lanesTo (s : State) (w : AForm) (lat : Option Nat) (ew : Nat) (qs : List Opnd) (m : MWord) (d : Opnd) (v : VWord) (fl : Flags) : State :=
  (s.pops qs).resultAs lat d v (writtenBits w ew m) fl

/-- An f32 value rounded once, with the flags of that rounding and those raised before it. -/
def step32 (m : RMode) (x : XR) (fl : Flags) : XR × Flags := (Fmt.f32.decode (roundTo .f32 m x).1, (roundTo .f32 m x).2 ||| fl)

/-- The value of VSMX in a lane (R237): the difference from the highest rank of the active elements of the lane's group of g, and its
product with c, each rounded to nearest, then two to that power, rounded in the mode. -/
def smxAt (m : RMode) (a : VWord) (c : Word) (on : MWord) (g i : Nat) : Nat × Flags :=
  let mx := Fmt.f32.decode (reduceList .max .f32 rne false ((groupElems 64 (i / g) g on.getLsbD).map fun j => elemOf 32 j a.toNat)).1
  let d := step32 rne (XR.add .rne (fltAt .f32 a i) mx.negate).1 (XR.add .rne (fltAt .f32 a i) mx.negate).2
  let t := step32 rne (XR.mul d.1 (Fmt.f32.decode (c.toNat % 2 ^ 32))).1 ((XR.mul d.1 (Fmt.f32.decode (c.toNat % 2 ^ 32))).2 ||| d.2)
  rounded .f32 m (t.1.exp2, t.2)

/-- The value of VROPE in a lane (R243): the pair of lanes 2j and 2j + 1, turned by the phase of position and frequency, whose cosine and sine
are rounded to f32 first (R87); each result is rounded once. -/
def ropeAt (m : RMode) (a b c : VWord) (i : Nat) : Nat × Flags :=
  let j := i / 2 * 2
  let cs := cosSin (ropePhase (elemOf 32 j b.toNat) (elemOf 32 j c.toNat + elemOf 8 (4 * j + 4) c.toNat * 2 ^ 32))
  let co := step32 rne cs.1 0
  let si := step32 rne cs.2 co.2
  let r := if i % 2 = 0 then sum2 m.rnd (fltAt .f32 a j) co.1 (fltAt .f32 a (j + 1)) si.1.negate
    else sum2 m.rnd (fltAt .f32 a j) si.1 (fltAt .f32 a (j + 1)) co.1
  rounded .f32 m (r.1, r.2 ||| si.2)

/-- A V instruction that computes elements: the destination it writes them to, their width, which of them it computes, and each one's
value with the flags it raises. Values and flags are those of the operation on exact values, rounded once (05 R73 to R87). -/
inductive Elements (s : State) : Instr → (VWord → Flags → State) → Nat → (Nat → Bool) → (Nat → Nat × Flags) → Prop
  | vadd (w a b m d) : s.srcV w.sa 2 (ftBit w 2) = .ok a → s.srcV w.sb 3 (ftBit w 3) = .ok b → s.vMask w = .ok m → s.dstV w.dst = .ok d →
      Elements s (.vadd w) (lanesTo s w (some 4) w.ty.width [w.sa, w.sb] m d) w.ty.width m.getLsbD
        fun i => rounded w.ty.fmt (s.vMode w) (XR.add (s.vMode w).rnd (fltAt w.ty a i) (fltAt w.ty b i))
  | vsub (w a b m d) : s.srcV w.sa 2 (ftBit w 2) = .ok a → s.srcV w.sb 3 (ftBit w 3) = .ok b → s.vMask w = .ok m → s.dstV w.dst = .ok d →
      Elements s (.vsub w) (lanesTo s w (some 4) w.ty.width [w.sa, w.sb] m d) w.ty.width m.getLsbD
        fun i => rounded w.ty.fmt (s.vMode w) (XR.add (s.vMode w).rnd (fltAt w.ty a i) (fltAt w.ty b i).negate)
  | vmul (w a b m d) : s.srcV w.sa 2 (ftBit w 2) = .ok a → s.srcV w.sb 3 (ftBit w 3) = .ok b → s.vMask w = .ok m → s.dstV w.dst = .ok d →
      Elements s (.vmul w) (lanesTo s w (some 4) w.ty.width [w.sa, w.sb] m d) w.ty.width m.getLsbD
        fun i => rounded w.ty.fmt (s.vMode w) (XR.mul (fltAt w.ty a i) (fltAt w.ty b i))
  | vdiv (w a b m d) : s.srcV w.sa 2 (ftBit w 2) = .ok a → s.srcV w.sb 3 (ftBit w 3) = .ok b → s.vMask w = .ok m → s.dstV w.dst = .ok d →
      Elements s (.vdiv w) (lanesTo s w none w.ty.width [w.sa, w.sb] m d) w.ty.width m.getLsbD
        fun i => rounded w.ty.fmt (s.vMode w) (XR.div (fltAt w.ty a i) (fltAt w.ty b i))
  | vfma (w a b c m d) : s.srcV w.sa 2 (ftBit w 2) = .ok a → s.srcV w.sb 3 (ftBit w 3) = .ok b → s.srcV w.sc 4 (ftBit w 4) = .ok c →
      s.vMask w = .ok m → s.dstV w.dst = .ok d →
      Elements s (.vfma w) (lanesTo s w (some 4) w.ty.width [w.sa, w.sb, w.sc] m d) w.ty.width m.getLsbD
        fun i => rounded w.ty.fmt (s.vMode w) (XR.fma (s.vMode w).rnd (fltAt w.ty a i) (fltAt w.ty b i) (fltAt w.ty c i))
  | vminI (w a b m d) : s.srcV w.sa 2 (ftBit w 2) = .ok a → s.srcV w.sb 3 (ftBit w 3) = .ok b → s.vMask w = .ok m → s.dstV w.dst = .ok d →
      w.ty.isInt = true → Elements s (.vmin w) (lanesTo s w (some 4) w.ty.width [w.sa, w.sb] m d) w.ty.width m.getLsbD
        fun i => (toBits w.ty.width (min (intAt w.ty a i) (intAt w.ty b i)), 0)
  | vminF (w a b m d) : s.srcV w.sa 2 (ftBit w 2) = .ok a → s.srcV w.sb 3 (ftBit w 3) = .ok b → s.vMask w = .ok m → s.dstV w.dst = .ok d →
      w.ty.isInt = false → Elements s (.vmin w) (lanesTo s w (some 4) w.ty.width [w.sa, w.sb] m d) w.ty.width m.getLsbD
        fun i => ((roundTo w.ty.fmt rne ((fltAt w.ty a i).rankMin (fltAt w.ty b i))).1, 0)
  | vmaxI (w a b m d) : s.srcV w.sa 2 (ftBit w 2) = .ok a → s.srcV w.sb 3 (ftBit w 3) = .ok b → s.vMask w = .ok m → s.dstV w.dst = .ok d →
      w.ty.isInt = true → Elements s (.vmax w) (lanesTo s w (some 4) w.ty.width [w.sa, w.sb] m d) w.ty.width m.getLsbD
        fun i => (toBits w.ty.width (max (intAt w.ty a i) (intAt w.ty b i)), 0)
  | vmaxF (w a b m d) : s.srcV w.sa 2 (ftBit w 2) = .ok a → s.srcV w.sb 3 (ftBit w 3) = .ok b → s.vMask w = .ok m → s.dstV w.dst = .ok d →
      w.ty.isInt = false → Elements s (.vmax w) (lanesTo s w (some 4) w.ty.width [w.sa, w.sb] m d) w.ty.width m.getLsbD
        fun i => ((roundTo w.ty.fmt rne ((fltAt w.ty a i).rankMax (fltAt w.ty b i))).1, 0)
  | vabs (w a m d) : s.srcV w.sa 2 (ftBit w 2) = .ok a → s.vMask w = .ok m → s.dstV w.dst = .ok d →
      Elements s (.vabs w) (lanesTo s w (some 4) w.ty.width [w.sa] m d) w.ty.width m.getLsbD
        fun i => if w.ty.isInt then w.ty.fromInt (w.md.getLsbD 3) (intAt w.ty a i).natAbs
          else ((roundTo w.ty.fmt rne (fltAt w.ty a i).abs).1, 0)
  | vrcp (w a m d) : s.srcV w.sa 2 (ftBit w 2) = .ok a → s.vMask w = .ok m → s.dstV w.dst = .ok d →
      Elements s (.vrcp w) (lanesTo s w (some 12) w.ty.width [w.sa] m d) w.ty.width m.getLsbD
        fun i => rounded w.ty.fmt (s.vMode w) (XR.rcp (fltAt w.ty a i))
  | vrsq (w a m d) : s.srcV w.sa 2 (ftBit w 2) = .ok a → s.vMask w = .ok m → s.dstV w.dst = .ok d →
      Elements s (.vrsq w) (lanesTo s w (some 12) w.ty.width [w.sa] m d) w.ty.width m.getLsbD
        fun i => rounded w.ty.fmt (s.vMode w) (XR.rsqrt (fltAt w.ty a i))
  | vexp (w a m d) : s.srcV w.sa 2 (ftBit w 2) = .ok a → s.vMask w = .ok m → s.dstV w.dst = .ok d →
      Elements s (.vexp w) (lanesTo s w (some 12) w.ty.width [w.sa] m d) w.ty.width m.getLsbD
        fun i => rounded w.ty.fmt (s.vMode w) ((fltAt w.ty a i).exp2, 0)
  | vlog (w a m d) : s.srcV w.sa 2 (ftBit w 2) = .ok a → s.vMask w = .ok m → s.dstV w.dst = .ok d →
      Elements s (.vlog w) (lanesTo s w (some 12) w.ty.width [w.sa] m d) w.ty.width m.getLsbD
        fun i => rounded w.ty.fmt (s.vMode w) (XR.log2 (fltAt w.ty a i))
  | vact (w a m d) : s.srcV w.sa 2 (ftBit w 2) = .ok a → s.vMask w = .ok m → s.dstV w.dst = .ok d →
      Elements s (.vact w) (lanesTo s w none w.ty.width [w.sa] m d) w.ty.width m.getLsbD
        fun i => ((roundTo .f32 rne (act w.sub.toNat (s.vMode w) (fltAt .f32 a i)).1).1, (act w.sub.toNat (s.vMode w) (fltAt .f32 a i)).2)
  | viadd (w a b m d) : s.srcV w.sa 2 (ftBit w 2) = .ok a → s.srcV w.sb 3 (ftBit w 3) = .ok b → s.vMask w = .ok m → s.dstV w.dst = .ok d →
      Elements s (.viadd w) (lanesTo s w (some 4) w.ty.width [w.sa, w.sb] m d) w.ty.width m.getLsbD
        fun i => w.ty.fromInt (w.md.getLsbD 3) (intAt w.ty a i + intAt w.ty b i)
  | visub (w a b m d) : s.srcV w.sa 2 (ftBit w 2) = .ok a → s.srcV w.sb 3 (ftBit w 3) = .ok b → s.vMask w = .ok m → s.dstV w.dst = .ok d →
      Elements s (.visub w) (lanesTo s w (some 4) w.ty.width [w.sa, w.sb] m d) w.ty.width m.getLsbD
        fun i => w.ty.fromInt (w.md.getLsbD 3) (intAt w.ty a i - intAt w.ty b i)
  | vimul (w a b m d) : s.srcV w.sa 2 (ftBit w 2) = .ok a → s.srcV w.sb 3 (ftBit w 3) = .ok b → s.vMask w = .ok m → s.dstV w.dst = .ok d →
      Elements s (.vimul w) (lanesTo s w (some 4) w.ty.width [w.sa, w.sb] m d) w.ty.width m.getLsbD
        fun i => if w.sub = 0 then w.ty.fromInt (w.md.getLsbD 3) (intAt w.ty a i * intAt w.ty b i)
          else (toBits w.ty.width (intAt w.ty a i * intAt w.ty b i / 2 ^ w.ty.width), 0)
  | vimac (w a b m d acc) : s.srcV w.sa 2 (ftBit w 2) = .ok a → s.srcV w.sb 3 (ftBit w 3) = .ok b → s.vMask w = .ok m →
      s.dstV w.dst = .ok d → s.srcPhys (regIdx d) 1 false = .ok acc → w.sub = 0 →
      Elements s (.vimac w) (lanesTo s w (some 4) w.ty.width [w.sa, w.sb] m d) w.ty.width m.getLsbD
        fun i => w.ty.fromInt (w.md.getLsbD 3) (intAt w.ty acc i + intAt w.ty a i * intAt w.ty b i)
  | vimacDot (w a b m d acc) : s.srcV w.sa 2 (ftBit w 2) = .ok a → s.srcV w.sb 3 (ftBit w 3) = .ok b → s.vMask w = .ok m →
      s.dstV w.dst = .ok d → s.srcPhys (regIdx d) 1 false = .ok acc → w.sub ≠ 0 →
      Elements s (.vimac w) (lanesTo s w (some 4) 32 [w.sa, w.sb] m d) 32 m.getLsbD
        fun i => Ty.i32.fromInt (w.md.getLsbD 3) (intAt .i32 acc i +
          (intAt w.ty a (4 * i) * intAt w.ty b (4 * i) + intAt w.ty a (4 * i + 1) * intAt w.ty b (4 * i + 1) +
            intAt w.ty a (4 * i + 2) * intAt w.ty b (4 * i + 2) + intAt w.ty a (4 * i + 3) * intAt w.ty b (4 * i + 3)))
  | vtmac (w a b m d acc) : s.srcV w.sa 2 (ftBit w 2) = .ok a → s.srcV w.sb 3 (ftBit w 3) = .ok b → s.vMask w = .ok m →
      s.dstV w.dst = .ok d → s.srcPhys (regIdx d) 1 false = .ok acc →
      Elements s (.vtmac w) (lanesTo s w none 32 [] m d) 32 m.getLsbD
        fun i => Ty.i32.fromInt (w.md.getLsbD 3) (intAt .i32 acc i +
          ((intAt .i8 a (4 * i)).sign * intAt .i8 b (4 * i) + (intAt .i8 a (4 * i + 1)).sign * intAt .i8 b (4 * i + 1) +
            (intAt .i8 a (4 * i + 2)).sign * intAt .i8 b (4 * i + 2) + (intAt .i8 a (4 * i + 3)).sign * intAt .i8 b (4 * i + 3)))
  | vbitTwo (w a b m d) : s.srcV w.sa 2 (ftBit w 2) = .ok a → w.sb ≠ .null → s.srcV w.sb 3 (ftBit w 3) = .ok b → s.vMask w = .ok m →
      s.dstV w.dst = .ok d → w.sub.toNat < 4 →
      Elements s (.vbit w) (lanesTo s w (some 4) w.ty.width [w.sa, w.sb] m d) w.ty.width m.getLsbD
        fun i => (match w.sub.toNat with
          | 0 => elemOf w.ty.width i a.toNat &&& elemOf w.ty.width i b.toNat
          | 1 => elemOf w.ty.width i a.toNat ||| elemOf w.ty.width i b.toNat
          | 2 => elemOf w.ty.width i a.toNat ^^^ elemOf w.ty.width i b.toNat
          | _ => elemOf w.ty.width i a.toNat &&& (elemOf w.ty.width i b.toNat ^^^ (2 ^ w.ty.width - 1)), 0)
  | vbitOne (w a m d) : s.srcV w.sa 2 (ftBit w 2) = .ok a → w.sb = .null → s.vMask w = .ok m → s.dstV w.dst = .ok d → 4 ≤ w.sub.toNat →
      Elements s (.vbit w) (lanesTo s w (some 4) w.ty.width [w.sa, w.sb] m d) w.ty.width m.getLsbD
        fun i => (match w.sub.toNat with
          | 4 => elemOf w.ty.width i a.toNat ^^^ (2 ^ w.ty.width - 1)
          | 5 => (List.range w.ty.width).countP fun j => (elemOf w.ty.width i a.toNat).testBit j
          | _ => w.ty.width - (elemOf w.ty.width i a.toNat).size, 0)
  | vshImm (w a m d) : s.srcV w.sa 2 (ftBit w 2) = .ok a → w.sb = .null → s.vMask w = .ok m → s.dstV w.dst = .ok d →
      Elements s (.vsh w) (lanesTo s w (some 4) w.ty.width [w.sa, w.sb] m d) w.ty.width m.getLsbD
        fun i => shiftOp w.ty w.sub.toNat (w.md.getLsbD 3) (elemOf w.ty.width i a.toNat) (w.imm.toNat / 256)
  | vshS (w a x m d) : s.srcV w.sa 2 (ftBit w 2) = .ok a → (∃ i, w.sb = .s i) → s.srcS w.sb 3 (ftBit w 3) = .ok x → s.vMask w = .ok m →
      s.dstV w.dst = .ok d → Elements s (.vsh w) (lanesTo s w (some 4) w.ty.width [w.sa, w.sb] m d) w.ty.width m.getLsbD
        fun i => shiftOp w.ty w.sub.toNat (w.md.getLsbD 3) (elemOf w.ty.width i a.toNat) x.toNat
  | vshV (w a b m d) : s.srcV w.sa 2 (ftBit w 2) = .ok a → s.srcV w.sb 3 (ftBit w 3) = .ok b → s.vMask w = .ok m →
      s.dstV w.dst = .ok d → Elements s (.vsh w) (lanesTo s w (some 4) w.ty.width [w.sa, w.sb] m d) w.ty.width m.getLsbD
        fun i => shiftOp w.ty w.sub.toNat (w.md.getLsbD 3) (elemOf w.ty.width i a.toNat) (elemOf w.ty.width i b.toNat)
  | vsel (w a b c m d) : s.srcV w.sa 2 (ftBit w 2) = .ok a → s.srcV w.sb 3 (ftBit w 3) = .ok b → s.srcVMOr w.sc 4 (ftBit w 4) 0 = .ok c →
      s.vMask w = .ok m → s.dstV w.dst = .ok d →
      Elements s (.vsel w) (lanesTo s w (some 4) w.ty.width [w.sa, w.sb] m d) w.ty.width m.getLsbD
        fun i => (elemOf w.ty.width i (if c.getLsbD i then a else b).toNat, 0)
  | vdq (w a k m d) : s.srcB4 w.sa 2 (ftBit w 2) = .ok (a, k) → s.vMask w = .ok m → s.dstV w.dst = .ok d →
      Elements s (.vdq w) (lanesTo s w (some 4) w.ty.width [w.sa] m d) w.ty.width m.getLsbD
        fun i => ((roundTo w.ty.fmt rne (.num false (decodeB4 (elemOf 4 (w.ty.count * vAux w + i) a.toNat)
          (elemOf 8 ((w.ty.count * vAux w + i) / 32) k.toNat)))).1, 0)
  | vperm (w a b m d) : s.srcV w.sa 2 (ftBit w 2) = .ok a → s.srcV w.sb 3 (ftBit w 3) = .ok b → s.vMask w = .ok m → s.dstV w.dst = .ok d →
      Elements s (.vperm w) (lanesTo s w (some 2) w.ty.width [w.sa, w.sb] m d) w.ty.width m.getLsbD
        fun i => (if elemOf w.ty.width i b.toNat < w.ty.count then elemOf w.ty.width (elemOf w.ty.width i b.toNat) a.toNat else 0, 0)
  | vbcstS (w x m d) : (∃ i, w.sa = .s i) → s.srcS w.sa 2 (ftBit w 2) = .ok x → s.vMask w = .ok m → s.dstV w.dst = .ok d →
      Elements s (.vbcst w) (lanesTo s w (some 2) w.ty.width [w.sa] m d) w.ty.width m.getLsbD fun _ => (x.toNat % 2 ^ w.ty.width, 0)
  | vbcstV (w a m d) : s.srcV w.sa 2 (ftBit w 2) = .ok a → s.vMask w = .ok m → s.dstV w.dst = .ok d →
      Elements s (.vbcst w) (lanesTo s w (some 2) w.ty.width [w.sa] m d) w.ty.width m.getLsbD
        fun _ => (elemOf w.ty.width (vAux w) a.toNat, 0)
  | vsld (w a b m d) : s.srcV w.sa 2 (ftBit w 2) = .ok a → s.srcV w.sb 3 (ftBit w 3) = .ok b → s.vMask w = .ok m → s.dstV w.dst = .ok d →
      Elements s (.vsld w) (lanesTo s w (some 2) w.ty.width [w.sa, w.sb] m d) w.ty.width m.getLsbD
        fun i => (if i + vAux w < w.ty.count then elemOf w.ty.width (i + vAux w) a.toNat
          else elemOf w.ty.width (i + vAux w - w.ty.count) b.toNat, 0)
  | vilv (w a b m d) : s.srcV w.sa 2 (ftBit w 2) = .ok a → s.srcV w.sb 3 (ftBit w 3) = .ok b → s.vMask w = .ok m → s.dstV w.dst = .ok d →
      Elements s (.vilv w) (lanesTo s w (some 2) w.ty.width [w.sa, w.sb] m d) w.ty.width m.getLsbD
        fun i => (match w.sub.toNat with
          | 0 => elemOf w.ty.width (i / 2) (if i % 2 = 0 then a else b).toNat
          | 1 => elemOf w.ty.width (w.ty.count / 2 + i / 2) (if i % 2 = 0 then a else b).toNat
          | 2 => if i < w.ty.count / 2 then elemOf w.ty.width (2 * i) a.toNat else elemOf w.ty.width (2 * (i - w.ty.count / 2)) b.toNat
          | _ => if i < w.ty.count / 2 then elemOf w.ty.width (2 * i + 1) a.toNat
            else elemOf w.ty.width (2 * (i - w.ty.count / 2) + 1) b.toNat, 0)
  | vxpose (w a m d) : s.srcV w.sa 2 (ftBit w 2) = .ok a → s.vMask w = .ok m → s.dstV w.dst = .ok d →
      Elements s (.vxpose w) (lanesTo s w (some 2) w.ty.width [w.sa] m d) w.ty.width m.getLsbD
        fun i => (elemOf w.ty.width (8 * (i % (w.ty.count / 8)) + i / (w.ty.count / 8)) a.toNat, 0)
  | vimm (w d) : s.dstV w.dst = .ok d →
      Elements s (.vimm w) (fun v _ => s.resultV 4 d v (BitVec.allOnes 2048) none 0) w.ty.width (fun _ => true)
        fun _ => ((w.imm.signExtend 64).toNat % 2 ^ w.ty.width, 0)
  | vcvt (w a m d t) : s.srcV w.sa 2 (ftBit w 2) = .ok a → s.vMask w = .ok m → s.dstV w.dst = .ok d → Ty.ofCode (vAux w % 32) = some t →
      t.width ≤ w.ty.width →
      Elements s (.vcvt w) (fun v fl => (s.pops [w.sa]).resultV 4 d v
          (writtenBits w w.ty.width m &&& laneBits w.ty.width (2048 / w.ty.width)
            (BitVec.ofNat 256 (bitsOf ((List.range (2048 / w.ty.width)).map fun _ => true)))) none fl) w.ty.width m.getLsbD
        fun i => convert w.ty t (if t.isInt && w.ty.isInt then { s.vMode w with sat := w.md.getLsbD 3 } else s.vMode w)
          (elemOf t.width (vAux w / 32 % 4 * w.ty.count + i) a.toNat)
  | vcvtNarrow (w a m d t) : s.srcV w.sa 2 (ftBit w 2) = .ok a → s.vMask w = .ok m → s.dstV w.dst = .ok d → Ty.ofCode (vAux w % 32) = some t →
      w.ty.width < t.width →
      Elements s (.vcvt w) (fun v fl => (s.pops [w.sa]).resultV 4 d v
          (writtenBits w w.ty.width m &&& laneBits w.ty.width (2048 / w.ty.width)
            (BitVec.ofNat 256 (bitsOf ((List.range (2048 / w.ty.width)).map fun i =>
              decide (vAux w / 32 % 4 * t.count ≤ i) && decide (i < vAux w / 32 % 4 * t.count + t.count))))) none fl) w.ty.width
        (fun i => (decide (vAux w / 32 % 4 * t.count ≤ i) && decide (i < vAux w / 32 % 4 * t.count + t.count)) && m.getLsbD i)
        fun i => convert w.ty t (if t.isInt && w.ty.isInt then { s.vMode w with sat := w.md.getLsbD 3 } else s.vMode w)
          (elemOf t.width (i - vAux w / 32 % 4 * t.count) a.toNat)
  | vred (w a m d) : s.srcV w.sa 2 (ftBit w 2) = .ok a → s.vMask w = .ok m → s.dstV w.dst = .ok d →
      Elements s (.vred w) (fun v fl => (s.pops [w.sa]).resultLong d v (BitVec.allOnes 2048) fl) w.ty.width
        (fun i => decide (i < groupCount w.ty.count (vAux w)))
        fun i => reduceList (redOpOf w.sub.toNat) w.ty (s.vMode w) (w.md.getLsbD 3)
          ((groupElems w.ty.count i (vAux w) m.getLsbD).map fun j => elemOf w.ty.width j a.toNat)
  | vscan (w a m d) : s.srcV w.sa 2 (ftBit w 2) = .ok a → s.vMask w = .ok m → s.dstV w.dst = .ok d →
      Elements s (.vscan w) (fun v fl => (s.pops [w.sa]).resultLong d v (writtenBits w w.ty.width m) fl) w.ty.width m.getLsbD
        fun i => reduceList (if w.sub.toNat = 0 then .add else if w.sub.toNat = 1 then .max else .min) w.ty (s.vMode w) (w.md.getLsbD 3)
          (((groupElems w.ty.count (i / vAux w) (vAux w) fun _ => true).filter fun j => decide (j ≤ i)).map fun j =>
            if m.getLsbD j then elemOf w.ty.width j a.toNat
            else redIdentity (if w.sub.toNat = 0 then .add else if w.sub.toNat = 1 then .max else .min) w.ty)
  | vstat (w a d) : s.srcV w.sa 2 (ftBit w 2) = .ok a → s.dstV w.dst = .ok d →
      Elements s (.vstat w) (fun v fl => (s.pops [w.sa]).resultLong d v (BitVec.allOnes 2048) fl) 32
        (fun i => decide (i < 2 * groupCount 64 (vAux w)))
        fun i => if i % 2 = 0 then reduceList .add .f32 (s.vMode w) false
            ((groupElems 64 (i / 2) (vAux w) fun _ => true).map fun j => elemOf 32 j a.toNat)
          else ((groupElems 64 (i / 2) (vAux w) fun _ => true).map fun j => elemOf 32 j a.toNat).foldl (fun acc e =>
            ((rounded .f32 (s.vMode w) (XR.fma (s.vMode w).rnd (Fmt.f32.decode e) (Fmt.f32.decode e) (Fmt.f32.decode acc.1))).1,
              acc.2 ||| (rounded .f32 (s.vMode w) (XR.fma (s.vMode w).rnd (Fmt.f32.decode e) (Fmt.f32.decode e) (Fmt.f32.decode acc.1))).2))
            (0, 0)
  | vsmx (w a c m d) : s.srcV w.sa 2 (ftBit w 2) = .ok a → s.srcS w.sb 3 (ftBit w 3) = .ok c → s.vMask w = .ok m → s.dstV w.dst = .ok d →
      Elements s (.vsmx w) (fun v fl => (s.pops [w.sa]).resultLong d v (writtenBits w 32 m) fl) 32 m.getLsbD
        fun i => smxAt (s.vMode w) a c m (vAux w) i
  | vrope (w a b c m d pm) : s.srcV w.sa 2 (ftBit w 2) = .ok a → s.srcV w.sb 3 (ftBit w 3) = .ok b → s.srcV w.sc 4 (ftBit w 4) = .ok c →
      s.vMask w = .ok m → s.dstV w.dst = .ok d →
      pm = BitVec.ofNat 256 (bitsOf ((List.range 64).map fun i => m.getLsbD (i / 2 * 2))) →
      Elements s (.vrope w) (fun v fl => (s.pops [w.sa, w.sb, w.sc]).resultLong d v (writtenBits w 32 pm) fl) 32 pm.getLsbD
        fun i => ropeAt (s.vMode w) a b c i
  | vqnt8 (w a m d) : w.ty = .e4m3 ∨ w.ty = .e5m2 → s.srcV w.sa 2 (ftBit w 2) = .ok a → s.vMask w = .ok m → s.dstV w.dst = .ok d →
      Elements s (.vqnt w) (fun v fl => (s.pops [w.sa]).resultV 4 d v (BitVec.ofNat 2048 (packElems 8 ((List.range 256).map fun i =>
            if (decide (64 * vAux w ≤ i) && decide (i < 64 * vAux w + 64)) && (m.getLsbD i || vZm w) then 255 else 0))) none fl) 8
        (fun i => (decide (64 * vAux w ≤ i) && decide (i < 64 * vAux w + 64)) && m.getLsbD i)
        fun i => roundTo w.ty.fmt (s.vMode w) (fltAt .f32 a (i - 64 * vAux w))

end Sys2Proof.Claims

open Sys2Proof Sys2Proof.Machine Sys2Proof.Claims

/-- R209 to R243: a V instruction computes each element it is active for from the same element of its sources, leaves every other
element of its result zero, raises the flags of the elements it computes, and changes nothing but its destination. -/
def Obligations.VectorElements : Prop :=
  ∀ (i : Instr) (s : State) (u : VWord → Flags → State) (ew : Nat) (on : Nat → Bool) (f : Nat → Nat × Flags),
    Elements s i u ew on f → Straight s 3 →
    ∃ v fl, Gives i s (u v fl) ∧
      (∀ e, e < 2048 / ew → elemOf ew e v.toNat = if on e then (f e).1 % 2 ^ ew else 0) ∧
      ∀ b, b < 7 → (fl.getLsbD b = true ↔ ∃ e, e < 2048 / ew ∧ on e = true ∧ (f e).2.getLsbD b = true)

/-! The V instructions that are not of that shape. -/

namespace Sys2Proof.Claims

open Sys2Proof.Machine

/-- The other V instructions, with what they leave. -/
inductive VecWord (s : State) : Instr → State → Prop
  | vcmp (w a b m) : s.srcV w.sa 2 (ftBit w 2) = .ok a → s.srcV w.sb 3 (ftBit w 3) = .ok b → s.vMask w = .ok m → s.dstK w.dst = .ok () →
      VecWord s (.vcmp w) ((s.pops [w.sa, w.sb]).resultVM w.dst (BitVec.ofNat 256 (bitsOf ((List.range w.ty.count).map fun i =>
        m.getLsbD i && cmpAt w.sub.toNat w.ty a b i))) 0)
  | vmskCount (w a b i) : s.srcVMOr w.sa 2 (ftBit w 2) 0 = .ok a → s.srcVMOr w.sb 3 (ftBit w 3) 0 = .ok b → w.dst = .s i →
      s.dstS w.dst = .ok () →
      VecWord s (.vmsk w) (s.resultS 4 w.dst (BitVec.ofNat 64 ((List.range 256).countP fun j => a.getLsbD j)))
  | vmskAnd (w a b i) : s.srcVMOr w.sa 2 (ftBit w 2) 0 = .ok a → s.srcVMOr w.sb 3 (ftBit w 3) 0 = .ok b → w.dst = .vm i →
      s.dstK w.dst = .ok () → w.sub = 0 → VecWord s (.vmsk w) (s.resultVM w.dst (a &&& b) 0)
  | vmskOr (w a b i) : s.srcVMOr w.sa 2 (ftBit w 2) 0 = .ok a → s.srcVMOr w.sb 3 (ftBit w 3) 0 = .ok b → w.dst = .vm i →
      s.dstK w.dst = .ok () → w.sub = 1 → VecWord s (.vmsk w) (s.resultVM w.dst (a ||| b) 0)
  | vmskXor (w a b i) : s.srcVMOr w.sa 2 (ftBit w 2) 0 = .ok a → s.srcVMOr w.sb 3 (ftBit w 3) 0 = .ok b → w.dst = .vm i →
      s.dstK w.dst = .ok () → w.sub = 2 → VecWord s (.vmsk w) (s.resultVM w.dst (a ^^^ b) 0)
  | vmskAndn (w a b i) : s.srcVMOr w.sa 2 (ftBit w 2) 0 = .ok a → s.srcVMOr w.sb 3 (ftBit w 3) 0 = .ok b → w.dst = .vm i →
      s.dstK w.dst = .ok () → w.sub = 3 → VecWord s (.vmsk w) (s.resultVM w.dst (a &&& ~~~b) 0)
  | vmskNot (w a b i) : s.srcVMOr w.sa 2 (ftBit w 2) 0 = .ok a → s.srcVMOr w.sb 3 (ftBit w 3) 0 = .ok b → w.dst = .vm i →
      s.dstK w.dst = .ok () → w.sub = 4 → VecWord s (.vmsk w) (s.resultVM w.dst (~~~a) 0)
  | vmskFirst (w a b i) : s.srcVMOr w.sa 2 (ftBit w 2) 0 = .ok a → s.srcVMOr w.sb 3 (ftBit w 3) 0 = .ok b → w.dst = .vm i →
      s.dstK w.dst = .ok () → w.sub = 5 → VecWord s (.vmsk w) (s.resultVM w.dst (a &&& -a) 0)
  | vmskBelow (w a b i) : s.srcVMOr w.sa 2 (ftBit w 2) 0 = .ok a → s.srcVMOr w.sb 3 (ftBit w 3) 0 = .ok b → w.dst = .vm i →
      s.dstK w.dst = .ok () → 6 ≤ w.sub.toNat → VecWord s (.vmsk w) (s.resultVM w.dst (BitVec.ofNat 256 (2 ^ vAux w - 1)) 0)
  | vrnd (w) : VecWord s (.vrnd w) (s.lands 1 .null (.vmode (w.md.setWidth 8)) 0)
  | vqnt (w a k m d) : s.srcV w.sa 2 (ftBit w 2) = .ok a → w.ty = .b4 → s.srcK w.sb 3 (ftBit w 3) = .ok k → s.vMask w = .ok m →
      s.dstV w.dst = .ok d → VecWord s (.vqnt w)
        ((s.pops [w.sa]).resultV 4 d
          (elements 4 (fun i => (decide (64 * vAux w ≤ i) && decide (i < 64 * vAux w + 64)) && m.getLsbD (i / 32)) fun i =>
            quantB4 (s.vMode w).rnd (elemOf 8 (i / 32) k.toNat) (fltAt .f32 a (i - 64 * vAux w))).1
          (BitVec.ofNat 2048 (packElems 4 ((List.range 512).map fun i =>
            if (decide (64 * vAux w ≤ i) && decide (i < 64 * vAux w + 64)) && (m.getLsbD (i / 32) || vZm w) then 15 else 0)))
          (some { kix := BitVec.ofNat 8 (regIdx w.sb), gen := s.me.genOf (regIdx w.sb) })
          (elements 4 (fun i => (decide (64 * vAux w ≤ i) && decide (i < 64 * vAux w + 64)) && m.getLsbD (i / 32)) fun i =>
            quantB4 (s.vMode w).rnd (elemOf 8 (i / 32) k.toNat) (fltAt .f32 a (i - 64 * vAux w))).2)
  | vunp3 (w a d i) : s.srcV w.sa 2 (ftBit w 2) = .ok a → s.dstV w.dst = .ok d → w.sc = .vm i → s.dstK w.sc = .ok () →
      VecWord s (.vunp3 w)
        ((s.resultV 4 d (BitVec.ofNat 2048 (packElems 8 (((List.range 51).flatMap fun j => (decodeT3 (elemOf 8 (vAux w + j) a.toNat)).1).map
          (toBits 8)))) (BitVec.allOnes 2048) none
          (if (List.range 51).all (fun j => decide (elemOf 8 (vAux w + j) a.toNat < 243)) then 0 else fTRN)).resultVM w.sc
          (BitVec.ofNat 256 (bitsOf ((List.range 51).map fun j => decide (elemOf 8 (vAux w + j) a.toNat < 243)) <<< vAux w)) 0)
  | vunp3None (w a d) : s.srcV w.sa 2 (ftBit w 2) = .ok a → s.dstV w.dst = .ok d → w.sc = .null →
      VecWord s (.vunp3 w)
        (s.resultV 4 d (BitVec.ofNat 2048 (packElems 8 (((List.range 51).flatMap fun j => (decodeT3 (elemOf 8 (vAux w + j) a.toNat)).1).map
          (toBits 8)))) (BitVec.allOnes 2048) none
          (if (List.range 51).all (fun j => decide (elemOf 8 (vAux w + j) a.toNat < 243)) then 0 else fTRN))
  | vmovsOut (w a i) : s.srcV w.sa 2 (ftBit w 2) = .ok a → w.dst = .s i → s.dstS w.dst = .ok () → VecWord s (.vmovs w)
        ((s.pops [w.sa]).resultS 2 w.dst (if w.ty.signed then BitVec.ofInt 64 (intAt w.ty a (vAux w))
          else BitVec.ofNat 64 (elemOf w.ty.width (vAux w) a.toNat)))
  | vmovsIn (w x d) : (∀ i, w.dst ≠ .s i) → s.srcS w.sa 2 (ftBit w 2) = .ok x → s.dstV w.dst = .ok d → VecWord s (.vmovs w)
        (s.resultV 2 d (BitVec.ofNat 2048 ((x.toNat % 2 ^ w.ty.width) <<< (w.ty.width * vAux w)))
          (laneBits w.ty.width (2048 / w.ty.width) (BitVec.ofNat 256 (2 ^ vAux w))) none 0)
  | vmovV (w a i d j) : w.sa = .v i → w.dst = .v j → s.srcV w.sa 2 (ftBit w 2) = .ok a → s.dstV w.dst = .ok d → VecWord s (.vmov w)
        (s.resultV 4 d a (BitVec.allOnes 2048) (SMap.get? s.me.bind (mapV s.ctx.vrb i.toNat)) 0)
  | vmovVM (w m i) : w.dst = .vm i → s.srcVMOr w.sa 2 (ftBit w 2) 0 = .ok m → s.dstK w.dst = .ok () → VecWord s (.vmov w)
        (s.resultVM w.dst m 0)
  | vmovQ (w a i j) : w.dst = .q false i → w.sa = .v j → w.ty ≠ .b4 → s.srcV w.sa 2 (ftBit w 2) = .ok a → s.dstQ i.toNat (ftBit w 3) = .ok () →
      VecWord s (.vmov w) (({ s with seq := s.seq + 1 }.reserve i.toNat s.seq).lands 4 w.dst
        (.push s.seq { data := a, sb := 0, sbv := false, bind := none, mark := none, resv := none }) 0)
  | vmovQB4 (w a k i j) : w.dst = .q false i → w.sa = .v j → w.ty = .b4 → s.srcB4 w.sa 2 (ftBit w 2) = .ok (a, k) →
      s.dstQ i.toNat (ftBit w 3) = .ok () →
      VecWord s (.vmov w) (({ s with seq := s.seq + 1 }.reserve i.toNat s.seq).lands 4 w.dst
        (.push s.seq { data := a, sb := k, sbv := true, bind := SMap.get? s.me.bind (mapV s.ctx.vrb j.toNat), mark := none, resv := none }) 0)
  | vmovFromQ (w a p i j) : w.sa = .q p i → w.dst = .v j → w.ty ≠ .b4 → s.srcV w.sa 2 (ftBit w 2) = .ok a → ∀ d, s.dstV w.dst = .ok d →
      s.dstK w.sb = .ok () → VecWord s (.vmov w) ((s.pops [w.sa]).resultV 4 d a (BitVec.allOnes 2048) none 0)
  | vmovFromQB4 (w a k p i j) : w.sa = .q p i → w.dst = .v j → w.ty = .b4 → s.srcB4 w.sa 2 (ftBit w 2) = .ok (a, k) →
      ∀ d, s.dstV w.dst = .ok d → s.dstK w.sb = .ok () → VecWord s (.vmov w)
        ((((s.pops [w.sa]).lands 4 w.sb (.write (k.setWidth 2048) (BitVec.allOnes 2048) none) 0).resultV 4 d a (BitVec.allOnes 2048)
          none 0).lands 4 d (.bindGen (regIdx w.sb)) 0)
  | vtopk (w fs run ix d) : s.params (.vtopk w) w.par = .ok fs →
      s.srcRun (regIdx w.head.sa) 2 (ftBit w.head 2) (fs.getD 4 0) = .ok run →
      (fs.getD 6 0 % 2 = 0 ∧ ix = [] ∨
        fs.getD 6 0 % 2 = 1 ∧ s.srcRun (regIdx w.head.sc) 4 (ftBit w.head 4) ((fs.getD 2 0 + 63) / 64) = .ok ix) →
      s.dstV w.head.dst = .ok d → s.dstPhys (mapV s.ctx.vrb (regIdx w.head.sb)) = .ok () →
      VecWord s (.vtopk w)
        (let t := w.head.ty
         let es := (List.range (fs.getD 2 0)).map fun i =>
           ({ val := elemOf t.width (i % t.count) (run.getD (i / t.count) 0).toNat
              idx := if fs.getD 6 0 % 2 = 1 then elemOf 32 (i % 64) (ix.getD (i / 64) 0).toNat else (fs.getD 5 0 + i) % 2 ^ 32
              pos := i } : TopE)
         let top := topK t (fs.getD 3 0) es
         (s.resultLong d (BitVec.ofNat 2048 (packElems t.width
             (top.map (fun x => if !t.isInt && decide (t.fmt.decode x.val = .nan) then t.fmt.nan else x.val) ++
               List.replicate (t.count - top.length) (if t.isInt then 0x80000000 else t.fmt.nan))))
           (BitVec.allOnes 2048) 0).resultLong (.v (BitVec.ofNat 9 (mapV s.ctx.vrb (regIdx w.head.sb))))
           (BitVec.ofNat 2048 (packElems 32 (top.map (·.idx) ++ List.replicate (64 - top.length) 0xFFFFFFFF))) (BitVec.allOnes 2048) 0)

end Sys2Proof.Claims

open Sys2Proof Sys2Proof.Machine Sys2Proof.Claims

/-- R225 to R242: comparisons and masks, the mode (which changes as VRND's landing takes place, at the end of its cycle), quantising to b4
(16 blocks of 32 codes, one mask bit a block: log 67), ternary unpacking, the moves, and VTOPK. -/
def Sys2Proof.Claims.VectorMoves : Prop :=
  (∀ (i : Instr) (s u : State), VecWord s i u → (∀ w, i ≠ .vtopk w) → Straight s 3 → Gives i s u) ∧
  (∀ (w : PForm) (s u : State), VecWord s (.vtopk w) u → Straight s 15 → Gives (.vtopk w) s u) ∧
  (∀ (k : Cluster) (l : Land) (m : BitVec 8), l.kind = .vmode m → (k.land1 l).vmode = m)

/-- R237, R243, R230: VSMX, VROPE, and VQNT to the 8-bit floats complete: their result lands in the destination in the time their rule
states, with the elements their mask lets through written, and nothing else changes. -/
def Sys2Proof.Claims.LongVectorWords : Prop :=
  (∀ (w : AForm) (s : State) (a : VWord) (c : Word) (m : MWord) (d : Opnd), s.srcV w.sa 2 (ftBit w 2) = .ok a →
    s.srcS w.sb 3 (ftBit w 3) = .ok c → s.vMask w = .ok m → s.dstV w.dst = .ok d → Straight s 3 →
    ∃ v fl, Gives (.vsmx w) s ((s.pops [w.sa]).resultLong d v (writtenBits w 32 m) fl) ∧
      ∀ e, e < 64 → m.getLsbD e = false → elemOf 32 e v.toNat = 0) ∧
  (∀ (w : AForm) (s : State) (a b c : VWord) (m : MWord) (d : Opnd), s.srcV w.sa 2 (ftBit w 2) = .ok a →
    s.srcV w.sb 3 (ftBit w 3) = .ok b → s.srcV w.sc 4 (ftBit w 4) = .ok c → s.vMask w = .ok m → s.dstV w.dst = .ok d → Straight s 3 →
    ∃ v fl pm, Gives (.vrope w) s ((s.pops [w.sa, w.sb, w.sc]).resultLong d v (writtenBits w 32 pm) fl) ∧
      (∀ e, e < 64 → pm.getLsbD e = m.getLsbD (e / 2 * 2)) ∧ ∀ e, e < 64 → pm.getLsbD e = false → elemOf 32 e v.toNat = 0) ∧
  (∀ (w : AForm) (s : State) (a : VWord) (m : MWord) (d : Opnd), w.ty = .e4m3 ∨ w.ty = .e5m2 → s.srcV w.sa 2 (ftBit w 2) = .ok a →
    s.vMask w = .ok m → s.dstV w.dst = .ok d → Straight s 3 →
    ∃ v fl bits, Gives (.vqnt w) s ((s.pops [w.sa]).resultV 4 d v bits none fl) ∧
      (∀ e, e < 256 → 64 * vAux w ≤ e → e < 64 * vAux w + 64 → m.getLsbD e = true →
        elemOf 8 e v.toNat = (roundTo w.ty.fmt (s.vMode w) (fltAt .f32 a (e - 64 * vAux w))).1 % 256 ∧ elemOf 8 e bits.toNat = 255) ∧
      ∀ e, e < 256 → ¬ (64 * vAux w ≤ e ∧ e < 64 * vAux w + 64) → elemOf 8 e bits.toNat = 0)

/-- R238, R239: what VTOPK takes is the first K of its elements in the order of its rule: it is in that order, as long as K and the
number of elements allow, and nothing it leaves out goes before anything it takes. -/
def Obligations.TopKOrder : Prop :=
  ∀ (t : Ty) (k : Nat) (l : List TopE), (l.map (·.pos)).Nodup →
    (topK t k l).length = min k l.length ∧ (topK t k l).Pairwise (fun a b => topBefore t a b = true) ∧
      (∀ e ∈ topK t k l, e ∈ l) ∧ ∀ e ∈ l, e ∉ topK t k l → ∀ f ∈ topK t k l, topBefore t f e = true

/-- R210, R211, R227, R232, R237, R240 to R243: moves, masks, modes and the words that read whole registers. The blocks of VQNT to b4, and the
mask bit of each, are the model's choice (log 67). -/
def Obligations.VectorMovesAndLongWords : Prop := Sys2Proof.Claims.VectorMoves ∧ Sys2Proof.Claims.LongVectorWords

/-! ### Scale words (15 R244 to R249) -/

namespace Sys2Proof.Claims

open Sys2Proof.Machine

/-- The scale instructions that write a k register: its operand, the queue sources they pop, the flags that land with it, and the value
of each of its sixteen bytes. -/
inductive ScaleBytes (s : State) : Instr → Opnd → List Opnd → Flags → (Nat → Nat) → Prop
  | kmov (w k i) : w.sa = .k i → s.srcK w.sa 2 (ftBit w 2) = .ok k → s.dstK w.dst = .ok () →
      ScaleBytes s (.kmov w) w.dst [] 0 fun j => elemOf 8 j k.toNat
  | kmovQ (w v k p i) : w.sa = .q p i → s.srcB4 w.sa 2 (ftBit w 2) = .ok (v, k) → s.dstK w.dst = .ok () →
      ScaleBytes s (.kmov w) w.dst [w.sa] 0 fun j => elemOf 8 j k.toNat
  | kset (w) : s.dstK w.dst = .ok () → ScaleBytes s (.kset w) w.dst [] 0 fun _ => w.imm.toNat % 256
  | ksetOne (w k) : s.srcK w.dst 1 false = .ok k → ScaleBytes s (.ksetOne w) w.dst [] 0 fun j =>
      if j = w.imm.toNat / 256 % 16 then w.imm.toNat % 256 else elemOf 8 j k.toNat
  | ksetS (w a b) : s.srcS w.sa 2 (ftBit w 2) = .ok a → s.srcS w.sb 3 (ftBit w 3) = .ok b → s.dstK w.dst = .ok () →
      ScaleBytes s (.ksetS w) w.dst [] 0 fun j => if j < 8 then elemOf 8 j a.toNat else elemOf 8 (j - 8) b.toNat
  | kadd (w a n) : s.srcK w.sa 2 (ftBit w 2) = .ok a →
      (∃ i x, w.sb = .s i ∧ s.srcS w.sb 3 (ftBit w 3) = .ok x ∧ n = sgn 8 x.toNat) ∨ (w.sb = .null ∧ n = sgn 8 w.imm.toNat) →
      s.dstK w.dst = .ok () →
      ScaleBytes s (.kadd w) w.dst []
        (if (List.range 16).any (fun j => !(w.imm.toNat / 256).testBit j && !(decide (0 ≤ ((elemOf 8 j a.toNat % 64 : Nat) : Int) + n ∧
          ((elemOf 8 j a.toNat % 64 : Nat) : Int) + n ≤ 63))) then fSAT else 0)
        fun j => if (w.imm.toNat / 256).testBit j then elemOf 8 j a.toNat
          else elemOf 8 j a.toNat / 64 * 64 + (max 0 (min 63 (((elemOf 8 j a.toNat % 64 : Nat) : Int) + n))).toNat
  | kmax (w a b) : s.srcK w.sa 2 (ftBit w 2) = .ok a → s.srcK w.sb 3 (ftBit w 3) = .ok b → s.dstK w.dst = .ok () →
      ScaleBytes s (.kmax w) w.dst [] 0 fun j => if (w.imm.toNat / 256).testBit j then elemOf 8 j a.toNat
        else elemOf 8 j a.toNat / 64 * 64 + max (elemOf 8 j a.toNat % 64) (elemOf 8 j b.toNat % 64)
  | kmin (w a b) : s.srcK w.sa 2 (ftBit w 2) = .ok a → s.srcK w.sb 3 (ftBit w 3) = .ok b → s.dstK w.dst = .ok () →
      ScaleBytes s (.kmin w) w.dst [] 0 fun j => if (w.imm.toNat / 256).testBit j then elemOf 8 j a.toNat
        else elemOf 8 j a.toNat / 64 * 64 + min (elemOf 8 j a.toNat % 64) (elemOf 8 j b.toNat % 64)
  | ktype (w a) : s.srcK w.sa 2 (ftBit w 2) = .ok a → s.dstK w.dst = .ok () →
      ScaleBytes s (.ktype w) w.dst [] 0 fun j => if (w.imm.toNat / 256).testBit j then elemOf 8 j a.toNat
        else w.imm.toNat % 4 * 64 + elemOf 8 j a.toNat % 64
  | kfrom (w v k) : s.srcV w.sa 2 (ftBit w 2) = .ok v → s.srcK w.dst 1 false = .ok k →
      ScaleBytes s (.kfrom w) w.dst []
        (((List.range (w.ty.count / 32)).map fun b => kFromBlock (w.imm.toNat % 4) ((List.range 32).map fun i => fltAt w.ty v (32 * b + i))).foldl
          (fun f b => f ||| b.2) 0)
        fun j => if w.ty.count / 32 * (w.imm.toNat / 256 % 8) ≤ j ∧ j < w.ty.count / 32 * (w.imm.toNat / 256 % 8) + w.ty.count / 32 then
          (kFromBlock (w.imm.toNat % 4) ((List.range 32).map fun i =>
            fltAt w.ty v (32 * (j - w.ty.count / 32 * (w.imm.toNat / 256 % 8)) + i))).1 % 256
          else elemOf 8 j k.toNat

/-- The scale instructions that bind, or that read a generation or a binding. -/
inductive Binding (s : State) : Instr → State → Prop
  | kbind (w k d) : s.srcK w.sa 2 (ftBit w 2) = .ok k → s.dstV w.dst = .ok d →
      Binding s (.kbind w) (s.lands 2 d (.rebind (some { kix := BitVec.ofNat 8 (regIdx w.sa), gen := s.me.genOf (regIdx w.sa) })) 0)
  | kunb (w d) : s.dstV w.dst = .ok d → Binding s (.kunb w) (s.lands 2 d (.rebind none) 0)
  | kgen (w) : s.settle w.sa = .ok () → s.dstS w.dst = .ok () → Binding s (.kgen w) (s.resultS 2 w.dst ((s.me.genOf (regIdx w.sa)).setWidth 64))
  | kgenBound (w b) : s.me.bank (mapV s.ctx.vrb (regIdx w.sa)) 2 = .ok () →
      s.settle (.v (BitVec.ofNat 9 (mapV s.ctx.vrb (regIdx w.sa)))) = .ok () → s.dstS w.dst = .ok () →
      SMap.get? s.me.bind (mapV s.ctx.vrb (regIdx w.sa)) = some b →
      Binding s (.kgenB w) (s.resultS 2 w.dst (BitVec.ofNat 64 (2 ^ 24 + b.kix.toNat * 2 ^ 16 + b.gen.toNat)))
  | kgenFree (w) : s.me.bank (mapV s.ctx.vrb (regIdx w.sa)) 2 = .ok () →
      s.settle (.v (BitVec.ofNat 9 (mapV s.ctx.vrb (regIdx w.sa)))) = .ok () → s.dstS w.dst = .ok () →
      SMap.get? s.me.bind (mapV s.ctx.vrb (regIdx w.sa)) = none → Binding s (.kgenB w) (s.resultS 2 w.dst 0)

end Sys2Proof.Claims

open Sys2Proof Sys2Proof.Machine Sys2Proof.Claims

/-- R244 to R249: a scale instruction writes the sixteen bytes its rule gives, two cycles after issue, and nothing else; the binding
instructions change a binding alone, or read one. -/
def Sys2Proof.Claims.ScaleWords : Prop :=
  (∀ (i : Instr) (s : State) (d : Opnd) (qs : List Opnd) (fl : Flags) (f : Nat → Nat), ScaleBytes s i d qs fl f → Straight s 3 →
    ∃ r : KWord, Gives i s ((s.pops qs).resultK d r fl) ∧ ∀ j, j < 16 → elemOf 8 j r.toNat = f j) ∧
  (∀ (i : Instr) (s u : State), Binding s i u → Straight s 3 → Gives i s u)

/-- R98: a write of a k register advances its generation by one, modulo 2^16; a write of a v register leaves it bound as the write
says; no other register changes. -/
def Sys2Proof.Claims.GenerationsAdvance : Prop :=
  (∀ (k : Cluster) (n : Nat) (v : KWord), (k.putK n v).getK n = v ∧ (k.putK n v).genOf n = k.genOf n + 1 ∧
    (k.putK n v).v = k.v ∧ (k.putK n v).bind = k.bind ∧ ∀ j, j ≠ n → (k.putK n v).getK j = k.getK j ∧ (k.putK n v).genOf j = k.genOf j) ∧
  (∀ (k : Cluster) (n : Nat) (v : VWord) (b : Option Bind), (k.putV n v (BitVec.allOnes 2048) b).getV n = v ∧
    SMap.get? (k.putV n v (BitVec.allOnes 2048) b).bind n = b ∧ (k.putV n v (BitVec.allOnes 2048) b).k = k.k ∧
    ∀ j, j ≠ n → (k.putV n v (BitVec.allOnes 2048) b).getV j = k.getV j ∧
      SMap.get? (k.putV n v (BitVec.allOnes 2048) b).bind j = SMap.get? k.bind j)

/-! ### Matrix words (17 R250 to R271) -/

namespace Sys2Proof.Claims

open Sys2Proof.Machine

/-- n 8-byte entries from an address. -/
def entriesAt (s : State) (pa n : Nat) : List (BitVec 64) :=
  (List.range n).map fun i => BitVec.ofNat 64 (bytesNat (s.bytes (pa + 8 * i) 8))

/-- Every v register of a list empty: its value is on its way. -/
def emptied (s : State) (rs : List Nat) : State := rs.foldl (fun t r => t.empties (.v (BitVec.ofNat 9 r))) s

/-- The matrix instructions that complete, with their length in parcels and what they leave. -/
inductive MatrixWord (s : State) : Instr → Nat → State → Prop
  | msrc (w a r c) : s.srcS w.sa 2 (ftBit w 2) = .ok a → s.srcS w.sb 3 (ftBit w 3) = .ok r → s.srcSOr w.sc 4 (ftBit w 4) 0 = .ok c →
      MatrixWord s (.msrc w) 3 (s.modSet fun m => { m with
        aset := true, abase := a, ars := r, ascl := if w.sc = .null then none else some c, afmt := w.ty, aax := w.imm.getLsbD 0 })
  | mbselWin (w) : MatrixWord s (.mbselWin w) 3 (s.modSet fun m => { m with scr := false, bbase := 0, bw := 256, bscl := none })
  | mbselScr (w a b c) : s.srcS w.sa 2 (ftBit w 2) = .ok a → s.srcS w.sb 3 (ftBit w 3) = .ok b → s.srcSOr w.sc 4 (ftBit w 4) 0 = .ok c →
      b.toNat % 32 = 0 → 256 ≤ b.toNat → b.toNat ≤ 8192 →
      MatrixWord s (.mbselScr w) 3 (s.modSet fun m => { m with scr := true, bbase := a, bw := b, bscl := if w.sc = .null then none else some c })
  | mfmt (w a) : s.srcS w.sa 2 (ftBit w 2) = .ok a → (∀ g, g < 8 → fmtByteOk (elemOf 8 g a.toNat) = true) →
      MatrixWord s (.mfmt w) 3 (s.modSet fun m => { m with sfmt := a })
  | mnest (w fs) : s.params (.mnest w) w.par = .ok fs → MatrixWord s (.mnest w) 15 (s.modSet fun m => { m with
      levels := (m.levels.set (2 * w.head.sub.toNat) (levelOf fs 1)).set (2 * w.head.sub.toNat + 1) (levelOf fs 5)
      rows := if fs.getD 9 0 / 128 = 1 then fs.getD 9 0 % 128 + 1 else m.rows })
  | mgrp (w fs) : s.params (.mgrp w) w.par = .ok fs → s.mHold s.cur.1 s.cycle.toNat = false → (fs.getD 2 0 = 0 ∨ s.mReads s.cur.1 = true) →
      (∀ n ∈ s.me.m.nests, n.spans.any (shareGranule (fs.getD 1 0, fs.getD 1 0 + 8 * fs.getD 2 0 - 1)) = false) →
      s.badAt (s.here (sramBase s.cur.1 + fs.getD 1 0)) (8 * fs.getD 2 0) = false →
      MatrixWord s (.mgrp w) 15 (s.modSet fun m => { m with grp := entriesAt s (s.here (sramBase s.cur.1 + fs.getD 1 0)) (fs.getD 2 0) })
  | mzero (w) : s.me.m.bankBusy (w.imm.toNat / 65536 % 2) = false → (∀ d ∈ s.me.m.drop, d.bank ≠ w.imm.toNat / 65536 % 2) →
      MatrixWord s (.mzero w) 3 (({ s with seq := s.seq + 1 } : State).modM s.cur.1 fun m => { m with
        movers := m.movers ++ [({ id := s.seq, cyc := s.cycle.toNat, sec := s.ctx.secNow, bank := w.imm.toNat / 65536 % 2,
                                  row0 := w.imm.toNat % 128, n := w.imm.toNat / 256 % 128 + 1, done := 0, regs := [], ty := .i32, sat := false,
                                  mode := 1, zero := true, load := false, atOnce := true, vals := [] } : Mover)] })
  | mdrain (w) : s.me.m.bankBusy (w.imm.toNat / 65536 % 2) = false → (∀ d ∈ s.me.m.drop, d.bank ≠ w.imm.toNat / 65536 % 2) →
      s.dstRun (regIdx w.dst) (w.ty.width / 8 * (w.imm.toNat / 256 % 128 + 1)) = .ok () →
      MatrixWord s (.mdrain w) 3
        (({ emptied s (physRun s.ctx.vrb (regIdx w.dst) (w.ty.width / 8 * (w.imm.toNat / 256 % 128 + 1))) with seq := s.seq + 1 } : State).modM s.cur.1 fun m => { m with
          movers := m.movers ++ [({ id := s.seq, cyc := s.cycle.toNat, sec := s.ctx.secNow, bank := w.imm.toNat / 65536 % 2,
                                    row0 := w.imm.toNat % 128, n := w.imm.toNat / 256 % 128 + 1, done := 0, atOnce := false,
                                    regs := physRun s.ctx.vrb (regIdx w.dst) (w.ty.width / 8 * (w.imm.toNat / 256 % 128 + 1)),
                                    ty := w.ty, sat := w.md.getLsbD 3, mode := effMode w.md.toNat s.me.mmode.toNat,
                                    zero := decide (w.sub = 1), load := false, vals := [] } : Mover)] })
  | mload (w vs) : s.me.m.bankBusy (w.imm.toNat / 65536 % 2) = false → (∀ d ∈ s.me.m.drop, d.bank ≠ w.imm.toNat / 65536 % 2) →
      s.srcRun (regIdx w.sa) 2 (ftBit w 2) (w.ty.width / 8 * (w.imm.toNat / 256 % 128 + 1)) = .ok vs →
      MatrixWord s (.mload w) 3 ({ s with seq := s.seq + 1 }.modM s.cur.1 fun m => { m with
        movers := m.movers ++ [({ id := s.seq, cyc := s.cycle.toNat, sec := s.ctx.secNow, bank := w.imm.toNat / 65536 % 2,
                                  row0 := w.imm.toNat % 128, n := w.imm.toNat / 256 % 128 + 1, done := 0, regs := [], ty := w.ty,
                                  sat := false, mode := 1, zero := false, load := true, atOnce := false, vals := vs } : Mover)] })
  | mrnd (w) : MatrixWord s (.mrnd w) 3 (s.lands 1 .null (.mmode (w.md.setWidth 8)) 0)
  | mstat (w) : s.dstS w.dst = .ok () → (w.sub.getLsbD 0 = true → s.me.m.busy = false ∧ s.me.m.drop = []) →
      MatrixWord s (.mstat w) 3 ((if w.sub.getLsbD 1 then s.modM s.cur.1 (fun m => { m with
          flags := m.flags &&& m.fresh.setWidth 7, miss := m.miss && m.fresh.getLsbD 7, abort := m.abort && m.fresh.getLsbD 8 })
        else s).putOpnd w.dst s.me.m.status)

/-- What MGO and MGO.grp queue: a copy of the set-up, the formats and generation of the window it reads, and its groups (R260). -/
def nestOf (s : State) (w : AForm) (grp : Bool) : Nest :=
  { id := s.seq, cyc := s.cycle.toNat, pc := s.ctx.pc, sec := s.ctx.secNow, bank := w.imm.toNat % 2, set := s.me.m.set
    fmts := if s.me.m.set.scr then s.me.m.set.sfmt else (s.ring (dieOf s.cur.1)).fmts
    groups := (if grp then s.me.m.set.grp.map groupOf else [(s.me.m.set.rows, 0, 0, 0)]).filter fun g => g.1 != 0
    mode := s.me.mmode, gen := if s.me.m.set.scr then none else s.genNow (dieOf s.cur.1), step := 0, running := false }

/-- Its checks (R260). -/
def nestChecks (s : State) (grp : Bool) : Chk Unit :=
  s.mgoCheck s.me.m.set (if s.me.m.set.scr then s.me.m.set.sfmt else (s.ring (dieOf s.cur.1)).fmts) grp
    (if grp then s.me.m.set.grp.map groupOf else [(s.me.m.set.rows, 0, 0, 0)])
    (if s.me.m.set.scr then none else s.genNow (dieOf s.cur.1))

end Sys2Proof.Claims

open Sys2Proof Sys2Proof.Machine Sys2Proof.Claims

/-- R255 to R259, R265 to R271: the matrix instructions other than MGO complete with what their rules state, and nothing else changes. MRND's
landing changes the mode; MSTAT.clr leaves what was raised in its own cycle (R79). -/
def Obligations.MatrixWords : Prop :=
  (∀ (i : Instr) (n : Nat) (s u : State), MatrixWord s i n u → Straight s n → Gives i s u) ∧
  ∀ (k : Cluster) (l : Land) (m : BitVec 8), l.kind = .mmode m → (k.land1 l).mmode = m

/-- R252, R260: MGO and MGO.grp queue a nest that passes the checks, with a copy of the set-up, and their word completes; one whose task is
keyed and does not hold the window's generation is not queued: MISS is set and the task missed (R264, 23 R323), and the word completes; with
four nests queued they wait; a check that fails traps with its reason; and a nest whose reads the access table refuses traps REFUSED and
freezes the cluster (01 R26), with its MGO, which is the model's choice (log 54). -/
def Obligations.MatrixNests : Prop :=
  ∀ (w : AForm) (s : State) (grp : Bool) (i : Instr), i = (if grp then .mgoGrp w else .mgo w) →
    (s.me.m.nests.length < 4 → nestChecks s grp = .ok () → s.mReads s.cur.1 = true →
      (∀ g t, (nestOf s w grp).gen = some g → s.taskOn s.cur.1 = some t → recKeyed t.rcd = true → t.isHolder g = true) → Straight s 3 →
      Gives i s ({ s with seq := s.seq + 1 }.modM s.cur.1 fun q => { q with nests := q.nests ++ [nestOf s w grp] })) ∧
    (∀ g t, s.me.m.nests.length < 4 → nestChecks s grp = .ok () → (nestOf s w grp).gen = some g → s.taskOn s.cur.1 = some t →
      recKeyed t.rcd = true → t.isHolder g = false → Straight s 3 →
      Gives i s ((s.modM s.cur.1 MEng.setMiss).missTask s.cur.1 g 1)) ∧
    (s.me.m.nests.length < 4 → nestChecks s grp = .ok () → s.mReads s.cur.1 = false →
      (∀ g t, (nestOf s w grp).gen = some g → s.taskOn s.cur.1 = some t → recKeyed t.rcd = true → t.isHolder g = true) →
      ∃ t, exec i s = .next t ∧ Trapped t s.cur.1 s.cur.2 .refused 0 s.ctx.pc (0xFF000000000000 + s.me.m.set.abase) ∧
        t.frozen s.cur.1 = true ∧ t.me.m = s.me.m) ∧
    (4 ≤ s.me.m.nests.length → exec i s = .next s.waits) ∧
    (∀ d, s.me.m.nests.length < 4 → nestChecks s grp = .error (.trap { cause := .shape, info := some d }) →
      ∃ t, exec i s = .next t ∧ Trapped t s.cur.1 s.cur.2 .shape 0 s.ctx.pc d)

/-- R261, R262: a step of a nest adds one contribution to each accumulator its groups name, and changes no other. A byte of an uncorrectable
unit that it reads is a free value (log 18). -/
def Sys2Proof.Claims.NestSteps : Prop :=
  ∀ (s : State) (c : Nat) (n : Nest), (n.cells.map (·.1)).Nodup →
    (∀ x ∈ n.cells, SMap.get 0 ((s.runStep c n).cl c).m.acc x.1 = BitVec.ofNat 32 (contribution (modeOfCode n.mode.toNat) n.set.afmt.code
        (fmtByte n.fmts x.2.2.2 % 32) (SMap.get 0 (s.cl c).m.acc x.1).toNat
        (s.chunkA c n.set (chunkBytes ((mClass n.set.afmt.code).getD 0)) x.2.1)
        (s.chunkB c n.set (chunkBytes ((mClass n.set.afmt.code).getD 0)) x.2.2.1)).1) ∧
    (∀ k, k ∉ n.cells.map (·.1) → SMap.get 0 ((s.runStep c n).cl c).m.acc k = SMap.get 0 (s.cl c).m.acc k) ∧
    (s.runStep c n).mem = s.mem ∧ (∀ x, ((s.runStep c n).cl c).cx x = (s.cl c).cx x) ∧ ∀ j, j ≠ c → (s.runStep c n).cl j = s.cl j

/-- R251, R261, R263, R266 to R269: the steps of nests and drains: a nest starts once the earlier drains and loads of its bank are done, steps
while its generation holds, and ends; row i of a drain or load moves in cycle issue + 1 + i and not before, and every row of an MZERO is then
zero. That the access table is consulted with the MGO and not at a step is the model's choice (log 54). -/
def Sys2Proof.Claims.MatrixSteps : Prop :=
  ∀ (c : Nat) (s : State) (n : Nest) (ns : List Nest), (s.cl c).m.nests = n :: ns →
    (n.running = false → n.cyc < s.cycle.toNat → (∀ v ∈ (s.cl c).m.movers, v.bank = n.bank → n.id ≤ v.id) →
      exec (.nestStart c) s = .next (s.modM c fun m => { m with nests := m.nests.map fun y => if y.id = n.id then { y with running := true } else y })) ∧
    (n.running = true → n.step < n.total → s.mHold c n.cyc = false → n.gen = none →
      exec (.nestStep c) s = .next (s.runStep c n)) ∧
    (∀ g, n.running = true → n.step < n.total → s.mHold c n.cyc = false → n.gen = some g → s.genNow (dieOf c) = some g →
      s.windowBad c (n.cells.map fun x => (x.2.2.1, chunkBytes ((mClass n.set.afmt.code).getD 0))) (decide (mClass n.set.afmt.code = some 0)) = false →
      exec (.nestStep c) s = .next (s.runStep c n)) ∧
    (∀ g, n.running = true → n.step < n.total → s.mHold c n.cyc = false → n.gen = some g → s.genNow (dieOf c) ≠ some g → recKeyed (s.cl c).rec0 = false →
      exec (.nestStep c) s = .next ((s.modM c fun m => m.endNest n).modM c fun m => { m with
        drop := m.drop ++ [{ id := n.id, bank := n.bank, pc := n.pc, tag := g.tag }] })) ∧
    (n.running = true → n.total ≤ n.step → exec (.nestEnd c) s = .next (s.modM c fun m => m.endNest n)) ∧
    (∀ v vs, (s.cl c).m.movers = v :: vs → v.cyc + 1 + v.done ≤ s.cycle.toNat →
      exec (.mdrainRowLands c) s = .next (s.modCl c fun k => k.moveRow v (s.cycle.toNat + 1))) ∧
    ((∀ v ∈ (s.cl c).m.movers, s.cycle.toNat < v.cyc + 1 + v.done) → exec (.mdrainRowLands c) s = .next s) ∧
    ∀ (k : Cluster) (v : Mover) (due i col : Nat), v.atOnce = true → i < v.n → col < 256 →
      SMap.get 0 (k.moveRow v due).m.acc (accKey v.bank (v.row0 + i) col) = 0 ∧ ∀ y ∈ (k.moveRow v due).m.movers, y.id ≠ v.id

/-- R98, R244 to R249: scale words and generations. That KGEN and KGEN.b do not look at their register's value, empty or error-pending, nor at
FT is the model's choice (log 71). -/
def Obligations.Scales : Prop := Sys2Proof.Claims.ScaleWords ∧ Sys2Proof.Claims.GenerationsAdvance

/-- R251, R261 to R263, R266 to R269: nests and drains step by step. What an uncorrectable unit reads as (log 18), and that a refusal comes with
the MGO (log 54), is the model's choice. -/
def Obligations.NestsStep : Prop := Sys2Proof.Claims.NestSteps ∧ Sys2Proof.Claims.MatrixSteps

/-! ### Attention and cache words (19 R276 to R292) -/

namespace Sys2Proof.Claims

open Sys2Proof.Machine

/-- The A-engine set-up a context record and a score constant give, before the query is copied (R276). -/
def queryOf (bs : List Byte) (c : Word) : AEng := { isSet := true, rcd := BitVec.ofNat 512 (bytesNat bs), buf := [], c := c.setWidth 32 }

/-- The query buffer: the first NQ × HD bf16 of the run, byte by byte, zero bytes not listed. -/
def queryBytes (a : AEng) (vs : List VWord) : SMap Byte :=
  ((((vs.flatMap fun v => natBytes 256 v.toNat).take (2 * a.nq * a.hd)).zipIdx.map fun b => (b.2, b.1)).filter fun b => b.2 != 0)

/-- The page ASTEP names, and its logical block. -/
def stepPage (pv : VWord) (fs : List Nat) : Nat := elemOf 32 (fs.getD 2 0) pv.toNat

/-- What ASTEP reads before it looks at a page: the query, its state block's rows, the page numbers (R278). -/
def stepReads (s : State) (w : PForm) (fs : List Nat) (a : AEng) (rows : List ARow) (pv : VWord) : Prop :=
  s.aHold true = .ok () ∧ s.params (.astep w) w.par = .ok fs ∧ s.query = .ok a ∧ s.srcBlock a w.head.sa 2 (ftBit w.head 2) = .ok rows ∧
    s.srcV w.head.sb 3 (ftBit w.head 3) = .ok pv ∧ s.dstS w.head.sc = .ok ()

/-- The outcome of an ASTEP is written: its predicate says whether the page was included, its s register gives the outcome word (R280). -/
def outcomeIs (s : State) (w : AForm) (word : Nat) : State := (s.putOpnd w.dst (if word = 0 then 1 else 0)).putOpnd w.sc (BitVec.ofNat 64 word)

/-- The word SEQRD writes (R292). -/
def descWord (d : Desc) : Word :=
  BitVec.ofNat 64 (min 65535 d.refc.toNat * 2 ^ 48 + (if d.intree then 2 ^ 43 else 0) + (if d.pinned then 2 ^ 42 else 0) +
    (if d.shared then 2 ^ 41 else 0) + (if d.ro then 2 ^ 40 else 0) + d.tier * 2 ^ 38 + d.fill * 2 ^ 32 + d.seq.toNat)

/-- The row and the length KVGATH works on (R285). -/
def gatherRow (s : State) (fs : List Nat) (x : Word) (row len : Nat) : Prop :=
  (fs.getD 2 0 = 1 ∧ x.toNat < 256 ∧ beamV (s.beam x.toNat) = true ∧ s.beamOther (s.beam x.toNat) = false ∧
      row = beamRow (s.beam x.toNat) * 64 ∧ len = beamNb (s.beam x.toNat)) ∨
    (fs.getD 2 0 = 0 ∧ x.toNat % 4 = 0 ∧ row = x.toNat ∧ len = fs.getD 3 0)

/-- The 4-byte entries of the present lanes. -/
def gatherParts (row len : Nat) (bv : VWord) : List (Piece × Bool) :=
  (((List.range 64).map fun i => elemOf 32 i bv.toNat).zipIdx.filter fun b => decide (b.1 < len)).map fun b =>
    (({ off := 4 * b.2, va := row + 4 * b.1, pa := 0, len := 4 } : Piece), false)

/-- Lane i of what KVGATH writes. -/
def gathered (s : State) (ps : List Piece) (i : Nat) : Nat :=
  match ps.find? fun p => p.off == 4 * i with
  | some p => bytesNat (s.bytes p.pa 4)
  | none => 0xFFFFFFFF

/-- An entry of the Beam Map that an instruction of the own task may name (R283). -/
def beamFree (s : State) (i : Nat) : Prop := i < 256 ∧ (beamV (s.beam i) = true → s.beamOther (s.beam i) = false)

/-- The words of the A engine, with their length and what they leave. -/
inductive AWord (s : State) : Instr → Nat → State → Prop
  | aqset (w ea c bs vs) : s.aHold false = .ok () → s.srcS w.sb 3 (ftBit w 3) = .ok ea → s.srcS w.sc 4 (ftBit w 4) = .ok c →
      ea.toNat < 2 ^ 56 → ea.toNat % 64 = 0 → s.aRead s.aMaster ea.toNat 64 = .ok bs →
      aRecordOk (s.adie s.myA).pageSize (BitVec.ofNat 512 (bytesNat bs)) = true →
      regIdx w.sa + ((queryOf bs c).nq * (queryOf bs c).hd + 127) / 128 ≤ 512 →
      s.srcRun (regIdx w.sa) 2 (ftBit w 2) (((queryOf bs c).nq * (queryOf bs c).hd + 127) / 128) = .ok vs →
      AWord s (.aqset w) 3 (s.modMe fun k => { k with a := { queryOf bs c with buf := queryBytes (queryOf bs c) vs } })
  | stepAbsent (w fs a rows pv) : stepReads s w fs a rows pv → stepPage pv fs = 0xFFFFFFFF → AWord s (.astep w) 15 (outcomeIs s w.head 1)
  | stepRetry (w fs a rows pv d) : stepReads s w fs a rows pv → stepPage pv fs ≠ 0xFFFFFFFF → s.aDesc (stepPage pv fs) = .ok d → d.tier = 0 →
      d.seq.getLsbD 0 = true → AWord s (.astep w) 15 (outcomeIs s w.head 3)
  | stepMiss (w fs a rows pv d t b) : stepReads s w fs a rows pv → stepPage pv fs ≠ 0xFFFFFFFF → s.aDesc (stepPage pv fs) = .ok d →
      d.tier = 2 ∨ (d.tier = 1 ∧ a.autoin = false) →
      ({ s with seq := s.seq + 1 } : State).tierMiss a s.seq (stepPage pv fs) (fs.getD 3 0) d = (t, b) →
      AWord s (.astep w) 15 (outcomeIs t w.head (b + 2))
  | stepMissAuto (w fs a rows pv d t b) : stepReads s w fs a rows pv → stepPage pv fs ≠ 0xFFFFFFFF → s.aDesc (stepPage pv fs) = .ok d →
      d.tier = 1 → a.autoin = true → s.copyFrozen (pageDie (stepPage pv fs)) = false →
      ({ s with seq := s.seq + 1 } : State).tierMiss a s.seq (stepPage pv fs) (fs.getD 3 0) d = (t, b) →
      (b / 16 % 2 = 1 → s.aEcc d.addr.toNat (s.adie (pageDie (stepPage pv fs))).pageSize = .ok ()) →
      AWord s (.astep w) 15 (outcomeIs t w.head (b + 2))
  | stepIncluded (w fs a rows pv d) : stepReads s w fs a rows pv → stepPage pv fs ≠ 0xFFFFFFFF → s.aDesc (stepPage pv fs) = .ok d → d.tier = 0 →
      d.seq.getLsbD 0 = false →
      (s.seenFill (stepPage pv fs) d = 0 ∨
        (s.readHeld s.cur.1 (slotPa a d a.kvh 0) (s.seenFill (stepPage pv fs) d * a.hb) = false ∧ (s.isFar (slotPa a d a.kvh 0) = true ∨ s.mayAccess (masterOf s.cur.1 s.cur.2) bitR (slotPa a d a.kvh 0) = true) ∧
        s.aEcc (slotPa a d a.kvh 0) (s.seenFill (stepPage pv fs) d * a.hb) = .ok ())) →
      AWord s (.astep w) 15
        (outcomeIs (s.landRun (regIdx w.head.sa) (blockRegs a (attendTile a (fs.getD 3 0) (s.tile a (stepPage pv fs) d) rows))) w.head 0)
  | amerge (w a xs ys) : s.query = .ok a → s.srcBlock a w.sa 2 (ftBit w 2) = .ok xs → s.srcBlock a w.sb 3 (ftBit w 3) = .ok ys →
      regIdx w.dst + a.ns ≤ 512 → s.dstRun (regIdx w.dst) a.ns = .ok () →
      AWord s (.amerge w) 3 (s.landRun (regIdx w.dst) (blockRegs a ((xs.zip ys).map fun r => mergeRow r.1 r.2)))
  | afin (w a xs n) : s.query = .ok a → s.srcBlock a w.sa 2 (ftBit w 2) = .ok xs →
      n = (a.nq * a.hd + 2048 / w.ty.width - 1) / (2048 / w.ty.width) →
      regIdx w.dst + n ≤ 512 → s.dstRun (regIdx w.dst) n = .ok () →
      AWord s (.afin w) 3 (s.landRun (regIdx w.dst)
        ((chunksOf (2048 / w.ty.width) n ((xs.flatMap (finishRow w.ty.fmt (modeOf w.md.toNat 1))).map (·.1))).map fun l =>
          (packV w.ty.width l, fullV)) (joinFlags (xs.flatMap (finishRow w.ty.fmt (modeOf w.md.toNat 1)))))
  | kvgath (w fs x bv d row len ps) : s.aHold false = .ok () → s.params (.kvgath w) w.par = .ok fs →
      s.srcS w.head.sa 2 (ftBit w.head 2) = .ok x → s.srcV w.head.sb 3 (ftBit w.head 3) = .ok bv → s.dstV w.head.dst = .ok d →
      s.dstK w.head.sc = .ok () → gatherRow s fs x row len → s.aReach s.aMaster (gatherParts row len bv) = .ok ps →
      AWord s (.kvgath w) 15
        (if w.head.sc = .null then s.resultLong d (packV 32 ((List.range 64).map (gathered s ps))) fullV 0
         else (s.resultLong d (packV 32 ((List.range 64).map (gathered s ps))) fullV 0).resultLong w.head.sc
           ((BitVec.ofNat 256 (bitsOf (((List.range 64).map (gathered s ps)).map fun p => p != 0xFFFFFFFF))).setWidth 2048) fullV 0)
  | pgallocYes (w t p) : s.aHold true = .ok () → s.dstS w.sc = .ok () →
      ({ s with seq := s.seq + 1 } : State).aAlloc s.seq (w.imm.getLsbD 0) = (t, some p) →
      AWord s (.pgalloc w) 3 ((t.putOpnd w.dst 1).putOpnd w.sc (BitVec.ofNat 64 p))
  | pgallocNo (w t) : s.aHold true = .ok () → s.dstS w.sc = .ok () →
      ({ s with seq := s.seq + 1 } : State).aAlloc s.seq (w.imm.getLsbD 0) = (t, none) →
      AWord s (.pgalloc w) 3 ((t.putOpnd w.dst 0).putOpnd w.sc 0xFFFFFFFF)
  | pgfree (w x d) : s.aHold true = .ok () → s.srcS w.sa 2 (ftBit w 2) = .ok x → s.aDesc (x.toNat % 2 ^ 32) = .ok d → d.refc ≠ 0 → d.ro = false →
      AWord s (.pgfree w) 3 (s.unrefPage (x.toNat % 2 ^ 32) 1)
  | seqrd (w x d) : s.aHold false = .ok () → s.srcS w.sa 2 (ftBit w 2) = .ok x → s.dstS w.dst = .ok () → s.aDesc (x.toNat % 2 ^ 32) = .ok d →
      AWord s (.seqrd w) 3 (s.putOpnd w.dst (descWord d))
  | pxlook (w fs vs d chunks r) : s.aHold true = .ok () → s.params (.pxlook w) w.par = .ok fs → regIdx w.head.sa + (fs.getD 2 0 + 63) / 64 ≤ 512 →
      s.srcRun (regIdx w.head.sa) 2 (ftBit w.head 2) ((fs.getD 2 0 + 63) / 64) = .ok vs → s.dstV w.head.dst = .ok d → s.dstS w.head.sc = .ok () →
      chunks = (List.range (min (fs.getD 2 0 / 32) (fs.getD 3 0))).map (chunkAt (tokensOf vs)) →
      s.aWalk ((s.adie s.myA).path (BitVec.ofNat 32 (fs.getD 4 0)) chunks none) = .ok () →
      r = ADie.walk (BitVec.ofNat 32 (fs.getD 4 0)) chunks none (s.adie s.myA) →
      AWord s (.pxlook w) 15 (((s.modADie s.myA fun _ => r.1).resultLong d
        (packV 32 (r.2 ++ List.replicate (64 - r.2.length) 0xFFFFFFFF)) fullV 0).putOpnd w.head.sc (BitVec.ofNat 64 r.2.length))
  | pxins (w c vs pv chunks path new r) : s.aHold true = .ok () → s.srcS w.sc 4 (ftBit w 4) = .ok c → 1 ≤ c.toNat % 2 ^ 32 → c.toNat % 2 ^ 32 ≤ 2048 →
      regIdx w.sa + (c.toNat % 2 ^ 32 + 63) / 64 ≤ 512 → s.srcRun (regIdx w.sa) 2 (ftBit w 2) ((c.toNat % 2 ^ 32 + 63) / 64) = .ok vs →
      s.srcV w.sb 3 (ftBit w 3) = .ok pv → s.dstS w.dst = .ok () →
      chunks = (List.range (c.toNat % 2 ^ 32 / 32)).map (chunkAt (tokensOf vs)) →
      path = (s.adie s.myA).path (BitVec.ofNat 32 (c.toNat / 2 ^ 32)) chunks none → s.aNodes path = .ok () →
      new = (chunks.zipIdx.drop path.length).map (fun t => (t.1, elemOf 32 t.2 pv.toNat)) → s.fullPages (new.map (·.2)) = .ok () →
      r = ADie.insert (BitVec.ofNat 32 (c.toNat / 2 ^ 32)) s.seq s.free new path (path.foldl ADie.touchNode (s.adie s.myA)) →
      AWord s (.pxins w) 3 ((({ s with free := s.free + new.length } : State).modADie s.myA fun _ => r.1).putOpnd w.dst (BitVec.ofNat 64 r.2))
  | pxrel (w v n ps) : s.aHold true = .ok () → s.srcV w.sa 2 (ftBit w 2) = .ok v → s.srcS w.sb 3 (ftBit w 3) = .ok n → n.toNat ≤ 64 →
      ps = (((List.range n.toNat).map fun i => elemOf 32 i v.toNat).filter fun p => p != 0xFFFFFFFF) → s.mayUnref [] ps = .ok () →
      AWord s (.pxrel w) 3 (ps.foldl (fun s p => s.unrefPage p 1) s)
  | bmapSet (w i row nb) : s.srcS w.sa 2 (ftBit w 2) = .ok i → s.srcS w.sb 3 (ftBit w 3) = .ok row → s.srcS w.sc 4 (ftBit w 4) = .ok nb →
      beamFree s i.toNat → row.toNat % 64 = 0 →
      AWord s (.bmapSet w) 3 (s.setBeam i.toNat (BitVec.ofNat 128 (2 ^ 127 + (s.me.asid s.cur.2).toNat * 2 ^ 116 + nb.toNat % 65536 * 2 ^ 100 +
        row.toNat / 64 % 2 ^ 50)))
  | bmapRdlo (w i) : s.srcS w.sa 2 (ftBit w 2) = .ok i → s.dstS w.dst = .ok () → beamFree s i.toNat →
      AWord s (.bmapRdlo w) 3 (s.putOpnd w.dst ((s.beam i.toNat).extractLsb' 0 64))
  | bmapRdhi (w i) : s.srcS w.sa 2 (ftBit w 2) = .ok i → s.dstS w.dst = .ok () → beamFree s i.toNat →
      AWord s (.bmapRdhi w) 3 (s.putOpnd w.dst ((s.beam i.toNat).extractLsb' 64 64))
  | bmapClr (w i) : s.srcS w.sa 2 (ftBit w 2) = .ok i → beamFree s i.toNat →
      AWord s (.bmapClr w) 3 (s.setBeam i.toNat (s.beam i.toNat &&& BitVec.ofNat 128 (2 ^ 127 - 1)))
  | tierin (w x q d t r) : s.aHold true = .ok () → s.srcS w.sa 2 (ftBit w 2) = .ok x → s.srcS w.sb 3 (ftBit w 3) = .ok q →
      s.aDesc (x.toNat % 2 ^ 32) = .ok d →
      ({ s with seq := s.seq + 1 } : State).tierRequest s.seq (x.toNat % 2 ^ 32)
        { queue := q, asid := s.me.asid s.cur.2, toIn := true, cl := s.cur.1 } = (t, r) →
      (r ≠ .refused → s.copyFrozen (pageDie (x.toNat % 2 ^ 32)) = false) →
      (r = .started → s.aEcc d.addr.toNat (s.adie (pageDie (x.toNat % 2 ^ 32))).pageSize = .ok ()) →
      AWord s (.tierin w) 3 (t.putOpnd w.dst (if r = .refused then 0 else 1))
  | tierout (w x q d t r) : s.aHold true = .ok () → s.srcS w.sa 2 (ftBit w 2) = .ok x → s.srcS w.sb 3 (ftBit w 3) = .ok q →
      s.aDesc (x.toNat % 2 ^ 32) = .ok d →
      ({ s with seq := s.seq + 1 } : State).tierRequest s.seq (x.toNat % 2 ^ 32)
        { queue := q, asid := s.me.asid s.cur.2, toIn := false, cl := s.cur.1 } = (t, r) →
      (r ≠ .refused → s.copyFrozen (pageDie (x.toNat % 2 ^ 32)) = false) →
      (r = .started → s.aEcc d.addr.toNat (s.adie (pageDie (x.toNat % 2 ^ 32))).pageSize = .ok ()) →
      AWord s (.tierout w) 3 (t.putOpnd w.dst (if r = .refused then 0 else 1))

/-- What KVAPP reads before it looks at the page: the row or entry, the position below the cap, the query, the token image (R286). -/
def appendReads (s : State) (w : AForm) (x pos : Word) (a : AEng) (img : List Byte) : Prop :=
  s.aHold true = .ok () ∧ s.srcS w.sa 2 (ftBit w 2) = .ok x ∧ s.srcS w.sb 3 (ftBit w 3) = .ok pos ∧ s.query = .ok a ∧
    s.tokenImage a w = .ok img ∧ pos.toNat % 2 ^ 32 / 32 < w.imm.toNat % 65536

/-- An append works with what it has read, in a state: a new one reads now and makes its fork, one that waits has read before (R283, R286). -/
def appendHas (s t : State) (w : AForm) (beam : Bool) (r : Append) : Prop :=
  (s.ctx.phase = .body ∧ s.readAppend w beam = .ok (r, t)) ∨ (s.ctx.phase = .kvapp r ∧ t = s)

/-- The row an append goes to: KVAPP names it, KVAPP.beam names a Beam Map entry, here one without a fork (R286). -/
def appendRow (s : State) (w : AForm) (x : Word) (i : Instr) (row : Nat) : Prop :=
  (i = .kvapp w ∧ x.toNat % 4 = 0 ∧ row = x.toNat) ∨
    (i = .kvappBeam w ∧ x.toNat < 256 ∧ beamV (s.beam x.toNat) = true ∧ s.beamOther (s.beam x.toNat) = false ∧
      beamFork (s.beam x.toNat) = false ∧ row = beamRow (s.beam x.toNat) * 64)

/-- The views of rows before and after BMAP.ro: row, blocks, and whether the view is a new one (R284). -/
def beamViews (s : State) (e n : Nat) (par : Nat → Nat) : List (Nat × Nat × Bool) :=
  ((List.range n).map fun b => (beamRow (s.beam (e + b)), beamNb (s.beam (e + b)), false)) ++
    (List.range n).map fun b => (beamRow (s.beam (e + par b)), beamNb (s.beam (e + par b)), true)

end Sys2Proof.Claims

open Sys2Proof Sys2Proof.Machine Sys2Proof.Claims

/-- R276 to R285, R287 to R292: the words of the A engine complete with what their rules state, and nothing else changes. The model's choices
here: which tokens of another A-die an ASTEP shows (logs 15 and 70), that an effect stands at the issue step (log 15), and which free node
number PXINS takes (log 17). -/
def Obligations.AttentionWords : Prop :=
  ∀ (i : Instr) (n : Nat) (s u : State), AWord s i n u → Straight s n → Gives i s u

/-- R281: merging gives the same bits with the two rows exchanged. -/
def Obligations.MergeCommutes : Prop :=
  ∀ (x y : ARow), x.acc.length = y.acc.length → mergeRow x y = mergeRow y x

/-- R283, R286: KVAPP and KVAPP.beam, from what they have read once, complete with the outcome of the append and its predicate, or wait for
the page. That one which waits keeps what it has read, and the page that a copy-on-write will take, and appends in one later step, is the
model's reading (log 15). -/
def Sys2Proof.Claims.AppendsComplete : Prop :=
  ∀ (w : AForm) (s t u : State) (beam : Bool) (r : Append) (i : Instr), i = (if beam then .kvappBeam w else .kvapp w) → appendHas s t w beam r →
    (∀ ok, t.appendNow t.me.a r = .ok (.done u ok) → Straight u 3 →
      Gives i s (u.putOpnd w.dst (if ok then 1 else 0))) ∧
    ∀ q, t.appendNow t.me.a r = .ok (.later u q) → exec i s = .next (u.inPhase (.kvapp q)).used

/-- R286: an append to a page that its task alone holds, in tier 0, not read-only, at slot FILL: the token image stands in the slot, FILL
is the slot's successor, SEQ has advanced by two, and every other byte the module stores is as it was. -/
def Sys2Proof.Claims.AppendedToken : Prop :=
  ∀ (s : State) (i : Instr) (w : AForm) (x pos : Word) (a : AEng) (img : List Byte) (row : Nat) (d : Desc) (p : Nat),
    s.ctx.phase = .body → appendReads s w x pos a img → appendRow s w x i row →
    s.aEntry (row + 4 * (pos.toNat % 2 ^ 32 / 32)) = .ok p → p ≠ 0xFFFFFFFF → s.aDesc p = .ok d →
    d.ro = false → pos.toNat % 32 = d.fill → d.tier = 0 → d.refc.toNat ≤ 1 → d.shared = false →
    s.aPage s.aMaster true (slotPa a d a.kvh d.fill) a.hb = .ok () →
    s.isMem (slotPa a d a.kvh d.fill) = true → s.badAt (slotPa a d a.kvh d.fill) img.length = false →
    (∀ k, k < img.length → s.isRo (slotPa a d a.kvh d.fill + k) = false) → Straight s 3 →
    ∃ t, exec i s = .next t ∧ (∀ j : BitVec 3, w.dst = .p j → t.ctx.getP j.toNat = true) ∧
      (t.page p).fill = d.fill + 1 ∧ (t.page p).seq = d.seq + 2 ∧
      (∀ k, k < img.length → SMap.get 0 t.mem (slotPa a d a.kvh d.fill + k) = img.getD k 0) ∧
      (t.page p).refc = d.refc ∧ (t.page p).addr = d.addr ∧
      (∀ q, q ≠ p → q < 2 ^ 32 → p < 2 ^ 32 → t.page q = s.page q) ∧
      ∀ x, x < slotPa a d a.kvh d.fill ∨ slotPa a d a.kvh d.fill + img.length ≤ x → SMap.get 0 t.mem x = SMap.get 0 s.mem x

/-- R284: BMAP.ro gives each entry the row and the blocks of its parent, keeps its owner, forks every viewer of a row but the lowest, and
changes no other entry of the Beam Map, no byte of memory and no row. -/
def Obligations.BeamReorder : Prop :=
  ∀ (w : AForm) (s : State) (e : Word) (pv : VWord) (n : Nat) (ds : List (Nat × Int)),
    n = w.imm.toNat % 64 + 1 → s.aHold false = .ok () → s.srcS w.sa 2 (ftBit w 2) = .ok e → s.srcV w.sb 3 (ftBit w 3) = .ok pv →
    e.toNat + n ≤ 256 → (∀ b, b < n → beamV (s.beam (e.toNat + b)) = true ∧ s.beamOther (s.beam (e.toNat + b)) = false ∧ elemOf 32 b pv.toNat < n) →
    s.copyFrozen s.myA = false →
    s.rowsPages (beamViews s e.toNat n fun b => elemOf 32 b pv.toNat)
      (distinct (((List.range n).map fun b => beamRow (s.beam (e.toNat + b))) ++
        (List.range n).map fun b => beamRow (s.beam (e.toNat + elemOf 32 b pv.toNat)))) = .ok ds → Straight s 3 →
    ∃ u, Gives (.bmapRo w) s u ∧ u.mem = s.mem ∧
      (∀ i, i < e.toNat ∨ e.toNat + n ≤ i → u.beam i = s.beam i) ∧
      ∀ b, b < n →
        beamV (u.beam (e.toNat + b)) = true ∧ beamRow (u.beam (e.toNat + b)) = beamRow (s.beam (e.toNat + elemOf 32 b pv.toNat)) ∧
        beamNb (u.beam (e.toNat + b)) = beamNb (s.beam (e.toNat + elemOf 32 b pv.toNat)) ∧
        beamAsid (u.beam (e.toNat + b)) = beamAsid (s.beam (e.toNat + b)) ∧
        (beamFork (u.beam (e.toNat + b)) = true ↔
          ∃ c, c < b ∧ beamRow (s.beam (e.toNat + elemOf 32 c pv.toNat)) = beamRow (s.beam (e.toNat + elemOf 32 b pv.toNat)))

/-- R286: KVAPP. What one that waits keeps, and that it then appends in one step, is the model's reading (log 15). -/
def Obligations.Appends : Prop := Sys2Proof.Claims.AppendsComplete ∧ Sys2Proof.Claims.AppendedToken

/-! ### Distributors (03 R33, R39 to R57) -/

namespace Sys2Proof.Claims

open Sys2Proof.Machine

/-- A hub core runs and is not frozen (01 R26, 31 R384). -/
def CoreOn (s : State) (core : Nat) : Prop := core < 16 ∧ s.hub.coresRun.getLsbD core = true ∧ (s.sup 12).frz.getLsbD core = false

/-- A task that has entered a Distributor, with what it waits for and what has signalled it early (03 R44, R45, R47). -/
def taskOf (q : Dist) (r : BitVec 1024) : Task :=
  { tid := recTid r, rcd := r, seq := q.nseq, waits := (q.tasks.filter fun x => dependsOn r x.rcd).map (·.seq),
    cnt := recDepn r - (SMap.get { count := 0, tick := 0 } q.early (recTid r).toNat).count, released := false, ready := none, place := .waiting,
    issued := 0, xst := false, wrel := false, holds := none, missed := [], deadline := recDeadline r, ranOn := none, issueNo := 0, sram := [] }

/-- A Distributor with one more task. -/
def withTask (q : Dist) (r : BitVec 1024) : Dist :=
  { q with tasks := q.tasks ++ [taskOf q r], nseq := q.nseq + 1, early := SMap.del q.early (recTid r).toNat }

/-- A task that waits only for its release (03 R46). -/
def awaitsRelease (x : Task) : Prop := x.waits = [] ∧ x.cnt = 0 ∧ x.released = false ∧ x.place = .waiting

/-- The task after its release, last of the ready tasks (03 R53, R56). -/
def releasedAt (s : State) (t : Nat) (tid : BitVec 32) : State :=
  (s.modTask t tid fun x => { x with released := true, holds := if recKeyed x.rcd then s.genNow t else none, ready := some ((s.dist t).norder, s.ticksOf t) }).modDist t
    fun q => { q with norder := (s.dist t).norder + 1 }

/-- What the events of a Distributor do. -/
inductive DistEvent (s : State) : Instr → State → Prop
  | notUp (core t r) : CoreOn s core → t < 12 → s.hub.dieUp t = false → DistEvent s (.hubSubmission core t r) { s with bus := .failed }
  | full (core t r) : CoreOn s core → t < 12 → s.hub.dieUp t = true → 512 ≤ (s.dist t).tasks.length → DistEvent s (.hubSubmission core t ⟨r, none⟩) { s with bus := .busy }
  | fullRange (core t r f n) : CoreOn s core → t < 12 → s.hub.dieUp t = true → 512 ≤ (s.dist t).tasks.length →
      DistEvent s (.hubSubmission core t ⟨r, some (f, n)⟩) { s with bus := .busy }
  | launched (core t r f n m) : CoreOn s core → t < 12 → s.hub.dieUp t = true → (s.dist t).tasks.length < 512 →
      s.masterHere (s.partOf t) = some m →
      DistEvent s (.hubSubmission core t ⟨r, some (f, n)⟩)
        { (s.launchOver (s.liveDies (s.partOf t)) (s.farLive (s.partOf t)) r f.toNat n.toNat (0xA00 + core)) with
          bus := .done [], free := s.free + 1 }
  | launchedFar (core t r f n) : CoreOn s core → t < 12 → s.hub.dieUp t = true → (s.dist t).tasks.length < 512 →
      s.masterHere (s.partOf t) = none →
      DistEvent s (.hubSubmission core t ⟨r, some (f, n)⟩) { s with bus := .done [], free := s.free + 1 }
  | bad (core t r) : CoreOn s core → t < 12 → s.hub.dieUp t = true → (s.dist t).tasks.length < 512 → s.recOk t r = false →
      DistEvent s (.hubSubmission core t ⟨r, none⟩) { (s.logFault t (Fault.Rec.plain .taskRef (0xA00 + core))) with bus := .done [] }
  | submit (core t r) : CoreOn s core → t < 12 → s.hub.dieUp t = true → (s.dist t).tasks.length < 512 → s.recOk t r = true →
      recSafe r = false ∨ 8 ≤ (s.dist t).master → DistEvent s (.hubSubmission core t ⟨r, none⟩) { (s.modDist t fun q => withTask q r) with bus := .done [] }
  | submitSafe (core t r) : CoreOn s core → t < 12 → s.hub.dieUp t = true → (s.dist t).tasks.length < 512 → s.recOk t r = true → recSafe r = true →
      (s.dist t).master < 8 → DistEvent s (.hubSubmission core t ⟨r, none⟩) { ((s.modDist t fun q => withTask q r).modDist (s.dist t).master fun m =>
        { m with kept := m.kept ++
          [{ die := t, tid := recTid r, rcd := r, first := (s.paramRange t r).1, count := (s.paramRange t r).2, src := 0xA00 + core }] }) with
            bus := .done [] }
  | expired (t tid e) : SMap.get? (s.dist t).early tid.toNat = some e → e.tick + 2 ^ 22 ≤ s.ticksOf t →
      DistEvent s (.earlySignalExpiry t tid) ((s.modDist t fun q => { q with early := SMap.del q.early tid.toNat }).logFault t
        { Fault.Rec.plain .earlyExp 0xFFF with tid := tid.toNat, info := e.count })
  | early (t tid e) : SMap.get? (s.dist t).early tid.toNat = some e → s.ticksOf t < e.tick + 2 ^ 22 → DistEvent s (.earlySignalExpiry t tid) s
  | release (t tid x) : (s.dist t).tasks.find? (fun x => x.tid == tid) = some x → awaitsRelease x → recRelt x.rcd ≤ (s.tickOf t).toNat →
      (recKeyed x.rcd = false ∨ ((s.ring t).stall = false ∧ ∃ g, s.genNow t = some g ∧ g.tag = recKey x.rcd)) →
      DistEvent s (.taskRelease t tid) (releasedAt s t tid)
  | heldBack (t tid x) : (s.dist t).tasks.find? (fun x => x.tid == tid) = some x →
      (¬ awaitsRelease x ∨ (s.tickOf t).toNat < recRelt x.rcd ∨
        (recKeyed x.rcd = true ∧ ((s.ring t).stall = true ∨ ∀ g, s.genNow t = some g → g.tag ≠ recKey x.rcd))) →
      DistEvent s (.taskRelease t tid) s
  | source (a d) : a < 4 → s.cycle.toNat % 64 = 0 → s.sourceFor a = some d → (d ≠ (s.dist (8 + a)).srcDie (8 + a) ∨ (s.dist (8 + a)).held = true) →
      DistEvent s (.timingSourceChange a) (s.modDist (8 + a) fun q => { q with
        src := some d, held := false, tasks := q.tasks.map fun x => { x with deadline :=
          (((x.deadline >>> 16).setWidth 48 + ((s.ring d).frame - s.frameOf (8 + a))).setWidth 64 <<< 16) ||| (x.deadline &&& 0xFFFF) } })
  | midTick (a) : s.cycle.toNat % 64 ≠ 0 → DistEvent s (.timingSourceChange a) s
  | noSource (a) : a < 4 → s.cycle.toNat % 64 = 0 → s.sourceFor a = none → (s.dist (8 + a)).held = false →
      DistEvent s (.timingSourceChange a) (s.modDist (8 + a) fun q => { q with
        held := true, hframe := s.frameOf (8 + a), htick := s.tickOf (8 + a), hrot := s.rotOf (8 + a) })
  | election (t m) : t < 12 → DistEvent s (.distributorMessageArrival (.election t m)) (s.modDist t fun q => { q with master := m })
  | launch (t r m f n) : t < 12 → s.hub.dieUp t = true → DistEvent s (.distributorMessageArrival (.launch t r m f n)) (s.launchPart t r f.toNat n.toNat m.toNat)
  | reissue (t r f n) : t < 12 → s.hub.dieUp t = true →
      DistEvent s (.distributorMessageArrival (.reissue t r f n)) (s.launchPart t r f.toNat n.toNat 0xFFF)
  | notTaken (t r m f n) : s.hub.dieUp t = false →
      DistEvent s (.distributorMessageArrival (.launch t r m f n)) s
  | ringRun (on) : DistEvent s (.distributorMessageArrival (.ringRun on)) (s.modHub fun h => { h with farRun := on })

end Sys2Proof.Claims

open Sys2Proof Sys2Proof.Machine Sys2Proof.Claims

/-- R40, R44 to R49, R52, R53: a submission (a full Distributor answers busy and takes nothing), the expiry of an early signal, a release,
a change of timing source at a tick boundary and a message to a Distributor do what their rules state and nothing else. The model's choices
here: the index range of a launch comes with its submission, and is cut over the live dies of the ring, those of other modules behind this
one's, by a master of this module (log 49); a message says whether the ring's members in other modules run (log 28). -/
def Obligations.DistributorEvents : Prop := ∀ (i : Instr) (s u : State), DistEvent s i u → exec i s = .next u

/-- R31, R56, R92: the ready task that heads the order is issued to a free cluster: its C engine starts at ENTRY with PARAM and the task's
ID in s0 and s1, every other register at its start value; other clusters and memory are as they were. The model's choice here: engines 1 to 4 have the trap
registers and every other field of a context after reset, and PROGC stays (log 48). -/
def Obligations.TaskStarts : Prop :=
  ∀ (s : State) (t c : Nat) (x : Task), dieOf c = t → c < 320 → s.openCluster c = true → firstReady (s.readyFor t c) = some x →
    x.place = .waiting →
    ∃ u, exec (.taskIssue t c) s = .next u ∧ (u.cl c).task = some x.rcd ∧ (u.cl c).tid = recTid x.rcd ∧
      ((u.cl c).cx 0).run = .running ∧ ((u.cl c).cx 0).pc = recEntry x.rcd 0 ∧ ((u.cl c).cx 0).getS 0 = recParam x.rcd ∧
      ((u.cl c).cx 0).getS 1 = (recTid x.rcd).setWidth 64 ∧ (∀ n, 2 ≤ n → ((u.cl c).cx 0).getS n = 0) ∧
      (∀ e, 1 ≤ e → e ≤ 4 → (u.cl c).cx e = Ctx.reset) ∧ (∀ n, (u.cl c).getV n = 0) ∧ (∀ n, (u.cl c).getK n = 0) ∧
      (∀ n, (u.cl c).event n = 0) ∧ (u.cl c).vflags = 0 ∧ (u.cl c).vmode = 1 ∧ (u.cl c).mmode = 1 ∧ (u.cl c).m = MEng.reset ∧
      (u.cl c).a = AEng.reset ∧ (u.cl c).bankctl = (s.cl c).bankctl ∧ (u.cl c).progc = (s.cl c).progc ∧ (u.cl c).ecntw = (s.cl c).ecntw ∧
      (∀ y ∈ (u.dist t).tasks, y.tid = x.tid → y.place = .running c ∧ y.ready = none) ∧ u.mem = s.mem ∧ ∀ d, d ≠ c → u.cl d = s.cl d

/-- R33: a task whose C engine has arrived, with nothing left in flight and no Discard against it, retires: it leaves its Distributor, no task waits for it, its
cluster is free with idle engines and empty queues; memory is as it was but for what its pending marks and drops record, and for parts of a launch that waited for room there. A killed cluster
is freed likewise. A store of another cluster that a scope already sees may be noted to happen before what comes after the retirement (log
70). -/
def Obligations.TaskRetires : Prop :=
  ∀ (s : State) (c : Nat),
    (∀ x, s.taskOn c = some x → (s.sup (dieOf c)).cmd ≠ some (.kill c) → s.beingDropped c = false → ((s.cl c).cx 0).run = .arrived → s.quiet c = true →
      (s.cl c).pend = [] → (s.cl c).land = [] → ((s.cl c).cx 5).trapHandler = false → ((s.cl c).cx 6).trapHandler = false →
      (s.cl c).marks = [] → (s.cl c).m.drop = [] →
      ∃ u, exec (.taskRetirement c) s = .next u ∧ (u.cl c).task = none ∧ (u.cl c).q = [] ∧ (∀ e, e < 5 → ((u.cl c).cx e).run = .idle) ∧
        ((s.dist (dieOf c)).todo = [] →
        (∀ y ∈ (u.dist (dieOf c)).tasks, y.tid ≠ x.tid ∧ x.seq ∉ y.waits) ∧
        (∀ y ∈ (s.dist (dieOf c)).tasks, y.tid ≠ x.tid → ∃ z ∈ (u.dist (dieOf c)).tasks, z.tid = y.tid ∧ z.rcd = y.rcd ∧ z.place = y.place) ∧
        u.mem = s.mem ∧ ∀ d, d ≠ c → { u.cl d with mq := [] } = { s.cl d with mq := [] } ∧
          ((∀ a ∈ (s.cl d).mq, a.vis = none) → u.cl d = s.cl d))) ∧
    ((s.sup (dieOf c)).cmd = some (.kill c) → s.quiet c = true →
      ∃ u, exec (.taskRetirement c) s = .next u ∧ (u.cl c).task = none ∧ (u.cl c).halted = false ∧
        (u.sup (dieOf c)).rspDone = true ∧ (u.sup (dieOf c)).rspOk = true ∧ (u.sup (dieOf c)).cmd = none ∧
        (u.sup (dieOf c)).esc.getLsbD (localOf c) = false ∧ (u.sup (dieOf c)).frz.getLsbD (localOf c) = false)

/-! ### The ring (23 R318 to R327) -/

namespace Sys2Proof.Claims

open Sys2Proof.Machine

/-- The ring of die d runs, and when it leaves the module every member of this one has RUN set (31 R394; of the other modules' members
nothing is known here, log 28). -/
def RingRuns (s : State) (d : Nat) : Prop := d < 8 ∧ (s.ring d).run = true ∧ (s.ring d).halted = false ∧ s.ringOn d = true

/-- A tick of a running die ends, with the last of its 64 cycles (00 R6). -/
def LastCycle (s : State) (d : Nat) : Prop := 64 * ((s.ring d).ticks + 1) ≤ s.cycle.toNat + 1

/-- A tick of a running die with an open window ends. -/
def TickEnds (s : State) (d : Nat) : Prop := RingRuns s d ∧ LastCycle s d ∧ (s.ring d).inWin = true

/-- The event log's entry for a repair (23 R327). -/
def repairRec (s : State) (m why lost nrei first flg : Nat) : List Byte :=
  natBytes 1 5 ++ natBytes 1 why ++ natBytes 2 lost ++ natBytes 4 nrei ++ natBytes 8 s.cycle.toNat ++ natBytes 8 (s.ring m).frame.toNat ++
    natBytes 4 first ++ natBytes 1 flg ++ natBytes 35 0

/-- One more tick counted. -/
def ticked (s : State) (d : Nat) : State := s.modRing d fun r => { r with ticks := r.ticks + 1 }

/-- A starved tick counted. -/
def starvedTick (s : State) (d : Nat) : State :=
  s.modRing d fun r => { r with ticks := r.ticks + 1, starve := true, starveN := if r.starveN = 0xFFFF then r.starveN else r.starveN + 1 }

/-- What the events of the ring do. -/
inductive RingEvent (s : State) : Instr → State → Prop
  | within (d) : TickEnds s d → (s.ring d).stall = false → (s.ring d).tick.toNat + 1 < (s.ring d).flen.toNat →
      (s.holders d ≠ [] ∨ (s.ring d).tick.toNat + 1 < (s.ring d).flenMin.toNat ∨ (s.ring d).slackMax ≤ (s.ring d).slack) →
      RingEvent s (.tickEnd d) (s.modRing d fun r => { r with ticks := r.ticks + 1, tick := r.tick + 1 })
  | earlyRelease (d) : TickEnds s d → (s.ring d).stall = false → (s.ring d).tick.toNat + 1 < (s.ring d).flen.toNat → s.holders d = [] →
      (s.ring d).flenMin.toNat ≤ (s.ring d).tick.toNat + 1 → (s.ring d).slack < (s.ring d).slackMax →
      RingEvent s (.tickEnd d) (((ticked s d).modRing d fun r => { r with
        slack := BitVec.ofNat 16 (min r.slackMax.toNat (r.slack.toNat + r.flen.toNat - 1 - r.tick.toNat)) }).release d)
  | onTime (d) : TickEnds s d → (s.ring d).stall = false → (s.ring d).flen.toNat ≤ (s.ring d).tick.toNat + 1 → s.holders d = [] →
      RingEvent s (.tickEnd d) ((ticked s d).release d)
  | stalls (d) : TickEnds s d → (s.ring d).stall = false → (s.ring d).flen.toNat ≤ (s.ring d).tick.toNat + 1 → s.holders d ≠ [] →
      1 ≤ (s.ring d).slack.toNat →
      RingEvent s (.tickEnd d) (s.modRing d fun r => { r with
        ticks := r.ticks + 1, stall := true
        stallers := (s.holders d).map fun t => { tid := t.tid, src := s.srcOfTask d t, ticks := 0, holding := true } })
  | skips (d) : TickEnds s d → (s.ring d).stall = false → (s.ring d).flen.toNat ≤ (s.ring d).tick.toNat + 1 → s.holders d ≠ [] →
      (s.ring d).slack = 0 → RingEvent s (.tickEnd d) ((ticked s d).skipWindow d ((ticked s d).asStallers d))
  | stallGoesOn (d) : TickEnds s d → (s.ring d).stall = true → s.holders d ≠ [] → (s.ring d).slack ≠ 1 →
      RingEvent s (.tickEnd d) (s.modRing d fun r => { r with
        ticks := r.ticks + 1, slack := r.slack - 1, stallers := s.stallTick d (s.holders d) r.stallers })
  | stallReleased (d) : TickEnds s d → (s.ring d).stall = true → s.holders d = [] →
      RingEvent s (.tickEnd d) (((s.modRing d fun r => { r with
        ticks := r.ticks + 1, slack := r.slack - 1, stallers := s.stallTick d [] r.stallers }).slips d (s.stallTick d [] (s.ring d).stallers)).release d)
  | stallSkips (d) : TickEnds s d → (s.ring d).stall = true → s.holders d ≠ [] → (s.ring d).slack = 1 →
      RingEvent s (.tickEnd d) ((s.modRing d fun r => { r with
        ticks := r.ticks + 1, slack := 0, stallers := s.stallTick d (s.holders d) r.stallers }).skipWindow d
          (s.stallTick d (s.holders d) (s.ring d).stallers))
  | notStarted (d) : d < 8 → (s.ring d).run = true → (s.ring d).halted = false → s.ringOn d = false → LastCycle s d →
      RingEvent s (.tickEnd d) (ticked s d)
  | starved (d) : RingRuns s d → LastCycle s d →
      (s.ring d).inWin = false → (s.ring d).fifo = [] → (s.ring d).incoming = none →
      RingEvent s (.tickEnd d) (starvedTick s d)
  | starvedFills (d w ws) : RingRuns s d → LastCycle s d → (s.ring d).inWin = false → (s.ring d).incoming = none → (s.ring d).fifo = w :: ws →
      w.lost = false → w.bad = [] → (s.ring d).fwd.length < 2 → (s.sup d).agfrz = false →
      RingEvent s (.tickEnd d) (((starvedTick s d).modRing d fun r => { r with incoming := some w, fifo := ws }).startFrame d)
  | starvedWaits (d w ws) : RingRuns s d → LastCycle s d → (s.ring d).inWin = false → (s.ring d).incoming = none → (s.ring d).fifo = w :: ws →
      (w.lost = true ∨ w.bad ≠ [] ∨ 2 ≤ (s.ring d).fwd.length ∨ (s.sup d).agfrz = true) →
      RingEvent s (.tickEnd d) (starvedTick s d)
  | starvedStarts (d w) : RingRuns s d → LastCycle s d → (s.ring d).inWin = false → (s.ring d).incoming = some w →
      RingEvent s (.tickEnd d) ((starvedTick s d).startFrame d)
  | start (d) : RingRuns s d → (s.ring d).inWin = false → (s.ring d).incoming ≠ none →
      s.cycle.toNat = 64 * (s.ring d).ticks → RingEvent s (.frameStart d) (s.startFrame d)
  | forward (d w ws u) : (s.ring d).fwd = w :: ws → s.forwarderOn d = true → w.lost = false → w.bad = [] → s.ringDead d = false →
      s.succHere d = some u → s.freeSlots u ≠ 0 → (s.ring u).lost = [] →
      RingEvent s (.segmentForward d) ((s.modRing d fun r => { r with fwd := ws, onWay := r.onWay ++ [{ w with moved := s.cycle.toNat }], lastOut := BitVec.ofNat 20 w.pos }).fill d)
  | noCredit (d w ws u) : (s.ring d).fwd = w :: ws → s.succHere d = some u → s.freeSlots u = 0 → RingEvent s (.segmentForward d) s
  | arrive (d p w ws ext) : s.forwarderOn d = true →
      (List.range 8).find? (fun p => s.succHere p == some d && !(s.ring p).onWay.isEmpty && !(s.ring d).bypass.getLsbD p) = some p →
      s.ringDead p = false → (s.ring p).onWay = w :: ws →
      RingEvent s (.segmentArrival d ext) (((s.modRing p fun q => { q with onWay := ws }).modRing d fun r => { r with
        fifo := r.fifo ++ [{ w with lost := !w.accepted }], lastIn := BitVec.ofNat 20 w.pos }).fill d)
  | refetch (d p) : RingRuns s d → s.dieHeld d = false →
      (∃ w ∈ (s.ring d).fifo ++ (s.ring d).fwd ++ (s.ring d).win.toList ++ (s.ring d).incoming.toList, w.pos = p ∧ (w.lost = true ∨ w.bad ≠ [])) →
      (s.sup d).agfrz = false → (s.isFar (s.backingPa d p) = true ∨ s.mayAccess (0xA18 + d) bitR (s.backingPa d p) = true) →
      RingEvent s (.segmentRefetch d p) ((s.modRing d fun r => { r with
        fifo := r.fifo.map (Seg.mend p (s.backing d p)), fwd := r.fwd.map (Seg.mend p (s.backing d p))
        win := r.win.map (Seg.mend p (s.backing d p)), incoming := r.incoming.map (Seg.mend p (s.backing d p)) }).fill d)
  | reinject (d p qs) : RingRuns s d → s.dieHeld (8 + d / 2) = false →
      (∀ w ∈ (s.ring d).fifo ++ (s.ring d).fwd ++ (s.ring d).win.toList ++ (s.ring d).incoming.toList, w.pos = p → w.lost = false ∧ w.bad = []) →
      (s.ring d).lost = p :: qs → s.freeSlots d ≠ 0 → (s.sup (8 + d / 2)).agfrz = false → (s.adie (d / 2)).moves = [] →
      (s.isFar (s.backingPa d p) = true ∨ s.mayAccess (0xA10 + d / 2) bitR (s.backingPa d p) = true) →
      RingEvent s (.segmentRefetch d p) (((s.modRing d fun r => { r with lost := qs }).modRing d fun r => { r with
        fifo := r.fifo ++ [{ s.backing d p with lost := !(s.backing d p).accepted }], lastIn := BitVec.ofNat 20 (s.backing d p).pos }).fill d)
  | timeout (d lost) : RingRuns s d → d ≠ lost → lost < 8 → (s.ring d).since + (s.ring d).hbto.toNat ≤ (s.ring d).ticks → (s.succHere d = some lost ∨ s.succHere lost = some d) →
      RingEvent s (.heartbeatTimeout d lost) (s.repair lost 1)
  | timeoutFar (d lost) : RingRuns s d → 256 ≤ lost → (s.ring d).since + (s.ring d).hbto.toNat ≤ (s.ring d).ticks → s.neighbours d lost = true →
      RingEvent s (.heartbeatTimeout d lost) (s.repairFar d lost)
  | beating (d lost) : (s.ring d).ticks < (s.ring d).since + (s.ring d).hbto.toNat → RingEvent s (.heartbeatTimeout d lost) s
  | storeError (d) : RingEvent s (.segmentStoreError d) (s.repair d 2)
  | repaired (d) : d < 8 → (s.ring d).repairing = true → (∀ e, e < 8 → s.partOf e = s.partOf d → (s.ring e).lost = []) →
      RingEvent s (.repairComplete d) (((List.range 8).filter fun e => s.partOf e == s.partOf d).foldl
        (fun s e => s.modRing e fun r => { r with repairing := false }) s)
  | notRepaired (d e) : e < 8 → s.partOf e = s.partOf d → (s.ring e).lost ≠ [] → RingEvent s (.repairComplete d) s

end Sys2Proof.Claims

open Sys2Proof Sys2Proof.Machine Sys2Proof.Claims

/-- R318, R320 to R323, R325 to R327: the end of a tick follows the window's table; frames start, segments are forwarded, arrive and are
fetched again, losses are repaired, each as its rule states. What a repair does with a lost neighbour in another module, and its REPAIR entry
where the coordinator lies there, rest on the model's choices of logs 28, 29 and 49. -/
def Obligations.RingEvents : Prop := ∀ (i : Instr) (s u : State), RingEvent s i u → exec i s = .next u

/-- R320, R322: a frame that starts makes the incoming window current at tick 0, its stall over, its format bytes latched, and ROT
advances with the first segment alone; a release advances FRAME by one. Memory and clusters are as they were. -/
def Sys2Proof.Claims.FramesTurn : Prop :=
  ∀ (s : State) (d : Nat),
    (∀ w, (s.ring d).incoming = some w →
      ((s.startFrame d).ring d).win = some w ∧ ((s.startFrame d).ring d).inWin = true ∧ ((s.startFrame d).ring d).tick = 0 ∧
      ((s.startFrame d).ring d).stall = false ∧ ((s.startFrame d).ring d).fmts = w.fmt ∧
      ((s.startFrame d).ring d).rot = (if w.first then (s.ring d).rot + 1 else (s.ring d).rot) ∧
      ((s.startFrame d).ring d).frame = (s.ring d).frame ∧ (s.startFrame d).mem = s.mem ∧ (s.startFrame d).clusters = s.clusters) ∧
    ((s.release d).ring d).frame = (s.ring d).frame + 1 ∧ ((s.release d).ring d).stall = false ∧ (s.release d).mem = s.mem ∧
    (s.release d).clusters = s.clusters ∧ (s.release d).sups = s.sups ∧
    ∀ e, e ≠ d → (s.startFrame d).ring e = s.ring e ∧ (s.release d).ring e = s.ring e

/-- R326, R327: a lost ring member is bypassed by every live member of its partition, its tasks and segments are gone, and its clusters are
halted. Where the ring may lose a member and its predecessor reaches its successor, the live members are repairing. A ring that may lose
none halts on every live member, and the log of the coordinator, where that is a die of this module, takes a REPAIR entry whose FLG says so.
That the lost die's clusters are halted, and that such a ring halts on every live member, is the model's reading (log 51). -/
def Sys2Proof.Claims.LossesAreRepaired : Prop :=
  ∀ (s : State) (lost why m : Nat), lost < 8 → (s.ring lost).run = true → s.bypassed lost = false →
    ((s.liveDies (s.partOf lost)).filter (· != lost)).head? = some m →
    (∀ d, d ∈ s.liveDies (s.partOf lost) → d ≠ lost → ((s.repair lost why).ring d).bypass.getLsbD lost = true) ∧
    ((s.repair lost why).ring lost).run = false ∧ ((s.repair lost why).ring lost).fifo = [] ∧ ((s.repair lost why).ring lost).fwd = [] ∧
    (∀ c, c ∈ dieClusters lost → ((s.repair lost why).cl c).halted = true) ∧
    ((s.repair lost why).dist lost).tasks = [] ∧ ((s.repair lost why).dist lost).early = [] ∧
    ((s.ring lost).rcap = true →
      (∀ q, q < 8 → q ≠ lost → s.partOf q = s.partOf lost → s.succHere q = some lost → (s.ring q).run = true →
        (s.modRing q fun r => { r with succMod := (s.ring lost).succMod, succD := (s.ring lost).succD }).ringDead q = false) →
      ∀ d, d ∈ s.liveDies (s.partOf lost) → d ≠ lost →
        ((s.repair lost why).ring d).repairing = true ∧ ((s.repair lost why).ring d).halted = (s.ring d).halted) ∧
    ((s.ring lost).rcap = false →
      (∀ d, d ∈ s.liveDies (s.partOf lost) → d ≠ lost → ((s.repair lost why).ring d).halted = true) ∧
      ((s.dist m).master < 8 → repairRec s m why (s.hub.modNo.toNat * 256 + lost) 0 0 ((if (s.dist lost).master = lost then 1 else 0) + 2) ∈
        ((s.repair lost why).sup m).evq))

/-- R320, R322, R326, R327: frames, releases, losses; halts that rest on log 51 are named at their part. -/
def Obligations.FramesAndLosses : Prop := Sys2Proof.Claims.FramesTurn ∧ Sys2Proof.Claims.LossesAreRepaired

/-! ### Pre-emption and the supervisor (29 R370 to R378, R382) -/

namespace Sys2Proof.Claims

open Sys2Proof.Machine

/-- A hub core may write an offset of configuration space (01 R25, R26). -/
def CoreMay (s : State) (core off : Nat) : Prop :=
  core < 16 ∧ s.hub.coresRun.getLsbD core = true ∧ (s.sup 12).frz.getLsbD core = false ∧ s.mayAccess (0xA00 + core) bitW (s.cfgPa off) = true

/-- A hub core may write a register of die t's supervisor block: it is the supervisor of the die's partition (29 R370). -/
def SuperMay (s : State) (core t o : Nat) : Prop := CoreMay s core (0x13000 + t * 0x100 + o) ∧ t < 12 ∧ s.superOfDie t = some core

/-- A command has ended, with OK or without (29 R371). -/
def ended (s : State) (t : Nat) (ok : Bool) : State := s.modSup t fun b => { b with rspDone := true, rspOk := ok, rspRes := 0, cmd := none }

/-- A command has begun (29 R371). -/
def begun (s : State) (t : Nat) (cmd : SupCmd) : State := s.modSup t fun b => { b with rspDone := false, rspOk := false, rspRes := 0, cmd := some cmd }

/-- Every cluster of a die held by SWAPOUT, until SWAPIN is done (29 R382, R383). -/
def allSwapped (s : State) (t : Nat) : State := (dieClusters t).foldl (fun s c => s.modCl c fun k => { k with swapped := true }) s

/-- The contexts of a cluster that have trapped resume, C engine and handlers first, as f resumes one. -/
def resumedBy (s : State) (c : Nat) (f : State → Nat → State) : State :=
  [0, 5, 6, 1, 2, 3, 4].foldl (fun s x => if ((s.cl c).cx x).run = .trapped then f s x else s) s

/-- The cluster as RETRY and SKIP leave it before its engines resume: not escalated, not halted (29 R372). -/
def unescalated (s : State) (t : Nat) (cl : BitVec 5) : State :=
  ended ((s.modSup t fun b => { b with esc := b.esc &&& ~~~(BitVec.ofNat 32 (2 ^ cl.toNat)) }).modCl (clusterNo t cl.toNat)
    fun k => { k with halted := false, traps := [] }) t true

/-- The commands and registers of a supervisor block that act at once: the register each is written at, and what it leaves. -/
inductive SupWord (s : State) (core t : Nat) : Instr → Nat → State → Prop
  | busy (i) (cl : BitVec 5) (team : BitVec 16) : (s.sup t).rspDone = false →
      (i = .retry core t cl ∨ i = .skip core t cl ∨ i = .kill core t cl ∨ i = .saveTeam core t team ∨ i = .swapout core t ∨ i = .swapin core t) →
      SupWord s core t i 0x18 (s.logFault 12 { Fault.Rec.plain .cfgIgn (0xA00 + core) with
        addr := 0x13000 + t * 0x100 + 0x18, target := s.hub.modNo.toNat * 256 + 13 })
  | retry (cl) : (s.sup t).rspDone = true → (s.sup t).esc.getLsbD cl.toNat = true → (s.sup t).frz.getLsbD cl.toNat = false →
      SupWord s core t (.retry core t cl) 0x18
        (resumedBy (unescalated s t cl) (clusterNo t cl.toNat) fun s x => s.resume (clusterNo t cl.toNat) x)
  | retryNot (cl) : (s.sup t).rspDone = true → ((s.sup t).esc.getLsbD cl.toNat = false ∨ (s.sup t).frz.getLsbD cl.toNat = true) →
      SupWord s core t (.retry core t cl) 0x18 (ended s t false)
  | skip (cl) : (s.sup t).rspDone = true → (s.sup t).esc.getLsbD cl.toNat = true → (s.sup t).frz.getLsbD cl.toNat = false →
      SupWord s core t (.skip core t cl) 0x18 (resumedBy (unescalated s t cl) (clusterNo t cl.toNat)
        fun s x => (s.resumeSkip (clusterNo t cl.toNat) x).getD (s.resume (clusterNo t cl.toNat) x))
  | skipNot (cl) : (s.sup t).rspDone = true → ((s.sup t).esc.getLsbD cl.toNat = false ∨ (s.sup t).frz.getLsbD cl.toNat = true) →
      SupWord s core t (.skip core t cl) 0x18 (ended s t false)
  | kill (cl r) : (s.sup t).rspDone = true → cl.toNat < clustersOn t → (s.cl (clusterNo t cl.toNat)).task = some r →
      SupWord s core t (.kill core t cl) 0x18
        ((begun s t (.kill (clusterNo t cl.toNat))).modCl (clusterNo t cl.toNat) fun k => { k with halted := true })
  | killNot (cl) : (s.sup t).rspDone = true → (clustersOn t ≤ cl.toNat ∨ (s.cl (clusterNo t cl.toNat)).task = none) →
      SupWord s core t (.kill core t cl) 0x18 (ended s t false)
  | save (team c) : (s.sup t).rspDone = true → (∃ x ∈ (s.dist t).tasks, recTeam x.rcd = team) → (s.dist t).pre = none →
      c ∈ dieClusters t → (s.cl c).ofTeam team = true →
      SupWord s core t (.saveTeam core t team) 0x18 ((begun s t (.save team)).modDist t fun q =>
        { q with pre := some { team := team, act := .save, noDrain := true, since := s.ticksOf t } })
  | saveLater (team p) : (s.sup t).rspDone = true → (∃ x ∈ (s.dist t).tasks, recTeam x.rcd = team) → (s.dist t).pre = some p →
      SupWord s core t (.saveTeam core t team) 0x18 (begun s t (.save team))
  | saveNot (team) : (s.sup t).rspDone = true → (∀ x ∈ (s.dist t).tasks, recTeam x.rcd ≠ team) →
      SupWord s core t (.saveTeam core t team) 0x18 (ended s t false)
  | swapout : (s.sup t).rspDone = true → 32 ≤ s.slotsFree t → (s.sup t).esc = 0 → (s.sup t).swap = [] → (s.dist t).pre = none →
      (∀ c ∈ dieClusters t, ((s.cl c).cx 5).trapHandler = false ∧ ((s.cl c).cx 6).trapHandler = false) →
      SupWord s core t (.swapout core t) 0x18 (allSwapped ((begun s t .swapout).modSup t fun b => { b with swapSeq := (s.dist t).nseq }) t)
  | swapoutNot : (s.sup t).rspDone = true → (s.slotsFree t < 32 ∨ (s.sup t).esc ≠ 0 ∨ (s.sup t).swap ≠ []) →
      SupWord s core t (.swapout core t) 0x18 (ended s t false)
  | swapin : (s.sup t).rspDone = true → (s.sup t).swap ≠ [] → SupWord s core t (.swapin core t) 0x18 (begun s t .swapin)
  | swapinNot : (s.sup t).rspDone = true → (s.sup t).swap = [] → SupWord s core t (.swapin core t) 0x18 (ended s t false)
  | frz (v) : SupWord s core t (.frz core t v) 0 (s.modSup t fun b => { b with frz := b.frz &&& ~~~v })
  | agfrz : t < 8 → SupWord s core t (.agfrz core t 1) 0x10 (s.modSup t fun b => { b with agfrz := false })
  | agfrzCopy : 8 ≤ t → SupWord s core t (.agfrz core t 1) 0x10
      ((s.modSup t fun b => { b with agfrz := false }).modADie (t - 8) fun a => a.goOn false)
  | agfrzKeep : SupWord s core t (.agfrz core t 0) 0x10 s
  | estclr (tid) : SupWord s core t (.estclr core t false tid) 0x38 (s.modDist t fun q => { q with early := SMap.del q.early tid.toNat })
  | estclrAll (tid) : SupWord s core t (.estclr core t true tid) 0x38 (s.modDist t fun q => { q with early := [] })

/-- The instructions that write a supervisor block's register, and its offset (29 R371, R372). -/
inductive SupTouch (core t : Nat) : Instr → Nat → Prop
  | retry (cl) : SupTouch core t (.retry core t cl) 0x18
  | skip (cl) : SupTouch core t (.skip core t cl) 0x18
  | kill (cl) : SupTouch core t (.kill core t cl) 0x18
  | saveTeam (team) : SupTouch core t (.saveTeam core t team) 0x18
  | swapout : SupTouch core t (.swapout core t) 0x18
  | swapin : SupTouch core t (.swapin core t) 0x18
  | frz (v) : SupTouch core t (.frz core t v) 0
  | agfrz (v) : SupTouch core t (.agfrz core t v) 0x10
  | estclr (all tid) : SupTouch core t (.estclr core t all tid) 0x38

/-- A die looks for a victim: a tick starts, and no supervisor's SAVE comes first (29 R372, R374, R375). -/
def mayCheck (s : State) (t : Nat) : Prop := (∀ team, (s.sup t).cmd ≠ some (.save team)) ∧ s.cycle.toNat % 64 = 0

/-- The steps of a pre-emption. -/
inductive PreEvent (s : State) : Instr → State → Prop
  | goesOn (t p) : t < 12 → (s.dist t).pre = some p → PreEvent s (.preemptionCheck t) (s.goOnPre t p)
  | supervisors (t team) : t < 12 → (s.dist t).pre = none → (s.sup t).cmd = some (.save team) →
      PreEvent s (.preemptionCheck t) ((s.beginPre t team .save true).saveDone t)
  | chosen (t x team) : t < 12 → (s.dist t).pre = none → mayCheck s t →
      firstReady ((s.dist t).tasks.filter fun x => s.asksFor t x && (s.victim t x).isSome) = some x → s.victim t x = some team →
      PreEvent s (.preemptionCheck t) (s.beginPre t team (chooseAct (s.drainTicks t team) (s.saveTicks t team) (s.discardTicks t team) (s.slackTicks t x)
        ((s.teamOn t team).all fun q => recRst q.2.rcd && !q.2.xst) (decide ((s.teamOn t team).length ≤ s.slotsFree t))) false)
  | midTick (t) : t < 12 → (s.dist t).pre = none → (∀ team, (s.sup t).cmd ≠ some (.save team)) → s.cycle.toNat % 64 ≠ 0 →
      PreEvent s (.preemptionCheck t) s
  | nobodyAsks (t) : t < 12 → (s.dist t).pre = none → mayCheck s t → (∀ x ∈ (s.dist t).tasks, s.asksFor t x = false ∨ s.victim t x = none) →
      PreEvent s (.preemptionCheck t) s
  | saved (c n x) : c < 320 → (s.sup (dieOf c)).cmd ≠ some .swapout → s.taskOn c = some x →
      ((s.cl c).saving = true ∨ (s.beingSaved c = true ∧ ∀ g, g ≤ 4 → ((s.cl c).cx g).atRest = true)) → s.freeShadow (dieOf c) = some n →
      s.savable c = true → PreEvent s (.saveImageComplete c) (s.saveCluster c n x)
  | notYet (c x) : c < 320 → (s.sup (dieOf c)).cmd ≠ some .swapout → s.taskOn c = some x → (s.cl c).saving = true → s.savable c = false →
      PreEvent s (.saveImageComplete c) s
  | fallsBack (t p) : (s.dist t).pre = some p → p.act = .save → p.noDrain = false → p.since + 4096 ≤ s.ticksOf t →
      PreEvent s (.saveDrainFallback t) ((dieClusters t).foldl
        (fun s c => if (s.cl c).ofTeam p.team && !(s.cl c).saving then s.modCl c Cluster.unstop else s)
        (s.modDist t fun q => { q with pre := some { p with act := .drain } }))
  | keepsSaving (t p) : (s.dist t).pre = some p → (p.act ≠ .save ∨ p.noDrain = true ∨ s.ticksOf t < p.since + 4096) →
      PreEvent s (.saveDrainFallback t) s
  | restored (c n x) : c < 320 → (s.sup (dieOf c)).cmd ≠ some .swapin → s.openCluster c = true →
      firstReady (s.readyFor (dieOf c) c) = some x → x.place = .saved n → imageOk (isRing c) (s.getShadow (dieOf c) n).img = true →
      PreEvent s (.contextRestore (dieOf c) c)
        ((((s.freeSlot (dieOf c) n).placeTask (dieOf c) c x).modCl c fun k => k.setUp x.rcd).loadSaved c (s.getShadow (dieOf c) n))
  | restoreFails (c n x) : c < 320 → (s.sup (dieOf c)).cmd ≠ some .swapin → s.openCluster c = true →
      firstReady (s.readyFor (dieOf c) c) = some x → x.place = .saved n → imageOk (isRing c) (s.getShadow (dieOf c) n).img = false →
      PreEvent s (.contextRestore (dieOf c) c) (((s.freeSlot (dieOf c) n).logFault (dieOf c)
        { Fault.Rec.plain .param (masterOf c 0) with tid := x.tid.toNat, asid := (recAsid x.rcd).toNat }).forget (dieOf c) x)

end Sys2Proof.Claims

open Sys2Proof Sys2Proof.Machine Sys2Proof.Claims

/-- R48, R370 to R372, R382: the supervisor's commands and registers, written by the supervisor of the die's partition, do what their rules
state; another core's write of any of them is ignored with a fault record, and so is a command while one is not done. The hub's own FRZ is
written by a core of SUPV, which cannot release itself. That a SAVE waits for another pre-emption in force is the model's choice (log 23), and
so is that SKIP resumes at a header which has no words to skip (log 26). -/
def Obligations.SupervisorWords : Prop :=
  (∀ (i : Instr) (core t o : Nat) (s u : State), SuperMay s core t o → SupWord s core t i o u → exec i s = .next u) ∧
  (∀ (i : Instr) (core t o : Nat) (s : State), SupTouch core t i o → t < 12 → CoreMay s core (0x13000 + t * 0x100 + o) →
    s.superOfDie t ≠ some core → exec i s = .next (s.cfgIgnored core (0x13000 + t * 0x100 + o))) ∧
  (∀ (core : Nat) (v : BitVec 32) (s : State), CoreMay s core 0x13C00 → s.hub.supv.getLsbD core = true →
    ∃ u, exec (.frz core 12 v) s = .next u ∧ ∀ j, j < 32 → (u.sup 12).frz.getLsbD j = ((s.sup 12).frz.getLsbD j && (!v.getLsbD j || decide (j = core))))

/-- R374 to R377, R381: the steps of a pre-emption do what their rules state. That of several tasks that ask the first in the order of issue is
served is the model's choice (log 23). -/
def Sys2Proof.Claims.PreemptionSteps : Prop := ∀ (i : Instr) (s u : State), PreEvent s i u → exec i s = .next u

/-- R376: the estimator's choice, row by row. -/
def Obligations.EstimatorChooses : Prop :=
  ∀ (d sv x w : Nat) (e slots : Bool),
    (d ≤ w → d ≤ 2 * sv → chooseAct d sv x w e slots = .drain) ∧
    (¬ (d ≤ w ∧ d ≤ 2 * sv) → e = true → x ≤ 2 * sv → chooseAct d sv x w e slots = .discard) ∧
    (¬ (d ≤ w ∧ d ≤ 2 * sv) → ¬ (e = true ∧ x ≤ 2 * sv) → sv ≤ w → slots = true → chooseAct d sv x w e slots = .save) ∧
    (¬ (d ≤ w ∧ d ≤ 2 * sv) → 2 * sv < x → ¬ (sv ≤ w ∧ slots = true) → e = true → chooseAct d sv x w e slots = .discard) ∧
    (¬ (d ≤ w ∧ d ≤ 2 * sv) → ¬ (sv ≤ w ∧ slots = true) → e = false → sv ≤ d → slots = true → chooseAct d sv x w e slots = .save) ∧
    (¬ (d ≤ w ∧ d ≤ 2 * sv) → ¬ (sv ≤ w ∧ slots = true) → e = false → ¬ (sv ≤ d ∧ slots = true) → chooseAct d sv x w e slots = .drain)

/-- R376, R377, R379: a saved cluster is free, its task ready and in the slot, and the slot of a ring die holds its image; the cluster's
registers go with the image, other clusters stay. -/
def Sys2Proof.Claims.SavedImage : Prop :=
  ∀ (s : State) (c n : Nat) (x : Task), s.taskOn c = some x → (s.cl c).m.drop = [] →
    ((s.saveCluster c n x).cl c).task = none ∧ ((s.saveCluster c n x).cl c).saving = false ∧
    (∀ y ∈ ((s.saveCluster c n x).dist (dieOf c)).tasks, y.tid = x.tid → y.place = .saved n ∧ y.ready ≠ none) ∧
    (dieOf c < 8 → SMap.get? ((s.saveCluster c n x).dist (dieOf c)).shadow n = some (s.saveImage c)) ∧
    ∀ d, d ≠ c → (s.saveCluster c n x).cl d = s.cl d

/-! ### Pages (25 R333, R336, R337, R340, R342 to R344) -/

namespace Sys2Proof.Claims

open Sys2Proof.Machine

/-- The Page Allocator's answer to a command (25 R343). -/
def answered (a : ADie) (ok : Bool) (res : BitVec 32) : ADie := { a with rspDone := true, rspOk := ok, rspRes := res }

/-- A page a command may name: within the table and not free (25 R344). -/
def PageNamed (q : ADie) (page : BitVec 30) : Prop := page.toNat < q.ndesc ∧ (q.descOf page.toNat).free = false

/-- The commands of PGCMD (25 R344). -/
inductive PageCmd (core a : Nat) (arg : BitVec 28) (p : BitVec 30) : Instr → Prop
  | alloc : PageCmd core a arg p (.alloc core a arg p)
  | refPage : PageCmd core a arg p (.refPage core a arg p)
  | unref : PageCmd core a arg p (.unref core a arg p)
  | setro : PageCmd core a arg p (.setro core a arg p)
  | clrro : PageCmd core a arg p (.clrro core a arg p)
  | setpin : PageCmd core a arg p (.setpin core a arg p)
  | clrpin : PageCmd core a arg p (.clrpin core a arg p)
  | evict : PageCmd core a arg p (.evict core a arg p)
  | publish : PageCmd core a arg p (.publish core a arg p)

/-- What the hub's commands leave of an A-die. -/
inductive PageWord (s : State) (core a : Nat) : Instr → ADie → Prop
  | alloc (arg p q i) : (s.adie a).allocPage 0 s.seq (s.horizon s.seq) (arg.getLsbD 0) = (q, some i) →
      PageWord s core a (.alloc core a arg p) (answered q true (BitVec.ofNat 32 (a * 2 ^ 30 + i)))
  | allocNot (arg p q) : (s.adie a).allocPage 0 s.seq (s.horizon s.seq) (arg.getLsbD 0) = (q, none) → PageWord s core a (.alloc core a arg p) (answered q false 0xFFFFFFFF)
  | refPage (arg p) : PageNamed (s.adie a) p → arg ≠ 0 → arg.toNat ≤ 65535 → ((s.adie a).descOf p.toNat).refc.toNat + arg.toNat < 2 ^ 32 →
      PageWord s core a (.refPage core a arg p) (answered ((s.adie a).modDesc p.toNat fun d => { d with refc := d.refc + arg.setWidth 32 }) true 0)
  | unref (arg p) : PageNamed (s.adie a) p → arg ≠ 0 → arg.toNat ≤ ((s.adie a).descOf p.toNat).refc.toNat →
      PageWord s core a (.unref core a arg p) (answered ((s.adie a).unref p.toNat arg.toNat s.seq) true 0)
  | unrefNot (arg p) : ((s.adie a).ndesc ≤ p.toNat ∨ ((s.adie a).descOf p.toNat).free = true ∨ arg = 0 ∨
        ((s.adie a).descOf p.toNat).refc.toNat < arg.toNat) →
      PageWord s core a (.unref core a arg p) (answered (s.adie a) false 0)
  | setro (arg p) : PageNamed (s.adie a) p →
      PageWord s core a (.setro core a arg p) (answered ((s.adie a).modDesc p.toNat fun d => { d with ro := true }) true 0)
  | clrro (arg p) : PageNamed (s.adie a) p →
      (∀ g, g < (s.adie a).pageSize / 4096 → s.isRo (((s.adie a).descOf p.toNat).addr.toNat + 4096 * g) = false) →
      PageWord s core a (.clrro core a arg p) (answered ((s.adie a).modDesc p.toNat fun d => { d with ro := false }) true 0)
  | clrroNot (arg p g) : g < (s.adie a).pageSize / 4096 → s.isRo (((s.adie a).descOf p.toNat).addr.toNat + 4096 * g) = true →
      PageWord s core a (.clrro core a arg p) (answered (s.adie a) false 0)
  | setpin (arg p) : PageNamed (s.adie a) p →
      PageWord s core a (.setpin core a arg p) (answered ((s.adie a).modDesc p.toNat fun d => { d with pinned := true }) true 0)
  | clrpin (arg p) : PageNamed (s.adie a) p →
      PageWord s core a (.clrpin core a arg p) (answered ((s.adie a).modDesc p.toNat fun d => { d with pinned := false }) true 0)
  | evict (arg p) : arg ≠ 0 → PageWord s core a (.evict core a arg p)
      (answered ((s.adie a).evictUpTo s.seq (min arg.toNat (s.adie a).nodes.length)).1 true
        (BitVec.ofNat 32 ((s.adie a).evictUpTo s.seq (min arg.toNat (s.adie a).nodes.length)).2))
  | evictNone (arg p) : arg = 0 → PageWord s core a (.evict core a arg p) (answered (s.adie a) false 0)
  | publish (arg p) : PageNamed (s.adie a) p → arg.toNat ≤ 32 → ((s.adie a).descOf p.toNat).seq.getLsbD 0 = false →
      ((s.adie a).descOf p.toNat).tier = 0 →
      PageWord s core a (.publish core a arg p) (answered { ((s.adie a).modDesc p.toNat fun d => { d with fill := arg.toNat, seq := d.seq + 2 }) with
        unseen := (s.adie a).unseen.filter fun e => e.1 != a * 2 ^ 30 + p.toNat } true 0)

end Sys2Proof.Claims

open Sys2Proof Sys2Proof.Machine Sys2Proof.Claims

/-- R336, R337, R342 to R344: the hub's commands to a page arbiter leave what their rules state and answer in PGRSP; each of them is ignored,
with a fault record, while one is not done; setting EN on a
configured allocator starts its initialisation, which ends in the next step of it; below the watermark one leaf is evicted. -/
def Obligations.PageCommands : Prop :=
  (∀ (i : Instr) (core a : Nat) (s : State) (q : ADie), a < 4 → CoreMay s core (0x10800 + a * 0x100 + 0x38) → (s.adie a).rspDone = true →
    PageWord s core a i q → exec i s = .next (s.modADie a fun _ => q)) ∧
  (∀ (i : Instr) (core a : Nat) (arg : BitVec 28) (p : BitVec 30) (s : State), a < 4 → CoreMay s core (0x10800 + a * 0x100 + 0x38) →
    (s.adie a).rspDone = false → PageCmd core a arg p i → exec i s = .next (s.cfgIgnored core (0x10800 + a * 0x100 + 0x38))) ∧
  (∀ (core a : Nat) (v : BitVec 64) (s : State), a < 4 → CoreMay s core (0x10800 + a * 0x100 + 8) → (s.adie a).en = false →
    1 ≤ v.toNat % 2 ^ 27 → v.toNat % 2 ^ 27 ≤ 2 ^ 26 → v.getLsbD 32 = false → s.hub.dieUp (8 + a) = true →
    exec (.pageAllocatorEnable core a v) s = .next (s.modADie a fun q =>
      if v.getLsbD 63 then { q with
        ndesc := v.toNat % 2 ^ 27, big := false, en := true, initing := true, written := 0, desc := [], dcap := v.toNat % 2 ^ 27, dback := [], dfresh := 0, nodes := []
        hbm := { q.hbm with cap := q.hbm.nf, back := [], fresh := 0 }, cxl := { q.cxl with cap := q.cxl.nf, back := [], fresh := 0 } }
      else { q with ndesc := v.toNat % 2 ^ 27, big := false, en := false })) ∧
  (∀ (a : Nat) (s : State), a < 4 → (s.adie a).initing = true →
    exec (.pageAllocatorInitDone a) s = .next (s.modADie a fun q => { q with initing := false, written := q.ndesc })) ∧
  (∀ (a m : Nat) (s : State), (s.adie a).hbm.free < (s.adie a).wmark → (s.adie a).oldestLeaf ((s.adie a).leafIn 0) = some m →
    exec (.backgroundEviction a) s = .next (s.modADie a fun q => q.evict m s.seq)) ∧
  (∀ (a : Nat) (s : State), (s.adie a).wmark ≤ (s.adie a).hbm.free →
    ∃ u, exec (.backgroundEviction a) s = .next u ∧ (∀ b, u.adie b = s.adie b) ∧ u.mem = s.mem ∧ u.clusters = s.clusters)

/-- R287, R333, R337: a page that is granted holds tier 0, a count of one and an empty, even-numbered state; none is granted by an allocator
that is disabled or initialising, or whose free frames do not exceed the limit when no leaf can be evicted. A frame that was given back is taken only
when every A-engine instruction issued before it was given back has completed (its issue number is within the horizon). -/
def Sys2Proof.Claims.PageGrants : Prop :=
  (∀ (a q : ADie) (lim now hor i : Nat) (pin : Bool), a.allocPage lim now hor pin = (q, some i) →
    (q.descOf i).tier = 0 ∧ (q.descOf i).refc = 1 ∧ (q.descOf i).seq = 0 ∧ (q.descOf i).fill = 0 ∧ (q.descOf i).pinned = pin ∧
      (q.descOf i).ro = false ∧ (q.descOf i).shared = false ∧ (q.descOf i).intree = false ∧ (q.descOf i).free = false) ∧
  (∀ (a : ADie) (lim now hor : Nat) (pin : Bool), (a.en = false ∨ a.initing = true) → a.allocPage lim now hor pin = (a, none)) ∧
  (∀ (a : ADie) (lim now hor : Nat) (pin : Bool), a.nodes = [] → a.hbm.free ≤ lim → (a.allocPage lim now hor pin).2 = none) ∧
  (∀ (p : Pool) (hor size : Nat) (f : BitVec 52) (q : Pool), p.take hor size = some (q, f) →
    (∃ n, (f, n) ∈ p.back ∧ n ≤ hor) ∨ (p.fresh < p.cap ∧ f = p.base + BitVec.ofNat 52 (p.fresh * size)))

/-- Moves, whether or not the copy engine performs one yet. -/
def Sys2Proof.Claims.atRest (ms : List Move) : List Move := ms.map fun m => { m with going := false }

/-- R291, R340, R341: at the end of a move the page stands in the frame that was taken for it, at its new tier, with its old frame given
back; its bytes are in the new frame, but for granules of it that hold RO (R315); the page's other fields, other pages and every other byte stay.
The moves behind it wait as they were, the first of them performed unless the copy engine is frozen (29 R370); a move that is not performed
yet does not end. -/
def Sys2Proof.Claims.TierMoveEnds : Prop :=
  (∀ (s : State) (n : Nat) (m : Move) (ms : List Move), (s.adie n).moves = m :: ms → (m.going = false ∨ s.dieHeld (8 + n) = true) →
    exec (.tierMoveEnd n) s = .next s) ∧
  ∀ (s : State) (n : Nat) (m : Move) (ms : List Move), (s.adie n).moves = m :: ms → m.reqs = [] → m.rev = [] → m.still = false →
    m.going = true → s.dieHeld (8 + n) = false → s.moveRefused n ((s.adie n).descOf m.page).addr.toNat m.frame.toNat = none →
    ((s.adie n).descOf m.page).free = false → (((s.adie n).descOf m.page).refc ≠ 0 ∨ ((s.adie n).descOf m.page).intree = true) →
    ∃ u, exec (.tierMoveEnd n) s = .next u ∧ atRest (u.adie n).moves = atRest ms ∧
      (∀ x, (u.adie n).moves.head? = some x → x.going = ((ms.head?.map Move.going).getD false || !(s.sup (8 + n)).agfrz)) ∧
      ((u.adie n).descOf m.page).addr = m.frame ∧
      ((u.adie n).descOf m.page).tier = (if m.toIn then 0 else 1) ∧ ((u.adie n).descOf m.page).refc = ((s.adie n).descOf m.page).refc ∧
      ((u.adie n).descOf m.page).fill = ((s.adie n).descOf m.page).fill ∧ ((u.adie n).descOf m.page).seq = ((s.adie n).descOf m.page).seq ∧
      ((u.adie n).pool (if m.toIn then 1 else 0)).back = (((s.adie n).descOf m.page).addr, s.seq) :: ((s.adie n).pool (if m.toIn then 1 else 0)).back ∧
      (∀ i, i ≠ m.page → (u.adie n).descOf i = (s.adie n).descOf i) ∧
      (Memory.wf s.mem = true → ∀ k, k < (s.adie n).pageSize → s.isRo (m.frame.toNat + k) = false →
        SMap.get 0 u.mem (m.frame.toNat + k) = SMap.get 0 s.mem (((s.adie n).descOf m.page).addr.toNat + k)) ∧
      ∀ x, x < m.frame.toNat ∨ m.frame.toNat + (s.adie n).pageSize ≤ x → SMap.get 0 u.mem x = SMap.get 0 s.mem x

/-- R374 to R377, R379, R381: pre-emption and saved images. -/
def Obligations.Preemption : Prop := Sys2Proof.Claims.PreemptionSteps ∧ Sys2Proof.Claims.SavedImage

/-- R287, R291, R333, R337, R340, R341: pages granted and moved. -/
def Obligations.PagesMove : Prop := Sys2Proof.Claims.PageGrants ∧ Sys2Proof.Claims.TierMoveEnds

/-! ### Configuration registers (00 R7, 01 R21, R25, 03 R43, 23 R328, R329, 27 R364, 31 R385, R395) -/

namespace Sys2Proof.Claims

open Sys2Proof.Machine

/-- The registers a hub core writes: the instruction, the offset, and what a write of an admitted value leaves. -/
inductive RegWrite (s : State) (core : Nat) : Instr → Nat → State → Prop
  | partcfg (v) : v.toNat % 4 ≠ 3 → (∀ t, t < 12 → s.dieHalted t = true) →
      RegWrite s core (.partcfg core v) 0x14018
        (s.modHub fun h => { h with supv := v.extractLsb' 16 16, shape := v.extractLsb' 0 2 }).setMasters
  | partcfgNot (v t) : t < 12 → s.dieHalted t = false → RegWrite s core (.partcfg core v) 0x14018 (s.cfgIgnored core 0x14018)
  | partsup (v) : (∀ t, t < 12 → s.dieHalted t = true) → RegWrite s core (.partsup core v) 0x14020 (s.modHub fun h => { h with sup := v })
  | partsupNot (v t) : t < 12 → s.dieHalted t = false → RegWrite s core (.partsup core v) 0x14020 (s.cfgIgnored core 0x14020)
  | group (i mask) : i < 256 → (∀ c, c < 320 → mask.getLsbD c = true → s.otherGroups i c < 4) → (s.group i).mask ≠ mask →
      RegWrite s core (.groupTableWrite core i mask) (0x210000 + i * 64)
        { s with groups := SMap.set s.groups i { mask := mask, phase := 0, arrived := 0, marks := 0 } }
  | groupSame (i mask) : i < 256 → (∀ c, c < 320 → mask.getLsbD c = true → s.otherGroups i c < 4) → (s.group i).mask = mask →
      RegWrite s core (.groupTableWrite core i mask) (0x210000 + i * 64) s
  | groupFifth (i mask c) : i < 256 → c < 320 → mask.getLsbD c = true → 4 ≤ s.otherGroups i c →
      RegWrite s core (.groupTableWrite core i mask) (0x210000 + i * 64) (s.cfgIgnored core (0x210000 + i * 64))
  | rfcfgStop (d v) : d < 8 → (s.ring d).run = true → v.getLsbD 63 = false → v.getLsbD 62 = (s.ring d).rcap →
      v.extractLsb' 32 20 = (s.ring d).nseg → v.extractLsb' 20 6 = (s.ring d).succMod → v.extractLsb' 16 3 = (s.ring d).succD →
      v.extractLsb' 0 16 = (s.ring d).hbto → RegWrite s core (.rfcfg core d v) (0x10000 + d * 0x100 + 0x20) (s.modRing d fun r => { r with run := false })
  | rfcfgSet (d v) : d < 8 → (s.ring d).run = false → v.getLsbD 63 = false → v.extractLsb' 32 20 = (s.ring d).nseg → (s.ring d).nseg ≠ 0 →
      v.extractLsb' 0 16 ≠ 0 →
      (partSize s.hub.shape = 8 ∨ v.extractLsb' 20 6 = s.hub.modNo) →
      (s.ring d).nseg.toNat ≤ ((s.modRing d fun r => { r with rcap := v.getLsbD 62, succMod := v.extractLsb' 20 6, succD := v.extractLsb' 16 3
                                                              hbto := v.extractLsb' 0 16 }).ringMembers d - if v.getLsbD 62 then 1 else 0) * 224 →
      RegWrite s core (.rfcfg core d v) (0x10000 + d * 0x100 + 0x20) ((s.modRing d fun r => { r with
        rcap := v.getLsbD 62, succMod := v.extractLsb' 20 6, succD := v.extractLsb' 16 3, hbto := v.extractLsb' 0 16 }).lookLens d)
  | rfcfgSplit (d v) : d < 8 → (s.ring d).run = false → partSize s.hub.shape ≠ 8 → v.extractLsb' 20 6 ≠ s.hub.modNo →
      RegWrite s core (.rfcfg core d v) (0x10000 + d * 0x100 + 0x20) (s.cfgIgnored core (0x10000 + d * 0x100 + 0x20))
  | bypass (d v) : d < 8 → (s.ring d).run = false →
      RegWrite s core (.bypass core d v) (0x10000 + d * 0x100 + 0x40) (s.modRing d fun r => { r with bypass := v }).setMasters
  | bypassClear (d v) : d < 8 → (s.ring d).run = true → (s.ring d).bypass &&& ~~~v ≠ 0 →
      RegWrite s core (.bypass core d v) (0x10000 + d * 0x100 + 0x40) (s.cfgIgnored core (0x10000 + d * 0x100 + 0x40))
  | bypassSame (d) : d < 8 → (s.ring d).run = true →
      RegWrite s core (.bypass core d (s.ring d).bypass) (0x10000 + d * 0x100 + 0x40) (s.modRing d fun r => r)
  | fabcfg (v) : v.toNat % 1024 ≠ 0 → v.toNat % 1024 ≤ 1000 → RegWrite s core (.fabcfg core v) 0x10F00
      (s.modHub fun h => { h with lease := v.extractLsb' 0 10
                                  oldLeases := (h.oldLeases.filter fun e => decide (s.cycle.toNat < e.2 + 1050000)) ++ [(h.lease, s.cycle.toNat)] })
  | fabcfgNot (v) : (v.toNat % 1024 = 0 ∨ 1000 < v.toNat % 1024) → RegWrite s core (.fabcfg core v) 0x10F00 (s.cfgIgnored core 0x10F00)
  | hostwin (v) : v.toNat / 2 % 256 ≤ 192 →
      RegWrite s core (.hostwin core v) 0x14010 (s.modHub fun h => { h with hostBase := v.extractLsb' 1 8, hostEn := v.getLsbD 0 })
  | hostwinNot (v) : 192 < v.toNat / 2 % 256 → RegWrite s core (.hostwin core v) 0x14010 (s.cfgIgnored core 0x14010)
  | pwrcap (v : BitVec 64) : 85 ≤ (v.extractLsb' 40 8).toNat → (v.extractLsb' 40 8).toNat ≤ 110 → (v.extractLsb' 32 8).toNat < (v.extractLsb' 40 8).toNat →
      1 ≤ (v.extractLsb' 16 6).toNat → (v.extractLsb' 16 6).toNat ≤ 32 → 1000 ≤ (v.extractLsb' 0 16).toNat → (v.extractLsb' 0 16).toNat ≤ 6200 →
      RegWrite s core (.pwrcap core v) 0x14000 (s.modHub fun h => { h with
        tcrit := v.extractLsb' 40 8, twarn := v.extractLsb' 32 8, maxcl := v.extractLsb' 16 6, capw := v.extractLsb' 0 16 })
  | pwrcapNot (v : BitVec 64) : (110 < (v.extractLsb' 40 8).toNat ∨ (v.extractLsb' 40 8).toNat ≤ (v.extractLsb' 32 8).toNat ∨
        (v.extractLsb' 16 6).toNat = 0 ∨ 6200 < (v.extractLsb' 0 16).toNat) →
      RegWrite s core (.pwrcap core v) 0x14000 (s.cfgIgnored core 0x14000)
  | gwroute (n v) : n < 64 → RegWrite s core (.configRegisterWrite core (0x12400 + 8 * n) v) (0x12400 + 8 * n)
      (s.modHub fun h => { h with gwroute := SMap.set h.gwroute n (v.extractLsb' 0 4) })
  | gwrmt (n v) : n < 64 → RegWrite s core (.configRegisterWrite core (0x12800 + 8 * n) v) (0x12800 + 8 * n)
      (s.modHub fun h => { h with gwrmt := SMap.set h.gwrmt n (v.extractLsb' 0 4) })
  | gwmask (n v) : n < 64 → RegWrite s core (.configRegisterWrite core (0x12C00 + 16 * n) v) (0x12C00 + 16 * n)
      (s.modHub fun h => { h with gwmask := SMap.set h.gwmask n v })
  | gwval (n v) : n < 64 → RegWrite s core (.configRegisterWrite core (0x12C08 + 16 * n) v) (0x12C08 + 16 * n)
      (s.modHub fun h => { h with gwval := SMap.set h.gwval n (v.getLsbD 0) })
  | bkbaseNot (d v) : d < 8 → v.toNat % 4096 ≠ 0 →
      RegWrite s core (.configRegisterWrite core (0x10028 + d * 0x100) v) (0x10028 + d * 0x100) (s.cfgIgnored core (0x10028 + d * 0x100))
  | bkbaseRuns (d v) : d < 8 → (s.ring d).run = true → (s.ring d).nseg ≠ 0 → (s.sup d).agfrz = false →
      s.backingRefused d (v.extractLsb' 0 52).toNat (s.ring d).nseg.toNat = none →
      (s.ring d).flen < s.flenMinOf d (v.extractLsb' 0 52).toNat (s.ring d).nseg.toNat →
      RegWrite s core (.configRegisterWrite core (0x10028 + d * 0x100) v) (0x10028 + d * 0x100) (s.cfgIgnored core (0x10028 + d * 0x100))
  | esccfg (d v) : d < 8 → (s.ring d).run = false → (s.ring d).flenMin ≤ v.extractLsb' 0 12 →
      RegWrite s core (.configRegisterWrite core (0x10000 + d * 0x100) v) (0x10000 + d * 0x100)
        (s.modRing d fun r => { r with flen := v.extractLsb' 0 12, slackMax := v.extractLsb' 32 16 })
  | esccfgNot (d v) : d < 8 → ((s.ring d).run = true ∨ v.extractLsb' 0 12 < (s.ring d).flenMin) →
      RegWrite s core (.configRegisterWrite core (0x10000 + d * 0x100) v) (0x10000 + d * 0x100) (s.cfgIgnored core (0x10000 + d * 0x100))

end Sys2Proof.Claims

open Sys2Proof Sys2Proof.Machine Sys2Proof.Claims

/-- R7, R21, R25, R26, R43, R328, R329, R350, R351, R364, R385, R395: a hub core's write of a register sets its fields, or is ignored with a fault
record where the value or the state does not admit it; an access-table entry is written by a master its target permits; a core that may
not write configuration space is refused and frozen; a core that does not run writes nothing. A write of RFCFG that is accepted lets every
member of the ring compute FLENMIN anew, from the backing image (R319). What a misaligned BKBASE does (log 32), when a die counts as halted for
PARTCFG and PARTSUP (log 27), and that any permitted master writes the Gateway's registers (log 66) are the model's choices. -/
def Obligations.RegisterWrites : Prop :=
  (∀ (i : Instr) (core off : Nat) (s u : State), CoreMay s core off → RegWrite s core i off u → exec i s = .next u) ∧
  (∀ (core t : Nat) (m : BitVec 12) (v : BitVec 8) (s : State), t < 14 → CoreMay s core (0x200000 + t * 4096 + m.toNat) →
    exec (.accessTableWrite (BitVec.ofNat 12 (0xA00 + core)) t m v) s = .next { s with access := SMap.set s.access (t * 4096 + m.toNat) (v.setWidth 4) }) ∧
  (∀ (core : Nat) (v : BitVec 64) (s : State), CoreOn s core → s.mayAccess (0xA00 + core) bitW (s.cfgPa 0x14010) = false →
    ∃ u, exec (.hostwin core v) s = .next u ∧ u.hub.hostBase = s.hub.hostBase ∧ u.hub.hostEn = s.hub.hostEn ∧ (u.sup 12).frz.getLsbD core = true) ∧
  (∀ (core : Nat) (v : BitVec 64) (s : State), ¬ CoreOn s core → s.host = false → exec (.hostwin core v) s = .next s) ∧
  (∀ (s : State) (d : Nat), (s.ring d).nseg ≠ 0 → (s.sup d).agfrz = false → s.backingRefused d (s.ring d).bkbase.toNat (s.ring d).nseg.toNat = none →
    ((s.lookLen d).ring d).flenMin = BitVec.ofNat 12 (max 2
      (let len := s.lenMax (s.ring d).bkbase.toNat (s.ring d).nseg.toNat
       let per := if s.ringSpans d then 2560000 else 25600000
       (len * 105 + per - 1) / per)))

/-! ### The fabric (27 R346 to R365) -/

namespace Sys2Proof.Claims

open Sys2Proof.Machine

/-- What the events of links, leases and shoot-downs do. -/
inductive FabricEvent (s : State) : Instr → State → Prop
  | deaf (l dir hdr ok) : ((s.link l).up = false ∨ (s.link l).dead = true ∨ (s.link l).locked = true ∨ s.sends l dir hdr = false) → FabricEvent s (.flitReceived l dir hdr ok) s
  | firstBad (l dir) (hdr : BitVec 128) (ok) : l < 62 → (s.link l).up = true → (s.link l).dead = false → (s.link l).locked = false →
      (ok = false ∨ hdr.extractLsb' 96 7 ≠ 0 ∨ hdr.extractLsb' 0 16 ≠ 0) → s.sends l dir hdr = true → hdr ∉ ((s.link l).dir dir).replay →
      FabricEvent s (.flitReceived l dir hdr ok) (s.modLink l fun k =>
        { (k.setDir dir { (k.dir dir).sentOne hdr.toNat with replay := (k.dir dir).replay ++ [hdr] }) with
          tagFail := if k.tagFail = 0xFFFF then k.tagFail else k.tagFail + 1 })
  | secondBad (l dir) (hdr : BitVec 128) (ok) : l < 62 → (s.link l).up = true → (s.link l).dead = false → (s.link l).locked = false →
      (ok = false ∨ hdr.extractLsb' 96 7 ≠ 0 ∨ hdr.extractLsb' 0 16 ≠ 0) → hdr ∈ ((s.link l).dir dir).replay →
      FabricEvent s (.flitReceived l dir hdr ok)
        (((s.modLink l fun k => { k with locked := true }).modHub fun h => { h with notified := true }).killLink l)
  | good (l dir) (hdr : BitVec 128) : l < 62 → (s.link l).up = true → (s.link l).dead = false → (s.link l).locked = false →
      ((hdr.extractLsb' 124 3).toNat < 4 ∨ hdr.extractLsb' 124 3 = 7) → hdr.extractLsb' 96 7 = 0 → hdr.extractLsb' 0 16 = 0 →
      s.sends l dir hdr = true →
      FabricEvent s (.flitReceived l dir hdr true) (s.goodFlit l dir hdr)
  | key (l dir) : l < 62 → (s.link l).up = true → ((s.link l).dir dir).rekey = false →
      FabricEvent s (.keyUpdate l dir) (s.modLink l fun k => k.setDir dir { k.dir dir with kg := !(k.dir dir).kg, fcnt := (k.dir dir).fcnt.set (!(k.dir dir).kg).toNat 0, rekey := true, newFlits := 0 })
  | keyHeld (l dir) : ((s.link l).dir dir).rekey = true → FabricEvent s (.keyUpdate l dir) s
  | untrained (l) : l < 62 → (s.link l).up = true →
      FabricEvent s (.linkLosesTraining l) (s.modLink l fun k => { k with up := false, lostAt := some s.cycle.toNat })
  | dead (l) : l < 62 → (s.link l).dead = false →
      ((s.link l).locked = true ∨ (∃ t, (s.link l).lostAt = some t ∧ t + 105000 ≤ s.cycle.toNat) ∨
        ((s.link l).lostAt = none ∧ (s.link l).up = true ∧ (s.link l).lastFlit + 105000 ≤ s.cycle.toNat)) →
      FabricEvent s (.linkDeclaredDead l) (s.killLink l)
  | alive (l t) : (s.link l).locked = false → (s.link l).lostAt = some t → s.cycle.toNat < t + 105000 → FabricEvent s (.linkDeclaredDead l) s
  | upNot (l peer) : s.endsUp l = false → FabricEvent s (.linkUp l peer) s
  | up (l peer) : l < 62 → s.endsUp l = true → FabricEvent s (.linkUp l peer) (({ s with clusters := s.clusters.map fun e => (e.1, { e.2 with
        mq := e.2.mq.filter fun a => !(a.fail == some .timeout && a.pieces.any fun p => (s.path (dieOf e.1) p.pa).contains l) }) } : State).modLink l fun k => { k with
      up := true, dead := false, locked := false, lostAt := none, lastFlit := s.cycle.toNat, d0 := LinkDir.reset, d1 := LinkDir.reset
      peer := if 54 ≤ l then peer else 0 })
  | lease (d g) : FabricEvent s (.leaseExpiry d g) (s.modRing d fun r => { r with
      lines := r.lines.filter fun l => !(l.gran == g && decide (l.leaseEnd ≤ s.cycle.toNat)) })
  | shot (home die h) : s.shootOf home = some h → die < 8 → (∀ i ∈ s.homeWay h die, (s.link i).dead = false) →
      FabricEvent s (.shootDown home die) { s.modRing die fun r => { r with
          lines := r.lines.filter fun l => !(decide (h.gran ≤ l.gran / 64) && decide (l.gran / 64 < h.gran + h.n)) } with
        shoots := putShoot home (fun h => some { h with need := h.need.filter (· != die) }) s.shoots }
  | shotOther (home die h) : s.shootOf home = some h → 8 ≤ die → (∀ i ∈ s.homeWay h die, (s.link i).dead = false) →
      FabricEvent s (.shootDown home die) { s with
        shoots := putShoot home (fun h => some { h with need := h.need.filter (· != die) }) s.shoots }
  | shotFar (home die) : s.shootOf home = none → 256 ≤ home → die < 8 → FabricEvent s (.shootDown home die)
      (s.modRing die fun r => { r with lines := r.lines.filter fun l => s.homeOf (l.gran / 64) != home })
  | waits (home h) : s.shootOf home = some h → h.need ≠ [] → s.cycle.toNat < h.start + h.lease * 1050 → FabricEvent s (.roClearAtHome home) s

end Sys2Proof.Claims

open Sys2Proof Sys2Proof.Machine Sys2Proof.Claims

/-- A hub core's request on this module that every target permits: its bytes are backed and lie where dies are up, over live links, no store
waits for its home, and its master's entries have the bits it needs. -/
def Sys2Proof.Claims.Permitted (s : State) (core : Nat) (req : BusReq) : Prop :=
  CoreOn s core ∧ s.isFar req.addr = false ∧ (∀ i ∈ s.path 12 req.addr, (s.link i).dead = false) ∧
    (reqReads req.kind = true → s.dieHeld 12 = false) ∧
    ∀ b ∈ reqBytes req.kind req.addr (reqWidth req.len req.kind), b < 2 ^ 52 ∧ s.noTarget b = false ∧
      s.mayAccess (0xA00 + core) (reqBit req.kind) b = true

/-- R348, R353 to R355, R363, R365: flits, key updates, links, leases and the answers to a shoot-down do what their rules state. The model's
choices here: a header that the sender does not send is no flit (logs 12 and 13), and who answers a shoot-down for another module, or from one (log 55). -/
def Sys2Proof.Claims.FabricEvents : Prop := ∀ (i : Instr) (s u : State), FabricEvent s i u → exec i s = .next u

/-- R348, R352, R354: a replayed flit takes the place of the one that failed: it is asked for no more, and SENT and FCNT have counted it before;
a new flit that passes is counted once in SENT of its channel and in FCNT of the sender's bank. -/
def Sys2Proof.Claims.FlitsCounted : Prop :=
  ∀ (s : State) (l : Nat) (dir : Bool) (hdr : BitVec 128),
    let d := (s.link l).dir dir
    let o := ((s.goodFlit l dir hdr).link l).dir dir
    (hdr ∈ d.replay → o.replay = d.replay.erase hdr ∧ o.sent = d.sent ∧ o.fcnt = d.fcnt) ∧
    (hdr ∉ d.replay → o.replay = d.replay ∧ o.fcnt = d.fcnt.set d.kg.toNat (d.count d.kg + 1) ∧
      ((hdr.extractLsb' 124 3).toNat < 4 →
        o.sent = d.sent.set (hdr.extractLsb' 124 3).toNat (d.sent.getD (hdr.extractLsb' 124 3).toNat 0 + 1)))

/-- R365: with every die answered, or the lease past, the home clears the RO bits of the range and of no other granule, and the shoot-down of
the home is over; the last home completes the ATTR.clr, which answers 1 exactly when the lease had to pass. -/
def Sys2Proof.Claims.RoClears : Prop :=
  ∀ (s : State) (home : Nat) (h : Shoot) (d : Option (BitVec 6)) (homes : List Nat) (late : Bool),
    s.shootOf home = some h → h.grant = false → h.c < 320 → (h.need = [] ∨ h.start + h.lease * 1050 ≤ s.cycle.toNat) → ((s.cl h.c).cx h.x).phase = .shoot d homes late →
    ∃ u, exec (.roClearAtHome home) s = .next u ∧ u.mem = s.mem ∧ u.shoots = putShoot home (fun _ => none) s.shoots ∧
      (∀ g, SMap.get false u.ro g = (if h.gran ≤ g ∧ g < h.gran + h.n then false else SMap.get false s.ro g)) ∧
      (∀ i, homes.erase home = [] → d = some i → ((u.cl h.c).cx h.x).getS i.toNat = (if late || !h.need.isEmpty then 1 else 0)) ∧
      (homes.erase home ≠ [] → ((u.cl h.c).cx h.x).phase = .shoot d (homes.erase home) (late || !h.need.isEmpty))

/-- R365: the home of an ATTR.clr that a hub core, the host or another module asked for clears the RO bits too, and one home fewer has to
answer; once none has, the next request of that master for it is answered, with 1 if a home had to let the lease pass. -/
def Sys2Proof.Claims.RoClearsForMasters : Prop :=
  (∀ (s : State) (home : Nat) (h : Shoot) (homes : List Nat) (late : Bool),
    s.shootOf home = some h → h.grant = false → 320 ≤ h.c → (h.need = [] ∨ h.start + h.lease * 1050 ≤ s.cycle.toNat) →
    SMap.get? s.hub.clears h.x = some (homes, late) →
    ∃ u, exec (.roClearAtHome home) s = .next u ∧ u.mem = s.mem ∧ u.clusters = s.clusters ∧
      SMap.get? u.hub.clears h.x = some (homes.erase home, late || !h.need.isEmpty) ∧
      (∀ g, SMap.get false u.ro g = (if h.gran ≤ g ∧ g < h.gran + h.n then false else SMap.get false s.ro g))) ∧
  ∀ (s : State) (core : Nat) (req : BusReq) (late : Bool), Permitted s core req → req.kind = .attrClr →
    req.addr % 4096 = 0 → req.len % 4096 = 0 → req.len ≠ 0 → s.badAt req.addr req.len = false →
    SMap.get? s.hub.clears core = some ([], late) →
    exec (.hubCoreAccess core req) s =
      .next { s.modHub (fun h => { h with clears := SMap.del h.clears core }) with bus := .done [if late then 1 else 0] }

/-! ### Requests from outside (27 R351, 29 R370, 31 R385) -/

/-- R26, R351, R385: a request that its target permits is served and answered; one of a hub core that is refused freezes the core; one from
another module that GWRMT or the target's entry does not permit is refused with a record that names its source; a host access outside its
window is not supported. A hub core's fence is the model's choice (log 21, from R293), and so is that a host's request is checked as hub core
0's, whether or not that core runs (log 34). -/
def Obligations.OutsideRequests : Prop :=
  (∀ (s : State) (core : Nat) (req : BusReq), Permitted s core req →
    (req.kind = .read ∨ ∀ b ∈ reqBytes req.kind req.addr req.len, s.isRo b = false) → s.badAt req.addr req.len = false → isCfg req.addr = false →
    (req.kind = .read → exec (.hubCoreAccess core req) s = .next { s with bus := .done (s.bytes req.addr req.len) }) ∧
    (req.kind = .write → exec (.hubCoreAccess core req) s =
      .next { (s.store req.addr (natBytes req.len req.data.toNat)).1 with bus := .done [] }) ∧
    (req.kind = .atomicAdd → exec (.hubCoreAccess core req) s =
      .next { (s.store req.addr (natBytes req.len ((bytesNat (s.bytes req.addr req.len) + req.data.toNat) % 2 ^ (8 * req.len)))).1 with
        bus := .done (s.bytes req.addr req.len) })) ∧
  (∀ (s : State) (core : Nat) (req : BusReq), CoreOn s core → s.isFar req.addr = false → req.kind ≠ .fence →
    (∀ i ∈ s.path 12 req.addr, (s.link i).dead = false) → (reqReads req.kind = true → s.dieHeld 12 = false) →
    (∀ b ∈ reqBytes req.kind req.addr (reqWidth req.len req.kind), b < 2 ^ 52 ∧ s.noTarget b = false) →
    (∃ b ∈ reqBytes req.kind req.addr (reqWidth req.len req.kind), s.mayAccess (0xA00 + core) (reqBit req.kind) b = false) →
    ∃ u, exec (.hubCoreAccess core req) s = .next u ∧ u.bus = .refused ∧ (u.sup 12).frz.getLsbD core = true ∧ u.clusters = s.clusters) ∧
  (∀ (s : State) (core : Nat) (req : BusReq), ¬ CoreOn s core → s.host = false → (req.kind ≠ .fence ∨ SMap.get? s.hub.fences core = none) →
    exec (.hubCoreAccess core req) s = .next s) ∧
  (∀ (s : State) (core : Nat) (req : BusReq), CoreOn s core → req.kind = .fence → SMap.get? s.hub.fences core = none →
    exec (.hubCoreAccess core req) s = .next { s.modHub (fun h => { h with fences := SMap.set h.fences core s.cycle.toNat }) with bus := .busy }) ∧
  (∀ (s : State) (core t : Nat) (req : BusReq), req.kind = .fence → SMap.get? s.hub.fences core = some t → s.cycle.toNat ≤ t →
    exec (.hubCoreAccess core req) s = .next { s with bus := .busy }) ∧
  (∀ (s : State) (core t : Nat) (req : BusReq), req.kind = .fence → SMap.get? s.hub.fences core = some t → t < s.cycle.toNat →
    (∀ k ∈ s.clusters, (∀ a ∈ k.2.mq ++ k.2.accepting, a.isOpen = false ∨ t < a.cyc) ∧ (∀ n ∈ k.2.m.nests, t < n.cyc) ∧
      ∀ r, (k.2.cx 2).phase = .kvapp r → t < r.cyc) →
    (∀ r ∈ s.rings, r.2.onWay = []) → (∀ a ∈ s.adies, a.2.moves = []) →
    exec (.hubCoreAccess core req) s = .next { s.modHub (fun h => { h with fences := SMap.del h.fences core }) with bus := .done [] }) ∧
  (∀ (s : State) (core : Nat) (req : BusReq), CoreOn s core → s.isFar req.addr = true → req.kind ≠ .fence →
    (∀ i ∈ s.path 12 req.addr, (s.link i).dead = false) → (reqReads req.kind = true → s.dieHeld 12 = false) → (SMap.get 0 s.hub.gwroute (req.addr / 2 ^ 46)).getLsbD 3 = false →
    exec (.hubCoreAccess core req) s = .next { s with bus := .failed }) ∧
  (∀ (s : State) (bar2 : Bool) (req : BusReq), s.hub.power = .off → exec (.hostBarAccess bar2 req) s = .next s) ∧
  (∀ (s : State) (bar2 : Bool) (req : BusReq), s.hub.power ≠ .off → (req.kind = .fence ∨ req.kind = .attrSet ∨ req.kind = .attrClr) →
    exec (.hostBarAccess bar2 req) s = .next { s with bus := .unsupported }) ∧
  (∀ (s : State) (req : BusReq), s.hub.power ≠ .off → reqOfHost req.kind = true → s.hub.hostEn = false →
    exec (.hostBarAccess true req) s = .next { s with bus := if req.kind = .write then .none else .unsupported }) ∧
  (∀ (s : State) (req : BusReq), s.hub.power ≠ .off → reqOfHost req.kind = true → s.hub.hostEn = true → req.addr < 2 ^ 36 →
    exec (.hostBarAccess true req) s = .next { ({ s with host := true } : State).coreRequest 0 req.kind
      (s.here (s.hub.hostBase.toNat * 2 ^ 30 + req.addr)) req.len req.data.toNat with host := false }) ∧
  (∀ (s : State) (req : BusReq), s.hub.power ≠ .off → reqOfHost req.kind = true → req.addr < 2 ^ 24 →
    exec (.hostBarAccess false req) s = .next { ({ s with host := true } : State).coreRequest 0 req.kind
      (s.here (7 * 2 ^ 42 + req.addr)) req.len req.data.toNat with host := false }) ∧
  (∀ (s : State) (req : BusReq), s.hub.power ≠ .off → 2 ^ 24 ≤ req.addr → exec (.hostBarAccess false req) s = .next { s with bus := .unsupported }) ∧
  (∀ (s : State) (r : RemoteReq) (t : Nat), r.kind ≠ .message → targetA s.cxl (r.addr % 2 ^ 46) = some t →
    (SMap.get 0 s.hub.gwrmt r.srcMod.toNat) &&& reqBit r.kind = reqBit r.kind → (reqReads r.kind = true → s.dieHeld 13 = false) →
    (∀ b ∈ reqBytes r.kind (s.here (r.addr % 2 ^ 46)) (reqWidth r.bytes.length r.kind), s.noTarget b = false ∧
      s.mayAccess 0xA21 (reqBit r.kind) b = true) →
    exec (.remoteAccessArrival r) s = .next (s.serve 0xA21 (16 + r.srcMod.toNat * 4096 + r.srcMaster.toNat) none r.kind (s.here (r.addr % 2 ^ 46)) r.bytes.length (bytesNat r.bytes)
      fun pa => s.remoteRefused r ((s.target pa).getD 12) pa)) ∧
  (∀ (s : State) (r : RemoteReq), r.kind ≠ .message → targetA s.cxl (r.addr % 2 ^ 46) = none →
    (SMap.get 0 s.hub.gwrmt r.srcMod.toNat) &&& reqBit r.kind ≠ reqBit r.kind →
    exec (.remoteAccessArrival r) s = .next { s.logFault 12 { Fault.Rec.plain .refused 0xA21 with
      addr := s.here (r.addr % 2 ^ 46), target := s.hub.modNo.toNat * 256 + 0xFF, flg := 4
      info := r.srcMod.toNat * 2 ^ 16 + r.srcMaster.toNat } with bus := .refused }) ∧
  (∀ (s : State) (r : RemoteReq) (t : Nat), r.kind ≠ .message → targetA s.cxl (r.addr % 2 ^ 46) = some t → t < 12 →
    (SMap.get 0 s.hub.gwrmt r.srcMod.toNat) &&& reqBit r.kind ≠ reqBit r.kind →
    exec (.remoteAccessArrival r) s = .next { s.logFault t { Fault.Rec.plain .refused 0xA21 with
      addr := s.here (r.addr % 2 ^ 46), target := s.hub.modNo.toNat * 256 + t, flg := 4
      info := r.srcMod.toNat * 2 ^ 16 + r.srcMaster.toNat } with bus := .refused }) ∧
  (∀ (s : State) (r : RemoteReq) (t u b : Nat), r.kind ≠ .message → targetA s.cxl (r.addr % 2 ^ 46) = some t →
    (SMap.get 0 s.hub.gwrmt r.srcMod.toNat) &&& reqBit r.kind = reqBit r.kind → (reqReads r.kind = true → s.dieHeld 13 = false) →
    (∀ b ∈ reqBytes r.kind (s.here (r.addr % 2 ^ 46)) (reqWidth r.bytes.length r.kind), s.noTarget b = false) →
    (reqBytes r.kind (s.here (r.addr % 2 ^ 46)) (reqWidth r.bytes.length r.kind)).find? (fun b => !s.mayAccess 0xA21 (reqBit r.kind) b) = some b →
    s.target b = some u → u < 12 →
    exec (.remoteAccessArrival r) s = .next { s.logFault u { Fault.Rec.plain .refused 0xA21 with
      addr := b, target := s.hub.modNo.toNat * 256 + u, flg := 4
      info := r.srcMod.toNat * 2 ^ 16 + r.srcMaster.toNat } with bus := .refused }) ∧
  (∀ (s t : State) (r : RemoteReq), r.kind = .message → r.addr % 512 < 320 →
    (SMap.get 0 s.hub.gwrmt r.srcMod.toNat) &&& bitM = bitM → s.permits (dieOf (r.addr % 512)) 0xA21 &&& bitM ≠ 0 →
    s.slotRo (r.addr % 512) = false → s.slotWhole (r.addr % 512) r.bytes = true →
    s.deliver (r.addr % 512) r.bytes (BitVec.ofNat 22 (r.srcMod.toNat * 2 ^ 16 + r.srcMaster.toNat)) r.asid r.hnd = some t →
    exec (.remoteAccessArrival r) s = .next { t with bus := .done [1] }) ∧
  (∀ (s : State) (r : RemoteReq), r.kind = .message → r.addr % 512 < 320 →
    (SMap.get 0 s.hub.gwrmt r.srcMod.toNat) &&& bitM = bitM → s.permits (dieOf (r.addr % 512)) 0xA21 &&& bitM ≠ 0 →
    s.slotRo (r.addr % 512) = true → exec (.remoteAccessArrival r) s = .next { s with bus := .readOnly })

/-! ### The hub (31 R386 to R396) -/

namespace Sys2Proof.Claims

open Sys2Proof.Machine

/-- The Hub Security Core can answer (31 R389, R393). -/
def CanSign (s : State) : Prop := s.hub.power ≠ .off ∧ s.hub.mgmt ≠ 6

/-- A reply is given: a signature no one can predict. -/
def replied (s : State) (r : Reply) : State := { s with free := s.free + 1, hub := { s.hub with replies := s.hub.replies ++ [r] } }

/-- What the events of the hub do. -/
inductive HubEvent (s : State) : Instr → State → Prop
  | update0 (img) : s.hub.power ≠ .off → (s.hub.booted = false ∨ s.hub.ms = true ∨ s.hub.bank = true) →
      HubEvent s (.pldmFirmwareUpdate false img) (s.modHub fun h => { h with flash0 := some img })
  | update1 (img) : s.hub.power ≠ .off → (s.hub.booted = false ∨ s.hub.ms = true ∨ s.hub.bank = false) →
      HubEvent s (.pldmFirmwareUpdate true img) (s.modHub fun h => { h with flash1 := some img })
  | updateNot (img) : s.hub.booted = true → s.hub.ms = false → HubEvent s (.pldmFirmwareUpdate s.hub.bank img) s
  | certificate : CanSign s → HubEvent s .getCertificate (replied s (.certificate s.hub.cert))
  | challenge (n) : CanSign s → HubEvent s (.challenge n) (replied s (.challenge n (Config.freeSignature s.free n)))
  | measurements (n) : CanSign s → HubEvent s (.getMeasurements n)
      (replied s (.measurements n (s.hub.meas ++ [s.hub.recDigest]) (Config.freeSignature s.free n)))
  | session (n) : CanSign s → HubEvent s (.keyExchange n) (replied s (.session n (Config.freeSignature s.free n)))
  | p1 (w temp ms) : s.meter = (w, temp) :: ms → s.hub.power = .p0 → (s.hub.capw < w ∨ s.hub.twarn < temp) →
      HubEvent s .p1Entry { s with meter := ms, hub := { s.hub with power := .p1 } }
  | p1Within (w temp ms) : s.meter = (w, temp) :: ms → s.hub.power = .p0 → w ≤ s.hub.capw → temp ≤ s.hub.twarn →
      HubEvent s .p1Entry { s with meter := ms }
  | p1Not (w temp ms) : s.meter = (w, temp) :: ms → s.hub.power ≠ .p0 → (s.hub.tooHot = false ∨ temp ≤ s.hub.twarn) →
      HubEvent s .p1Entry { s with meter := ms }
  | warm (w temp ms) : s.meter = (w, temp) :: ms → s.hub.power ≠ .p0 → s.hub.tooHot = true → s.hub.twarn < temp →
      HubEvent s .p1Entry { s with meter := ms, hub := { s.hub with cool := false } }
  | p0 (w temp ms) : s.meter = (w, temp) :: ms → s.hub.power = .p1 → w < s.hub.capw → temp < s.hub.twarn →
      HubEvent s .p1Exit { s with meter := ms, hub := { s.hub with power := .p0 } }
  | p1Stays (w temp ms) : s.meter = (w, temp) :: ms → s.hub.power = .p1 → (s.hub.capw ≤ w ∨ s.hub.twarn ≤ temp) →
      HubEvent s .p1Exit { s with meter := ms }
  | p0Not (w temp ms) : s.meter = (w, temp) :: ms → s.hub.power ≠ .p1 → (s.hub.tooHot = false ∨ s.hub.twarn ≤ temp) →
      HubEvent s .p1Exit { s with meter := ms }
  | cooled (w temp ms) : s.meter = (w, temp) :: ms → s.hub.power ≠ .p1 → s.hub.tooHot = true → temp < s.hub.twarn →
      HubEvent s .p1Exit { s with meter := ms, hub := { s.hub with cool := true } }
  | unmeasured (i) : s.meter = [] → i = .p1Entry ∨ i = .p1Exit → HubEvent s i s
  | stillHot (t) (temp : BitVec 8) (coolant) : s.hub.tooHot = true → t < 14 → s.hub.tcrit < temp →
      HubEvent s (.thermalHalt t temp coolant) (s.modHub fun h => { h with cool := false })
  | cold (t) (temp : BitVec 8) : temp ≤ s.hub.tcrit → HubEvent s (.thermalHalt t temp false) s
  | off : HubEvent s .powerRemoved (s.cleared.modHub fun h => { h with power := .off })

end Sys2Proof.Claims

open Sys2Proof Sys2Proof.Machine Sys2Proof.Claims

/-- R386, R393, R396: firmware updates, attestation and the power states do what their rules state: P1 begins above CAPW or TWARN and ends
below both. That a step takes its measurement from the list meter is the model's choice (log 38). -/
def Sys2Proof.Claims.HubEvents : Prop := ∀ (i : Instr) (s u : State), HubEvent s i u → exec i s = .next u

/-- The HALTPWR record of a die past TCRIT (no die for a target above 13), of lost coolant flow, or of both (07 R112, 31 R396). -/
def Sys2Proof.Claims.haltRecord (s : State) (t : Nat) (temp : BitVec 8) (coolant : Bool) : Fault.Rec :=
  let hot := t < 14 ∧ s.hub.tcrit < temp
  { Fault.Rec.plain .haltPwr 0xA20 with
    target := if hot then s.hub.modNo.toNat * 256 + t else 0xFF, info := (if hot then temp.toNat else 0) + if coolant then 256 else 0 }

/-- R396: past TCRIT, or without coolant, the module enters H: every ring that runs halts at its release, and a HALTPWR record reaches the
hub's event arbiter; memory, clusters and every other log are as they were. Suspend turns the dies off and keeps the hub's memory; which state
outlives S is the model's choice where R396 does not say (log 38). -/
def Sys2Proof.Claims.ThermalHaltAndSuspend : Prop :=
  (∀ (s : State) (t : Nat) (temp : BitVec 8) (coolant : Bool), s.hub.power = .p0 ∨ s.hub.power = .p1 →
    ((t < 14 ∧ s.hub.tcrit < temp) ∨ coolant = true) →
    ∃ u, exec (.thermalHalt t temp coolant) s = .next u ∧ u.hub.power = .h ∧ u.hub.cool = false ∧
      (∀ d, d < 8 → (s.ring d).run = true → (u.ring d).haltNext = true) ∧ (∀ d, (u.ring d).run = (s.ring d).run) ∧ u.clusters = s.clusters ∧
      (u.sup 12).evq = insertEvent ((haltRecord s t temp coolant).bytes s.cycle.toNat) (s.sup 12).evq ∧
      (∀ k, k ≠ 12 → u.sup k = s.sup k) ∧ u.mem = s.mem) ∧
  (∀ (s : State), s.hub.power ≠ .off → s.hub.power ≠ .s → s.hub.ms = false →
    ∃ u, exec .suspend s = .next u ∧ u.hub.power = .s ∧ (∀ c, u.cl c = Cluster.reset) ∧ (∀ d, u.ring d = Ring.reset) ∧
      (∀ n, u.adie n = ADie.reset) ∧ (∀ t, u.dist t = Dist.reset) ∧ u.sup 12 = s.sup 12 ∧ u.hub.coresRun = s.hub.coresRun &&& 1 ∧
      ∀ pa, SMap.get 0 u.mem pa = if outlives pa then SMap.get 0 s.mem pa else 0) ∧
  ∀ (s : State), (s.hub.power = .off ∨ s.hub.power = .s ∨ s.hub.ms = true) → exec .suspend s = .next s

/-- R373, R396: at the end of a cycle the entry that reached the event arbiter of a die, or of the hub, enters its log at EVBASE plus 64 bytes
for each entry written before it, and every byte of memory outside those 64 is as it was; a full log loses the entry, and counts it. -/
def Sys2Proof.Claims.EntriesLogged : Prop :=
  ∀ (s : State) (t : Nat) (e : List Byte), (s.sup t).evq = [e] → e.length = 64 → Memory.wf s.mem = true →
    let p := s.sup t
    let pa := p.evBase.toNat + p.wr.toNat * 64
    let nx := (p.wr.toNat + 1) % (64 * 2 ^ p.depth.toNat)
    (nx = p.rd.toNat → (s.writeEvents t).mem = s.mem ∧ ((s.writeEvents t).sup t).wr = p.wr ∧
      ((s.writeEvents t).sup t).lost = if p.lost = 0xFFFF then p.lost else p.lost + 1) ∧
    (nx ≠ p.rd.toNat → ((s.writeEvents t).sup t).wr = BitVec.ofNat 20 nx ∧ ((s.writeEvents t).sup t).lost = p.lost ∧
      (∀ x, ¬ (pa ≤ x ∧ x < pa + 64) → SMap.get 0 (s.writeEvents t).mem x = SMap.get 0 s.mem x) ∧
      (s.isMem pa = true → p.evBase.toNat % 4096 = 0 → (∀ i, i < 64 → s.isRo (pa + i) = false) →
        ∀ i, i < 64 → SMap.get 0 (s.writeEvents t).mem (pa + i) = e.getD i 0))

/-- The module right after a reset's first effect, with the certificate of its identity key (31 R393, R394): the dies and memory are clear, what
the hub's flash holds and its security counter stand. -/
def Sys2Proof.Claims.resetStart (s : State) : State := s.cleared.modHub fun h => { h with cert := Config.freeCertificate }

/-- Stage 2 as it starts on a bank whose loader passes: the counter raised, M3 extended with the loader's digest (31 R388, R393). -/
def Sys2Proof.Claims.loaderMeasured (s : State) (bank : Bool) (f : FlashBank) : State :=
  s.modHub fun h => { (h.stageTwo bank f).measure 3 f.loader.digest with svn := max (h.stageTwo bank f).svn f.loader.svn }

/-- R388, R389, R391, R394: where a reset begins, and which bank it boots: bank 0 when its images pass, else bank 1; with neither it enters the
management state with both reasons, core 0 alone running. Memory that reads zero after the reset is the model's choice (log 35). -/
def Sys2Proof.Claims.BanksTried : Prop :=
  (∀ (s : State), (resetStart s).cycle = 0 ∧ (resetStart s).mem = [] ∧ (∀ c, (resetStart s).cl c = Cluster.reset) ∧
    (∀ d, (resetStart s).ring d = Ring.reset) ∧ (resetStart s).hub.flash0 = s.hub.flash0 ∧ (resetStart s).hub.flash1 = s.hub.flash1 ∧
    (resetStart s).hub.svn = s.hub.svn) ∧
  (∀ (s : State) (env : ResetEnv), env.pufOk = false →
    ∃ u, exec (.moduleReset env) s = .next u ∧ u.hub.ms = true ∧ u.hub.mgmt = 6 ∧ u.hub.coresRun = 1 ∧ u.hub.flash0 = s.hub.flash0 ∧
      u.hub.flash1 = s.hub.flash1 ∧ u.hub.svn = s.hub.svn ∧ u.mem = [] ∧ u.cycle = 0 ∧ ∀ c, u.cl c = Cluster.reset) ∧
  (∀ (s : State) (env : ResetEnv) (f : FlashBank) (h : Hub), env.pufOk = true → s.hub.flash0 = some f →
    (resetStart s).tryBank (some f) = (h, none) →
    exec (.moduleReset env) s = .next (((resetStart s).modHub fun _ => h).bootFrom env false f)) ∧
  (∀ (s : State) (env : ResetEnv) (g : FlashBank) (h k : Hub) (a : Nat), env.pufOk = true → s.hub.flash1 = some g →
    (resetStart s).tryBank s.hub.flash0 = (h, some a) →
    ((resetStart s).modHub fun _ => h.setReason false a).tryBank (some g) = (k, none) →
    exec (.moduleReset env) s = .next (((resetStart s).modHub fun _ => k).bootFrom env true g)) ∧
  (∀ (s : State) (env : ResetEnv) (h k : Hub) (a b : Nat), env.pufOk = true →
    (resetStart s).tryBank s.hub.flash0 = (h, some a) →
    ((resetStart s).modHub fun _ => h.setReason false a).tryBank s.hub.flash1 = (k, some b) →
    ∃ u, exec (.moduleReset env) s = .next u ∧ u.hub.ms = true ∧ u.hub.mgmt = BitVec.ofNat 8 b ∧ u.hub.rsn1 = BitVec.ofNat 8 b ∧
      u.hub.rsn0 = BitVec.ofNat 8 a ∧ u.hub.coresRun = 1 ∧ u.cycle = 0 ∧ ∀ c, u.cl c = Cluster.reset) ∧
  (∀ (s : State), s.tryBank none = ({ s.hub with stage := 0 }, some 7))

/-- R388 to R391: a bank passes when each of its images is there, readable, signed, and not older than the counter, its record well formed and
within the registers' limits; M0, M1 and M2 are then extended with the digests of its stage-1 image, its record and its firmware, in that
order. An image that fails gives its reason: a signature 1 (stage 1) or 2, an older version 4, a record that breaks its form 5, absence 7, and
unreadable flash 8; a record that splits the module while a die joins another module's ring is one of them. -/
def Sys2Proof.Claims.BankPasses : Prop :=
  (∀ (s : State) (f : FlashBank), imageFail s.hub.svn 1 f.stage1 = none → imageFail s.hub.svn 2 (recImageOf f) = none →
    recordFormOk f.recordBytes = true → f.recordOk = true → splitJoin f = false →
    s.breaksLimit f = false →
    imageFail s.hub.svn 2 f.firmware = none →
    (s.tryBank (some f)).2 = none ∧ (s.tryBank (some f)).1.stage = 1 ∧ (s.tryBank (some f)).1.recDigest = f.record.digest ∧
      (s.tryBank (some f)).1.meas = ((s.hub.measure 0 f.stage1.digest).measure 1 f.record.digest |>.measure 2 f.firmware.digest).meas) ∧
  (∀ (s : State) (f : FlashBank) (r : Nat), imageFail s.hub.svn 1 f.stage1 = some r → (s.tryBank (some f)).2 = some r) ∧
  (∀ (s : State) (f : FlashBank) (r : Nat), imageFail s.hub.svn 1 f.stage1 = none → imageFail s.hub.svn 2 (recImageOf f) = some r →
    (s.tryBank (some f)).2 = some r) ∧
  (∀ (s : State) (f : FlashBank) (r : Nat), imageFail s.hub.svn 1 f.stage1 = none → imageFail s.hub.svn 2 (recImageOf f) = none →
    recordFormOk f.recordBytes = true → f.recordOk = true → splitJoin f = false → s.breaksLimit f = false →
    imageFail s.hub.svn 2 f.firmware = some r → (s.tryBank (some f)).2 = some r) ∧
  (∀ (s : State) (f : FlashBank), imageFail s.hub.svn 1 f.stage1 = none → imageFail s.hub.svn 2 (recImageOf f) = none →
    (recordFormOk f.recordBytes = false ∨ f.recordOk = false ∨ splitJoin f = true ∨ s.breaksLimit f = true) → (s.tryBank (some f)).2 = some 5) ∧
  (∀ (f : FlashBank) (v w : BitVec 64) (d : Nat), d < 8 → recordHas f.recordBytes 1 = true → recordHas f.recordBytes 2 = true →
    f.writes = [⟨0x14018, v⟩, ⟨0x10020 + d * 0x100, w⟩] → v.toNat % 4 ≠ 0 → w.extractLsb' 20 6 ≠ f.modNo → splitJoin f = true) ∧
  (∀ (n r : Nat) (f : FlashImage), (f.present = false → imageFail n r f = some 7) ∧
    (f.present = true → f.readable = false → imageFail n r f = some 8) ∧
    (f.present = true → f.readable = true → f.sigOk = false → imageFail n r f = some r) ∧
    (f.present = true → f.readable = true → f.sigOk = true → f.svn < n → imageFail n r f = some 4) ∧
    (f.present = true → f.readable = true → f.sigOk = true → n ≤ f.svn → imageFail n r f = none))

/-- R388, R391 to R394: on either bank, stage 2 raises the counter and measures the OS loader; a loader that fails, or a register write that is
ignored, ends in the management state with the reason, core 0 alone running; else the dies are brought up, M4 is extended with what stage 3
loads, and every core runs. Bringing up changes no flash image, no measurement register, no counter and not CYCLE, which every reset leaves
at 0. Which cores run in each stage is the model's choice where R388 does not say (log 36). -/
def Sys2Proof.Claims.BootRuns : Prop :=
  (∀ (s t : State) (env : ResetEnv) (bank : Bool) (f : FlashBank),
    imageFail (s.hub.stageTwo bank f).svn 3 (loaderImageOf f) = none → (loaderMeasured s bank f).bringUp env f = some t →
    (s.bootFrom env bank f).hub.coresRun = 0xFFFF ∧ (s.bootFrom env bank f).hub.stage = 3 ∧ (s.bootFrom env bank f).hub.ms = t.hub.ms ∧
    (s.bootFrom env bank f).hub.meas = (env.loaded.foldl (fun h g => h.measure 4 g) t.hub).meas ∧
    (s.bootFrom env bank f).clusters = t.clusters ∧ (s.bootFrom env bank f).rings = t.rings ∧ (s.bootFrom env bank f).cycle = t.cycle) ∧
  (∀ (s t : State) (env : ResetEnv) (f : FlashBank), s.bringUp env f = some t →
    t.cycle = s.cycle ∧ t.hub.meas = s.hub.meas ∧ t.hub.svn = s.hub.svn ∧ t.hub.flash0 = s.hub.flash0 ∧ t.hub.flash1 = s.hub.flash1) ∧
  (∀ (s : State) (env : ResetEnv) (bank : Bool) (f : FlashBank) (r : Nat), imageFail (s.hub.stageTwo bank f).svn 3 (loaderImageOf f) = some r →
    (s.bootFrom env bank f).hub.ms = true ∧ (s.bootFrom env bank f).hub.mgmt = BitVec.ofNat 8 r ∧ (s.bootFrom env bank f).hub.coresRun = 1) ∧
  (∀ (s : State) (env : ResetEnv) (bank : Bool) (f : FlashBank), imageFail (s.hub.stageTwo bank f).svn 3 (loaderImageOf f) = none →
    (loaderMeasured s bank f).bringUp env f = none →
    (s.bootFrom env bank f).hub.ms = true ∧ (s.bootFrom env bank f).hub.mgmt = 5 ∧ (s.bootFrom env bank f).hub.coresRun = 1) ∧
  (∀ (s : State) (env : ResetEnv), ∃ u, exec (.moduleReset env) s = .next u ∧ u.cycle = 0)

/-- R396: a wake from S brings the dies up again from the bank that booted, and every core runs; it leads back to H when S was entered from it.
A bank that is gone, or a register write that is ignored, ends in the management state, with the reason in that bank's field too. That a wake
leads back to H while the cause stands is the model's reading (log 38). -/
def Sys2Proof.Claims.Wakes : Prop :=
  (∀ (s t : State) (env : ResetEnv) (f : FlashBank), s.hub.power = .s → s.hub.ms = false →
    (if s.hub.bank then s.hub.flash1 else s.hub.flash0) = some f →
    (s.modHub fun h => { h with power := if h.hot then .h else .p0, coresRun := 1 }).bringUp env f = some t →
    exec (.wake env) s = .next (t.modHub fun h => { h with coresRun := 0xFFFF })) ∧
  (∀ (s : State) (env : ResetEnv) (f : FlashBank), s.hub.power = .s → s.hub.ms = false →
    (if s.hub.bank then s.hub.flash1 else s.hub.flash0) = some f →
    (s.modHub fun h => { h with power := if h.hot then .h else .p0, coresRun := 1 }).bringUp env f = none →
    ∃ u, exec (.wake env) s = .next u ∧ u.hub.ms = true ∧ u.hub.mgmt = 5 ∧ u.hub.coresRun = 1 ∧
      (if s.hub.bank then u.hub.rsn1 else u.hub.rsn0) = 5) ∧
  (∀ (s : State) (env : ResetEnv), s.hub.power = .s → s.hub.ms = false → (if s.hub.bank then s.hub.flash1 else s.hub.flash0) = none →
    ∃ u, exec (.wake env) s = .next u ∧ u.hub.ms = true ∧ u.hub.mgmt = 7 ∧ u.hub.coresRun = 1 ∧
      (if s.hub.bank then u.hub.rsn1 else u.hub.rsn0) = 7) ∧
  (∀ (s : State) (env : ResetEnv), (s.hub.power ≠ .s ∨ s.hub.ms = true) → exec (.wake env) s = .next s)

/-- R388, R389, R391, R392, R394: a module reset clears the dies, keeps the flash and its counter, and boots bank 0 when its images pass, else
bank 1; with neither, or with helper data that fails its check, it enters the management state with the reason, core 0 alone running; a boot
that succeeds measures each stage and runs every core. A wake from S brings the dies up again. The model's choices are named at the parts: log
35 (memory after the reset), log 36 (the cores that run, and what M4 is extended with), log 38 (a wake while the thermal cause stands). -/
def Obligations.BootOrder : Prop :=
  Sys2Proof.Claims.BanksTried ∧ Sys2Proof.Claims.BankPasses ∧ Sys2Proof.Claims.BootRuns ∧ Sys2Proof.Claims.Wakes

/-- R346, R348, R352 to R355, R363, R365: flits and what their headers count, links, leases, shoot-downs. The model's choices (logs 12, 13 and
55) are named at the parts. -/
def Obligations.Fabric : Prop := Sys2Proof.Claims.FabricEvents ∧ Sys2Proof.Claims.FlitsCounted ∧ Sys2Proof.Claims.RoClears ∧ Sys2Proof.Claims.RoClearsForMasters

/-- R386, R393, R396: firmware updates, attestation, power. -/
def Obligations.HubAndPower : Prop := Sys2Proof.Claims.HubEvents ∧ Sys2Proof.Claims.ThermalHaltAndSuspend ∧ Sys2Proof.Claims.EntriesLogged

/-! ### Words, steps and the whole machine (03 R60, R61, 07 R90, R93 to R95, 09 R113 to R130, 29 R366 to R369) -/

namespace Sys2Proof.Claims

open Sys2Proof.Machine

/-- The parcels a word takes, 0 to 2. -/
abbrev W3 := Parcel × Parcel × Parcel

/-- Words written out from the spec's tables and worked examples, with the instruction each stands for. -/
def workedWords : List (W3 × Instr) :=
  [ -- (p1) VADD.f32.rtz v12, v40, v41 (09, worked encoding)
    ((0xB2000000, 0xA014FFF0, 0x70010180), .vadd { sub := 0, gn := false, gp := 1, dst := .v 12, sa := .v 40, sb := .v 41, sc := .null, ft := 0, ty := .f32, md := 2, imm := 0 }),
    -- LOOP.rot s5 to the parcel 9 on
    ((0x00000009, 0x14010000, 0x0800FFE8), .loop { sub := 0, gn := false, gp := 0, dst := .null, sa := .s 5, lv := 0, cf := 1, off := 9 }),
    -- JTAB s2, s3, 4
    ((0x00000004, 0x0901FFF0, 0x0500FFE8), .jtab { sub := 0, gn := false, gp := 0, dst := .null, sa := .s 2, sb := .s 3, sc := .null, ft := 0, ty := .none, md := 0, imm := 4 }),
    -- LDA.i64.achip s5, [s2 + 0x40]
    ((0x45000040, 0x0BFFFFF0, 0x420040A8), .lda { sub := 0, gn := false, gp := 0, dst := .s 5, sa := .s 2, sb := .null, sc := .null, ft := 0, ty := .i64, md := 5, imm := 0x40 }),
    -- VFMA.f32 v10, v1, v2, v3, vm2
    ((0xB0000082, 0x04010030, 0x73000140), .vfma { sub := 0, gn := false, gp := 0, dst := .v 10, sa := .v 1, sb := .v 2, sc := .v 3, ft := 0, ty := .f32, md := 0, imm := 0x82 }),
    -- KADD k21, k20, 2, excluding byte 0
    ((0x00000102, 0x53FFFFF0, 0xA20082B0), .kadd { sub := 0, gn := false, gp := 0, dst := .k 21, sa := .k 20, sb := .null, sc := .null, ft := 0, ty := .none, md := 0, imm := 0x102 }),
    -- KVAPP.beam p2, s4, s5, v20, 2048
    ((0x00000800, 0x11028140, 0xD4105048), .kvappBeam { sub := 1, gn := false, gp := 0, dst := .p 2, sa := .s 4, sb := .s 5, sc := .v 20, ft := 0, ty := .none, md := 0, imm := 0x800 }),
    -- BMAP.ro s4, v102, 4
    ((0x00000003, 0x10337FF0, 0xDB00FFE8), .bmapRo { sub := 0, gn := false, gp := 0, dst := .null, sa := .s 4, sb := .v 102, sc := .null, ft := 0, ty := .none, md := 0, imm := 3 }),
    -- LTTW p1, s4, s5, s6
    ((0x00000000, 0x1102A060, 0x2D005028), .lttw { sub := 0, gn := false, gp := 0, dst := .p 1, sa := .s 4, sb := .s 5, sc := .s 6, ft := 0, ty := .none, md := 0, imm := 0 }) ]

/-- A context that may issue a word in the state of its turn: it stands in the body of a section, or in a wait of its word. -/
def Issues (s : State) (c x : Nat) : Prop :=
  s.canIssue c x = true ∧ ((s.ctx.phase = .body) ∨ (∃ f, s.ctx.phase = .fence f) ∨ (∃ n, s.ctx.phase = .brWait n) ∨ ∃ b, s.ctx.phase = .wseg b)

/-- The word at the PC is an instruction of three parcels (R126): its parcels lie in the section and are fetched, decode, and are accepted. -/
def ShortWord (s : State) (i : Instr) : Prop :=
  ∃ p0 p1 p2, s.ctx.pc.toNat + 3 ≤ s.ctx.secE ∧ s.fetchRun s.cur.1 s.cur.2 s.ctx.pc 3 = .ok [p0, p1, p2] ∧ decode [p0, p1, p2] = .ok (i, []) ∧
    opcAccepted (p2.toNat / 2 ^ 24) (isRing s.cur.1) (engOf s.cur.2) = true ∧ kindOk (isRing s.cur.1) i = true

/-- The word at the PC is a Form P instruction with its twelve parameter parcels (R121, R126). -/
def LongWord (s : State) (i : Instr) : Prop :=
  ∃ p0 p1 p2 qs b, s.ctx.pc.toNat + 15 ≤ s.ctx.secE ∧ s.fetchRun s.cur.1 s.cur.2 s.ctx.pc 3 = .ok [p0, p1, p2] ∧
    s.fetchRun s.cur.1 s.cur.2 (s.ctx.pc + 3) 12 = .ok qs ∧ opcForm (p2.toNat / 2 ^ 24) = some 3 ∧ decode (p0 :: p1 :: p2 :: qs) = .ok (i, []) ∧
    opcAccepted (p2.toNat / 2 ^ 24) (isRing s.cur.1) (engOf s.cur.2) = true ∧ kindOk (isRing s.cur.1) i = true ∧ parOf i = some b ∧
    parHeadOk i (parFields b) = true ∧ parFixed i (parFields b) = true

end Sys2Proof.Claims

open Sys2Proof Sys2Proof.Machine Sys2Proof.Claims

/-- R113, R119, R123, R128, R129: words written out from the spec decode to the instructions they stand for. -/
def Obligations.WordsDecode : Prop :=
  ∀ e ∈ workedWords, decode [e.1.1, e.1.2.1, e.1.2.2] = .ok (e.2, [])

/-- R113, R119, R121, R123, R128: for every instruction of the opcode table, every operand at every value: what is well formed decodes to
itself, with the parcels after it left over. -/
def Obligations.DecodeOfEncode : Prop :=
  ∀ (i : Instr) (rest : List Parcel), WellFormed i → decode (encode i ++ rest) = .ok (i, rest) ∧ (encode i).length = i.parcels

/-- R120, R126, R141: in the turn of a context that may issue, the word at its PC is executed when its guard holds, and otherwise completes
without any other effect (that a word that names a v register may count in ECNTW is noted, 07 R107); an event's turn runs the event; with no turn left the cycle ends: the accumulator rows that move in it and the ticks that
end with it come first, then the stamp advances. -/
def Obligations.StepRunsWord : Prop :=
  (∀ (s : State) (c x : Nat) (ts : List Turn) (i : Instr), s.turns = .issue c x :: ts → (s.cl c).clash x = false →
    Issues { s with turns := ts, cur := (c, x) } c x →
    ((ShortWord { s with turns := ts, cur := (c, x) } i ∧ parOf i = none) ∨ LongWord { s with turns := ts, cur := (c, x) } i) →
    (((s.cl c).cx x).getP (guardOf i).2.toNat ≠ (guardOf i).1 →
      step s = exec i (({ s with turns := ts, cur := (c, x) } : State).noteV i)) ∧
    (((s.cl c).cx x).getP (guardOf i).2.toNat = (guardOf i).1 → step s = .next (({ s with turns := ts, cur := (c, x) } : State).complete i.parcels))) ∧
  (∀ (s : State) (ts : List Turn) (i : Instr), s.turns = .event i :: ts → i.body = none → (∀ d, i ≠ .tickEnd d) → (∀ c, i ≠ .mdrainRowLands c) →
    step s = exec i { s with turns := ts }) ∧
  (∀ (s : State) (c : Nat), s.turns = [] → s.rowDue = some c → step s = exec (.mdrainRowLands c) s) ∧
  (∀ (s : State) (d : Nat), s.turns = [] → s.rowDue = none → s.tickDue = some d → step s = exec (.tickEnd d) s) ∧
  (∀ (s : State), s.turns = [] → s.rowDue = none → s.tickDue = none → ∃ t, step s = .next t ∧ t.cycle = s.cycle + 1 ∧ t.turns = [] ∧ t.mem = s.endCycle.mem ∧
    ∀ c, (t.cl c).issued = [])

/-- Every instruction and every step has a next state: the model stops on none. -/
def Obligations.NothingStops : Prop :=
  (∀ (i : Instr) (s : State), ∃ t, exec i s = .next t) ∧ ∀ (s : State), ∃ t, step s = .next t

/-- Every step keeps memory in its canonical form: addresses rise, and no cell holds what an unlisted address reads as. -/
def Obligations.StepsKeepMemory : Prop :=
  ∀ (s t : State), Memory.wf s.mem = true → step s = .next t → Memory.wf t.mem = true

/-- The machine right after reset: memory is canonical and lists nothing, no cluster has a task, every ring is stopped, and the registers the
spec gives a reset value have it (R7, R104, R329, R343, R364, R371, R395); BANKCTL is zero, and the access table permits the
hub cores everything and every cluster's master nothing. Memory at reset reads zero, a choice of this model (log 3), as are the reset values the spec
does not state (log 2). -/
def Obligations.ResetState : Prop :=
  Memory.wf State.reset.mem = true ∧ (∀ pa, SMap.get 0 State.reset.mem pa = 0) ∧ State.reset.cycle = 0 ∧
    (∀ c, (State.reset.cl c).task = none ∧ (State.reset.cl c).bankctl = 0 ∧ ∀ x, ((State.reset.cl c).cx x).run = .idle) ∧
    (∀ d, (State.reset.ring d).run = false ∧ (State.reset.ring d).flen = 36 ∧ (State.reset.ring d).flenMin = 35 ∧ (State.reset.ring d).hbto = 64) ∧
    (∀ a, (State.reset.adie a).en = false) ∧ (∀ t, (State.reset.sup t).frz = 0 ∧ (State.reset.sup t).esc = 0 ∧ (State.reset.sup t).rspDone = true) ∧
    (∀ t m, m < 0xA00 → State.reset.permits t m = 0) ∧ (∀ t m, 0xA00 ≤ m → m ≤ 0xA0F → State.reset.permits t m = 0xF) ∧ State.reset.hub.lease = 1000 ∧ State.reset.hub.tcrit = 105 ∧ State.reset.hub.twarn = 95 ∧
    State.reset.hub.maxcl = 32 ∧ State.reset.hub.capw = 6200 ∧ State.reset.hub.hostEn = false ∧ State.reset.hub.shape = 0

/-- R90: p0 reads 1 and a write to it is discarded; p1 to p7 and every s and b register read back what was last written. -/
def Obligations.RegistersReadBack : Prop :=
  (∀ e : Ctx, e.getP 0 = true) ∧
  (∀ (s : State) (v : Word) (c x : Nat), ((s.putOpnd (.p 0) v).cl c).cx x = (s.cl c).cx x) ∧
  (∀ (s : State) (i : BitVec 3) (v : Bool), i ≠ 0 → (s.putPred (.p i) v).ctx.getP i.toNat = v ∧
    ∀ j, j < 8 → j ≠ i.toNat → (s.putPred (.p i) v).ctx.getP j = s.ctx.getP j) ∧
  (∀ (s : State) (i : BitVec 6) (v : Word), (s.putOpnd (.s i) v).ctx.getS i.toNat = v ∧
    ∀ j, j ≠ i.toNat → (s.putOpnd (.s i) v).ctx.getS j = s.ctx.getS j) ∧
  (∀ (s : State) (i : BitVec 3) (v : Parcel), (s.putOpnd (.b i) (v.setWidth 64)).ctx.getB i.toNat = v ∧
    ∀ j, j ≠ i.toNat → (s.putOpnd (.b i) (v.setWidth 64)).ctx.getB j = s.ctx.getB j)

/-- R93, R94: an s register that is empty holds back a source with FT = 0 and a destination, and traps FEEMPTY on a source with FT = 1; an
error-pending one traps ECCFATAL on the source that reads it; a full one reads its value. -/
def Obligations.EmptyRegisters : Prop :=
  ∀ (s : State) (i : BitVec 6) (pos : Nat),
    (SMap.get? s.ctx.sHold i.toNat = some .empty →
      s.srcS (.s i) pos false = .error .wait ∧ s.dstS (.s i) = .error .wait ∧
      ∃ t, s.srcS (.s i) pos true = .error (.trap t) ∧ t.cause = .feEmpty ∧ t.opnd = pos) ∧
    (∀ a g t ft, SMap.get? s.ctx.sHold i.toNat = some (.mark a g t) →
      ∃ r, s.srcS (.s i) pos ft = .error (.trap r) ∧ r.cause = .eccFatal ∧ r.info = some a) ∧
    (∀ ft, SMap.get? s.ctx.sHold i.toNat = none → s.srcS (.s i) pos ft = .ok (s.ctx.getS i.toNat) ∧ s.dstS (.s i) = .ok ())

/-- R60, R61: at the end of a cycle every result that is due lands, in issue order (the clearing of flags before the rest, so that a flag raised in that
cycle stays set, R79), and the others stay in flight in their order: of several
results for one register the later-issued one remains, and a register no due result names keeps its value. -/
def Obligations.ResultsLandInOrder : Prop :=
  (∀ (k : Cluster) (now : Nat), (k.lands now).land = (k.land.filter (·.clears) ++ k.land.filter fun l => !l.clears).filter (fun l => decide (now < l.due))) ∧
  (∀ (k : Cluster) (now : Nat) (ls : List Land) (l : Land) (i : BitVec 9) (v m : VWord) (b : Option Bind),
    k.land = ls ++ [l] → l.due ≤ now → l.dst = .v i → l.kind = .write v m b →
    (k.lands now).getV i.toNat = mergeBits (({ k with land := ls }.lands now).getV i.toNat) v m ∧ SMap.get? (k.lands now).bind i.toNat = b) ∧
  (∀ (k : Cluster) (now n : Nat), (∀ l ∈ k.land, l.due ≤ now → ∀ i, l.dst = .v i → i.toNat ≠ n) →
    (k.lands now).getV n = k.getV n ∧ SMap.get? (k.lands now).bind n = SMap.get? k.bind n)

/-- R366, R368, R369: a trap writes TRAPCAUSE, TRAPPC and TRAPINFO and stops the context, whose registers are as they were; every other
context is as it was, but that one stopped for a pre-emption may go on where the trap cancels it, and so are the registers of every cluster. A trap in a handler context, and one whose TVEC is zero or cannot be
read, escalates: the cluster halts and its ESC bit is set; any other goes to the task trap handler. -/
def Obligations.TrapEntry : Prop :=
  ∀ (s : State) (c x : Nat) (pc : Parcel) (t : Trap), t.cause ≠ .refused →
    ((s.takeTrap c x pc t).cl c).cx x = { (s.cl c).cx x with
      run := .trapped, cause := BitVec.ofNat 32 (t.opnd * 2 ^ 16 + t.cause.code), tpc := pc, tgt := t.tgt
      tinfo := (((s.takeTrap c x pc t).cl c).cx x).tinfo, stopped := (((s.takeTrap c x pc t).cl c).cx x).stopped } ∧
    (∀ i, t.info = some i → (((s.takeTrap c x pc t).cl c).cx x).tinfo = i) ∧
    (5 ≤ x → ((s.takeTrap c x pc t).cl c).halted = true ∧ ((s.takeTrap c x pc t).sup (dieOf c)).esc.getLsbD (localOf c) = true) ∧
    (x ≤ 4 → s.tvec c = none → ((s.takeTrap c x pc t).cl c).halted = true ∧ ((s.takeTrap c x pc t).sup (dieOf c)).esc.getLsbD (localOf c) = true) ∧
    (∀ v, x ≤ 4 → s.tvec c = some v → ((s.takeTrap c x pc t).cl c).traps = (s.cl c).traps ++ [x] ∧
      ((s.takeTrap c x pc t).cl c).halted = (s.cl c).halted ∧ (s.takeTrap c x pc t).sups = s.sups) ∧
    (∀ d y, d ≠ c ∨ y ≠ x → ∃ b, ((s.takeTrap c x pc t).cl d).cx y = { (s.cl d).cx y with stopped := b }) ∧
    (∀ d n, ((s.takeTrap c x pc t).cl d).getV n = (s.cl d).getV n ∧ ((s.takeTrap c x pc t).cl d).getK n = (s.cl d).getK n ∧
      ((s.takeTrap c x pc t).cl d).event n = (s.cl d).event n)

/-! ### Where words and steps complete -/

/-- 11 R143, R144, R149, R151 to R154, 03 R36, 11 R169, 17 R260, 19 R286: NOP, END, PBR, LIDX, POST, AWAIT, AWAIT.nb, WSEG, TRAP, GWAIT, MGO,
MGO.grp, KVAPP and KVAPP.beam each complete, with the effect the rule gives, wherever their operands are readable and the rule's condition
for going on holds. -/
def Sys2Proof.Claims.WordsComplete : Prop :=
  (∀ (w : AForm) (s : State), Straight s 3 → ∃ t, exec (.nop w) s = .next t ∧ OnlySequencing s t) ∧
  (∀ (w : AForm) (s : State), s.me.m.drop = [] → s.cur.2 ∈ [1, 3, 4] ∨ (s.cur.2 = 2 ∧ s.me.m.busy = false) ∨ (s.cur.2 = 0 ∧ s.me.allArrived = true) →
    ∃ t, exec (.endI w) s = .next t ∧ t.ctx.run = .arrived) ∧
  (∀ (w : CForm) (d : BitVec 3) (s : State), w.dst = .b d → Straight s 3 →
    ∃ t, exec (.pbr w) s = .next t ∧ OnlySequencing (s.modCtx fun e => e.putB d.toNat (s.ctx.pc + w.off.setWidth 32)) t ∧
      t.ctx.getB d.toNat = s.ctx.pc + w.off.setWidth 32) ∧
  (∀ (w : CForm) (d : BitVec 6) (e : LoopEnt) (s : State), w.dst = .s d → s.ctx.loops[w.lv.toNat]? = some e → s.dstS (.s d) = .ok () → Straight s 3 →
    ∃ t, exec (.lidx w) s = .next t ∧ t.ctx.getS d.toNat = e.index.setWidth 64 ∧ t.mem = s.mem) ∧
  (∀ (w : AForm) (n : Nat) (s : State), s.countOf w = .ok n →
    ∃ t, exec (.post w) s = .next t ∧ t.me.posts = s.me.posts ++ [{ x := s.cur.2, n := eventOf w, count := n, nest := false }] ∧
      ((s.me.event (eventOf w)).toNat + n ≤ 65535 →
        (((t.postOne s.cur.1 { x := s.cur.2, n := eventOf w, count := n, nest := false }).cl s.cur.1).event (eventOf w)).toNat =
          (s.me.event (eventOf w)).toNat + n)) ∧
  (∀ (w : AForm) (n : Nat) (s : State), s.countOf w = .ok n → n ≤ (s.me.event (eventOf w)).toNat → Straight s 3 →
    ∃ t, exec (.await w) s = .next t ∧ OnlySequencing (s.takeEvent (eventOf w) n) t ∧
      (t.me.event (eventOf w)).toNat = (s.me.event (eventOf w)).toNat - n) ∧
  (∀ (w : AForm) (n : Nat) (d : BitVec 3) (s : State), w.dst = .p d → d ≠ 0 → s.countOf w = .ok n → Straight s 3 →
    ∃ t, exec (.awaitNb w) s = .next t ∧ t.ctx.getP d.toNat = decide (n ≤ (s.me.event (eventOf w)).toNat) ∧
      (t.me.event (eventOf w)).toNat =
        (if n ≤ (s.me.event (eventOf w)).toNat then (s.me.event (eventOf w)).toNat - n else (s.me.event (eventOf w)).toNat)) ∧
  (∀ (w : AForm) (r : Word) (d : BitVec 3) (s : State), w.dst = .p d → d ≠ 0 → s.srcSOr w.sa 2 (ftBit w 2) 0xFFFFFFFF = .ok r →
    s.keyCheck s.cur.1 w.imm (r.setWidth 32) = .hit → Straight s 3 →
    ∃ t, exec (.wseg w) s = .next t ∧ OnlySequencing (s.modCtx fun e => e.putP d.toNat true) t ∧ t.ctx.getP d.toNat = true) ∧
  (∀ (w : AForm) (s : State), ∃ t, exec (.trapI w) s = .next t ∧ Trapped t s.cur.1 s.cur.2 .swTrap 0 s.ctx.pc (w.imm.setWidth 64)) ∧
  (∀ (w : AForm) (v : Word) (i : Nat) (s : State), s.srcS w.sa 2 (ftBit w 2) = .ok v → s.groupIn (w.imm.toNat % 4) = .ok i →
    (s.group i).phase ≠ v.setWidth 16 → Straight s 3 → ∃ t, exec (.gwait w) s = .next t ∧ OnlySequencing s t) ∧
  (∀ (w : AForm) (s : State) (grp : Bool) (i : Instr), i = (if grp then .mgoGrp w else .mgo w) → s.me.m.nests.length < 4 →
    nestChecks s grp = .ok () → s.mReads s.cur.1 = true →
    (∀ g t, (nestOf s w grp).gen = some g → s.taskOn s.cur.1 = some t → recKeyed t.rcd = true → t.isHolder g = true) → Straight s 3 →
    ∃ t, exec i s = .next t ∧ t.me.m.nests = s.me.m.nests ++ [nestOf s w grp] ∧ t.mem = s.mem) ∧
  ∀ (w : AForm) (s t u : State) (beam : Bool) (r : Append) (i : Instr) (ok : Bool), i = (if beam then .kvappBeam w else .kvapp w) →
    appendHas s t w beam r → t.appendNow t.me.a r = .ok (.done u ok) → Straight u 3 →
    ∃ v, exec i s = .next v ∧ OnlySequencing (u.putOpnd w.dst (if ok then 1 else 0)) v

/-- 03 R34, R35, 09 R118, 13 R182, R205, R206, 17 R261, R263, R267, 23 R326, 25 R341, 29 R372, R377: the steps of sections, nests,
accesses, messages, tier moves and repairs complete under their rules' conditions. -/
def Sys2Proof.Claims.StepsComplete : Prop :=
  (∀ (c x : Nat) (s : State) (h : Header) (f : Parcel), s.mayIssue c x = true → ((s.cl c).cx x).phase = .header → h.key = none →
    ({ s with cur := (c, x) } : State).readHeader c x ((s.cl c).cx x).pc = .sect h f →
    ∃ t, exec (.headerReached c x) s = .next t ∧ ((t.cl c).cx x).phase = .start h f .free ∧ t.mem = s.mem) ∧
  (∀ (c x : Nat) (s : State) (h : Header) (f : Parcel), s.mayIssue c x = true → s.mayStart c x h = true →
    ((s.cl c).cx x).phase = .start h f .free →
    ∃ t, exec (.sectionStart c x) s = .next t ∧ ((t.cl c).cx x) = ((s.cl c).cx x).startSection h f none ∧ t.mem = s.mem) ∧
  (∀ (c x : Nat) (s : State) (h : Header) (f : Parcel) (tag : BitVec 24) (rot : BitVec 32) (miss : Nat), ((s.cl c).cx x).phase = .start h f .waits →
    s.mayIssue c x = true → s.mayStart c x h = true → h.key = some (tag, rot, miss) →
    ({ s with cur := (c, x) } : State).keyCheck c tag rot = .hit →
    ∃ t, exec (.segmentKeyHit c x) s = .next t ∧ ((t.cl c).cx x) = ((s.cl c).cx x).startSection h f (some true) ∧ t.mem = s.mem) ∧
  (∀ (c x n : Nat) (ns : List Nat) (s : State), ((s.cl c).cx x).openSecs = n :: ns → (s.cl c).sectionOpen x n = false →
    ∃ t, exec (.sectionRetire c x) s = .next t ∧ ((t.cl c).cx x).openSecs = ns ∧ ((t.cl c).cx x).last = some n ∧ t.mem = s.mem) ∧
  (∀ (c : Nat) (s : State) (n : Nest) (ns : List Nest), (s.cl c).m.nests = n :: ns →
    (n.running = false → n.cyc < s.cycle.toNat → (∀ v ∈ (s.cl c).m.movers, v.bank = n.bank → n.id ≤ v.id) →
      ∃ t, exec (.nestStart c) s = .next t ∧ (t.cl c).m.nests.head? = some { n with running := true }) ∧
    (n.running = true → n.step < n.total → s.mHold c n.cyc = false → n.gen = none →
      exec (.nestStep c) s = .next (s.runStep c n)) ∧
    (n.running = true → n.total ≤ n.step → exec (.nestEnd c) s = .next (s.modM c fun m => m.endNest n))) ∧
  (∀ (c : Nat) (s : State) (v : Mover) (vs : List Mover), (s.cl c).m.movers = v :: vs → v.cyc + 1 + v.done ≤ s.cycle.toNat →
    exec (.mdrainRowLands c) s = .next (s.modCl c fun k => k.moveRow v (s.cycle.toNat + 1))) ∧
  (∀ (c x : Nat) (far : FarMap) (s : State) (a : Access) (undo : List (Opnd × Option Hold)) (pops : List Opnd),
    ((s.cl c).cx x).phase = .accept [a] false undo pops → plainOp a.op = true → a.fail ≠ some .deadlink →
    (∀ p ∈ a.pieces ++ a.sources, s.deadPath c p.pa = false ∧ s.isFar p.pa = false) → s.roAt [a] far = none → s.refusedAt c x [a] far = none →
    exec (.accessAccepted c x far) s = .next (s.enterQueue c x [a] pops)) ∧
  (∀ (c cl : Nat) (far : MsgAns) (g : Bool) (s t : State) (a : Access) (p : BitVec 3) (q : List Byte) (hnd : Parcel)
    (undo : List (Opnd × Option Hold)) (pops : List Opnd),
    ((s.cl c).cx 4).phase = .accept [a] g undo pops → a.op = .msg p q s.hub.modNo cl hnd → s.accessDead c a = false → a.fail ≠ some .deadlink →
    s.mayPerform c a = true → s.refusedAt c 4 [a] far.payload = none →
    (∀ r ∈ a.pieces, s.badAt r.pa r.len = false ∧ s.farNone far.payload r.pa = false) → s.slotRo cl = false → s.permits (dieOf cl) (masterOf c 4) &&& bitM ≠ 0 →
    s.slotWhole cl (a.pieces.flatMap fun q => s.bytes q.pa q.len) = true →
    s.deliver cl (a.pieces.flatMap fun q => s.bytes q.pa q.len) (BitVec.ofNat 22 (s.hub.modNo.toNat * 2 ^ 16 + masterOf c 4)) a.asid hnd = some t →
    exec (.messageArrival c far) s = .next (((t.msgSync c a cl).modCx c 4 fun e => e.putP p.toNat true).finishWord c 4 3)) ∧
  (∀ (n : Nat) (s : State) (m : Move) (ms : List Move), (s.adie n).moves = m :: ms → m.reqs = [] → m.rev = [] → m.still = false →
    m.going = true → s.dieHeld (8 + n) = false → s.moveRefused n ((s.adie n).descOf m.page).addr.toNat m.frame.toNat = none →
    ((s.adie n).descOf m.page).free = false → ((s.adie n).descOf m.page).refc ≠ 0 →
    ∃ t, exec (.tierMoveEnd n) s = .next t ∧ atRest (t.adie n).moves = atRest ms ∧ ((t.adie n).descOf m.page).addr = m.frame ∧
      ((t.adie n).descOf m.page).tier = (if m.toIn then 0 else 1)) ∧
  (∀ (d lost : Nat) (s : State), RingRuns s d → d ≠ lost → (s.ring d).since + (s.ring d).hbto.toNat ≤ (s.ring d).ticks →
    s.succHere d = some lost → exec (.heartbeatTimeout d lost) s = .next (s.repair lost 1)) ∧
  (∀ (d : Nat) (s : State), exec (.segmentStoreError d) s = .next (s.repair d 2)) ∧
  (∀ (d : Nat) (s : State), d < 8 → (s.ring d).repairing = true → (∀ e, e < 8 → s.partOf e = s.partOf d → (s.ring e).lost = []) →
    ∃ t, exec (.repairComplete d) s = .next t ∧ (t.ring d).repairing = false ∧ t.mem = s.mem)

/-- The words and steps above complete with their own effect. -/
def Obligations.WordsAndStepsComplete : Prop := Sys2Proof.Claims.WordsComplete ∧ Sys2Proof.Claims.StepsComplete
end

