-- ==== Sys2Proof/Laws/Map.lean ====
section
/-! SUPPORT. Laws of the sparse tables: what a read gives after a write, and that the canonical form is kept. -/

namespace Sys2Proof.Machine

variable {α : Type}

@[simp] theorem SMap.get_nil (d : α) (k : Nat) : SMap.get d [] k = d := rfl
@[simp] theorem SMap.get?_nil (k : Nat) : SMap.get? ([] : SMap α) k = none := rfl

/-- A key just written reads the value written. -/
@[simp] theorem SMap.get_set_same (d : α) (m : SMap α) (k : Nat) (v : α) : SMap.get d (SMap.set m k v) k = v := by
  induction m with
  | nil => simp [SMap.set, SMap.get]
  | cons e m ih =>
    obtain ⟨k', v'⟩ := e
    simp only [SMap.set]
    split
    · simp [SMap.get]
    · split
      · simp [SMap.get]
      · rename_i h
        simp [SMap.get, h, ih]

/-- A write leaves every other key alone. -/
theorem SMap.get_set_ne (d : α) (m : SMap α) {k j : Nat} (v : α) (h : j ≠ k) : SMap.get d (SMap.set m k v) j = SMap.get d m j := by
  induction m with
  | nil => simp [SMap.set, SMap.get, h]
  | cons e m ih =>
    obtain ⟨k', v'⟩ := e
    simp only [SMap.set]
    split
    · simp [SMap.get, h]
    · split
      · subst_vars; simp [SMap.get, h]
      · simp [SMap.get, ih]

@[simp] theorem SMap.get?_set_same (m : SMap α) (k : Nat) (v : α) : SMap.get? (SMap.set m k v) k = some v := by
  induction m with
  | nil => simp [SMap.set, SMap.get?]
  | cons e m ih =>
    obtain ⟨k', v'⟩ := e
    simp only [SMap.set]
    split
    · simp [SMap.get?]
    · split
      · simp [SMap.get?]
      · rename_i h
        simp [SMap.get?, h, ih]

theorem SMap.get?_set_ne (m : SMap α) {k j : Nat} (v : α) (h : j ≠ k) : SMap.get? (SMap.set m k v) j = SMap.get? m j := by
  induction m with
  | nil => simp [SMap.set, SMap.get?, h]
  | cons e m ih =>
    obtain ⟨k', v'⟩ := e
    simp only [SMap.set]
    split
    · simp [SMap.get?, h]
    · split
      · subst_vars; simp [SMap.get?, h]
      · simp [SMap.get?, ih]

@[simp] theorem SMap.get_del_same (d : α) (m : SMap α) (k : Nat) : SMap.get d (SMap.del m k) k = d := by
  induction m with
  | nil => rfl
  | cons e m ih =>
    obtain ⟨k', v'⟩ := e
    by_cases h : k' = k
    · simpa [SMap.del, h] using ih
    · have h' : k ≠ k' := Ne.symm h
      simp only [SMap.del] at ih
      simp [SMap.del, h, SMap.get, h', ih]

theorem SMap.get_del_ne (d : α) (m : SMap α) {k j : Nat} (h : j ≠ k) : SMap.get d (SMap.del m k) j = SMap.get d m j := by
  induction m with
  | nil => rfl
  | cons e m ih =>
    obtain ⟨k', v'⟩ := e
    simp only [SMap.del] at ih
    by_cases hk : k' = k
    · subst hk; simp [SMap.del, SMap.get, h, ih]
    · simp [SMap.del, hk, SMap.get, ih]

@[simp] theorem SMap.get?_del_same (m : SMap α) (k : Nat) : SMap.get? (SMap.del m k) k = none := by
  induction m with
  | nil => rfl
  | cons e m ih =>
    obtain ⟨k', v'⟩ := e
    by_cases h : k' = k
    · simpa [SMap.del, h] using ih
    · have h' : k ≠ k' := Ne.symm h
      simp only [SMap.del] at ih
      simp [SMap.del, h, SMap.get?, h', ih]

theorem SMap.get?_del_ne (m : SMap α) {k j : Nat} (h : j ≠ k) : SMap.get? (SMap.del m k) j = SMap.get? m j := by
  induction m with
  | nil => rfl
  | cons e m ih =>
    obtain ⟨k', v'⟩ := e
    simp only [SMap.del] at ih
    by_cases hk : k' = k
    · subst hk; simp [SMap.del, SMap.get?, h, ih]
    · simp [SMap.del, hk, SMap.get?, ih]

@[simp] theorem SMap.get_put_same [DecidableEq α] (d : α) (m : SMap α) (k : Nat) (v : α) :
    SMap.get d (SMap.put d m k v) k = v := by
  unfold SMap.put
  split
  · subst_vars; simp
  · simp

theorem SMap.get_put_ne [DecidableEq α] (d : α) (m : SMap α) {k j : Nat} (v : α) (h : j ≠ k) :
    SMap.get d (SMap.put d m k v) j = SMap.get d m j := by
  unfold SMap.put
  split
  · exact SMap.get_del_ne d m h
  · exact SMap.get_set_ne d m v h

/-! ### The canonical form, said of the list of keys -/

/-- Keys rise strictly, as a statement about pairs. -/
theorem SMap.sorted_iff (m : SMap α) : SMap.sorted m = true ↔ m.Pairwise fun a b => a.1 < b.1 := by
  induction m with
  | nil => simp [SMap.sorted]
  | cons e m ih =>
    obtain ⟨k, v⟩ := e
    cases m with
    | nil => simp [SMap.sorted]
    | cons f m =>
      obtain ⟨k', v'⟩ := f
      simp only [SMap.sorted, Bool.and_eq_true, decide_eq_true_eq, ih]
      constructor
      · rintro ⟨h, hp⟩
        refine List.pairwise_cons.2 ⟨?_, hp⟩
        intro b hb
        rcases List.mem_cons.1 hb with rfl | hb
        · exact h
        · exact lt_trans h ((List.pairwise_cons.1 hp).1 b hb)
      · intro hp
        exact ⟨(List.pairwise_cons.1 hp).1 (k', v') (by simp), (List.pairwise_cons.1 hp).2⟩

theorem SMap.wf_iff [DecidableEq α] (d : α) (m : SMap α) :
    SMap.wf d m = true ↔ (m.Pairwise fun a b => a.1 < b.1) ∧ ∀ e ∈ m, e.2 ≠ d := by
  simp [SMap.wf, SMap.sorted_iff]

@[simp] theorem SMap.wf_nil [DecidableEq α] (d : α) : SMap.wf d ([] : SMap α) = true := rfl

/-- Every entry of a table after a write is an old one or the new one. -/
theorem SMap.mem_set (m : SMap α) (k : Nat) (v : α) {e : Nat × α} (h : e ∈ SMap.set m k v) : e = (k, v) ∨ e ∈ m := by
  induction m with
  | nil => simpa [SMap.set] using h
  | cons f m ih =>
    obtain ⟨k', v'⟩ := f
    simp only [SMap.set] at h
    split at h
    · simpa using h
    · split at h
      · rcases List.mem_cons.1 h with h | h
        · exact .inl h
        · exact .inr (List.mem_cons_of_mem _ h)
      · rcases List.mem_cons.1 h with h | h
        · exact .inr (h ▸ List.mem_cons_self)
        · rcases ih h with h | h
          · exact .inl h
          · exact .inr (List.mem_cons_of_mem _ h)

theorem SMap.pairwise_set (m : SMap α) (k : Nat) (v : α) (h : m.Pairwise fun a b => a.1 < b.1) :
    (SMap.set m k v).Pairwise fun a b => a.1 < b.1 := by
  induction m with
  | nil => simp [SMap.set]
  | cons f m ih =>
    obtain ⟨k', v'⟩ := f
    obtain ⟨hl, hp⟩ := List.pairwise_cons.1 h
    simp only [SMap.set]
    split
    · rename_i hk
      refine List.pairwise_cons.2 ⟨?_, h⟩
      intro b hb
      rcases List.mem_cons.1 hb with rfl | hb
      · exact hk
      · exact lt_trans hk (hl b hb)
    · split
      · subst_vars; exact List.pairwise_cons.2 ⟨hl, hp⟩
      · rename_i h1 h2
        refine List.pairwise_cons.2 ⟨?_, ih hp⟩
        intro b hb
        rcases SMap.mem_set m k v hb with rfl | hb
        · show k' < k; omega
        · exact hl b hb

/-- A canonical table stays canonical under a filter. -/
theorem SMap.wf_filter [DecidableEq α] (d : α) (m : SMap α) (p : Nat × α → Bool) (h : SMap.wf d m = true) :
    SMap.wf d (m.filter p) = true := by
  rw [SMap.wf_iff] at h ⊢
  exact ⟨h.1.filter p, fun e he => h.2 e (List.mem_filter.1 he).1⟩

/-- Writing keeps the canonical form. -/
theorem SMap.wf_put [DecidableEq α] (d : α) (m : SMap α) (k : Nat) (v : α) (h : SMap.wf d m = true) :
    SMap.wf d (SMap.put d m k v) = true := by
  unfold SMap.put
  split
  · exact SMap.wf_filter d m _ h
  · rename_i hv
    rw [SMap.wf_iff] at h ⊢
    refine ⟨SMap.pairwise_set m k v h.1, fun e he => ?_⟩
    rcases SMap.mem_set m k v he with rfl | he
    · exact hv
    · exact h.2 e he

end Sys2Proof.Machine
end

