-- ==== Sys2Proof/Laws/Memory.lean ====
section
/-! SUPPORT. The laws of memory: what each operation reads back, and that each keeps the canonical form. -/

namespace Sys2Proof.Machine

/-- Reset memory is canonical. -/
theorem Memory.wf_reset : Memory.wf State.reset.mem = true := rfl

/-- A byte that is written reads back. -/
@[simp] theorem get_memPut (m : List Host.Cell) (a : Nat) (b : Byte) : SMap.get 0 (memPut m a b) a = b :=
  SMap.get_put_same 0 m a b
/-- A write leaves every other byte. -/
theorem get_memPut_ne (m : List Host.Cell) {a x : Nat} (b : Byte) (h : x ≠ a) : SMap.get 0 (memPut m a b) x = SMap.get 0 m x :=
  SMap.get_put_ne 0 m b h

/-- Writing a byte keeps the canonical form. -/
theorem Memory.wf_memPut {m : List Host.Cell} (a : Nat) (b : Byte) (h : Memory.wf m = true) : Memory.wf (memPut m a b) = true :=
  SMap.wf_put 0 m a b h

/-- Writing bytes keeps the canonical form. -/
theorem Memory.wf_memWrite (bs : List Byte) {m : List Host.Cell} (a : Nat) (h : Memory.wf m = true) : Memory.wf (memWrite m a bs) = true := by
  induction bs generalizing m a with
  | nil => exact h
  | cons b bs ih => exact ih (a + 1) (Memory.wf_memPut a b h)

/-- Writing the bytes that a condition lets through keeps the canonical form. -/
theorem Memory.wf_memWriteIf (keep : Nat → Bool) (bs : List Byte) {m : List Host.Cell} (a : Nat) (h : Memory.wf m = true) :
    Memory.wf (memWriteIf keep m a bs) = true := by
  induction bs generalizing m a with
  | nil => exact h
  | cons b bs ih =>
    refine ih (a + 1) ?_
    split
    · exact Memory.wf_memPut a b h
    · exact h

/-- Dropping cells keeps the canonical form. -/
theorem Memory.wf_filter (p : Nat × Byte → Bool) {m : List Host.Cell} (h : Memory.wf m = true) : Memory.wf (m.filter p) = true :=
  SMap.wf_filter 0 m p h

/-- Writing sparse bytes keeps the canonical form. -/
theorem Memory.wf_foldPut {α : Type} (f : α → Nat) (g : α → Byte) (l : List α) {m : List Host.Cell} (h : Memory.wf m = true) :
    Memory.wf (l.foldl (fun m e => memPut m (f e) (g e)) m) = true := by
  induction l generalizing m with
  | nil => exact h
  | cons e l ih => exact ih (Memory.wf_memPut _ _ h)

/-- Replacing a range keeps the canonical form. -/
theorem Memory.wf_memReplace (keep : Nat → Bool) (a n : Nat) (bs : SMap Byte) {m : List Host.Cell} (h : Memory.wf m = true) :
    Memory.wf (memReplace keep m a n bs) = true :=
  Memory.wf_foldPut (fun e : Nat × Byte => a + e.1) (fun e => e.2) _ (Memory.wf_filter _ h)

/-- Writing over a range of memory keeps the canonical form. -/
theorem Memory.wf_replace (s : State) (a n : Nat) (bs : SMap Byte) (h : Memory.wf s.mem = true) : Memory.wf (s.replace a n bs).mem = true :=
  Memory.wf_memReplace (fun x => !s.isRo x) a n bs h

/-- A store at a home keeps the canonical form. -/
theorem Memory.wf_store (s : State) (a : Nat) (bs : List Byte) (h : Memory.wf s.mem = true) : Memory.wf (s.store a bs).1.mem = true := by
  unfold State.store
  split
  · exact h
  · exact Memory.wf_memWriteIf _ bs a h

/-- A number stored keeps the canonical form. -/
theorem Memory.wf_storeNat (s : State) (a n v : Nat) (h : Memory.wf s.mem = true) : Memory.wf (s.storeNat a n v).mem = true :=
  Memory.wf_store s a _ h

/-- A copied page keeps the canonical form. -/
theorem Memory.wf_copyPage (s : State) (src dst size : Nat) (h : Memory.wf s.mem = true) : Memory.wf (s.copyPage src dst size).mem = true :=
  Memory.wf_foldPut (fun e : Nat × Byte => e.1) (fun e => e.2) _ (Memory.wf_filter _ h)

/-- A log entry keeps the canonical form. -/
theorem Memory.wf_logNow (s : State) (t : Nat) (e : List Byte) (h : Memory.wf s.mem = true) : Memory.wf (s.logNow t e).mem = true := by
  unfold State.logNow
  dsimp only
  split
  · exact h
  · exact Memory.wf_store s _ e h

/-- Writing the log entries of a cycle keeps the canonical form. -/
theorem Memory.wf_writeEvents (s : State) (t : Nat) (h : Memory.wf s.mem = true) : Memory.wf (s.writeEvents t).mem = true := by
  unfold State.writeEvents
  have key : ∀ (l : List (List Byte)) (u : State), Memory.wf u.mem = true →
      Memory.wf (l.foldl (fun s e => s.logNow t e) u).mem = true := by
    intro l
    induction l with
    | nil => exact fun _ hu => hu
    | cons e l ih => exact fun u hu => ih _ (Memory.wf_logNow u t e hu)
  split
  · exact h
  · exact key (s.sup t).evq (s.modSup t fun p => { p with evq := [] }) h

/-- An entry that reaches the arbiter leaves memory alone. -/
theorem Memory.wf_logEvent (s : State) (t : Nat) (e : List Byte) (h : Memory.wf s.mem = true) : Memory.wf (s.logEvent t e).mem = true := h

/-- A fault record keeps the canonical form. -/
theorem Memory.wf_logFault (s : State) (t : Nat) (r : Fault.Rec) (h : Memory.wf s.mem = true) : Memory.wf (s.logFault t r).mem = true :=
  Memory.wf_logEvent s t _ h

/-- The bytes a write covers read back. -/
theorem get_memWrite_in (bs : List Byte) (m : List Host.Cell) (a k : Nat) (h : k < bs.length) :
    SMap.get 0 (memWrite m a bs) (a + k) = bs.getD k 0 := by
  have out : ∀ (bs : List Byte) (m : List Host.Cell) (a x : Nat), x < a → SMap.get 0 (memWrite m a bs) x = SMap.get 0 m x := by
    intro bs
    induction bs with
    | nil => intros; rfl
    | cons b bs ih =>
      intro m a x hx
      exact (ih _ _ _ (by omega)).trans (get_memPut_ne m b (by omega))
  induction bs generalizing m a k with
  | nil => simp at h
  | cons b bs ih =>
    cases k with
    | zero => exact (out bs (memPut m a b) (a + 1) a (by omega)).trans (get_memPut m a b)
    | succ k =>
      have := ih (memPut m a b) (a + 1) k (by simpa using h)
      simpa [memWrite, Nat.add_assoc, Nat.add_comm 1] using this

/-- Bytes outside a write stay. -/
theorem get_memWrite_out (bs : List Byte) (m : List Host.Cell) (a x : Nat) (h : x < a ∨ a + bs.length ≤ x) :
    SMap.get 0 (memWrite m a bs) x = SMap.get 0 m x := by
  induction bs generalizing m a with
  | nil => rfl
  | cons b bs ih =>
    have h' : x < a ∨ a + (bs.length + 1) ≤ x := by simpa using h
    exact (ih _ _ (by omega)).trans (get_memPut_ne m b (by omega))

/-- Bytes outside a store stay. -/
theorem get_memWriteIf_out (keep : Nat → Bool) (bs : List Byte) (m : List Host.Cell) (a x : Nat) (h : x < a ∨ a + bs.length ≤ x) :
    SMap.get 0 (memWriteIf keep m a bs) x = SMap.get 0 m x := by
  induction bs generalizing m a with
  | nil => rfl
  | cons b bs ih =>
    have h' : x < a ∨ a + (bs.length + 1) ≤ x := by simpa using h
    refine (ih _ _ (by omega)).trans ?_
    split
    · exact get_memPut_ne m b (by omega)
    · rfl

/-- A store changes no byte outside its own. -/
theorem get_store_out (s : State) (a : Nat) (bs : List Byte) (x : Nat) (h : x < a ∨ a + bs.length ≤ x) :
    SMap.get 0 (s.store a bs).1.mem x = SMap.get 0 s.mem x := by
  unfold State.store
  split
  · rfl
  · exact get_memWriteIf_out _ bs s.mem a x h

end Sys2Proof.Machine
end

