-- ==== Sys2Proof/Laws/PerInstr.lean ====
section
/-! SUPPORT. One statement per constructor of Instr: its row of the encoding tables leads the decoder back to it (09 R119, R128, R129). -/

namespace Sys2Proof.Laws.EncForm

set_option Elab.async false

/-- The form the decoder takes for an OPC is that of the instruction's fields, and with a SUB its row admits the fields give the instruction
back; a step of the module has neither row nor fields. -/
def Statement (i : Instr) : Prop :=
  match i.row, i.body with
  | some r, some (.a w) => r.opc < 256 ∧ opcForm r.opc = some 0 ∧ (r.subs.contains w.sub.toNat = true → ofA r.opc w = some i)
  | some r, some (.b w) => r.opc < 256 ∧ opcForm r.opc = some 1 ∧ (r.subs.contains w.sub.toNat = true → ofB r.opc w = some i)
  | some r, some (.c w) => r.opc < 256 ∧ opcForm r.opc = some 2 ∧ (r.subs.contains w.sub.toNat = true → ofC r.opc w = some i)
  | some r, some (.p w) => r.opc < 256 ∧ opcForm r.opc = some 3 ∧ (r.subs.contains w.head.sub.toNat = true → ofP r.opc w = some i)
  | none, none => True
  | _, _ => False

/-- A one-element list contains that element alone. -/
theorem contains_one {a b : Nat} (h : [a].contains b = true) : b = a := by simpa [eq_comm] using h

/-- A SUB is known by its number. -/
theorem sub_is {a : BitVec 4} (n : Nat) (h : a.toNat = n) : a = BitVec.ofNat 4 n := by rw [← h]; simp

theorem nop (w : AForm) : Statement (.nop w) := ⟨of_decide_eq_true rfl, rfl, fun _ => rfl⟩
theorem endI (w : AForm) : Statement (.endI w) := ⟨of_decide_eq_true rfl, rfl, fun _ => rfl⟩
theorem bri (w : CForm) : Statement (.bri w) := ⟨of_decide_eq_true rfl, rfl, fun _ => rfl⟩
theorem br (w : AForm) : Statement (.br w) := ⟨of_decide_eq_true rfl, rfl, fun _ => rfl⟩
theorem pbr (w : CForm) : Statement (.pbr w) := ⟨of_decide_eq_true rfl, rfl, fun _ => rfl⟩
theorem jtab (w : AForm) : Statement (.jtab w) := ⟨of_decide_eq_true rfl, rfl, fun _ => rfl⟩
theorem call (w : CForm) : Statement (.call w) := ⟨of_decide_eq_true rfl, rfl, fun _ => rfl⟩
theorem ret (w : AForm) : Statement (.ret w) := ⟨of_decide_eq_true rfl, rfl, fun _ => rfl⟩
theorem loop (w : CForm) : Statement (.loop w) := ⟨of_decide_eq_true rfl, rfl, fun _ => rfl⟩
theorem lbrk (w : CForm) : Statement (.lbrk w) := ⟨of_decide_eq_true rfl, rfl, fun _ => rfl⟩
theorem lidx (w : CForm) : Statement (.lidx w) := ⟨of_decide_eq_true rfl, rfl, fun _ => rfl⟩
theorem post (w : AForm) : Statement (.post w) := ⟨of_decide_eq_true rfl, rfl, fun _ => rfl⟩
theorem await (w : AForm) : Statement (.await w) := ⟨of_decide_eq_true rfl, rfl, fun h => by
  cases w; obtain rfl := sub_is 0 (contains_one h); rfl⟩
theorem awaitNb (w : AForm) : Statement (.awaitNb w) := ⟨of_decide_eq_true rfl, rfl, fun h => by
  cases w; obtain rfl := sub_is 1 (contains_one h); rfl⟩
theorem wseg (w : AForm) : Statement (.wseg w) := ⟨of_decide_eq_true rfl, rfl, fun _ => rfl⟩
theorem trapI (w : AForm) : Statement (.trapI w) := ⟨of_decide_eq_true rfl, rfl, fun _ => rfl⟩
theorem addI (w : AForm) : Statement (.addI w) := ⟨of_decide_eq_true rfl, rfl, fun h => by
  cases w; obtain rfl := sub_is 0 (contains_one h); rfl⟩
theorem subI (w : AForm) : Statement (.subI w) := ⟨of_decide_eq_true rfl, rfl, fun h => by
  cases w; obtain rfl := sub_is 1 (contains_one h); rfl⟩
theorem andI (w : AForm) : Statement (.andI w) := ⟨of_decide_eq_true rfl, rfl, fun h => by
  cases w; obtain rfl := sub_is 2 (contains_one h); rfl⟩
theorem orI (w : AForm) : Statement (.orI w) := ⟨of_decide_eq_true rfl, rfl, fun h => by
  cases w; obtain rfl := sub_is 3 (contains_one h); rfl⟩
theorem xorI (w : AForm) : Statement (.xorI w) := ⟨of_decide_eq_true rfl, rfl, fun h => by
  cases w; obtain rfl := sub_is 4 (contains_one h); rfl⟩
theorem shl (w : AForm) : Statement (.shl w) := ⟨of_decide_eq_true rfl, rfl, fun h => by
  cases w; obtain rfl := sub_is 5 (contains_one h); rfl⟩
theorem shr (w : AForm) : Statement (.shr w) := ⟨of_decide_eq_true rfl, rfl, fun h => by
  cases w; obtain rfl := sub_is 6 (contains_one h); rfl⟩
theorem sar (w : AForm) : Statement (.sar w) := ⟨of_decide_eq_true rfl, rfl, fun h => by
  cases w; obtain rfl := sub_is 7 (contains_one h); rfl⟩
theorem minI (w : AForm) : Statement (.minI w) := ⟨of_decide_eq_true rfl, rfl, fun h => by
  cases w; obtain rfl := sub_is 8 (contains_one h); rfl⟩
theorem maxI (w : AForm) : Statement (.maxI w) := ⟨of_decide_eq_true rfl, rfl, fun h => by
  cases w; obtain rfl := sub_is 9 (contains_one h); rfl⟩
theorem minn (w : AForm) : Statement (.minn w) := ⟨of_decide_eq_true rfl, rfl, fun h => by
  cases w; obtain rfl := sub_is 10 (contains_one h); rfl⟩
theorem maxn (w : AForm) : Statement (.maxn w) := ⟨of_decide_eq_true rfl, rfl, fun h => by
  cases w; obtain rfl := sub_is 11 (contains_one h); rfl⟩
theorem clz (w : AForm) : Statement (.clz w) := ⟨of_decide_eq_true rfl, rfl, fun h => by
  cases w; obtain rfl := sub_is 12 (contains_one h); rfl⟩
theorem popc (w : AForm) : Statement (.popc w) := ⟨of_decide_eq_true rfl, rfl, fun h => by
  cases w; obtain rfl := sub_is 13 (contains_one h); rfl⟩
theorem bext (w : AForm) : Statement (.bext w) := ⟨of_decide_eq_true rfl, rfl, fun h => by
  cases w; obtain rfl := sub_is 14 (contains_one h); rfl⟩
theorem bins (w : AForm) : Statement (.bins w) := ⟨of_decide_eq_true rfl, rfl, fun h => by
  cases w; obtain rfl := sub_is 15 (contains_one h); rfl⟩
theorem addImm (w : BForm) : Statement (.addImm w) := ⟨of_decide_eq_true rfl, rfl, fun h => by
  cases w; obtain rfl := sub_is 0 (contains_one h); rfl⟩
theorem subImm (w : BForm) : Statement (.subImm w) := ⟨of_decide_eq_true rfl, rfl, fun h => by
  cases w; obtain rfl := sub_is 1 (contains_one h); rfl⟩
theorem andImm (w : BForm) : Statement (.andImm w) := ⟨of_decide_eq_true rfl, rfl, fun h => by
  cases w; obtain rfl := sub_is 2 (contains_one h); rfl⟩
theorem orImm (w : BForm) : Statement (.orImm w) := ⟨of_decide_eq_true rfl, rfl, fun h => by
  cases w; obtain rfl := sub_is 3 (contains_one h); rfl⟩
theorem xorImm (w : BForm) : Statement (.xorImm w) := ⟨of_decide_eq_true rfl, rfl, fun h => by
  cases w; obtain rfl := sub_is 4 (contains_one h); rfl⟩
theorem shlImm (w : BForm) : Statement (.shlImm w) := ⟨of_decide_eq_true rfl, rfl, fun h => by
  cases w; obtain rfl := sub_is 5 (contains_one h); rfl⟩
theorem shrImm (w : BForm) : Statement (.shrImm w) := ⟨of_decide_eq_true rfl, rfl, fun h => by
  cases w; obtain rfl := sub_is 6 (contains_one h); rfl⟩
theorem sarImm (w : BForm) : Statement (.sarImm w) := ⟨of_decide_eq_true rfl, rfl, fun h => by
  cases w; obtain rfl := sub_is 7 (contains_one h); rfl⟩
theorem minImm (w : BForm) : Statement (.minImm w) := ⟨of_decide_eq_true rfl, rfl, fun h => by
  cases w; obtain rfl := sub_is 8 (contains_one h); rfl⟩
theorem maxImm (w : BForm) : Statement (.maxImm w) := ⟨of_decide_eq_true rfl, rfl, fun h => by
  cases w; obtain rfl := sub_is 9 (contains_one h); rfl⟩
theorem minnImm (w : BForm) : Statement (.minnImm w) := ⟨of_decide_eq_true rfl, rfl, fun h => by
  cases w; obtain rfl := sub_is 10 (contains_one h); rfl⟩
theorem maxnImm (w : BForm) : Statement (.maxnImm w) := ⟨of_decide_eq_true rfl, rfl, fun h => by
  cases w; obtain rfl := sub_is 11 (contains_one h); rfl⟩
theorem mulI (w : AForm) : Statement (.mulI w) := ⟨of_decide_eq_true rfl, rfl, fun h => by
  cases w; obtain rfl := sub_is 0 (contains_one h); rfl⟩
theorem mulh (w : AForm) : Statement (.mulh w) := ⟨of_decide_eq_true rfl, rfl, fun h => by
  cases w; obtain rfl := sub_is 1 (contains_one h); rfl⟩
theorem mulhn (w : AForm) : Statement (.mulhn w) := ⟨of_decide_eq_true rfl, rfl, fun h => by
  cases w; obtain rfl := sub_is 2 (contains_one h); rfl⟩
theorem madd (w : AForm) : Statement (.madd w) := ⟨of_decide_eq_true rfl, rfl, fun h => by
  cases w; obtain rfl := sub_is 3 (contains_one h); rfl⟩
theorem divI (w : AForm) : Statement (.divI w) := ⟨of_decide_eq_true rfl, rfl, fun h => by
  cases w; obtain rfl := sub_is 4 (contains_one h); rfl⟩
theorem divn (w : AForm) : Statement (.divn w) := ⟨of_decide_eq_true rfl, rfl, fun h => by
  cases w; obtain rfl := sub_is 5 (contains_one h); rfl⟩
theorem rem (w : AForm) : Statement (.rem w) := ⟨of_decide_eq_true rfl, rfl, fun h => by
  cases w; obtain rfl := sub_is 6 (contains_one h); rfl⟩
theorem remn (w : AForm) : Statement (.remn w) := ⟨of_decide_eq_true rfl, rfl, fun h => by
  cases w; obtain rfl := sub_is 7 (contains_one h); rfl⟩
theorem cmp (w : AForm) : Statement (.cmp w) := ⟨of_decide_eq_true rfl, rfl, fun _ => rfl⟩
theorem cmpi (w : BForm) : Statement (.cmpi w) := ⟨of_decide_eq_true rfl, rfl, fun _ => rfl⟩
theorem sel (w : AForm) : Statement (.sel w) := ⟨of_decide_eq_true rfl, rfl, fun _ => rfl⟩
theorem li (w : BForm) : Statement (.li w) := ⟨of_decide_eq_true rfl, rfl, fun h => by
  cases w; obtain rfl := sub_is 0 (contains_one h); rfl⟩
theorem liHi (w : BForm) : Statement (.liHi w) := ⟨of_decide_eq_true rfl, rfl, fun h => by
  cases w; obtain rfl := sub_is 1 (contains_one h); rfl⟩
theorem mov (w : AForm) : Statement (.mov w) := ⟨of_decide_eq_true rfl, rfl, fun _ => rfl⟩
theorem plog (w : AForm) : Statement (.plog w) := ⟨of_decide_eq_true rfl, rfl, fun _ => rfl⟩
theorem lea (w : BForm) : Statement (.lea w) := ⟨of_decide_eq_true rfl, rfl, fun h => by
  cases w; obtain rfl := sub_is 0 (contains_one h); rfl⟩
theorem leaPc (w : BForm) : Statement (.leaPc w) := ⟨of_decide_eq_true rfl, rfl, fun h => by
  cases w; obtain rfl := sub_is 1 (contains_one h); rfl⟩
theorem spld (w : AForm) : Statement (.spld w) := ⟨of_decide_eq_true rfl, rfl, fun _ => rfl⟩
theorem spst (w : AForm) : Statement (.spst w) := ⟨of_decide_eq_true rfl, rfl, fun _ => rfl⟩
theorem getc (w : AForm) : Statement (.getc w) := ⟨of_decide_eq_true rfl, rfl, fun _ => rfl⟩
theorem setc (w : AForm) : Statement (.setc w) := ⟨of_decide_eq_true rfl, rfl, fun _ => rfl⟩
theorem fork (w : CForm) : Statement (.fork w) := ⟨of_decide_eq_true rfl, rfl, fun _ => rfl⟩
theorem rdv (w : AForm) : Statement (.rdv w) := ⟨of_decide_eq_true rfl, rfl, fun _ => rfl⟩
theorem qcfg (w : AForm) : Statement (.qcfg w) := ⟨of_decide_eq_true rfl, rfl, fun _ => rfl⟩
theorem tspawn (w : AForm) : Statement (.tspawn w) := ⟨of_decide_eq_true rfl, rfl, fun _ => rfl⟩
theorem tsig (w : AForm) : Statement (.tsig w) := ⟨of_decide_eq_true rfl, rfl, fun _ => rfl⟩
theorem tyield (w : AForm) : Statement (.tyield w) := ⟨of_decide_eq_true rfl, rfl, fun _ => rfl⟩
theorem gbar (w : AForm) : Statement (.gbar w) := ⟨of_decide_eq_true rfl, rfl, fun _ => rfl⟩
theorem gwait (w : AForm) : Statement (.gwait w) := ⟨of_decide_eq_true rfl, rfl, fun _ => rfl⟩
theorem prog (w : AForm) : Statement (.prog w) := ⟨of_decide_eq_true rfl, rfl, fun _ => rfl⟩
theorem wrel (w : AForm) : Statement (.wrel w) := ⟨of_decide_eq_true rfl, rfl, fun _ => rfl⟩
theorem tret (w : AForm) : Statement (.tret w) := ⟨of_decide_eq_true rfl, rfl, fun h => by
  cases w; obtain rfl := sub_is 0 (contains_one h); rfl⟩
theorem tretSkip (w : AForm) : Statement (.tretSkip w) := ⟨of_decide_eq_true rfl, rfl, fun h => by
  cases w; obtain rfl := sub_is 1 (contains_one h); rfl⟩
theorem ctxsave (w : AForm) : Statement (.ctxsave w) := ⟨of_decide_eq_true rfl, rfl, fun _ => rfl⟩
theorem ctxload (w : AForm) : Statement (.ctxload w) := ⟨of_decide_eq_true rfl, rfl, fun _ => rfl⟩
theorem lttw (w : AForm) : Statement (.lttw w) := ⟨of_decide_eq_true rfl, rfl, fun _ => rfl⟩
theorem bank (w : AForm) : Statement (.bank w) := ⟨of_decide_eq_true rfl, rfl, fun _ => rfl⟩
theorem attrSet (w : AForm) : Statement (.attrSet w) := ⟨of_decide_eq_true rfl, rfl, fun h => by
  cases w; obtain rfl := sub_is 0 (contains_one h); rfl⟩
theorem attrClr (w : AForm) : Statement (.attrClr w) := ⟨of_decide_eq_true rfl, rfl, fun h => by
  cases w; obtain rfl := sub_is 1 (contains_one h); rfl⟩
theorem halt (w : AForm) : Statement (.halt w) := ⟨of_decide_eq_true rfl, rfl, fun h => by
  cases w; obtain rfl := sub_is 0 (contains_one h); rfl⟩
theorem haltGo (w : AForm) : Statement (.haltGo w) := ⟨of_decide_eq_true rfl, rfl, fun h => by
  cases w; obtain rfl := sub_is 1 (contains_one h); rfl⟩
theorem ld (w : AForm) : Statement (.ld w) := ⟨of_decide_eq_true rfl, rfl, fun _ => rfl⟩
theorem st (w : AForm) : Statement (.st w) := ⟨of_decide_eq_true rfl, rfl, fun _ => rfl⟩
theorem lda (w : AForm) : Statement (.lda w) := ⟨of_decide_eq_true rfl, rfl, fun _ => rfl⟩
theorem stl (w : AForm) : Statement (.stl w) := ⟨of_decide_eq_true rfl, rfl, fun _ => rfl⟩
theorem vld (w : AForm) : Statement (.vld w) := ⟨of_decide_eq_true rfl, rfl, fun _ => rfl⟩
theorem vst (w : AForm) : Statement (.vst w) := ⟨of_decide_eq_true rfl, rfl, fun _ => rfl⟩
theorem ldq (w : AForm) : Statement (.ldq w) := ⟨of_decide_eq_true rfl, rfl, fun _ => rfl⟩
theorem stq (w : AForm) : Statement (.stq w) := ⟨of_decide_eq_true rfl, rfl, fun _ => rfl⟩
theorem kld (w : AForm) : Statement (.kld w) := ⟨of_decide_eq_true rfl, rfl, fun _ => rfl⟩
theorem kst (w : AForm) : Statement (.kst w) := ⟨of_decide_eq_true rfl, rfl, fun _ => rfl⟩
theorem gath (w : AForm) : Statement (.gath w) := ⟨of_decide_eq_true rfl, rfl, fun _ => rfl⟩
theorem scat (w : AForm) : Statement (.scat w) := ⟨of_decide_eq_true rfl, rfl, fun _ => rfl⟩
theorem copy (w : AForm) : Statement (.copy w) := ⟨of_decide_eq_true rfl, rfl, fun _ => rfl⟩
theorem fill (w : AForm) : Statement (.fill w) := ⟨of_decide_eq_true rfl, rfl, fun _ => rfl⟩
theorem atom (w : AForm) : Statement (.atom w) := ⟨of_decide_eq_true rfl, rfl, fun _ => rfl⟩
theorem redst (w : AForm) : Statement (.redst w) := ⟨of_decide_eq_true rfl, rfl, fun _ => rfl⟩
theorem mcst (w : AForm) : Statement (.mcst w) := ⟨of_decide_eq_true rfl, rfl, fun _ => rfl⟩
theorem fenceAcq (w : AForm) : Statement (.fenceAcq w) := ⟨of_decide_eq_true rfl, rfl, fun h => by
  cases w; obtain rfl := sub_is 0 (contains_one h); rfl⟩
theorem fenceRel (w : AForm) : Statement (.fenceRel w) := ⟨of_decide_eq_true rfl, rfl, fun h => by
  cases w; obtain rfl := sub_is 1 (contains_one h); rfl⟩
theorem fenceAr (w : AForm) : Statement (.fenceAr w) := ⟨of_decide_eq_true rfl, rfl, fun h => by
  cases w; obtain rfl := sub_is 2 (contains_one h); rfl⟩
theorem fenceSc (w : AForm) : Statement (.fenceSc w) := ⟨of_decide_eq_true rfl, rfl, fun h => by
  cases w; obtain rfl := sub_is 3 (contains_one h); rfl⟩
theorem qfence (w : AForm) : Statement (.qfence w) := ⟨of_decide_eq_true rfl, rfl, fun _ => rfl⟩
theorem qpush (w : AForm) : Statement (.qpush w) := ⟨of_decide_eq_true rfl, rfl, fun _ => rfl⟩
theorem qpop (w : AForm) : Statement (.qpop w) := ⟨of_decide_eq_true rfl, rfl, fun _ => rfl⟩
theorem msgsend (w : AForm) : Statement (.msgsend w) := ⟨of_decide_eq_true rfl, rfl, fun _ => rfl⟩
theorem pref (w : AForm) : Statement (.pref w) := ⟨of_decide_eq_true rfl, rfl, fun _ => rfl⟩
theorem vadd (w : AForm) : Statement (.vadd w) := ⟨of_decide_eq_true rfl, rfl, fun _ => rfl⟩
theorem vsub (w : AForm) : Statement (.vsub w) := ⟨of_decide_eq_true rfl, rfl, fun _ => rfl⟩
theorem vmul (w : AForm) : Statement (.vmul w) := ⟨of_decide_eq_true rfl, rfl, fun _ => rfl⟩
theorem vfma (w : AForm) : Statement (.vfma w) := ⟨of_decide_eq_true rfl, rfl, fun _ => rfl⟩
theorem vmin (w : AForm) : Statement (.vmin w) := ⟨of_decide_eq_true rfl, rfl, fun _ => rfl⟩
theorem vmax (w : AForm) : Statement (.vmax w) := ⟨of_decide_eq_true rfl, rfl, fun _ => rfl⟩
theorem vabs (w : AForm) : Statement (.vabs w) := ⟨of_decide_eq_true rfl, rfl, fun _ => rfl⟩
theorem vdiv (w : AForm) : Statement (.vdiv w) := ⟨of_decide_eq_true rfl, rfl, fun _ => rfl⟩
theorem vrcp (w : AForm) : Statement (.vrcp w) := ⟨of_decide_eq_true rfl, rfl, fun _ => rfl⟩
theorem vrsq (w : AForm) : Statement (.vrsq w) := ⟨of_decide_eq_true rfl, rfl, fun _ => rfl⟩
theorem vexp (w : AForm) : Statement (.vexp w) := ⟨of_decide_eq_true rfl, rfl, fun _ => rfl⟩
theorem vlog (w : AForm) : Statement (.vlog w) := ⟨of_decide_eq_true rfl, rfl, fun _ => rfl⟩
theorem vact (w : AForm) : Statement (.vact w) := ⟨of_decide_eq_true rfl, rfl, fun _ => rfl⟩
theorem viadd (w : AForm) : Statement (.viadd w) := ⟨of_decide_eq_true rfl, rfl, fun _ => rfl⟩
theorem visub (w : AForm) : Statement (.visub w) := ⟨of_decide_eq_true rfl, rfl, fun _ => rfl⟩
theorem vimul (w : AForm) : Statement (.vimul w) := ⟨of_decide_eq_true rfl, rfl, fun _ => rfl⟩
theorem vimac (w : AForm) : Statement (.vimac w) := ⟨of_decide_eq_true rfl, rfl, fun _ => rfl⟩
theorem vbit (w : AForm) : Statement (.vbit w) := ⟨of_decide_eq_true rfl, rfl, fun _ => rfl⟩
theorem vsh (w : AForm) : Statement (.vsh w) := ⟨of_decide_eq_true rfl, rfl, fun _ => rfl⟩
theorem vimm (w : BForm) : Statement (.vimm w) := ⟨of_decide_eq_true rfl, rfl, fun _ => rfl⟩
theorem vcmp (w : AForm) : Statement (.vcmp w) := ⟨of_decide_eq_true rfl, rfl, fun _ => rfl⟩
theorem vsel (w : AForm) : Statement (.vsel w) := ⟨of_decide_eq_true rfl, rfl, fun _ => rfl⟩
theorem vmsk (w : AForm) : Statement (.vmsk w) := ⟨of_decide_eq_true rfl, rfl, fun _ => rfl⟩
theorem vcvt (w : AForm) : Statement (.vcvt w) := ⟨of_decide_eq_true rfl, rfl, fun _ => rfl⟩
theorem vrnd (w : AForm) : Statement (.vrnd w) := ⟨of_decide_eq_true rfl, rfl, fun _ => rfl⟩
theorem vqnt (w : AForm) : Statement (.vqnt w) := ⟨of_decide_eq_true rfl, rfl, fun _ => rfl⟩
theorem vdq (w : AForm) : Statement (.vdq w) := ⟨of_decide_eq_true rfl, rfl, fun _ => rfl⟩
theorem vunp3 (w : AForm) : Statement (.vunp3 w) := ⟨of_decide_eq_true rfl, rfl, fun _ => rfl⟩
theorem vtmac (w : AForm) : Statement (.vtmac w) := ⟨of_decide_eq_true rfl, rfl, fun _ => rfl⟩
theorem vred (w : AForm) : Statement (.vred w) := ⟨of_decide_eq_true rfl, rfl, fun _ => rfl⟩
theorem vscan (w : AForm) : Statement (.vscan w) := ⟨of_decide_eq_true rfl, rfl, fun _ => rfl⟩
theorem vtopk (w : PForm) : Statement (.vtopk w) := ⟨of_decide_eq_true rfl, rfl, fun _ => rfl⟩
theorem vperm (w : AForm) : Statement (.vperm w) := ⟨of_decide_eq_true rfl, rfl, fun _ => rfl⟩
theorem vbcst (w : AForm) : Statement (.vbcst w) := ⟨of_decide_eq_true rfl, rfl, fun _ => rfl⟩
theorem vsld (w : AForm) : Statement (.vsld w) := ⟨of_decide_eq_true rfl, rfl, fun _ => rfl⟩
theorem vilv (w : AForm) : Statement (.vilv w) := ⟨of_decide_eq_true rfl, rfl, fun _ => rfl⟩
theorem vxpose (w : AForm) : Statement (.vxpose w) := ⟨of_decide_eq_true rfl, rfl, fun _ => rfl⟩
theorem vmovs (w : AForm) : Statement (.vmovs w) := ⟨of_decide_eq_true rfl, rfl, fun _ => rfl⟩
theorem vsmx (w : AForm) : Statement (.vsmx w) := ⟨of_decide_eq_true rfl, rfl, fun _ => rfl⟩
theorem vrope (w : AForm) : Statement (.vrope w) := ⟨of_decide_eq_true rfl, rfl, fun _ => rfl⟩
theorem vstat (w : AForm) : Statement (.vstat w) := ⟨of_decide_eq_true rfl, rfl, fun _ => rfl⟩
theorem vmov (w : AForm) : Statement (.vmov w) := ⟨of_decide_eq_true rfl, rfl, fun _ => rfl⟩
theorem kmov (w : AForm) : Statement (.kmov w) := ⟨of_decide_eq_true rfl, rfl, fun _ => rfl⟩
theorem kset (w : AForm) : Statement (.kset w) := ⟨of_decide_eq_true rfl, rfl, fun h => by
  cases w; obtain rfl := sub_is 0 (contains_one h); rfl⟩
theorem ksetOne (w : AForm) : Statement (.ksetOne w) := ⟨of_decide_eq_true rfl, rfl, fun h => by
  cases w; obtain rfl := sub_is 1 (contains_one h); rfl⟩
theorem ksetS (w : AForm) : Statement (.ksetS w) := ⟨of_decide_eq_true rfl, rfl, fun h => by
  cases w; obtain rfl := sub_is 2 (contains_one h); rfl⟩
theorem kadd (w : AForm) : Statement (.kadd w) := ⟨of_decide_eq_true rfl, rfl, fun _ => rfl⟩
theorem kmax (w : AForm) : Statement (.kmax w) := ⟨of_decide_eq_true rfl, rfl, fun h => by
  cases w; obtain rfl := sub_is 0 (contains_one h); rfl⟩
theorem kmin (w : AForm) : Statement (.kmin w) := ⟨of_decide_eq_true rfl, rfl, fun h => by
  cases w; obtain rfl := sub_is 1 (contains_one h); rfl⟩
theorem ktype (w : AForm) : Statement (.ktype w) := ⟨of_decide_eq_true rfl, rfl, fun _ => rfl⟩
theorem kbind (w : AForm) : Statement (.kbind w) := ⟨of_decide_eq_true rfl, rfl, fun _ => rfl⟩
theorem kunb (w : AForm) : Statement (.kunb w) := ⟨of_decide_eq_true rfl, rfl, fun _ => rfl⟩
theorem kgen (w : AForm) : Statement (.kgen w) := ⟨of_decide_eq_true rfl, rfl, fun h => by
  cases w; obtain rfl := sub_is 0 (contains_one h); rfl⟩
theorem kgenB (w : AForm) : Statement (.kgenB w) := ⟨of_decide_eq_true rfl, rfl, fun h => by
  cases w; obtain rfl := sub_is 1 (contains_one h); rfl⟩
theorem kfrom (w : AForm) : Statement (.kfrom w) := ⟨of_decide_eq_true rfl, rfl, fun _ => rfl⟩
theorem mnest (w : PForm) : Statement (.mnest w) := ⟨of_decide_eq_true rfl, rfl, fun _ => rfl⟩
theorem msrc (w : AForm) : Statement (.msrc w) := ⟨of_decide_eq_true rfl, rfl, fun _ => rfl⟩
theorem mbselWin (w : AForm) : Statement (.mbselWin w) := ⟨of_decide_eq_true rfl, rfl, fun h => by
  cases w; obtain rfl := sub_is 0 (contains_one h); rfl⟩
theorem mbselScr (w : AForm) : Statement (.mbselScr w) := ⟨of_decide_eq_true rfl, rfl, fun h => by
  cases w; obtain rfl := sub_is 1 (contains_one h); rfl⟩
theorem mfmt (w : AForm) : Statement (.mfmt w) := ⟨of_decide_eq_true rfl, rfl, fun _ => rfl⟩
theorem mgo (w : AForm) : Statement (.mgo w) := ⟨of_decide_eq_true rfl, rfl, fun h => by
  cases w; obtain rfl := sub_is 0 (contains_one h); rfl⟩
theorem mgoGrp (w : AForm) : Statement (.mgoGrp w) := ⟨of_decide_eq_true rfl, rfl, fun h => by
  cases w; obtain rfl := sub_is 1 (contains_one h); rfl⟩
theorem mdrain (w : AForm) : Statement (.mdrain w) := ⟨of_decide_eq_true rfl, rfl, fun _ => rfl⟩
theorem mzero (w : AForm) : Statement (.mzero w) := ⟨of_decide_eq_true rfl, rfl, fun _ => rfl⟩
theorem mload (w : AForm) : Statement (.mload w) := ⟨of_decide_eq_true rfl, rfl, fun _ => rfl⟩
theorem mrnd (w : AForm) : Statement (.mrnd w) := ⟨of_decide_eq_true rfl, rfl, fun _ => rfl⟩
theorem mgrp (w : PForm) : Statement (.mgrp w) := ⟨of_decide_eq_true rfl, rfl, fun _ => rfl⟩
theorem mstat (w : AForm) : Statement (.mstat w) := ⟨of_decide_eq_true rfl, rfl, fun _ => rfl⟩
theorem aqset (w : AForm) : Statement (.aqset w) := ⟨of_decide_eq_true rfl, rfl, fun _ => rfl⟩
theorem astep (w : PForm) : Statement (.astep w) := ⟨of_decide_eq_true rfl, rfl, fun _ => rfl⟩
theorem amerge (w : AForm) : Statement (.amerge w) := ⟨of_decide_eq_true rfl, rfl, fun _ => rfl⟩
theorem afin (w : AForm) : Statement (.afin w) := ⟨of_decide_eq_true rfl, rfl, fun _ => rfl⟩
theorem kvapp (w : AForm) : Statement (.kvapp w) := ⟨of_decide_eq_true rfl, rfl, fun h => by
  cases w; obtain rfl := sub_is 0 (contains_one h); rfl⟩
theorem kvappBeam (w : AForm) : Statement (.kvappBeam w) := ⟨of_decide_eq_true rfl, rfl, fun h => by
  cases w; obtain rfl := sub_is 1 (contains_one h); rfl⟩
theorem kvgath (w : PForm) : Statement (.kvgath w) := ⟨of_decide_eq_true rfl, rfl, fun _ => rfl⟩
theorem pgalloc (w : AForm) : Statement (.pgalloc w) := ⟨of_decide_eq_true rfl, rfl, fun _ => rfl⟩
theorem pgfree (w : AForm) : Statement (.pgfree w) := ⟨of_decide_eq_true rfl, rfl, fun _ => rfl⟩
theorem pxlook (w : PForm) : Statement (.pxlook w) := ⟨of_decide_eq_true rfl, rfl, fun _ => rfl⟩
theorem pxins (w : AForm) : Statement (.pxins w) := ⟨of_decide_eq_true rfl, rfl, fun _ => rfl⟩
theorem pxrel (w : AForm) : Statement (.pxrel w) := ⟨of_decide_eq_true rfl, rfl, fun _ => rfl⟩
theorem bmapRo (w : AForm) : Statement (.bmapRo w) := ⟨of_decide_eq_true rfl, rfl, fun h => by
  cases w; obtain rfl := sub_is 0 (contains_one h); rfl⟩
theorem bmapSet (w : AForm) : Statement (.bmapSet w) := ⟨of_decide_eq_true rfl, rfl, fun h => by
  cases w; obtain rfl := sub_is 1 (contains_one h); rfl⟩
theorem bmapRdlo (w : AForm) : Statement (.bmapRdlo w) := ⟨of_decide_eq_true rfl, rfl, fun h => by
  cases w; obtain rfl := sub_is 2 (contains_one h); rfl⟩
theorem bmapRdhi (w : AForm) : Statement (.bmapRdhi w) := ⟨of_decide_eq_true rfl, rfl, fun h => by
  cases w; obtain rfl := sub_is 3 (contains_one h); rfl⟩
theorem bmapClr (w : AForm) : Statement (.bmapClr w) := ⟨of_decide_eq_true rfl, rfl, fun h => by
  cases w; obtain rfl := sub_is 4 (contains_one h); rfl⟩
theorem tierin (w : AForm) : Statement (.tierin w) := ⟨of_decide_eq_true rfl, rfl, fun _ => rfl⟩
theorem tierout (w : AForm) : Statement (.tierout w) := ⟨of_decide_eq_true rfl, rfl, fun _ => rfl⟩
theorem seqrd (w : AForm) : Statement (.seqrd w) := ⟨of_decide_eq_true rfl, rfl, fun _ => rfl⟩
theorem tierMoveEnd (a : Nat) : Statement (.tierMoveEnd a) := trivial
theorem headerReached (c : Nat) (x : Nat) : Statement (.headerReached c x) := trivial
theorem sectionStart (c : Nat) (x : Nat) : Statement (.sectionStart c x) := trivial
theorem segmentKeyHit (c : Nat) (x : Nat) : Statement (.segmentKeyHit c x) := trivial
theorem sectionRetire (c : Nat) (x : Nat) : Statement (.sectionRetire c x) := trivial
theorem resultLands (c : Nat) (n : Nat) (ext : List Byte) : Statement (.resultLands c n ext) := trivial
theorem ldqScalesLand (c : Nat) (n : Nat) (ext : List Byte) : Statement (.ldqScalesLand c n ext) := trivial
theorem ldqDataLands (c : Nat) (n : Nat) (ext : List Byte) : Statement (.ldqDataLands c n ext) := trivial
theorem acceptanceTimeout (c : Nat) (x : Unanswered) : Statement (.acceptanceTimeout c x) := trivial
theorem fenceWaitExpiry (c : Nat) (x : Nat) : Statement (.fenceWaitExpiry c x) := trivial
theorem bankWake (c : Nat) (bank : Nat) : Statement (.bankWake c bank) := trivial
theorem taskTrapHandlerStart (c : Nat) : Statement (.taskTrapHandlerStart c) := trivial
theorem messageArrival (c : Nat) (far : MsgAns) : Statement (.messageArrival c far) := trivial
theorem arrivalHandlerStart (c : Nat) : Statement (.arrivalHandlerStart c) := trivial
theorem hubSubmission (core : Nat) (t : Nat) (r : Submission) : Statement (.hubSubmission core t r) := trivial
theorem earlySignalExpiry (t : Nat) (tid : BitVec 32) : Statement (.earlySignalExpiry t tid) := trivial
theorem taskRelease (t : Nat) (tid : BitVec 32) : Statement (.taskRelease t tid) := trivial
theorem taskIssue (t : Nat) (c : Nat) : Statement (.taskIssue t c) := trivial
theorem taskRetirement (c : Nat) : Statement (.taskRetirement c) := trivial
theorem timingSourceChange (a : Nat) : Statement (.timingSourceChange a) := trivial
theorem tickEnd (d : Nat) : Statement (.tickEnd d) := trivial
theorem frameStart (d : Nat) : Statement (.frameStart d) := trivial
theorem segmentArrival (d : Nat) (ext : List Byte) : Statement (.segmentArrival d ext) := trivial
theorem segmentForward (d : Nat) : Statement (.segmentForward d) := trivial
theorem segmentRefetch (d : Nat) (pos : Nat) : Statement (.segmentRefetch d pos) := trivial
theorem heartbeatTimeout (d : Nat) (lost : Nat) : Statement (.heartbeatTimeout d lost) := trivial
theorem repairComplete (d : Nat) : Statement (.repairComplete d) := trivial
theorem nestStart (c : Nat) : Statement (.nestStart c) := trivial
theorem nestStep (c : Nat) : Statement (.nestStep c) := trivial
theorem nestEnd (c : Nat) : Statement (.nestEnd c) := trivial
theorem mdrainRowLands (c : Nat) : Statement (.mdrainRowLands c) := trivial
theorem backgroundEviction (a : Nat) : Statement (.backgroundEviction a) := trivial
theorem preemptionCheck (t : Nat) : Statement (.preemptionCheck t) := trivial
theorem saveImageComplete (c : Nat) : Statement (.saveImageComplete c) := trivial
theorem saveDrainFallback (t : Nat) : Statement (.saveDrainFallback t) := trivial
theorem contextRestore (t : Nat) (c : Nat) : Statement (.contextRestore t c) := trivial
theorem retry (core : Nat) (t : Nat) (cl : BitVec 5) : Statement (.retry core t cl) := trivial
theorem skip (core : Nat) (t : Nat) (cl : BitVec 5) : Statement (.skip core t cl) := trivial
theorem kill (core : Nat) (t : Nat) (cl : BitVec 5) : Statement (.kill core t cl) := trivial
theorem saveTeam (core : Nat) (t : Nat) (team : BitVec 16) : Statement (.saveTeam core t team) := trivial
theorem swapout (core : Nat) (t : Nat) : Statement (.swapout core t) := trivial
theorem swapin (core : Nat) (t : Nat) : Statement (.swapin core t) := trivial
theorem frz (core : Nat) (t : Nat) (v : BitVec 32) : Statement (.frz core t v) := trivial
theorem agfrz (core : Nat) (t : Nat) (v : BitVec 1) : Statement (.agfrz core t v) := trivial
theorem estclr (core : Nat) (t : Nat) (all : Bool) (tid : BitVec 32) : Statement (.estclr core t all tid) := trivial
theorem alloc (core : Nat) (a : Nat) (arg : BitVec 28) (page : BitVec 30) : Statement (.alloc core a arg page) := trivial
theorem refPage (core : Nat) (a : Nat) (arg : BitVec 28) (page : BitVec 30) : Statement (.refPage core a arg page) := trivial
theorem unref (core : Nat) (a : Nat) (arg : BitVec 28) (page : BitVec 30) : Statement (.unref core a arg page) := trivial
theorem setro (core : Nat) (a : Nat) (arg : BitVec 28) (page : BitVec 30) : Statement (.setro core a arg page) := trivial
theorem clrro (core : Nat) (a : Nat) (arg : BitVec 28) (page : BitVec 30) : Statement (.clrro core a arg page) := trivial
theorem setpin (core : Nat) (a : Nat) (arg : BitVec 28) (page : BitVec 30) : Statement (.setpin core a arg page) := trivial
theorem clrpin (core : Nat) (a : Nat) (arg : BitVec 28) (page : BitVec 30) : Statement (.clrpin core a arg page) := trivial
theorem evict (core : Nat) (a : Nat) (arg : BitVec 28) (page : BitVec 30) : Statement (.evict core a arg page) := trivial
theorem publish (core : Nat) (a : Nat) (arg : BitVec 28) (page : BitVec 30) : Statement (.publish core a arg page) := trivial
theorem pageAllocatorEnable (core : Nat) (a : Nat) (v : BitVec 64) : Statement (.pageAllocatorEnable core a v) := trivial
theorem pageAllocatorInitDone (a : Nat) : Statement (.pageAllocatorInitDone a) := trivial
theorem partcfg (core : Nat) (v : BitVec 32) : Statement (.partcfg core v) := trivial
theorem partsup (core : Nat) (v : BitVec 64) : Statement (.partsup core v) := trivial
theorem accessTableWrite (master : BitVec 12) (t : Nat) (m : BitVec 12) (v : BitVec 8) : Statement (.accessTableWrite master t m v) := trivial
theorem groupTableWrite (core : Nat) (i : Nat) (mask : BitVec 320) : Statement (.groupTableWrite core i mask) := trivial
theorem rfcfg (core : Nat) (d : Nat) (v : BitVec 64) : Statement (.rfcfg core d v) := trivial
theorem bypass (core : Nat) (d : Nat) (v : BitVec 8) : Statement (.bypass core d v) := trivial
theorem fabcfg (core : Nat) (v : BitVec 64) : Statement (.fabcfg core v) := trivial
theorem hostwin (core : Nat) (v : BitVec 64) : Statement (.hostwin core v) := trivial
theorem pwrcap (core : Nat) (v : BitVec 64) : Statement (.pwrcap core v) := trivial
theorem configRegisterWrite (core : Nat) (off : Nat) (v : BitVec 64) : Statement (.configRegisterWrite core off v) := trivial
theorem flitReceived (link : Nat) (dir : Bool) (hdr : BitVec 128) (tagOk : Bool) : Statement (.flitReceived link dir hdr tagOk) := trivial
theorem keyUpdate (link : Nat) (dir : Bool) : Statement (.keyUpdate link dir) := trivial
theorem linkDeclaredDead (link : Nat) : Statement (.linkDeclaredDead link) := trivial
theorem linkUp (link : Nat) (peer : BitVec 6) : Statement (.linkUp link peer) := trivial
theorem remoteAccessArrival (req : RemoteReq) : Statement (.remoteAccessArrival req) := trivial
theorem leaseExpiry (d : Nat) (line : Nat) : Statement (.leaseExpiry d line) := trivial
theorem shootDown (home : Nat) (die : Nat) : Statement (.shootDown home die) := trivial
theorem roClearAtHome (home : Nat) : Statement (.roClearAtHome home) := trivial
theorem hostBarAccess (bar2 : Bool) (req : BusReq) : Statement (.hostBarAccess bar2 req) := trivial
theorem moduleReset (env : ResetEnv) : Statement (.moduleReset env) := trivial
theorem pldmFirmwareUpdate (bank : Bool) (img : FlashBank) : Statement (.pldmFirmwareUpdate bank img) := trivial
theorem getCertificate : Statement (.getCertificate) := trivial
theorem challenge (nonce : Nat) : Statement (.challenge nonce) := trivial
theorem getMeasurements (nonce : Nat) : Statement (.getMeasurements nonce) := trivial
theorem keyExchange (nonce : Nat) : Statement (.keyExchange nonce) := trivial
theorem p1Entry : Statement (.p1Entry) := trivial
theorem p1Exit : Statement (.p1Exit) := trivial
theorem thermalHalt (target : Nat) (temp : BitVec 8) (coolant : Bool) : Statement (.thermalHalt target temp coolant) := trivial
theorem suspend : Statement (.suspend) := trivial
theorem wake (env : ResetEnv) : Statement (.wake env) := trivial
theorem powerRemoved : Statement (.powerRemoved) := trivial
theorem accessAccepted (c : Nat) (x : Nat) (far : FarMap) : Statement (.accessAccepted c x far) := trivial
theorem accessPerformed (c : Nat) (a : Performed) : Statement (.accessPerformed c a) := trivial
theorem hubCoreAccess (core : Nat) (req : BusReq) : Statement (.hubCoreAccess core req) := trivial
theorem segmentStoreError (d : Nat) : Statement (.segmentStoreError d) := trivial
theorem linkLosesTraining (link : Nat) : Statement (.linkLosesTraining link) := trivial
theorem distributorMessageArrival (msg : DistMsg) : Statement (.distributorMessageArrival msg) := trivial

end Sys2Proof.Laws.EncForm
end

