-- ==== Sys2Proof/Laws/State.lean ====
section
/-! SUPPORT. Laws of the accessors of the state: what each reads after each update. -/

namespace Sys2Proof.Machine

/-! ### Clusters and contexts -/

@[simp] theorem State.cl_setCl_same (s : State) (c : Nat) (k : Cluster) : (s.setCl c k).cl c = k := SMap.get_set_same _ _ _ _
theorem State.cl_setCl_ne (s : State) {c j : Nat} (k : Cluster) (h : j ≠ c) : (s.setCl c k).cl j = s.cl j :=
  SMap.get_set_ne _ _ _ h
@[simp] theorem State.cl_modCl_same (s : State) (c : Nat) (f : Cluster → Cluster) : (s.modCl c f).cl c = f (s.cl c) :=
  State.cl_setCl_same _ _ _
theorem State.cl_modCl_ne (s : State) {c j : Nat} (f : Cluster → Cluster) (h : j ≠ c) : (s.modCl c f).cl j = s.cl j :=
  State.cl_setCl_ne _ _ h
@[simp] theorem Cluster.cx_setCx_same (k : Cluster) (x : Nat) (e : Ctx) : (k.setCx x e).cx x = e := SMap.get_set_same _ _ _ _
theorem Cluster.cx_setCx_ne (k : Cluster) {x j : Nat} (e : Ctx) (h : j ≠ x) : (k.setCx x e).cx j = k.cx j :=
  SMap.get_set_ne _ _ _ h
@[simp] theorem Cluster.cx_modCx_same (k : Cluster) (x : Nat) (f : Ctx → Ctx) : (k.modCx x f).cx x = f (k.cx x) :=
  Cluster.cx_setCx_same _ _ _
theorem Cluster.cx_modCx_ne (k : Cluster) {x j : Nat} (f : Ctx → Ctx) (h : j ≠ x) : (k.modCx x f).cx j = k.cx j :=
  Cluster.cx_setCx_ne _ _ h

@[simp] theorem State.cur_modCl (s : State) (c : Nat) (f : Cluster → Cluster) : (s.modCl c f).cur = s.cur := rfl
@[simp] theorem State.cur_modMe (s : State) (f : Cluster → Cluster) : (s.modMe f).cur = s.cur := rfl
@[simp] theorem State.cur_modCtx (s : State) (f : Ctx → Ctx) : (s.modCtx f).cur = s.cur := rfl
@[simp] theorem State.cur_modCx (s : State) (c x : Nat) (f : Ctx → Ctx) : (s.modCx c x f).cur = s.cur := rfl
@[simp] theorem State.cur_used (s : State) : s.used.cur = s.cur := rfl

@[simp] theorem State.me_modMe (s : State) (f : Cluster → Cluster) : (s.modMe f).me = f s.me := State.cl_modCl_same _ _ _
@[simp] theorem State.me_modCtx (s : State) (f : Ctx → Ctx) : (s.modCtx f).me = s.me.modCx s.cur.2 f := State.cl_modCl_same _ _ _
@[simp] theorem State.ctx_modCtx (s : State) (f : Ctx → Ctx) : (s.modCtx f).ctx = f s.ctx := by
  simp [State.ctx]
@[simp] theorem State.ctx_used (s : State) : s.used.ctx = s.ctx := by
  simp only [State.ctx, State.used, State.me_modMe, State.cur_modMe]; rfl
/-- A change of the cluster that leaves the contexts alone leaves the context alone. -/
theorem State.ctx_modMe (s : State) (f : Cluster → Cluster) (h : (f s.me).ctx = s.me.ctx) : (s.modMe f).ctx = s.ctx := by
  simp [State.ctx, Cluster.cx, h]

@[simp] theorem State.rest_modCl (s : State) (c : Nat) (f : Cluster → Cluster) : (s.modCl c f).rest = s.rest := rfl
@[simp] theorem State.rest_modMe (s : State) (f : Cluster → Cluster) : (s.modMe f).rest = s.rest := rfl
@[simp] theorem State.rest_modCtx (s : State) (f : Ctx → Ctx) : (s.modCtx f).rest = s.rest := rfl
@[simp] theorem State.rest_modCx (s : State) (c x : Nat) (f : Ctx → Ctx) : (s.modCx c x f).rest = s.rest := rfl
@[simp] theorem State.rest_used (s : State) : s.used.rest = s.rest := rfl
@[simp] theorem Cluster.rest_modCx (k : Cluster) (x : Nat) (f : Ctx → Ctx) : (k.modCx x f).rest = k.rest := rfl
@[simp] theorem Cluster.rest_setCx (k : Cluster) (x : Nat) (e : Ctx) : (k.setCx x e).rest = k.rest := rfl

theorem State.cl_modMe_ne (s : State) (f : Cluster → Cluster) {c : Nat} (h : c ≠ s.cur.1) : (s.modMe f).cl c = s.cl c :=
  State.cl_modCl_ne _ _ h
theorem State.cl_modCtx_ne (s : State) (f : Ctx → Ctx) {c : Nat} (h : c ≠ s.cur.1) : (s.modCtx f).cl c = s.cl c :=
  State.cl_modCl_ne _ _ h

/-! ### The other tables -/

@[simp] theorem State.ring_modRing_same (s : State) (d : Nat) (f : Ring → Ring) : (s.modRing d f).ring d = f (s.ring d) :=
  SMap.get_set_same _ _ _ _
theorem State.ring_modRing_ne (s : State) {d j : Nat} (f : Ring → Ring) (h : j ≠ d) : (s.modRing d f).ring j = s.ring j :=
  SMap.get_set_ne _ _ _ h
@[simp] theorem State.adie_modADie_same (s : State) (n : Nat) (f : ADie → ADie) : (s.modADie n f).adie n = f (s.adie n) :=
  SMap.get_set_same _ _ _ _
theorem State.adie_modADie_ne (s : State) {n j : Nat} (f : ADie → ADie) (h : j ≠ n) : (s.modADie n f).adie j = s.adie j :=
  SMap.get_set_ne _ _ _ h
@[simp] theorem State.dist_modDist_same (s : State) (t : Nat) (f : Dist → Dist) : (s.modDist t f).dist t = f (s.dist t) :=
  SMap.get_set_same _ _ _ _
theorem State.dist_modDist_ne (s : State) {t j : Nat} (f : Dist → Dist) (h : j ≠ t) : (s.modDist t f).dist j = s.dist j :=
  SMap.get_set_ne _ _ _ h
@[simp] theorem State.sup_modSup_same (s : State) (t : Nat) (f : Sup → Sup) : (s.modSup t f).sup t = f (s.sup t) :=
  SMap.get_set_same _ _ _ _
theorem State.sup_modSup_ne (s : State) {t j : Nat} (f : Sup → Sup) (h : j ≠ t) : (s.modSup t f).sup j = s.sup j :=
  SMap.get_set_ne _ _ _ h
@[simp] theorem State.link_modLink_same (s : State) (i : Nat) (f : Link → Link) : (s.modLink i f).link i = f (s.link i) :=
  SMap.get_set_same _ _ _ _
theorem State.link_modLink_ne (s : State) {i j : Nat} (f : Link → Link) (h : j ≠ i) : (s.modLink i f).link j = s.link j :=
  SMap.get_set_ne _ _ _ h
@[simp] theorem State.hub_modHub (s : State) (f : Hub → Hub) : (s.modHub f).hub = f s.hub := rfl

/-! ### Memory is changed by stores alone -/

@[simp] theorem State.mem_setCl (s : State) (c : Nat) (k : Cluster) : (s.setCl c k).mem = s.mem := rfl
@[simp] theorem State.mem_modCl (s : State) (c : Nat) (f : Cluster → Cluster) : (s.modCl c f).mem = s.mem := rfl
@[simp] theorem State.mem_modCx (s : State) (c x : Nat) (f : Ctx → Ctx) : (s.modCx c x f).mem = s.mem := rfl
@[simp] theorem State.mem_modMe (s : State) (f : Cluster → Cluster) : (s.modMe f).mem = s.mem := rfl
@[simp] theorem State.mem_modCtx (s : State) (f : Ctx → Ctx) : (s.modCtx f).mem = s.mem := rfl
@[simp] theorem State.mem_modRing (s : State) (d : Nat) (f : Ring → Ring) : (s.modRing d f).mem = s.mem := rfl
@[simp] theorem State.mem_modADie (s : State) (n : Nat) (f : ADie → ADie) : (s.modADie n f).mem = s.mem := rfl
@[simp] theorem State.mem_modDist (s : State) (t : Nat) (f : Dist → Dist) : (s.modDist t f).mem = s.mem := rfl
@[simp] theorem State.mem_modSup (s : State) (t : Nat) (f : Sup → Sup) : (s.modSup t f).mem = s.mem := rfl
@[simp] theorem State.mem_modLink (s : State) (i : Nat) (f : Link → Link) : (s.modLink i f).mem = s.mem := rfl
@[simp] theorem State.mem_modHub (s : State) (f : Hub → Hub) : (s.modHub f).mem = s.mem := rfl
@[simp] theorem State.mem_used (s : State) : s.used.mem = s.mem := rfl

end Sys2Proof.Machine
end

