-- ==== Sys2Proof/Laws/Sequencing.lean ====
section
/-! SUPPORT. What completing a word can do: the laws of the loop step, of a transfer of control and of State.complete. -/

namespace Sys2Proof.Machine

theorem OnlySequencing.refl (s : State) : OnlySequencing s s := ⟨rfl, fun _ _ => rfl, rfl, fun _ _ => rfl, rfl⟩

theorem State.cur_rest (s : State) : s.rest.cur = s.cur := rfl

theorem OnlySequencing.cur {u t : State} (h : OnlySequencing u t) : t.cur = u.cur := by
  have := congrArg State.cur h.module
  exact this

theorem OnlySequencing.trans {s t u : State} (h : OnlySequencing s t) (g : OnlySequencing t u) : OnlySequencing s u := by
  have hc := h.cur
  refine ⟨g.module.trans h.module, fun c hc' => ?_, g.cluster.trans h.cluster, fun x hx => ?_, g.own.trans h.own⟩
  · rw [g.others c (hc ▸ hc'), h.others c hc']
  · rw [g.engines x (hc ▸ hx), h.engines x hx]

/-- A change of the issuing context that keeps what Ctx.rest keeps. -/
theorem OnlySequencing.modCtx (s : State) (f : Ctx → Ctx) (h : (f s.ctx).rest = s.ctx.rest) : OnlySequencing s (s.modCtx f) := by
  refine ⟨rfl, fun c hc => State.cl_modCtx_ne s f hc, by simp, fun x hx => ?_, by simpa using h⟩
  rw [State.me_modCtx, Cluster.cx_modCx_ne _ _ hx]

/-- A change of the cluster that keeps its contexts and what Cluster.rest keeps. -/
theorem OnlySequencing.modMe (s : State) (f : Cluster → Cluster) (h : (f s.me).rest = s.me.rest) (hx : (f s.me).ctx = s.me.ctx) :
    OnlySequencing s (s.modMe f) := by
  refine ⟨rfl, fun c hc => State.cl_modMe_ne s f hc, by simpa using h, fun x _ => ?_, by rw [State.ctx_modMe s f hx]⟩
  rw [State.me_modMe]; simp [Cluster.cx, hx]

theorem OnlySequencing.used (s : State) : OnlySequencing s s.used := OnlySequencing.modMe s _ rfl rfl

theorem OnlySequencing.issuedWord (s : State) : OnlySequencing s s.issuedWord :=
  (OnlySequencing.modCtx s _ (by rfl)).trans (OnlySequencing.used _)

theorem OnlySequencing.leaveTo (s : State) (a : Parcel) : OnlySequencing s (s.leaveTo a) := OnlySequencing.modCtx s _ (by rfl)

theorem OnlySequencing.preemptPoint (s : State) : OnlySequencing s s.preemptPoint := by
  unfold State.preemptPoint
  split
  · exact OnlySequencing.modCtx s _ (by rfl)
  · exact OnlySequencing.refl s

/-- The pre-emption point touches nothing but whether the context has stopped. -/
theorem State.ctx_preemptPoint (s : State) : ∃ b, s.preemptPoint.ctx = { s.ctx with stopped := b } := by
  unfold State.preemptPoint
  split
  · exact ⟨true, by simp⟩
  · exact ⟨s.ctx.stopped, rfl⟩

/-- A transfer within the section sets the PC. -/
theorem State.goto_inside {s : State} {a : Parcel} (h : s.ctx.inside a = true) :
    s.goto a = .ok (s.modCtx fun e => { e with pc := a, phase := .body }) := by
  simp [State.goto, h]

theorem OnlySequencing.arrive {s : State} {a : Parcel} (hs : s.ctx.inSec = true) (h1 : s.ctx.secF.toNat ≤ a.toNat)
    (h2 : a.toNat ≤ s.ctx.secE) : ∃ t, s.arrive a = .ok t ∧ OnlySequencing s t := by
  unfold State.arrive
  split
  · exact ⟨_, rfl, OnlySequencing.leaveTo s a⟩
  · rename_i h
    have hin : s.ctx.inside a = true := by
      simp only [Ctx.inside, hs, Bool.true_and, Bool.and_eq_true, decide_eq_true_eq]
      simp only [hs, true_and] at h
      omega
    exact ⟨_, State.goto_inside hin, OnlySequencing.modCtx s _ (by rfl)⟩

/-- Where the loop step goes on: at the successor, or at the start of an entry of the stack. -/
theorem loopStep_next (ls : List LoopEnt) (v : BitVec 32) (nx : Parcel) :
    ((loopStep ls v nx).2.2.2 = false ∧ (loopStep ls v nx).2.2.1 = nx) ∨
      ((loopStep ls v nx).2.2.2 = true ∧ ∃ l ∈ ls, (loopStep ls v nx).2.2.1 = l.start) := by
  induction ls generalizing v with
  | nil => exact .inl ⟨rfl, rfl⟩
  | cons e es ih =>
    rw [loopStep]
    split
    · dsimp only
      split
      · exact .inr ⟨rfl, e, by simp, rfl⟩
      · rcases ih (if e.limit.getLsbD 31 = true then rotateVrb v else v) with h | ⟨h, l, hl, hs⟩
        · exact .inl h
        · exact .inr ⟨h, l, List.mem_cons_of_mem _ hl, hs⟩
    · exact .inl ⟨rfl, rfl⟩

/-- The step to a sequential successor in the section, or at its end, touches nothing but where the context stands. -/
theorem OnlySequencing.succeed {s : State} {nx : Parcel} (hs : s.ctx.inSec = true) (h1 : s.ctx.secF.toNat ≤ nx.toNat)
    (h2 : nx.toNat ≤ s.ctx.secE) (hl : ∀ l ∈ s.ctx.loops, s.ctx.inside l.start = true) : OnlySequencing s (s.succeed nx) := by
  have key : ∀ (ls : List LoopEnt) (v : BitVec 32) (a : Parcel) (back : Bool),
      (back = false ∧ a = nx ∨ back = true ∧ ∃ l ∈ s.ctx.loops, a = l.start) →
      ∃ t, (if back then (s.modCtx fun e => { e with loops := ls, vrb := v }).goto a
        else (s.modCtx fun e => { e with loops := ls, vrb := v }).arrive a) = .ok t ∧ OnlySequencing s t := by
    intro ls v a back hab
    have hm : OnlySequencing s (s.modCtx fun e => { e with loops := ls, vrb := v }) := OnlySequencing.modCtx s _ (by rfl)
    rcases hab with ⟨rfl, rfl⟩ | ⟨rfl, l, hl', rfl⟩
    · obtain ⟨t, ht, ho⟩ := OnlySequencing.arrive (s := s.modCtx fun e => { e with loops := ls, vrb := v }) (a := a)
        (by simpa using hs) (by simpa using h1) (by simpa using h2)
      exact ⟨t, ht, hm.trans ho⟩
    · have hin : (s.modCtx fun e => { e with loops := ls, vrb := v }).ctx.inside l.start = true := by
        simpa [Ctx.inside] using hl l hl'
      exact ⟨_, by simp only [if_true]; exact State.goto_inside hin, hm.trans (OnlySequencing.modCtx _ _ (by rfl))⟩
  unfold State.succeed
  have hn := loopStep_next s.ctx.loops s.ctx.vrb nx
  generalize hstep : loopStep s.ctx.loops s.ctx.vrb nx = r at hn
  obtain ⟨ls, v, a, back⟩ := r
  dsimp only at hn
  simp only [hstep]
  obtain ⟨t, ht, ho⟩ := key ls v a back hn
  simp only [ht]
  split
  · exact ho.trans (OnlySequencing.preemptPoint t)
  · exact ho

/-- Completing a word that has its successor in its section, or at its end. -/
theorem OnlySequencing.complete {s : State} {len : Nat} (h : Straight s len) : OnlySequencing s (s.complete len) :=
  (OnlySequencing.succeed h.1 h.2.1 h.2.2.1 h.2.2.2).trans (OnlySequencing.issuedWord _)

/-- What a word leaves of the sequencer's part of its context. -/
def Ctx.sameCourse (e f : Ctx) : Prop :=
  f.inSec = e.inSec ∧ f.secF = e.secF ∧ f.secE = e.secE ∧ f.pc = e.pc ∧ f.loops = e.loops

theorem Straight.of_same {s t : State} {len : Nat} (h : Straight s len) (hs : Ctx.sameCourse s.ctx t.ctx) : Straight t len := by
  obtain ⟨h1, h2, h3, h4, h5⟩ := hs
  simp only [Straight, Ctx.inside, h1, h2, h3, h4, h5] at *
  exact h

/-- The answer of a word that completes in the course of its section. -/
theorem finish_next {s u : State} {len : Nat} {r : Chk State} (hr : r = .ok u) (h : Straight s len)
    (hs : Ctx.sameCourse s.ctx u.ctx) : ∃ t, finish s len r = .next t ∧ OnlySequencing u t := by
  subst hr
  exact ⟨u.complete len, rfl, OnlySequencing.complete (h.of_same hs)⟩

/-! ### The outcome of a word -/

@[simp] theorem ok_bind {α β ε : Type} (a : α) (f : α → Except ε β) : ((Except.ok a : Except ε α) >>= f) = f a := rfl
@[simp] theorem pure_eq_ok {α ε : Type} (a : α) : (pure a : Except ε α) = .ok a := rfl

theorem Ctx.sameCourse_refl (e : Ctx) : Ctx.sameCourse e e := ⟨rfl, rfl, rfl, rfl, rfl⟩

/-- A change of the cluster that leaves its contexts alone leaves the course alone. -/
theorem sameCourse_modMe (s : State) (f : Cluster → Cluster) (h : (f s.me).ctx = s.me.ctx) :
    Ctx.sameCourse s.ctx (s.modMe f).ctx := by
  rw [State.ctx_modMe s f h]; exact Ctx.sameCourse_refl _

/-- Writing an s, p or b register leaves the course alone. -/
theorem sameCourse_putOpnd (s : State) (o : Opnd) (v : Word) : Ctx.sameCourse s.ctx (s.putOpnd o v).ctx := by
  cases o
  case s i =>
    have h : (s.modMe fun k => k.supersede s.cur.2 (s.cycle.toNat + 1) (.s i)).ctx = s.ctx := State.ctx_modMe _ _ rfl
    simp [State.putOpnd, Ctx.sameCourse, Ctx.putS, h]
  case p i =>
    simp only [State.putOpnd, Ctx.sameCourse, Ctx.putP, State.ctx_modCtx]
    split <;> simp
  all_goals simp [State.putOpnd, Ctx.sameCourse, Ctx.putB]

theorem sameCourse_lands (s : State) (lat : Nat) (d : Opnd) (k : LandKind) (f : Flags) :
    Ctx.sameCourse s.ctx (s.lands lat d k f).ctx := sameCourse_modMe _ _ rfl

theorem sameCourse_resultS (s : State) (lat : Nat) (o : Opnd) (v : Word) : Ctx.sameCourse s.ctx (s.resultS lat o v).ctx := by
  unfold State.resultS
  split
  · exact sameCourse_putOpnd s o v
  · exact sameCourse_lands ..

theorem sameCourse_reserve (s : State) (i id : Nat) : Ctx.sameCourse s.ctx (s.reserve i id).ctx := sameCourse_modMe _ _ rfl

theorem sameCourse_empties (s : State) (o : Opnd) : Ctx.sameCourse s.ctx (s.empties o).ctx := by
  cases o <;> first
    | exact Ctx.sameCourse_refl _
    | exact sameCourse_modMe _ _ rfl
    | simp [State.empties, Ctx.sameCourse]

theorem sameCourse_pops (s : State) (os : List Opnd) : Ctx.sameCourse s.ctx (s.pops os).ctx := sameCourse_modMe _ _ rfl

theorem Ctx.sameCourse.trans {e f g : Ctx} (h : Ctx.sameCourse e f) (k : Ctx.sameCourse f g) : Ctx.sameCourse e g := by
  obtain ⟨h1, h2, h3, h4, h5⟩ := h
  obtain ⟨k1, k2, k3, k4, k5⟩ := k
  exact ⟨k1.trans h1, k2.trans h2, k3.trans h3, k4.trans h4, k5.trans h5⟩

theorem sameCourse_resultLong (s : State) (d : Opnd) (val mask : VWord) (fl : Flags) :
    Ctx.sameCourse s.ctx (s.resultLong d val mask fl).ctx := by
  have h0 : Ctx.sameCourse s.ctx ({ s with seq := s.seq + 1 } : State).ctx := Ctx.sameCourse_refl _
  unfold State.resultLong
  cases d
  case q p i => exact (h0.trans (sameCourse_reserve _ _ _)).trans (sameCourse_modMe _ _ rfl)
  all_goals exact (h0.trans (sameCourse_empties _ _)).trans (sameCourse_modMe _ _ rfl)

theorem sameCourse_resultV (s : State) (lat : Nat) (d : Opnd) (val mask : VWord) (b : Option Bind) (fl : Flags) :
    Ctx.sameCourse s.ctx (s.resultV lat d val mask b fl).ctx := by
  have h0 : Ctx.sameCourse s.ctx ({ s with seq := s.seq + 1 } : State).ctx := Ctx.sameCourse_refl _
  cases d
  case q p i => exact (h0.trans (sameCourse_reserve _ _ _)).trans (sameCourse_lands ..)
  all_goals exact sameCourse_lands ..

theorem sameCourse_resultAs (s : State) (lat : Option Nat) (d : Opnd) (val mask : VWord) (fl : Flags) :
    Ctx.sameCourse s.ctx (s.resultAs lat d val mask fl).ctx := by
  cases lat
  · exact sameCourse_resultLong ..
  · exact sameCourse_resultV ..

/-- A word that answers through finish, and whose checks pass, completes with what they leave. -/
theorem gives_of_finish {i : Instr} {s u : State} {len : Nat} {r : Chk State} (he : exec i s = finish s len r) (hr : r = .ok u)
    (h : Straight s len) (hs : Ctx.sameCourse s.ctx u.ctx) : Gives i s u := by
  obtain ⟨t, h1, h2⟩ := finish_next hr h hs
  exact ⟨t, he.trans h1, h2⟩

end Sys2Proof.Machine
end

