-- ==== Sys2Proof/Laws/Traps.lean ====
section
/-! SUPPORT. What taking a trap does and leaves (29 R366 to R369): event logs, escalation, State.takeTrap. -/

namespace Sys2Proof.Machine

/-- f is e but for whether it has stopped. -/
def Ctx.sameButStopped (e f : Ctx) : Prop := ∃ b, f = { e with stopped := b }

theorem Ctx.sameButStopped_refl (e : Ctx) : Ctx.sameButStopped e e := ⟨e.stopped, rfl⟩
theorem Ctx.sameButStopped.trans {e f g : Ctx} (h : Ctx.sameButStopped e f) (k : Ctx.sameButStopped f g) :
    Ctx.sameButStopped e g := by
  obtain ⟨b, rfl⟩ := h
  obtain ⟨b', rfl⟩ := k
  exact ⟨b', rfl⟩

/-- Clusters that agree in everything but their contexts' stopped bits, and whether they are halted. -/
structure Cluster.nearly (k l : Cluster) : Prop where
  cx : ∀ x, Ctx.sameButStopped (k.cx x) (l.cx x)
  rest : { l with ctx := [], halted := k.halted } = { k with ctx := [] }

theorem Cluster.nearly_refl (k : Cluster) : Cluster.nearly k k := ⟨fun _ => Ctx.sameButStopped_refl _, rfl⟩

theorem Cluster.nearly.trans {j k l : Cluster} (h : Cluster.nearly j k) (g : Cluster.nearly k l) : Cluster.nearly j l := by
  refine ⟨fun x => (h.cx x).trans (g.cx x), ?_⟩
  have h2 := h.rest
  have g2 := g.rest
  have g3 : ({ l with ctx := [], halted := j.halted } : Cluster) = { k with ctx := [], halted := j.halted } := by
    have := congrArg (fun c : Cluster => { c with halted := j.halted }) g2
    exact this
  exact g3.trans h2

theorem SMap.get_map {α β : Type} (f : α → β) (d : α) (m : SMap α) (k : Nat) :
    SMap.get (f d) (m.map fun e => (e.1, f e.2)) k = f (SMap.get d m k) := by
  induction m with
  | nil => rfl
  | cons e m ih => obtain ⟨a, v⟩ := e; simp only [List.map_cons, SMap.get]; split <;> simp_all

theorem Cluster.nearly_unstop (k : Cluster) (b : Bool) : Cluster.nearly k { k.unstop with halted := b } := by
  refine ⟨fun x => ⟨false, ?_⟩, rfl⟩
  have := SMap.get_map (fun e : Ctx => { e with stopped := false }) Ctx.reset k.ctx x
  exact this

theorem Cluster.nearly_halt (k : Cluster) (b : Bool) : Cluster.nearly k { k with halted := b } :=
  ⟨fun _ => Ctx.sameButStopped_refl _, rfl⟩

/-- Storing bytes changes memory and its error marks alone. -/
@[simp] theorem State.clusters_store (s : State) (pa : Nat) (bs : List Byte) : (s.store pa bs).1.clusters = s.clusters := by
  unfold State.store; split <;> rfl
@[simp] theorem State.cur_store (s : State) (pa : Nat) (bs : List Byte) : (s.store pa bs).1.cur = s.cur := by
  unfold State.store; split <;> rfl
@[simp] theorem State.clusters_modSup (s : State) (t : Nat) (f : Sup → Sup) : (s.modSup t f).clusters = s.clusters := rfl
@[simp] theorem State.cur_modSup (s : State) (t : Nat) (f : Sup → Sup) : (s.modSup t f).cur = s.cur := rfl
@[simp] theorem State.clusters_logEvent (s : State) (t : Nat) (e : List Byte) : (s.logEvent t e).clusters = s.clusters := rfl
@[simp] theorem State.cur_logEvent (s : State) (t : Nat) (e : List Byte) : (s.logEvent t e).cur = s.cur := rfl
@[simp] theorem State.clusters_logFault (s : State) (t : Nat) (r : Fault.Rec) : (s.logFault t r).clusters = s.clusters :=
  State.clusters_logEvent ..
@[simp] theorem State.cur_logFault (s : State) (t : Nat) (r : Fault.Rec) : (s.logFault t r).cur = s.cur := State.cur_logEvent ..
@[simp] theorem State.clusters_interrupt (s : State) (t : Nat) : (s.interrupt t).clusters = s.clusters := by
  unfold State.interrupt; dsimp only; split <;> rfl
@[simp] theorem State.cur_interrupt (s : State) (t : Nat) : (s.interrupt t).cur = s.cur := by
  unfold State.interrupt; dsimp only; split <;> rfl

theorem State.cl_congr {s t : State} (h : t.clusters = s.clusters) (c : Nat) : t.cl c = s.cl c := by
  simp [State.cl, h]

/-- States whose clusters agree but for stopped bits and halts. -/
structure State.nearly (s t : State) : Prop where
  cur : t.cur = s.cur
  cl : ∀ c, Cluster.nearly (s.cl c) (t.cl c)

theorem State.nearly.trans {s t u : State} (h : State.nearly s t) (g : State.nearly t u) : State.nearly s u :=
  ⟨g.cur.trans h.cur, fun c => (h.cl c).trans (g.cl c)⟩

theorem State.nearly_of_clusters {s t : State} (h : t.clusters = s.clusters) (hc : t.cur = s.cur) : State.nearly s t :=
  ⟨hc, fun c => by rw [State.cl_congr h c]; exact Cluster.nearly_refl _⟩

theorem State.nearly_modCl (s : State) (c : Nat) (f : Cluster → Cluster) (h : Cluster.nearly (s.cl c) (f (s.cl c))) :
    State.nearly s (s.modCl c f) := by
  refine ⟨rfl, fun j => ?_⟩
  by_cases hj : j = c
  · subst hj; simpa using h
  · rw [State.cl_modCl_ne s f hj]; exact Cluster.nearly_refl _

theorem State.nearly_foldl {α : Type} (f : State → α → State) (hf : ∀ s a, State.nearly s (f s a)) (l : List α) (s : State) :
    State.nearly s (l.foldl f s) := by
  induction l generalizing s with
  | nil => exact State.nearly_of_clusters rfl rfl
  | cons a l ih => exact (hf s a).trans (ih (f s a))

theorem State.nearly_cancelPre (s : State) (d : Nat) (team : BitVec 16) : State.nearly s (s.cancelPre d team) := by
  unfold State.cancelPre
  split
  · split
    · rename_i p _ _
      have h1 : ∀ (l : List Nat) (s : State), State.nearly s (l.foldl (fun s c =>
          if (s.cl c).ofTeam team then
            s.modCl c fun k => { k.unstop with halted := k.halted && !decide (p.act = .discard) }
          else s) s) := fun l s => State.nearly_foldl _ (fun s c => by
        split
        · exact State.nearly_modCl s c _ (Cluster.nearly_unstop _ _)
        · exact State.nearly_of_clusters rfl rfl) l s
      refine (h1 (dieClusters d) s).trans ?_
      dsimp only
      split <;> exact State.nearly_of_clusters rfl rfl
    · exact State.nearly_of_clusters rfl rfl
  · exact State.nearly_of_clusters rfl rfl

theorem State.nearly_logFault (s : State) (t : Nat) (r : Fault.Rec) : State.nearly s (s.logFault t r) :=
  State.nearly_of_clusters (State.clusters_logFault s t r) (State.cur_logFault s t r)

/-- Escalating leaves registers, programs and traps of every context as they are. -/
theorem State.nearly_escalate (s : State) (c x : Nat) (t : Trap) : State.nearly s (s.escalate c x t) := by
  unfold State.escalate
  dsimp only
  refine State.nearly.trans ?_ (State.nearly_of_clusters (State.clusters_interrupt _ _) (State.cur_interrupt _ _))
  refine State.nearly.trans ?_ (State.nearly_of_clusters (State.clusters_modSup _ _ _) (State.cur_modSup _ _ _))
  refine State.nearly.trans ?_ (State.nearly_modCl _ c _ (Cluster.nearly_halt _ true))
  split
  · exact State.nearly.trans (State.nearly_logFault _ _ _) (State.nearly_cancelPre _ _ _)
  · exact State.nearly_logFault _ _ _

/-- A refusal freezes a cluster and leaves its contexts as they are. -/
theorem State.nearly_refuse (s : State) (c x tgt va pc : Nat) : State.nearly s (s.refuse c x tgt va pc) := by
  unfold State.refuse
  dsimp only
  refine State.nearly.trans ?_ (State.nearly_of_clusters (State.clusters_modSup _ _ _) (State.cur_modSup _ _ _))
  split
  · exact State.nearly_of_clusters rfl rfl
  · exact State.nearly_logFault _ _ _

theorem State.nearly_tvecRefused (s : State) (c : Nat) : State.nearly s (s.tvecRefused c) := by
  unfold State.tvecRefused
  split
  · split
    · exact State.nearly_refuse ..
    · exact State.nearly_of_clusters rfl rfl
  · exact State.nearly_of_clusters rfl rfl

/-- A trap other than a refusal, with its detail stated: the context stops with TRAPCAUSE, TRAPPC and TRAPINFO written. -/
theorem State.takeTrap_cx (s : State) (c x : Nat) (pc : Parcel) (t : Trap) (i : BitVec 64) (hi : t.info = some i)
    (hr : t.cause ≠ .refused) :
    ∃ b, ((s.takeTrap c x pc t).cl c).cx x = { (s.cl c).cx x with
      run := .trapped, cause := BitVec.ofNat 32 (t.opnd * 2 ^ 16 + t.cause.code), tpc := pc, tinfo := i, tgt := t.tgt, stopped := b } := by
  unfold State.takeTrap
  simp only [hi, hr, if_false, false_or]
  split
  · obtain ⟨b, hb⟩ := ((State.nearly_escalate _ c x t).cl c).cx x
    refine ⟨b, hb.trans ?_⟩
    simp [State.modCx]
  split
  · obtain ⟨b, hb⟩ := (((State.nearly_tvecRefused _ c).trans (State.nearly_escalate _ c x t)).cl c).cx x
    refine ⟨b, hb.trans ?_⟩
    simp [State.modCx]
  · refine ⟨((s.cl c).cx x).stopped, ?_⟩
    simp [State.modCx, Cluster.cx, Cluster.modCx, Cluster.setCx]

/-- The same with a free detail. -/
theorem State.takeTrap_cx_free (s : State) (c x : Nat) (pc : Parcel) (t : Trap) (hi : t.info = none) (hr : t.cause ≠ .refused) :
    ∃ i b, ((s.takeTrap c x pc t).cl c).cx x = { (s.cl c).cx x with
      run := .trapped, cause := BitVec.ofNat 32 (t.opnd * 2 ^ 16 + t.cause.code), tpc := pc, tinfo := i, tgt := t.tgt, stopped := b } := by
  have hk : s.takeTrap c x pc t = ({ s with free := s.free + 1 } : State).takeTrap c x pc { t with info := some (Config.freeInfo s.free) } := by
    unfold State.takeTrap State.escalate
    simp only [hi, hr, if_false, false_or]
  rw [hk]
  clear hk
  obtain ⟨b, hb⟩ := State.takeTrap_cx ({ s with free := s.free + 1 } : State) c x pc
    { t with info := some (Config.freeInfo s.free) } (Config.freeInfo s.free) rfl hr
  exact ⟨_, b, hb⟩

end Sys2Proof.Machine
end

