-- ==== Sys2Proof/Tests/Slice0.lean ====
section
/-! SUPPORT. Tests of the decoder and of the form rules on words written out from the spec, and, for each statement, states that meet its
hypotheses. A witness's name says which statement and which clause of it it is for. -/

namespace Sys2Proof.Tests

set_option Elab.async false

open Sys2Proof Sys2Proof.Machine Sys2Proof.Claims

/-! ### The small states of the witnesses -/

/-- A Form A word with every field empty. -/
def aw : AForm := { sub := 0, gn := false, gp := 0, dst := .null, sa := .null, sb := .null, sc := .null, ft := 0, ty := .none, md := 0, imm := 0 }
/-- A Form B word with every field empty. -/
def bw : BForm := { sub := 0, gn := false, gp := 0, dst := .null, sa := .null, ft := false, ty := .none, md := 0, imm := 0 }
/-- A Form C word with every field empty. -/
def cw : CForm := { sub := 0, gn := false, gp := 0, dst := .null, sa := .null, lv := 0, cf := 0, off := 0 }
/-- A context in the body of a section from parcel 8 to parcel 4096; s1 holds the base of the cluster's SRAM aperture. -/
def e0 : Ctx := { Ctx.reset with run := .running, phase := .body, pc := 8, secF := 8, secE := 4096, inSec := true, s := [(1, 0xFF000000000000)] }
/-- A cluster with a system task, whose C engine runs. -/
def k0 : Cluster := { Cluster.reset with task := some 0, ctx := [(0, e0)] }
/-- The module with one such cluster, number c, whose C engine has the turn; its die maps its task's first GiB to LPDDR6, its die
permits its C and M engines everything, and the hub its C engine. -/
def on (c : Nat) (k : Cluster) : State :=
  { State.reset with clusters := [(c, k)], cur := (c, 0), ltt := [(dieOf c * 4096, BitVec.ofNat 128 (2 ^ 127 + 9 * 2 ^ 115))]
                     access := [(dieOf c * 4096 + masterOf c 0, 0xF), (dieOf c * 4096 + masterOf c 2, 0xF), (12 * 4096 + masterOf c 0, 0xF)] }
/-- Cluster 0 of ring die 0. -/
def w0 : State := on 0 k0
/-- The same with another context 0. -/
def we (e : Ctx) : State := on 0 { k0 with ctx := [(0, e)] }
/-- A two-source scalar word: s5 from s2 and s3. -/
def a3 : AForm := { aw with dst := .s 5, sa := .s 2, sb := .s 3 }
/-- A one-source immediate word: s5 from s2. -/
def b2 : BForm := { bw with dst := .s 5, sa := .s 2, imm := 7 }
/-- A vector word: v5 from v2 and v3, in f32. -/
def v3 : AForm := { aw with dst := .v 5, sa := .v 2, sb := .v 3, sc := .v 4, ty := .f32, imm := 0x82 }

/-- The word at the PC of w0 has its successor in its section. -/
theorem w0_straight : Straight w0 3 := ⟨rfl, by decide, by decide, by decide⟩

/-! ### Scalar words and the sequencer -/

/-- ScalarOperations: two sources and three. -/
theorem wit_scalar_two : (∃ f, scalarOp (.addI a3) = some (a3, 2, 1, f)) ∧ w0.srcS a3.sa 2 (ftBit a3 2) = .ok 0 ∧ w0.srcS a3.sb 3 (ftBit a3 3) = .ok 0 ∧
    w0.dstS a3.dst = .ok () ∧ Straight w0 3 := ⟨⟨_, rfl⟩, rfl, rfl, rfl, w0_straight⟩
/-- ScalarOperations: three sources. -/
theorem wit_scalar_three : (∃ f, scalarOp (.madd { a3 with sc := .s 4 }) = some ({ a3 with sc := .s 4 }, 3, 3, f)) ∧ w0.srcS (.s 2) 2 false = .ok 0 ∧
    w0.srcS (.s 3) 3 false = .ok 0 ∧ w0.srcS (.s 4) 4 false = .ok 0 ∧ w0.dstS (.s 5) = .ok () ∧ Straight w0 3 :=
  ⟨⟨_, rfl⟩, rfl, rfl, rfl, rfl, w0_straight⟩
/-- ScalarImmediates. -/
theorem wit_scalar_immediate : (∃ f, immediateOp (.addImm b2) = some (b2, f)) ∧ w0.srcS b2.sa 2 b2.ft = .ok 0 ∧ w0.dstS b2.dst = .ok () ∧ Straight w0 3 :=
  ⟨⟨_, rfl⟩, rfl, rfl, w0_straight⟩
/-- Divisions. -/
theorem wit_division : (∃ f, divisionOp (.divI a3) = some (a3, f)) ∧ w0.srcS a3.sa 2 (ftBit a3 2) = .ok 0 ∧ w0.srcS a3.sb 3 (ftBit a3 3) = .ok 0 ∧
    w0.dstS a3.dst = .ok () ∧ Straight w0 3 := ⟨⟨_, rfl⟩, rfl, rfl, rfl, w0_straight⟩
/-- Comparisons: CMP, to p0 and to p7. -/
theorem wit_cmp : ∀ d ∈ [(0 : BitVec 3), 7], ({ a3 with dst := .p d } : AForm).dst = .p d ∧ a3.sub.toNat < 10 ∧
    w0.srcS a3.sa 2 (ftBit a3 2) = .ok 0 ∧ w0.srcS a3.sb 3 (ftBit a3 3) = .ok 0 ∧ Straight w0 3 := by
  intro d _; exact ⟨rfl, by decide, rfl, rfl, w0_straight⟩
/-- Comparisons: CMPI. -/
theorem wit_cmpi : ∀ d ∈ [(0 : BitVec 3), 7], ({ b2 with dst := .p d } : BForm).dst = .p d ∧ b2.sub.toNat < 10 ∧
    w0.srcS b2.sa 2 b2.ft = .ok 0 ∧ Straight w0 3 := by
  intro d _; exact ⟨rfl, by decide, rfl, w0_straight⟩
/-- Moves: SEL. -/
theorem wit_move_sel : ∃ d v, MoveWord w0 (.sel { a3 with sc := .p 1 }) d v ∧ w0.dstS d = .ok () ∧ Straight w0 3 :=
  ⟨_, _, .sel _ 0 0 1 rfl rfl rfl, rfl, w0_straight⟩
/-- Moves: LI. -/
theorem wit_move_li : ∃ d v, MoveWord w0 (.li b2) d v ∧ w0.dstS d = .ok () ∧ Straight w0 3 := ⟨_, _, .li _, rfl, w0_straight⟩
/-- Moves: LI_HI. -/
theorem wit_move_li_hi : ∃ d v, MoveWord w0 (.liHi b2) d v ∧ w0.dstS d = .ok () ∧ Straight w0 3 := ⟨_, _, .liHi _ 0 rfl, rfl, w0_straight⟩
/-- Moves: MOV of an s register. -/
theorem wit_move_s : ∃ d v, MoveWord w0 (.mov a3) d v ∧ w0.dstS d = .ok () ∧ Straight w0 3 := ⟨_, _, .movS _ 2 0 rfl rfl, rfl, w0_straight⟩
/-- Moves: MOV of a predicate. -/
theorem wit_move_p : ∃ d v, MoveWord w0 (.mov { a3 with sa := .p 1 }) d v ∧ w0.dstS d = .ok () ∧ Straight w0 3 :=
  ⟨_, _, .movP _ 1 rfl, rfl, w0_straight⟩
/-- Moves: MOV of a b register. -/
theorem wit_move_b : ∃ d v, MoveWord w0 (.mov { a3 with sa := .b 1 }) d v ∧ w0.dstS d = .ok () ∧ Straight w0 3 :=
  ⟨_, _, .movB _ 1 rfl, rfl, w0_straight⟩
/-- Moves: PLOG. -/
theorem wit_move_plog : ∃ d v, MoveWord w0 (.plog { aw with dst := .p 3, sa := .p 1, sb := .p 2, imm := 6 }) d v ∧ w0.dstS d = .ok () ∧ Straight w0 3 :=
  ⟨_, _, .plog _ 1 2 rfl rfl, rfl, w0_straight⟩
/-- Moves: LEA. -/
theorem wit_move_lea : ∃ d v, MoveWord w0 (.lea b2) d v ∧ w0.dstS d = .ok () ∧ Straight w0 3 := ⟨_, _, .lea _ 0 rfl, rfl, w0_straight⟩
/-- Moves: LEA_PC. -/
theorem wit_move_lea_pc : ∃ d v, MoveWord w0 (.leaPc b2) d v ∧ w0.dstS d = .ok () ∧ Straight w0 3 := ⟨_, _, .leaPc _, rfl, w0_straight⟩

/-- TransfersOfControl: BRI to a parcel of its section; a target of parcel 4096 is outside it and is not a header (the memory there is
zero), and at 8192 stands the first half of a header. -/
theorem wit_branch_bri : ∃ u a, Branch w0 (.bri { cw with off := 30 }) u a ∧ w0.ctx.inside a = true := ⟨_, _, .bri _, by decide⟩
/-- TransfersOfControl: CALL. -/
theorem wit_branch_call : ∃ u a, Branch w0 (.call { cw with dst := .b 1, off := 30 }) u a ∧ w0.ctx.inside a = true := ⟨_, _, .call _ 1 rfl, by decide⟩
/-- TransfersOfControl: BR, with no delay and after one. -/
theorem wit_branch_br : (∃ u a, Branch (we { e0 with b := [(1, 20)] }) (.br { aw with sa := .b 1 }) u a ∧ u.ctx.inside a = true) ∧
    ∃ u a, Branch (we { e0 with b := [(1, 20)], phase := .brWait 0 }) (.br { aw with sa := .b 1 }) u a ∧ u.ctx.inside a = true :=
  ⟨⟨_, _, .br _ 1 rfl rfl (by decide), by decide⟩, _, _, .brAfter _ 1 rfl rfl, by decide⟩
/-- TransfersOfControl: RET, with no delay and after one. -/
theorem wit_branch_ret : (∃ u a, Branch (we { e0 with b := [(1, 20)] }) (.ret { aw with sa := .b 1 }) u a ∧ u.ctx.inside a = true) ∧
    ∃ u a, Branch (we { e0 with b := [(1, 20)], phase := .brWait 0 }) (.ret { aw with sa := .b 1 }) u a ∧ u.ctx.inside a = true :=
  ⟨⟨_, _, .ret _ 1 rfl rfl (by decide), by decide⟩, _, _, .retAfter _ 1 rfl rfl, by decide⟩
/-- TransfersOfControl: a BR or RET with a cycle still to wait, and one that finds its b register written 0 and 3 words ago. -/
theorem wit_branch_waits : ({ aw with sa := .b 1 } : AForm).sa = .b 1 ∧ (we { e0 with phase := .brWait 1 }).ctx.phase = .brWait (0 + 1) ∧
    ((we { e0 with bAge := [(1, 0)] }).ctx.phase = .body ∧ SMap.get? (we { e0 with bAge := [(1, 0)] }).ctx.bAge 1 = some (3 - 3)) ∧
    ((we { e0 with bAge := [(1, 3)] }).ctx.phase = .body ∧ SMap.get? (we { e0 with bAge := [(1, 3)] }).ctx.bAge 1 = some (3 - 0)) := by decide +kernel
/-- TransfersOfControl: JTAB, its table in the task's memory. -/
theorem wit_branch_jtab : ∃ u a, Branch { w0 with mem := [(8, 20)] } (.jtab { aw with sa := .s 2, sb := .s 3, imm := 4 }) u a ∧ a = 0 ∧ u.ctx.inside a = false :=
  ⟨_, _, .jtab _ 0 0 0 rfl rfl (by decide) (by decide +kernel), rfl, by decide⟩
/-- TransfersOfControl: a target outside the section, at a header and at no header. -/
theorem wit_branch_outside : (∃ u a, Branch { w0 with mem := [(20023, 0xA0)] } (.bri { cw with off := 4996 }) u a ∧ u.ctx.inside a = false ∧
      { w0 with mem := [(20023, 0xA0)] : State }.judge a = .ok true) ∧
    ∃ u a, Branch w0 (.bri { cw with off := 4992 }) u a ∧ u.ctx.inside a = false ∧ w0.judge a = .ok false :=
  ⟨⟨_, _, .bri _, by decide, by decide +kernel⟩, _, _, .bri _, by decide, by decide +kernel⟩

/-- PlainWords: NOP, PBR and LIDX. -/
theorem wit_plain_nop : (∃ u, Plain w0 (.nop aw) u) ∧ Straight w0 3 := ⟨⟨_, .nop _⟩, w0_straight⟩
theorem wit_plain_pbr : (∃ u, Plain w0 (.pbr { cw with dst := .b 1, off := 9 }) u) ∧ Straight w0 3 := ⟨⟨_, .pbr _ 1 rfl⟩, w0_straight⟩
/-- A loop open from parcel 8 to parcel 11. -/
def l0 : LoopEnt := { index := 0, limit := 2, start := 8, stop := 11 }
theorem wit_plain_lidx : (∃ u, Plain (we { e0 with loops := [l0] }) (.lidx { cw with dst := .s 5 }) u) ∧ Straight (we { e0 with loops := [l0] }) 3 :=
  ⟨⟨_, .lidx _ l0 rfl rfl⟩, rfl, by decide, by decide, by decide⟩
/-- PlainWords: AWAIT of a count that is there, and AWAIT.nb of one that is and one that is not. -/
theorem wit_plain_await : (∃ u, Plain (on 0 { k0 with ev := [(0, 1)] }) (.await { aw with imm := 256 }) u) ∧ Straight (on 0 { k0 with ev := [(0, 1)] }) 3 :=
  ⟨⟨_, .await _ 1 rfl (by decide)⟩, w0_straight⟩
theorem wit_plain_await_nb : (∃ u, Plain (on 0 { k0 with ev := [(0, 1)] }) (.awaitNb { aw with dst := .p 1, imm := 256 }) u) ∧ Straight (on 0 { k0 with ev := [(0, 1)] }) 3 ∧
    (∃ u, Plain w0 (.awaitNb { aw with dst := .p 1, imm := 256 }) u) ∧ Straight w0 3 :=
  ⟨⟨_, .awaitTaken _ 1 rfl (by decide)⟩, w0_straight, ⟨_, .awaitNot _ 1 rfl (by decide)⟩, w0_straight⟩
/-- A record whose byte at an offset is b. -/
def recByte (off b : Nat) : BitVec 1024 := BitVec.ofNat 1024 (b * 256 ^ off)
/-- A task in flight on a cluster with a record. -/
def t0 (r : BitVec 1024) (c : Nat) : Task :=
  { tid := recTid r, rcd := r, seq := 0, waits := [], cnt := 0, released := true, ready := none, place := .running c, issued := 0, xst := false, wrel := false
    holds := none, missed := [], deadline := 0, ranOn := none, issueNo := 0, sram := [] }
/-- A window segment of tag 5. -/
def seg5 : Seg := { pos := 0, tag := 5, len := 64, splen := 0, fmt := 0, first := true, bytes := [], bad := [], lost := false, moved := 0 }
/-- A running ring die with that segment current and one more to come. -/
def r5 : Ring := { Ring.reset with run := true, nseg := 2, win := some seg5, inWin := true, rot := 3 }
/-- Cluster 0 with its task in flight, on a ring die whose window has tag 5. -/
def wt : State := { w0 with dists := [(0, { Dist.reset with tasks := [t0 0 0], nseq := 1 })], rings := [(0, r5)] }

/-- PlainWords: WSEG, a hit, and a miss under WSEG.nb. -/
theorem wit_plain_wseg : (∃ u, Plain wt (.wseg { aw with dst := .p 1, imm := 5 }) u) ∧ Straight wt 3 :=
  ⟨⟨_, .wsegHit _ 0xFFFFFFFF (by decide +kernel) (by decide +kernel)⟩, w0_straight⟩
theorem wit_plain_wseg_miss : ∃ u, Plain (on 0 { k0 with ctx := [(0, { e0 with s := [(2, 1)] })] } |> fun s => { s with dists := wt.dists, rings := wt.rings })
    (.wseg { aw with sub := 3, dst := .p 1, sa := .s 2, imm := 6 }) u :=
  ⟨_, .wsegMiss _ 1 (by decide +kernel) rfl (Or.inr (by decide +kernel))⟩

/-- LoopOpens: each of its five cases. -/
theorem wit_loop_cases : w0.srcS (.s 2) 2 false = .ok 0 ∧ (we { e0 with s := [(2, 7)] }).srcS (.s 2) 2 false = .ok 7 ∧
    (we { e0 with s := [(2, 2 ^ 31)] }).srcS (.s 2) 2 false = .ok (2 ^ 31) ∧ ({ cw with off := 3 } : CForm).off.toInt ≤ 3 ∧
    3 < ({ cw with off := 9 } : CForm).off.toInt ∧
    6 ≤ (we { e0 with s := [(2, 7)], loops := [l0, l0, l0, l0, l0, l0] }).ctx.loops.length ∧
    (we { e0 with s := [(2, 7)] }).ctx.loops.length < 6 ∧ (we { e0 with s := [(2, 7)] }).ctx.inside (8 + 3) = true ∧ (8 + 9 : Parcel) ≠ 8 + 3 := by decide +kernel
/-- LoopBreaks: an entry to leave, and none. -/
theorem wit_loop_breaks : (we { e0 with loops := [l0] }).ctx.loops.drop cw.lv.toNat = [l0] ∧ (we { e0 with loops := [l0] }).ctx.inside l0.stop = true ∧
    l0.stop.toNat ≠ (we { e0 with loops := [l0] }).ctx.secE ∧ w0.ctx.loops.length ≤ cw.lv.toNat := by decide +kernel
/-- LoopStep: the loop goes round, with and without rotation, and is left. -/
theorem wit_loop_step : (we { e0 with loops := [l0] }).ctx.loops = [l0] ∧ l0.stop = (we { e0 with loops := [l0] }).ctx.pc + 3 ∧
    l0.index.toNat + 1 < l0.limit.toNat % 2 ^ 31 ∧ l0.limit.getLsbD 31 = false ∧
    ({ l0 with limit := 0x80000002 } : LoopEnt).limit.getLsbD 31 = true ∧ ({ l0 with index := 1 } : LoopEnt).limit.toNat % 2 ^ 31 ≤ 1 + 1 := by decide +kernel
theorem wit_loop_straight : Straight (we { e0 with loops := [l0] }) 3 := ⟨rfl, by decide, by decide, by decide⟩
/-- LoopStepsMade: two entries that end together, the inner one at its last iteration, and then the outer one goes round or is left; both turn VRB. -/
def l1 : LoopEnt := { l0 with index := 1, limit := 0x80000002 }
theorem wit_loops_made : (∃ ls v a, LoopSteps 11 [l1, { l0 with start := 20 }] (4 * 2 ^ 18) ls v a ∧ a = 20 ∧ ls.length = 1 ∧ v ≠ 4 * 2 ^ 18) ∧
    (∃ ls v a, LoopSteps 11 [l1, l1] (4 * 2 ^ 18) ls v a ∧ a = 11 ∧ ls = []) ∧ (∃ ls v a, LoopSteps 11 [{ l0 with stop := 14 }] 0 ls v a ∧ a = 11) ∧
    Straight (we { e0 with loops := [l1, { l0 with start := 20 }], vrb := 4 * 2 ^ 18 }) 3 ∧ (4 * 2 ^ 18 : BitVec 32).toNat / 2 ^ 18 % 1024 ≤ 512 :=
  ⟨⟨_, _, _, .leaves _ _ _ _ _ _ (by decide) (by decide) (.round _ _ _ (by decide) (by decide)), rfl, rfl, by decide⟩,
   ⟨_, _, _, .leaves _ _ _ _ _ _ (by decide) (by decide) (.leaves _ _ _ _ _ _ (by decide) (by decide) (.stays _ _ (by simp))), rfl, rfl⟩,
   ⟨_, _, _, .stays _ _ (by decide), rfl⟩, ⟨rfl, by decide, by decide, by decide⟩, by decide⟩
/-- LoopStepTraps: a body that starts outside the section, where no header stands. -/
def wloop : State := we { e0 with loops := [{ l0 with start := 5000 }] }
theorem wit_loop_traps : wloop.ctx.loops = [{ l0 with start := 5000 }] ∧ l0.stop = wloop.ctx.pc + 3 ∧ l0.index.toNat + 1 < l0.limit.toNat % 2 ^ 31 ∧
    wloop.ctx.inside 5000 = false ∧ (match wloop.judge 5000 with | .ok b => !b | .error _ => false) = true := by decide +kernel
/-- EndWord: an engine that is not C, the C engine with nothing forked, and an arrival handler. -/
theorem wit_end : w0.me.m.drop = [] ∧ w0.cur.2 = 0 ∧ w0.me.allArrived = true ∧ ({ w0 with cur := (0, 2) } : State).me.m.busy = false ∧
    (({ on 0 { k0 with ctx := [(5, { e0 with hnd := some { slot := some 1, eng := none, asid := 0, still := false } })] } with cur := (0, 5) } : State).ctx.hnd).isSome = true := by
  decide +kernel
/-- Posts: a count read, a sum that fits, and one that does not. -/
theorem wit_posts : w0.countOf { aw with imm := 256 } = .ok 1 ∧ ((w0.cl 0).event 0).toNat + 1 ≤ 65535 ∧
    65535 < ((({ k0 with ev := [(0, 0xFFFF)] } : Cluster)).event 0).toNat + 1 := by decide +kernel

/-! ### Spill stores, control registers, the C engine -/

/-- Spills: each operand, stored and loaded at offset 0 of the spill store of the C engine. -/
theorem wit_spill_s : (∃ u, Spill w0 (.spld { aw with dst := .s 5 }) u) ∧ (∃ u, Spill w0 (.spst { aw with sa := .s 5 }) u) ∧ Straight w0 3 :=
  ⟨⟨_, .ldS _ 5 rfl rfl (by decide) rfl⟩, ⟨_, .stS _ 5 0 rfl rfl (by decide) rfl⟩, w0_straight⟩
theorem wit_spill_b : (∃ u, Spill w0 (.spld { aw with dst := .b 1 }) u) ∧ (∃ u, Spill w0 (.spst { aw with sa := .b 1 }) u) ∧ Straight w0 3 :=
  ⟨⟨_, .ldB _ 1 rfl rfl (by decide)⟩, ⟨_, .stB _ 1 rfl rfl (by decide)⟩, w0_straight⟩
/-- Spills: the registers of the cluster, on the V engine. -/
def w3 : State := { on 0 { k0 with ctx := [(3, e0)] } with cur := (0, 3) }
theorem w3_straight : Straight w3 3 := ⟨rfl, by decide, by decide, by decide⟩
theorem wit_spill_v : (∃ u, Spill w3 (.spld { aw with dst := .v 5 }) u) ∧ (∃ u, Spill w3 (.spst { aw with sa := .v 5 }) u) ∧ Straight w3 3 :=
  ⟨⟨_, .ldV _ 5 (.v 5) rfl rfl (by decide) (by decide +kernel)⟩, ⟨_, .stV _ 5 0 rfl rfl (by decide) (by decide +kernel)⟩, w3_straight⟩
theorem wit_spill_k : (∃ u, Spill w3 (.spld { aw with dst := .k 5 }) u) ∧ (∃ u, Spill w3 (.spst { aw with sa := .k 5 }) u) ∧ Straight w3 3 :=
  ⟨⟨_, .ldK _ 5 rfl rfl (by decide) (by decide +kernel)⟩, ⟨_, .stK _ 5 0 rfl rfl (by decide) (by decide +kernel)⟩, w3_straight⟩
theorem wit_spill_vm : (∃ u, Spill w3 (.spld { aw with dst := .vm 5 }) u) ∧ (∃ u, Spill w3 (.spst { aw with sa := .vm 5 }) u) ∧ Straight w3 3 :=
  ⟨⟨_, .ldVM _ 5 rfl rfl (by decide) (by decide +kernel)⟩, ⟨_, .stVM _ 5 (BitVec.allOnes 256) rfl rfl (by decide) (by decide +kernel)⟩, w3_straight⟩
/-- SpillTraps: an offset out of its alignment, and one at the end of the store, for both words. -/
theorem wit_spill_traps : 0 < spillBytes (.s 5) ∧ ({ aw with imm := 4 } : AForm).imm.toNat % spillBytes (.s 5) ≠ 0 ∧
    (BitVec.ofNat 24 (spillSize 0)).toNat % spillBytes (.s 5) = 0 ∧ spillSize 0 < (BitVec.ofNat 24 (spillSize 0)).toNat + spillBytes (.s 5) := by decide +kernel
/-- ControlRegisters: GETC and each SETC that can be made. -/
theorem wit_getc : (∃ u, ControlReg w0 (.getc { aw with dst := .s 5, imm := 4 }) u) ∧ (∃ u, ControlReg w0 (.getc { aw with dst := .s 5, imm := 0x11 }) u) ∧
    (∃ u, ControlReg (on 0 { k0 with vAcc := true }) (.getc { aw with dst := .s 5, imm := 0x11 }) u) ∧ Straight w0 3 :=
  ⟨⟨_, .get _ 0 rfl (by decide) (by decide +kernel)⟩, ⟨_, .ecntwKept _ rfl rfl (by decide +kernel)⟩, ⟨_, .ecntwCounts _ rfl rfl (by decide +kernel)⟩, w0_straight⟩
/-- ControlRegisters: a write of VFLAGS and of ECNTW that lands. -/
theorem wit_setc_lands : ({ due := 1, x := 0, sec := 0, dst := .null, kind := .clrFlags 1, flags := 0 } : Land).flags = 0 ∧
    ({ due := 1, x := 0, sec := 0, dst := .null, kind := .ecnt 1, flags := 0 } : Land).kind = .ecnt 1 := ⟨rfl, rfl⟩
theorem wit_setc : (∃ u, ControlReg w0 (.setc { aw with sa := .s 2 }) u) ∧ (∃ u, ControlReg w0 (.setc { aw with sa := .s 2, imm := 3 }) u) ∧
    (∃ u, ControlReg w0 (.setc { aw with sa := .s 2, imm := 6 }) u) ∧ (∃ u, ControlReg w0 (.setc { aw with sa := .s 2, imm := 0x11 }) u) ∧ Straight w0 3 :=
  ⟨⟨_, .vflags _ 0 rfl rfl⟩, ⟨_, .vrb _ 0 rfl rfl (by decide)⟩, ⟨_, .cause _ 0 rfl rfl⟩, ⟨_, .ecntw _ 0 rfl rfl⟩, w0_straight⟩
/-- ControlRegisters: a number that cannot be read, or written; BANKCTL on another engine and on the C engine; VRB values on both sides
of its limits. -/
theorem wit_control_traps : w0.control 0x7F = none ∧ w0.dstS (.s 5) = .ok () ∧ (0x7F : BitVec 24) ≠ 0 ∧ w3.cur.2 ∈ [1, 2, 3, 4] ∧ w0.cur.2 ∈ [0, 5, 6] ∧
    w0.srcS (.s 2) 2 false = .ok 0 ∧ (∀ b, b < 32 → (0 : Word).toNat / 4 ^ b % 4 ≠ 3) ∧ w0.ctx.loops = [] ∧
    (we { e0 with s := [(2, 513 * 2 ^ 18)] }).srcS (.s 2) 2 false = .ok (513 * 2 ^ 18) ∧ 512 < (513 * 2 ^ 18 : Word).toNat / 2 ^ 9 % 512 + (513 * 2 ^ 18 : Word).toNat / 2 ^ 18 % 1024 ∧
    (512 * 2 ^ 18 : Word).toNat / 2 ^ 9 % 512 + (512 * 2 ^ 18 : Word).toNat / 2 ^ 18 % 1024 ≤ 512 := by decide +kernel
/-- Cluster 0 with cluster 1 of its die, halted, beside it, and the start of a good context image in memory. -/
def w01 : State := { w0 with clusters := [(0, k0), (1, { Cluster.reset with byHalt := true })], mem := [(0, 0x43), (1, 0x58), (2, 0x54), (3, 0x43), (4, 1)] }
/-- A cluster in the group its task names. -/
def wg : State := { on 0 { k0 with task := some (recByte 0x16 1) } with groups := [(0, { mask := 3, phase := 0, arrived := 0, marks := 0 })] }
/-- Cluster 0 with engine 1 trapped, in the trap handler's context. -/
def wh : State := { on 0 { k0 with ctx := [(1, { e0 with run := .trapped, tpc := 8 }), (6, { e0 with hnd := some { slot := none, eng := some 1, asid := 0, still := true } })] } with cur := (0, 6) }

/-- ControlWords: FORK, and ForkStarts. -/
theorem wit_cword_fork : (∃ u, CWord w0 (.fork { cw with cf := 1 }) u) ∧ w0.ctx.run = .running ∧ Straight w0 3 ∧ w0.inArrival = false ∧ (1 : Nat) ≠ w0.cur.2 :=
  ⟨⟨_, .fork _ rfl (by decide) (Or.inl rfl)⟩, rfl, w0_straight, rfl, by decide⟩
theorem wit_cword_rdv : (∃ u, CWord w0 (.rdv aw) u) ∧ w0.ctx.run = .running ∧ Straight w0 3 := ⟨⟨_, .rdv _ rfl (by decide +kernel)⟩, rfl, w0_straight⟩
theorem wit_cword_qcfg : (∃ u, CWord w0 (.qcfg { aw with dst := .q false 1, imm := 0x23 }) u) ∧ w0.ctx.run = .running ∧ Straight w0 3 :=
  ⟨⟨_, .qcfg _ 1 rfl rfl (by decide) (by decide +kernel)⟩, rfl, w0_straight⟩
theorem wit_cword_tsig : (∃ u, CWord w0 (.tsig { aw with dst := .p 1, sa := .s 2 }) u) ∧ w0.ctx.run = .running ∧ Straight w0 3 := ⟨⟨_, .tsig _ 0 rfl⟩, rfl, w0_straight⟩
theorem wit_cword_gbar : (∃ u, CWord wg (.gbar { aw with dst := .s 5 }) u) ∧ wg.ctx.run = .running ∧ Straight wg 3 :=
  ⟨⟨_, .gbar _ 0 (by decide +kernel) (by decide +kernel) (by decide +kernel)⟩, by decide +kernel,
    by decide +kernel, by decide +kernel, by decide +kernel, by decide +kernel⟩
theorem wit_cword_gwait : (∃ u, CWord { wg with clusters := [(0, { k0 with task := some (recByte 0x16 1), ctx := [(0, { e0 with s := [(2, 7)] })] })] } (.gwait { aw with sa := .s 2 }) u) :=
  ⟨_, .gwait _ 7 0 (by decide +kernel) (by decide +kernel) (by decide +kernel)⟩
theorem wit_cword_prog : (∃ u, CWord w0 (.prog { aw with imm := 9 }) u) ∧ (∃ u, CWord w0 (.prog { aw with sa := .s 2 }) u) ∧ w0.ctx.run = .running ∧ Straight w0 3 :=
  ⟨⟨_, .progI _ rfl⟩, ⟨_, .progS _ 0 (by decide) rfl⟩, rfl, w0_straight⟩
theorem wit_cword_wrel : (∃ u, CWord wt (.wrel aw) u) ∧ wt.ctx.run = .running ∧ Straight wt 3 := ⟨⟨_, .wrel _ rfl (by decide +kernel)⟩, rfl, w0_straight⟩
theorem wit_cword_tret : (∃ u, CWord wh (.tret { aw with imm := 1 }) u) ∧ (∃ u, CWord wh (.tretSkip { aw with imm := 1 }) u) ∧ wh.ctx.run = .running :=
  ⟨⟨_, .tret _ (by decide +kernel)⟩, ⟨_, .tretSkip _ ((wh.resumeSkip 0 1).get (by decide +kernel)) (by decide +kernel) (Option.some_get _).symm⟩, by decide +kernel⟩
theorem wit_cword_halt : (∃ u, CWord w0 (.halt { aw with imm := 1 }) u) ∧ (∃ u, CWord w0 (.haltGo { aw with imm := 31 }) u) ∧ w0.ctx.run = .running ∧ Straight w0 3 :=
  ⟨⟨_, .halt _ (by decide +kernel) (by decide) (by decide)⟩, ⟨_, .haltGo _ (by decide +kernel) (by decide) (by decide)⟩, rfl, w0_straight⟩
/-- A check that succeeds with a value of which p holds. -/
theorem ok_with {α : Type} (x : Chk α) (p : α → Bool) (h : (match x with | .ok v => p v | .error _ => false) = true) : ∃ v, x = .ok v ∧ p v = true := by
  cases x with
  | ok v => exact ⟨v, rfl, h⟩
  | error e => exact absurd h (by simp)
theorem wit_cword_ctxsave : (∃ u, CWord w01 (.ctxsave { aw with sa := .s 2, imm := 1 }) u) ∧ w01.ctx.run = .running ∧ Straight w01 3 := by
  obtain ⟨ps, h, _⟩ := ok_with (w01.imagePlaces ((w01.cl 1).savedPieces 0) true) (fun _ => true) (by decide +kernel)
  exact ⟨⟨_, .ctxsave _ 1 0 ps (by decide +kernel) (by decide +kernel) rfl rfl rfl h (by decide +kernel)⟩, rfl, w0_straight⟩
theorem wit_cword_ctxload : (∃ u, CWord w01 (.ctxload { aw with sa := .s 2, imm := 1 }) u) ∧ w01.ctx.run = .running ∧ Straight w01 3 := by
  obtain ⟨ps, h, g⟩ := ok_with (w01.imagePlaces (imagePieces 0) false)
    (fun ps => imageOk (isRing 1) (w01.takeImage ps) && decide (∀ p ∈ ps, w01.readHeld 0 p.pa p.len = false)) (by decide +kernel)
  rw [Bool.and_eq_true, decide_eq_true_eq] at g
  exact ⟨⟨_, .ctxload _ 1 0 ps (by decide +kernel) (by decide +kernel) rfl rfl rfl h g.2 g.1 (by decide +kernel) (by decide +kernel)⟩, rfl, w0_straight⟩
/-- ControlWords: LTTW of an entry whose ASID no task of the die has, and of one that a task has. -/
def lttWord : AForm := { aw with dst := .p 1, sa := .s 2, sb := .s 3, sc := .s 4 }
theorem wit_cword_lttw : (∃ u, CWord w0 (.lttw lttWord) u) ∧ w0.ctx.run = .running ∧ Straight w0 3 :=
  ⟨⟨_, .lttwIn _ 0 0 0 (by decide +kernel) rfl rfl rfl (by decide) (by decide +kernel) (by decide +kernel)⟩, rfl, w0_straight⟩
theorem wit_cword_lttw_busy : ∃ u, CWord { we { e0 with s := [(4, 2 ^ 55)] } with dists := [(0, { Dist.reset with tasks := [t0 (recByte 0x17 1) 1] })] } (.lttw lttWord) u :=
  ⟨_, .lttwBusy _ 0 0 (2 ^ 55) (by decide +kernel) rfl rfl rfl (by decide) (Or.inr (by decide +kernel))⟩
/-- ControlWords: ATTR.set of a page of memory; ATTR.clr without its clear bit; AttributeClear. -/
def wa : State := we { e0 with s := [(3, 4096)] }
theorem wit_cword_attr : (∃ u, CWord wa (.attrSet { a3 with imm := 1 }) u) ∧ (∃ u, CWord wa (.attrClr a3) u) ∧ wa.ctx.run = .running ∧ Straight wa 3 :=
  ⟨⟨_, .attrSet _ 0 4096 [0] (by decide +kernel) rfl rfl rfl (by decide +kernel) (by decide) (by decide +kernel) (by decide +kernel)⟩,
   ⟨_, .attrClrNone _ 0 4096 [0] (by decide +kernel) rfl rfl rfl (by decide +kernel) (by decide)⟩, rfl, w0_straight⟩
theorem wit_attribute_clear : wa.me.asid wa.cur.2 = 0 ∧ wa.srcS a3.sa 2 (ftBit a3 2) = .ok 0 ∧ wa.srcS a3.sb 3 (ftBit a3 3) = .ok 4096 ∧ wa.dstS a3.dst = .ok () ∧
    wa.attrRange 0 4096 = .ok [0] ∧ [0] ≠ ([] : List Nat) ∧ ({ a3 with imm := 1 } : AForm).imm.getLsbD 0 = true := by decide +kernel
/-- AttributeGrant: the module is number 1, so the page that address 0 names lies in module 0. -/
def wfar : State := { wa with hub := { wa.hub with modNo := 1, gwroute := [(0, 8)] } }
theorem wit_attribute_grant : wfar.me.asid wfar.cur.2 = 0 ∧ wfar.srcS a3.sa 2 (ftBit a3 2) = .ok 0 ∧ wfar.srcS a3.sb 3 (ftBit a3 3) = .ok 4096 ∧ wfar.dstS a3.dst = .ok () ∧
    wfar.attrRange 0 4096 = .ok [0] ∧ ({ a3 with imm := 1 } : AForm).imm.getLsbD 0 = true ∧ wfar.writePending [0] = false ∧ 0 ∈ [0] ∧ wfar.isFar (0 * 4096) = true := by decide +kernel
/-- SystemTasksOnly: a task of ASID 1, and an arrival handler. -/
theorem wit_system_only : (on 0 { k0 with task := some (recByte 0x17 1) }).me.asid 0 ≠ 0 ∧ (k0.cx 0).hnd = none ∧
    (we { e0 with hnd := some { slot := some 1, eng := none, asid := 0, still := false } }).inArrival = true := by decide +kernel
/-- TaskSpawn: a record at address 0 after nothing that it waits for. -/
def f0 : FenceRec := { kind := 4, scope := 3, mask := 7, cyc := 0, id := 0, expired := false }
theorem wit_task_spawn : (we { e0 with phase := .fence f0 }).srcS (.s 2) 2 false = .ok 0 ∧ (we { e0 with phase := .fence f0 }).fenceOpen 0 3 f0 = false ∧
    (we { e0 with phase := .fence f0 }).vaHeld 0 0 0 128 = false ∧ ((we e0).readNow 0 0 0 128).toOption.isSome = true ∧ w0.me.asid 0 = 0 ∧ (on 0 { k0 with task := some (recByte 0x17 1) }).me.asid 0 ≠ 0 ∧
    recAsid 0 ≠ (on 0 { k0 with task := some (recByte 0x17 1) }).me.asid 0 := by decide +kernel
/-- PublishRecord: a good record, and a full Distributor. -/
theorem wit_publish : (w0.dist 0).tasks.length < Config.maxTasks ∧ w0.recOk 0 (recByte 0x78 0xFF ||| recByte 0x79 0xFF) = true ∧
    Config.maxTasks ≤ (({ w0 with dists := [(0, { Dist.reset with tasks := List.replicate 512 (t0 0 0) })] } : State).dist 0).tasks.length := by decide +kernel
/-- TaskYield: a waiting task of the same class, and none. -/
def ty : State := { wt with dists := [(0, { Dist.reset with tasks := [t0 0 0, { t0 (recByte 0x78 0xFF ||| recByte 0x79 0xFF ||| recByte 0 1) 0 with ready := some (0, 0), place := .waiting }] })] }
theorem wit_task_yield : ty.inArrival = false ∧ ty.me.allArrived = true ∧ ty.cur.2 = 0 ∧ ty.taskOn 0 = some (t0 0 0) ∧ ty.yieldsTo 0 (t0 0 0) = true ∧
    (ty.freeShadow 0).isSome = true ∧ wt.taskOn 0 = some (t0 0 0) ∧ wt.yieldsTo 0 (t0 0 0) = false := by decide +kernel
/-- BankWord: a good word, and state 3; a run that ends at bank 31 and one that passes it. -/
theorem wit_bank_word : (0 : BitVec 24).toNat / 1024 % 4 ≠ 3 ∧ (31 : BitVec 24).toNat % 32 + (31 : BitVec 24).toNat / 32 % 32 + 1 ≤ 32 ∧
    (∀ b, b < 32 → bankState w0.me.bankctl b ≠ 3) ∧ (0xC00 : BitVec 24).toNat / 1024 % 4 = 3 ∧
    32 < (0x3F : BitVec 24).toNat % 32 + (0x3F : BitVec 24).toNat / 32 % 32 + 1 := by decide +kernel
/-! ### Transfers -/

/-- A check that succeeds has a value. -/
theorem ok_is {α : Type} (x : Chk α) (h : x.toOption.isSome = true) : ∃ v, x = .ok v := by
  cases x with
  | ok v => exact ⟨v, rfl⟩
  | error e => exact absurd h (by simp [Except.toOption])
/-- Some transfer can be made. -/
def Makes (s : State) (i : Instr) : Prop := ∃ accs grp dests qid srcs, Transfer s i accs grp dests qid srcs
/-- The parts of n bytes at address 0, read or written. -/
def parts (wr : Bool) (n : Nat) : List (Piece × Bool) := flagParts wr (granuleParts 0 0 n)

/-- Transfers: each word, from and to address 0, its index vector zero, its k and v registers of any value. -/
theorem wit_ld : Makes w0 (.ld { a3 with ty := .i32 }) := by
  obtain ⟨_, h⟩ := ok_is (w0.reach (parts false 4) none) (by decide +kernel)
  exact ⟨_, _, _, _, _, .ld _ 0 _ rfl rfl (by decide) (by decide) h⟩
theorem wit_lda : Makes w0 (.lda { a3 with ty := .i64, md := 5 }) := by
  obtain ⟨_, h⟩ := ok_is (w0.reach (parts false 8) none) (by decide +kernel)
  exact ⟨_, _, _, _, _, .lda _ 0 _ rfl rfl (by decide) (by decide) h⟩
theorem wit_st : Makes w0 (.st { a3 with ty := .i8 }) := by
  obtain ⟨_, h⟩ := ok_is (w0.reach (parts true 1) none) (by decide +kernel)
  exact ⟨_, _, _, _, _, .st _ 0 0 _ rfl rfl (by decide) (by decide) h⟩
theorem wit_stl : Makes w0 (.stl { a3 with ty := .i16, md := 3 }) := by
  obtain ⟨_, h⟩ := ok_is (w0.reach (parts true 2) none) (by decide +kernel)
  exact ⟨_, _, _, _, _, .stl _ 0 0 _ rfl rfl (by decide) (by decide) h⟩
/-- A vector transfer word: v5, base s2, s3 and no mask. -/
def x3 : AForm := { aw with dst := .v 5, sa := .s 2, sb := .v 3 }
theorem wit_vld : Makes w0 (.vld x3) := by
  obtain ⟨_, h⟩ := ok_is (w0.reach (flagParts false (laneParts (BitVec.allOnes 256) 0)) none) (by decide +kernel)
  exact ⟨_, _, _, _, _, .vld _ 0 (BitVec.allOnes 256) (.v 5) _ rfl rfl (by decide +kernel) (by decide) (by decide) h⟩
theorem wit_vst : Makes w0 (.vst x3) := by
  obtain ⟨_, h⟩ := ok_is (w0.reach (flagParts true (laneParts (BitVec.allOnes 256) 0)) none) (by decide +kernel)
  exact ⟨_, _, _, _, _, .vst _ 0 0 (BitVec.allOnes 256) _ rfl (by decide +kernel) rfl (by decide) (by decide) h⟩
theorem wit_ldq : Makes w0 (.ldq { aw with dst := .v 5, sa := .s 2, sb := .k 7, sc := .s 3 }) := by
  obtain ⟨⟨_, _⟩, h⟩ := ok_is (w0.twoStreams 0 0 false) (by decide +kernel)
  exact ⟨_, _, _, _, _, .ldqV _ 0 0 5 _ _ rfl rfl (by decide +kernel) rfl h⟩
/-- A queue register that this engine fills for itself and for the S engine. -/
def wq : State := on 0 { k0 with q := [(1, { cfg := some (0, 4), ents := [] }), (2, { cfg := some (4, 0), ents := [{ data := 1, sb := 0, sbv := true, bind := none, mark := none, resv := none }] })] }
theorem wit_ldq_queue : Makes wq (.ldq { aw with dst := .q false 1, sa := .s 2, sb := .k 7, sc := .s 3 }) := by
  obtain ⟨⟨_, _⟩, h⟩ := ok_is (wq.twoStreams 0 0 false) (by decide +kernel)
  exact ⟨_, _, _, _, _, .ldqQ _ 0 0 false 1 _ _ rfl rfl (by decide +kernel) rfl h⟩
/-- v3 bound to k0. -/
def wb : State := on 0 { k0 with bind := [(3, { kix := 0, gen := 0 })] }
theorem wit_stq : Makes wb (.stq { aw with sa := .s 2, sb := .v 3, sc := .s 3 }) := by
  obtain ⟨⟨_, _⟩, h⟩ := ok_is (wb.twoStreams 0 0 true) (by decide +kernel)
  exact ⟨_, _, _, _, _, .stq _ 0 0 0 0 _ _ rfl (by decide +kernel) rfl h⟩
theorem wit_kld : Makes w0 (.kld { aw with dst := .k 5, sa := .s 2 }) := by
  obtain ⟨_, h⟩ := ok_is (w0.reach (parts false 16) none) (by decide +kernel)
  exact ⟨_, _, _, _, _, .kld _ 0 _ rfl rfl (by decide) (by decide) h⟩
theorem wit_kst : Makes w0 (.kst { aw with sa := .s 2, sb := .k 5 }) := by
  obtain ⟨_, h⟩ := ok_is (w0.reach (parts true 16) none) (by decide +kernel)
  exact ⟨_, _, _, _, _, .kst _ 0 0 _ rfl rfl (by decide) (by decide) h⟩
theorem wit_gath : Makes w0 (.gath { x3 with ty := .i32, imm := 1 }) ∧ Makes w0 (.gath { x3 with ty := .i32, imm := 1, sc := .vm 2 }) := by
  obtain ⟨_, h⟩ := ok_is (w0.reach (flagParts false (indexParts 0 0 1 4)) none) (by decide +kernel)
  exact ⟨⟨_, _, _, _, _, .gath _ 0 0 (.v 5) _ rfl (by decide +kernel) (by decide +kernel) rfl (by decide) h⟩,
    _, _, _, _, _, .gathMask _ 0 0 (.v 5) 2 _ rfl (by decide +kernel) (by decide +kernel) rfl rfl (by decide) h⟩
theorem wit_scat : Makes w0 (.scat { x3 with ty := .i32, imm := 1, sc := .v 4 }) := by
  obtain ⟨_, h⟩ := ok_is (w0.reach (flagParts true (indexParts 0 0 1 4)) none) (by decide +kernel)
  exact ⟨_, _, _, _, _, .scat _ 0 0 0 _ rfl (by decide +kernel) (by decide +kernel) (by decide) h⟩
/-- s4 holds a length of 64. -/
def w4 : State := we { e0 with s := [(4, 64)] }
theorem wit_copy : Makes w4 (.copy { a3 with sc := .s 4 }) ∧ (∃ u, AtOnce w0 (.copy { a3 with sc := .s 4 }) u) := by
  obtain ⟨_, h⟩ := ok_is (w4.reach (mergeParts 2 (parts true 64) (flagParts false (granuleParts (2 ^ 40) 0 64))) none) (by decide +kernel)
  exact ⟨⟨_, _, _, _, _, .copy _ 0 0 64 _ rfl rfl rfl (by decide) (by decide) (by decide) (by decide) (by decide) h⟩,
    _, .copyNone _ 0 0 rfl rfl rfl (by decide) (by decide)⟩
theorem wit_fill : Makes w4 (.fill { a3 with sc := .s 4 }) ∧ (∃ u, AtOnce w0 (.fill { a3 with sc := .s 4 }) u) := by
  obtain ⟨_, h⟩ := ok_is (w4.reach (parts true 64) none) (by decide +kernel)
  exact ⟨⟨_, _, _, _, _, .fill _ 0 0 64 _ rfl rfl rfl (by decide) (by decide) (by decide) (by decide) h⟩, _, .fillNone _ 0 0 rfl rfl rfl (by decide)⟩
theorem wit_atom : Makes w0 (.atom { a3 with ty := .i64 }) := by
  obtain ⟨_, h⟩ := ok_is (w0.reach (parts true 8) (some (1, 0))) (by decide +kernel)
  exact ⟨_, _, _, _, _, .atom _ 0 0 0 _ rfl rfl rfl rfl (by decide) h⟩
theorem wit_mcst : Makes wg (.mcst { aw with sa := .s 2, sb := .s 3 }) ∧ Makes wg (.mcst { aw with sa := .s 2, sb := .v 3 }) :=
  ⟨⟨_, _, _, _, _, .mcstS _ 0 0 0 (by decide +kernel) ⟨3, rfl⟩ (by decide +kernel) (by decide +kernel) (by decide) (by decide) (by decide +kernel)⟩,
   _, _, _, _, _, .mcstV _ 0 0 0 (by decide +kernel) (by simp) (by decide +kernel) (by decide +kernel) (by decide) (by decide) (by decide +kernel)⟩
theorem wit_redst : Makes w0 (.redst { x3 with ty := .f32 }) := by
  obtain ⟨_, h⟩ := ok_is (w0.reach (flagParts true (redParts .f32 (BitVec.allOnes 256) 0)) (some (4, 0))) (by decide +kernel)
  exact ⟨_, _, _, _, _, .redst _ 0 0 (BitVec.allOnes 256) _ rfl (by decide +kernel) rfl (by decide) (by decide) h⟩
theorem wit_redst_group : Makes wg (.redst { x3 with ty := .f32, imm := 256 }) :=
  ⟨_, _, _, _, _, .redstGroup _ 0 0 (BitVec.allOnes 256) 0 (by decide +kernel) (by decide +kernel) rfl (by decide) (by decide +kernel) (by decide) (by decide) (by decide +kernel)⟩
theorem wit_qpush : Makes w0 (.qpush { aw with dst := .p 1, sa := .s 2, sb := .s 3 }) ∧ Makes w0 (.qpush { aw with dst := .p 1, sa := .s 2, sb := .v 3 }) := by
  obtain ⟨_, h⟩ := ok_is (w0.reach (parts true 64) none) (by decide +kernel)
  exact ⟨⟨_, _, _, _, _, .qpushS _ 0 0 _ rfl ⟨3, rfl⟩ rfl (by decide) h⟩, _, _, _, _, _, .qpushV _ 0 0 _ rfl (by simp) (by decide +kernel) (by decide) h⟩
theorem wit_qpop : Makes w0 (.qpop { aw with dst := .s 5, sa := .s 2, imm := 1 }) ∧ Makes w0 (.qpop { aw with dst := .v 5, sa := .s 2, imm := 1 }) := by
  obtain ⟨_, h⟩ := ok_is (w0.reach (parts true 64) none) (by decide +kernel)
  exact ⟨⟨_, _, _, _, _, .qpopS _ 0 5 _ rfl rfl rfl (by decide) h⟩, _, _, _, _, _, .qpopV _ 0 (.v 5) _ rfl (by simp) (by decide +kernel) (by decide) h⟩
theorem wit_msgsend : Makes w4 (.msgsend { aw with dst := .p 1, sa := .s 2, sb := .s 4, sc := .s 3 }) := by
  obtain ⟨_, h⟩ := ok_is (w4.reach (parts false 64) none) (by decide +kernel)
  exact ⟨_, _, _, _, _, .msgsend _ 0 64 0 _ rfl rfl rfl (by decide) (by decide) (by decide) (by decide) (by decide) (by decide +kernel) (by decide) h⟩
/-- Fences: one that nothing it covers holds, of each kind; TransfersAtOnce. -/
def wf : State := we { e0 with phase := .fence { f0 with kind := 1, mask := 0 } }
theorem wf_straight : Straight wf 3 := ⟨rfl, by decide, by decide, by decide⟩
theorem wit_fence_acq : (∃ u, AtOnce wf (.fenceAcq { aw with dst := .s 5 }) u) ∧ Straight wf 3 := ⟨⟨_, .fenceAcq _ { f0 with kind := 1, mask := 0 } rfl rfl (by decide +kernel)⟩, wf_straight⟩
theorem wit_fence_rel : (∃ u, AtOnce wf (.fenceRel { aw with dst := .s 5 }) u) ∧ Straight wf 3 := ⟨⟨_, .fenceRel _ { f0 with kind := 1, mask := 0 } rfl rfl (by decide +kernel)⟩, wf_straight⟩
theorem wit_fence_ar : (∃ u, AtOnce wf (.fenceAr { aw with dst := .s 5 }) u) ∧ Straight wf 3 := ⟨⟨_, .fenceAr _ { f0 with kind := 1, mask := 0 } rfl rfl (by decide +kernel)⟩, wf_straight⟩
theorem wit_fence_sc : (∃ u, AtOnce wf (.fenceSc { aw with dst := .s 5 }) u) ∧ Straight wf 3 := ⟨⟨_, .fenceSc _ { f0 with kind := 1, mask := 0 } rfl rfl (by decide +kernel)⟩, wf_straight⟩
/-- TransfersAtOnce: a fence of each kind that is first issued when nothing is open. -/
theorem wit_fence_now : ∀ e ∈ [(0, Instr.fenceAcq { aw with dst := .s 5 }), (1, .fenceRel { aw with dst := .s 5 }), (2, .fenceAr { aw with dst := .s 5 }), (3, .fenceSc { aw with dst := .s 5 })],
    ∃ u, AtOnce w0 e.2 u := by
  intro e h
  refine ⟨_, .fenceNow { aw with dst := .s 5 } e.1 e.2 h rfl rfl ?_⟩
  revert e; decide +kernel
theorem wit_qfence : (∃ u, AtOnce w0 (.qfence { aw with imm := 7 }) u) ∧ Straight w0 3 := ⟨⟨_, .qfence _⟩, w0_straight⟩
theorem wit_pref : (∃ u, AtOnce w4 (.pref { aw with sa := .s 2, sb := .s 4 }) u) ∧
    (∃ u, AtOnce (we { e0 with sHold := [(2, .mark 8 1 255)] }) (.pref { aw with sa := .s 2, sb := .s 4 }) u) ∧ Straight w4 3 :=
  ⟨⟨_, .pref _ 0 64 rfl rfl⟩, ⟨_, .prefDropped _ _ rfl ⟨0, rfl⟩⟩, rfl, by decide, by decide, by decide⟩
/-- A store of one byte to address 0 of LPDDR6 in the queue of the C engine, not performed. -/
def st0 : Access := { id := 0, x := 0, que := queOf 0, sec := 0, cyc := 0, op := .store [1], va := 0, pieces := [{ off := 0, va := 0, pa := 0, len := 1 }], scope := 0
                      acq := false, rel := false, asid := 0, data := [], err := none, fail := none, vis := none, first := none, landed := false }
/-- FencesWait: a store is open. -/
def wo : State := { on 0 { k0 with mq := [st0] } with seq := 1 }
theorem wit_fences_wait : wo.dstS (.s 5) = .ok () ∧ wo.ctx.phase = .body ∧
    ({ wo with seq := wo.seq + 1 } : State).fenceOpen wo.cur.1 (queOf wo.cur.2) (fenceFrom wo { aw with dst := .s 5, imm := 0x3F, md := 3 } 1) = true := by decide +kernel
/-- FencesWait and FencesAnswer: the fence is issued again while the store is open, and when it is not. -/
def wre : State := { on 0 { k0 with mq := [st0], ctx := [(0, { e0 with phase := .fence { f0 with kind := 1, id := 1 } })] } with seq := 1 }
theorem wit_fences_again : fenceWord { aw with dst := .s 5 } (.fenceRel { aw with dst := .s 5 }) 1 ∧ wre.dstS (.s 5) = .ok () ∧
    wre.ctx.phase = .fence { f0 with kind := 1, id := 1 } ∧ wre.fenceOpen wre.cur.1 (queOf wre.cur.2) { f0 with kind := 1, id := 1 } = true ∧
    wf.dstS (.s 5) = .ok () ∧ wf.ctx.phase = .fence { f0 with kind := 1, mask := 0 } ∧
    wf.fenceOpen wf.cur.1 (queOf wf.cur.2) { f0 with kind := 1, mask := 0 } = false := by unfold fenceWord; decide +kernel
/-- s2, s3 and s4 hold some values. -/
def sAt (a b n : Word) : State := we { e0 with s := [(2, a), (3, b), (4, n)] }
/-- A transfer with a bad address. -/
def Bad (s : State) (i : Instr) : Prop := ∃ c o a, BadAddress s i c o a
/-- BadAddresses: each way for an address to be bad. -/
theorem wit_bad_ea : OffEa (2 ^ 56) 4 .unmapped ∧ OffEa 2 4 .misalign ∧ OffStreams (2 ^ 56) 8 .unmapped (2 ^ 56) ∧ OffStreams 8 8 .misalign 8 ∧
    OffStreams 8 0 .misalign 8 ∧ OffStreams 16 8 .misalign 8 ∧ OffStreams 0 8 .misalign 8 ∧ OffGroup 4 8 [] .misalign 4 :=
  ⟨.long (by decide), .skew (by decide) (by decide), .long (by decide), .data (by decide) (by decide) (by decide), .data (by decide) (by decide) (by decide),
   .scale (by decide) (by decide) (by decide), .scale (by decide) (by decide) (by decide), .skew (by decide)⟩
/-- A check that fails has an answer. -/
theorem err_is {ε α : Type} (x : Except ε α) (h : x.toOption.isSome = false) : ∃ e, x = .error e := by
  cases x with
  | ok v => exact absurd h (by simp [Except.toOption])
  | error e => exact ⟨e, rfl⟩
/-- BadAddresses: the end of an SRAM, and a part that the LTT does not map. -/
theorem wit_bad_parts : (∃ a, OffGroup (2 ^ 22) 8 (granuleParts 0 (2 ^ 22) 8) .unmapped a) ∧ OffParts w0 1 4 [] .misalign 1 ∧
    (∃ a, OffParts w0 (2 ^ 40) 8 (parts true 8 |>.map fun p => ({ p.1 with va := 2 ^ 40 }, p.2)) .unmapped a) ∧
    2 ^ 56 ≤ ({ off := 0, va := 2 ^ 56, pa := 0, len := 1 } : Piece).va := by
  obtain ⟨va, h⟩ := err_is (w0.placeAll w0.cur.1 (w0.me.asid w0.cur.2) (parts true 8 |>.map fun p => ({ p.1 with va := 2 ^ 40 }, p.2))) (by decide +kernel)
  exact ⟨⟨_, .beyond _ (by decide) rfl⟩, .skew (by decide), ⟨_, .unmapped va (by decide) h⟩, by decide⟩
theorem wit_bad_vectors : Bad (sAt 1 0 0) (.vld x3) ∧ Bad (sAt 1 0 0) (.vst x3) ∧ Bad (sAt 1 0 0) (.kld { aw with dst := .k 5, sa := .s 2 }) ∧
    Bad (sAt 1 0 0) (.kst { aw with sa := .s 2, sb := .k 5 }) ∧ Bad (sAt 1 0 0) (.ldq { aw with dst := .v 5, sa := .s 2, sb := .k 7, sc := .s 3 }) ∧
    Bad (on 0 { wb.me with ctx := [(0, { e0 with s := [(2, 1)] })] }) (.stq { aw with sa := .s 2, sb := .v 3, sc := .s 3 }) :=
  ⟨⟨_, _, _, .vld _ 1 (BitVec.allOnes 256) (.v 5) _ rfl rfl (by decide +kernel) (.skew (by decide) (by decide))⟩,
   ⟨_, _, _, .vst _ 1 0 (BitVec.allOnes 256) _ rfl (by decide +kernel) rfl (.skew (by decide) (by decide))⟩,
   ⟨_, _, _, .kld _ 1 _ rfl rfl (.skew (by decide) (by decide))⟩, ⟨_, _, _, .kst _ 1 0 _ rfl rfl (.skew (by decide) (by decide))⟩,
   ⟨_, _, _, .ldq _ 1 0 (.v 5) _ _ rfl rfl (by decide +kernel) rfl (.data (by decide) (by decide) (by decide))⟩,
   ⟨_, _, _, .stq _ 1 (0, 0) 0 _ _ rfl (by decide +kernel) rfl (.data (by decide) (by decide) (by decide))⟩⟩
/-- BadAddresses: the words with an offset, at an address that the LTT does not map. -/
def sFar : State := sAt (2 ^ 40) (2 ^ 40) 0
theorem wit_bad_scalars : Bad sFar (.ld { a3 with ty := .i32 }) ∧ Bad sFar (.lda { a3 with ty := .i64, md := 5 }) ∧ Bad sFar (.st { a3 with ty := .i8 }) ∧
    Bad sFar (.stl { a3 with ty := .i16, md := 3 }) := by
  obtain ⟨a, h⟩ := err_is (sFar.placeAll sFar.cur.1 (sFar.me.asid sFar.cur.2) (flagParts false (granuleParts 0 (eaOf (2 ^ 40) 0).toNat 4))) (by decide +kernel)
  obtain ⟨b, g⟩ := err_is (sFar.placeAll sFar.cur.1 (sFar.me.asid sFar.cur.2) (flagParts false (granuleParts 0 (eaOf (2 ^ 40) 0).toNat 8))) (by decide +kernel)
  obtain ⟨c, i⟩ := err_is (sFar.placeAll sFar.cur.1 (sFar.me.asid sFar.cur.2) (flagParts true (granuleParts 0 (eaOf (2 ^ 40) 0).toNat 1))) (by decide +kernel)
  obtain ⟨d, j⟩ := err_is (sFar.placeAll sFar.cur.1 (sFar.me.asid sFar.cur.2) (flagParts true (granuleParts 0 (eaOf (2 ^ 40) 0).toNat 2))) (by decide +kernel)
  exact ⟨⟨_, _, _, .ldPart _ (2 ^ 40) a rfl rfl (by decide) (by decide) h⟩, ⟨_, _, _, .ldaPart _ (2 ^ 40) b rfl rfl (by decide) (by decide) g⟩,
    ⟨_, _, _, .stPart _ (2 ^ 40) (2 ^ 40) c rfl rfl (by decide) (by decide) i⟩, ⟨_, _, _, .stlPart _ (2 ^ 40) (2 ^ 40) d rfl rfl (by decide) (by decide) j⟩⟩
theorem wit_bad_lanes : Bad sFar (.vld x3) ∧ Bad sFar (.vst x3) ∧ Bad sFar (.kld { aw with dst := .k 5, sa := .s 2 }) ∧ Bad sFar (.kst { aw with sa := .s 2, sb := .k 5 }) := by
  obtain ⟨a, h⟩ := err_is (sFar.placeAll sFar.cur.1 (sFar.me.asid sFar.cur.2) (flagParts false (laneParts (BitVec.allOnes 256) (eaOf (2 ^ 40) 0).toNat))) (by decide +kernel)
  obtain ⟨b, g⟩ := err_is (sFar.placeAll sFar.cur.1 (sFar.me.asid sFar.cur.2) (flagParts true (laneParts (BitVec.allOnes 256) (eaOf (2 ^ 40) 0).toNat))) (by decide +kernel)
  obtain ⟨c, i⟩ := err_is (sFar.placeAll sFar.cur.1 (sFar.me.asid sFar.cur.2) (flagParts false (granuleParts 0 (eaOf (2 ^ 40) 0).toNat 16))) (by decide +kernel)
  obtain ⟨d, j⟩ := err_is (sFar.placeAll sFar.cur.1 (sFar.me.asid sFar.cur.2) (flagParts true (granuleParts 0 (eaOf (2 ^ 40) 0).toNat 16))) (by decide +kernel)
  exact ⟨⟨_, _, _, .vldPart _ (2 ^ 40) (BitVec.allOnes 256) (.v 5) a rfl rfl (by decide +kernel) (by decide) (by decide) h⟩,
    ⟨_, _, _, .vstPart _ (2 ^ 40) 0 (BitVec.allOnes 256) b rfl (by decide +kernel) rfl (by decide) (by decide) g⟩,
    ⟨_, _, _, .kldPart _ (2 ^ 40) c rfl rfl (by decide) (by decide) i⟩, ⟨_, _, _, .kstPart _ (2 ^ 40) 0 d rfl rfl (by decide) (by decide) j⟩⟩
def sFarB : State := on 0 { wb.me with ctx := [(0, { e0 with s := [(2, 2 ^ 40), (3, 2 ^ 40)] })] }
theorem wit_bad_streams : Bad sFar (.ldq { aw with dst := .v 5, sa := .s 2, sb := .k 7, sc := .s 3 }) ∧ Bad sFarB (.stq { aw with sa := .s 2, sb := .v 3, sc := .s 3 }) := by
  obtain ⟨a, h⟩ := err_is (sFar.placeAll sFar.cur.1 (sFar.me.asid sFar.cur.2) (mergeParts 8 (flagParts false (granuleParts 0 (eaOf (2 ^ 40) 0).toNat 256))
    (flagParts false (granuleParts 4096 (2 ^ 40) 16)))) (by decide +kernel)
  obtain ⟨b, g⟩ := err_is (sFarB.placeAll sFarB.cur.1 (sFarB.me.asid sFarB.cur.2) (mergeParts 8 (flagParts true (granuleParts 0 (eaOf (2 ^ 40) 0).toNat 256))
    (flagParts true (granuleParts 4096 (2 ^ 40) 16)))) (by decide +kernel)
  exact ⟨⟨_, _, _, .ldqPart _ (2 ^ 40) (2 ^ 40) (.v 5) a rfl rfl (by decide +kernel) rfl (by decide) (by decide) (by decide) h⟩,
    ⟨_, _, _, .stqPart _ (2 ^ 40) (0, 0) (2 ^ 40) b rfl (by decide +kernel) rfl (by decide) (by decide) (by decide) g⟩⟩
theorem wit_bad_indexed : Bad (sAt 1 0 0) (.gath { x3 with ty := .i32, imm := 1 }) ∧ Bad (sAt 1 0 0) (.scat { x3 with ty := .i32, imm := 1, sc := .v 4 }) ∧
    Bad (sAt 1 0 0) (.atom { a3 with ty := .i64 }) ∧ Bad (sAt 1 0 0) (.redst { x3 with ty := .f32 }) :=
  ⟨⟨_, _, _, .gath _ 1 0 (.v 5) _ _ rfl (by decide +kernel) (by decide +kernel) rfl (.skew (by decide))⟩,
   ⟨_, _, _, .scat _ 1 0 0 _ _ rfl (by decide +kernel) (by decide +kernel) (.skew (by decide))⟩,
   ⟨_, _, _, .atom _ 1 0 0 _ _ rfl rfl rfl rfl (.skew (by decide))⟩,
   ⟨_, _, _, .redst _ 1 0 (BitVec.allOnes 256) _ _ rfl (by decide +kernel) rfl (by decide) (.skew (by decide))⟩⟩
theorem wit_bad_copies : Bad (sAt 1 0 64) (.copy { a3 with sc := .s 4 }) ∧ Bad (sAt 0 1 64) (.copy { a3 with sc := .s 4 }) ∧ Bad (sAt 0 0 1) (.copy { a3 with sc := .s 4 }) ∧
    Bad (sAt (2 ^ 40) 0 64) (.copy { a3 with sc := .s 4 }) ∧ Bad (sAt 1 0 64) (.fill { a3 with sc := .s 4 }) ∧ Bad (sAt 0 0 1) (.fill { a3 with sc := .s 4 }) ∧
    Bad (sAt (2 ^ 40) 0 64) (.fill { a3 with sc := .s 4 }) := by
  obtain ⟨va, h⟩ := err_is ((sAt (2 ^ 40) 0 64).placeAll (sAt (2 ^ 40) 0 64).cur.1 ((sAt (2 ^ 40) 0 64).me.asid (sAt (2 ^ 40) 0 64).cur.2)
    (mergeParts (2 * (granuleParts 0 (2 ^ 40) 64).length) (flagParts true (granuleParts 0 (2 ^ 40) 64)) (flagParts false (granuleParts (2 ^ 40) 0 64)))) (by decide +kernel)
  obtain ⟨vf, g⟩ := err_is ((sAt (2 ^ 40) 0 64).placeAll (sAt (2 ^ 40) 0 64).cur.1 ((sAt (2 ^ 40) 0 64).me.asid (sAt (2 ^ 40) 0 64).cur.2)
    (flagParts true (granuleParts 0 (2 ^ 40) 64))) (by decide +kernel)
  exact ⟨⟨_, _, _, .copyDst _ 1 0 64 rfl rfl rfl (by decide) (by decide)⟩, ⟨_, _, _, .copySrc _ 0 1 64 rfl rfl rfl (by decide) (by decide) (by decide)⟩,
   ⟨_, _, _, .copyLen _ 0 0 1 rfl rfl rfl (by decide) (by decide) (by decide) (by decide)⟩,
   ⟨_, _, _, .copyParts _ (2 ^ 40) 0 64 va rfl rfl rfl (by decide) (by decide) (by decide) (by decide) (by decide) h⟩,
   ⟨_, _, _, .fillDst _ 1 0 64 rfl rfl rfl (by decide) (by decide)⟩, ⟨_, _, _, .fillLen _ 0 0 1 rfl rfl rfl (by decide) (by decide) (by decide)⟩,
   ⟨_, _, _, .fillParts _ (2 ^ 40) 0 64 vf rfl rfl rfl (by decide) (by decide) (by decide) (by decide) g⟩⟩
/-- wg with 1 in s2. -/
def wg1 : State := { wg with clusters := [(0, { wg.me with ctx := [(0, { e0 with s := [(2, 1)] })] })] }
theorem wit_bad_groups : Bad wg1 (.redst { x3 with ty := .f32, imm := 256 }) ∧ Bad wg1 (.mcst { aw with sa := .s 2, sb := .s 3 }) ∧
    Bad wg1 (.mcst { aw with sa := .s 2, sb := .v 3 }) :=
  ⟨⟨_, _, _, .redstGroup _ 1 0 (BitVec.allOnes 256) 0 _ _ (by decide +kernel) (by decide +kernel) rfl (by decide) (by decide +kernel) (.skew (by decide))⟩,
   ⟨_, _, _, .mcstS _ 1 0 0 3 _ _ (by decide +kernel) rfl (by decide +kernel) (by decide +kernel) (.skew (by decide))⟩,
   ⟨_, _, _, .mcstV _ 1 0 0 _ _ (by decide +kernel) (by simp) (by decide +kernel) (by decide +kernel) (.skew (by decide))⟩⟩
theorem wit_bad_queues : Bad (sAt 1 0 64) (.qpush { aw with dst := .p 1, sa := .s 2, sb := .s 3 }) ∧ Bad (sAt 1 0 64) (.qpush { aw with dst := .p 1, sa := .s 2, sb := .v 3 }) ∧
    Bad (sAt 1 0 64) (.qpop { aw with dst := .s 5, sa := .s 2, imm := 1 }) ∧ Bad (sAt 1 0 64) (.qpop { aw with dst := .v 5, sa := .s 2, imm := 1 }) ∧
    Bad (sAt 1 0 64) (.msgsend { aw with dst := .p 1, sa := .s 2, sb := .s 4, sc := .s 3 }) :=
  ⟨⟨_, _, _, .qpushS _ 1 0 3 _ _ rfl rfl rfl (.skew (by decide))⟩, ⟨_, _, _, .qpushV _ 1 0 _ _ rfl (by simp) (by decide +kernel) (.skew (by decide))⟩,
   ⟨_, _, _, .qpopS _ 1 5 _ _ rfl rfl rfl (.skew (by decide))⟩, ⟨_, _, _, .qpopV _ 1 (.v 5) _ _ rfl (by simp) (by decide +kernel) (.skew (by decide))⟩,
   ⟨_, _, _, .msgsend _ 1 64 0 _ _ rfl rfl rfl (by decide) (by decide) (by decide) (by decide) (by decide) (by decide +kernel) (.skew (by decide))⟩⟩
/-- AddressTraps: an address above 56 bits, one that is not aligned, a queue descriptor that is not aligned, for the words it names. -/
theorem wit_address_traps : (we { e0 with s := [(2, 2 ^ 56)] }).srcS (.s 2) 2 false = .ok (2 ^ 56) ∧ 2 ^ 56 ≤ (eaOf (2 ^ 56) 0).toNat ∧
    (eaOf 0 1).toNat < 2 ^ 56 ∧ (eaOf 0 1).toNat % bytesOf .i32 ≠ 0 ∧ (we { e0 with s := [(2, 32)] }).srcS (.s 2) 2 false = .ok 32 ∧ (32 : Word).toNat % 64 ≠ 0 := by decide +kernel
/-! ### After the issue of a transfer -/

/-- A state whose C engine waits for the acceptance of some accesses. -/
def acc (l : List Access) : State := we { e0 with phase := .accept l false [] [] }
/-- A store of one byte to address 0 of the cluster's SRAM aperture's own memory, in LPDDR6 at address 64, which the cluster may not write. -/
def st1 : Access := { st0 with pieces := [{ off := 0, va := 64, pa := 2 ^ 42, len := 1 }] }
/-- TransfersAccepted: an access that is accepted, one to a granule whose RO bit is set, and one that its target refuses. -/
theorem wit_accepted : ((acc [st0]).cl 0 |>.cx 0).phase = .accept [st0] false [] [] ∧ (∀ a ∈ [st0], plainOp a.op = true) ∧
    (∀ a ∈ [st0, st1], ∀ p ∈ a.pieces ++ a.sources, (acc [st0]).deadPath 0 p.pa = false ∧ (acc [st0]).isFar p.pa = false) ∧
    (∀ f ∈ [([] : FarMap), [(0, .refused)], [(0, .readOnly)]], (acc [st0]).roAt [st0] f = none ∧ (acc [st0]).refusedAt 0 0 [st0] f = none) ∧
    ({ acc [st0] with ro := [(0, true)] } : State).roAt [st0] [] = some { off := 0, va := 0, pa := 0, len := 1 } ∧
    (acc [st1]).roAt [st1] [] = none ∧ (acc [st1]).refusedAt 0 0 [st1] [] = some { off := 0, va := 64, pa := 2 ^ 42, len := 1 } ∧
    ((we { e0 with phase := .accept [st0] true [] [] }).cl 0 |>.cx 0).phase = .accept [st0] true [] [] := by decide +kernel
/-- A queue of two entries of eight bytes at address 64, whose descriptor stands at address 0, with some HEAD and TAIL; an access to it. -/
def qmem (h t : Byte) : List Host.Cell := [(0, 64), (8, 8), (12, 2)] ++ (if h = 0 then [] else [(16, h)]) ++ (if t = 0 then [] else [(24, t)])
def qacc (op : MemOp) : Access := { st0 with op := op, pieces := [{ off := 0, va := 0, pa := 0, len := 64 }] }
def wQueue (op : MemOp) (h t : Byte) : State := { acc [qacc op] with mem := qmem h t }
def push1 : MemOp := .qpush 1 [9, 0, 0, 0, 0, 0, 0, 0] true
def pop1 : MemOp := .qpop 1 true 5
/-- The state after a check of some parts. -/
def slotOk (s : State) (a : Access) (d : QDesc) (push : Bool) : Bool :=
  match s.slotParts 0 a.asid d push with
  | .ok ps => ps.all fun p => !p.2.2 && !s.isRo p.1.pa && !s.isFar p.1.pa && !isCfg p.1.pa && !s.badAt p.1.pa p.1.len &&
      ((s.path ((s.target p.1.pa).getD 12) p.1.pa).all fun i => !(s.link i).dead) && s.mayAccess (masterOf 0 0) (if push then bitW else bitR) p.1.pa
  | .error _ => false
/-- MemoryQueues: at the home of a descriptor, with room and full, with an entry and empty, malformed, and of another entry size. -/
theorem at_home (op : MemOp) (h t : Byte) (push : Bool) (e : ((wQueue op h t).accessDead 0 (qacc op) = false ∧ (qacc op).fail ≠ some .deadlink) ∧
    (wQueue op h t).mayPerform 0 ((wQueue op h t).withSlot 0 (qacc op) push) = true ∧ (wQueue op h t).isFar 0 = false ∧ isCfg 0 = false ∧
    (wQueue op h t).isMem 0 = true ∧ (wQueue op h t).isRo 0 = false ∧ (wQueue op h t).badAt 0 64 = false ∧ (wQueue op h t).mayAccess (masterOf 0 0) bitA 0 = true) :
    AtHome (wQueue op h t) 0 0 (qacc op) 0 [] [] push :=
  ⟨rfl, ⟨_, rfl, rfl⟩, ⟨e.1.1, e.1.2, rfl⟩, e.2.1, ⟨rfl, e.2.2.1, e.2.2.2.1, e.2.2.2.2.1, e.2.2.2.2.2.1, e.2.2.2.2.2.2.1⟩, e.2.2.2.2.2.2.2⟩
def qd (h t : Nat) : QDesc := { base := 64, esz := 8, cap := 2, head := h, tail := t }
theorem wit_queue_push : AtHome (wQueue push1 0 0) 0 0 (qacc push1) 0 [] [] true ∧ AtHome (wQueue push1 0 2) 0 0 (qacc push1) 0 [] [] true ∧
    qdescOf ((wQueue push1 0 0).bytes 0 64) = some (qd 0 0) ∧ qdescOf ((wQueue push1 0 2).bytes 0 64) = some (qd 0 2) ∧ (qd 0 2).count = (qd 0 2).cap ∧
    (qd 0 0).count ≠ (qd 0 0).cap ∧ (1 : BitVec 3) ≠ 0 ∧ slotOk (wQueue push1 0 0) (qacc push1) (qd 0 0) true = true :=
  ⟨at_home _ _ _ _ (by decide +kernel), at_home _ _ _ _ (by decide +kernel), by decide +kernel, by decide +kernel, by decide, by decide, by decide, by decide +kernel⟩
theorem wit_queue_pop : AtHome (wQueue pop1 0 0) 0 0 (qacc pop1) 0 [] [] false ∧ AtHome (wQueue pop1 0 1) 0 0 (qacc pop1) 0 [] [] false ∧
    qdescOf ((wQueue pop1 0 1).bytes 0 64) = some (qd 0 1) ∧ (qd 0 0).count = 0 ∧ (qd 0 1).count ≠ 0 ∧ slotOk (wQueue pop1 0 1) (qacc pop1) (qd 0 1) false = true :=
  ⟨at_home _ _ _ _ (by decide +kernel), at_home _ _ _ _ (by decide +kernel), by decide +kernel, by decide, by decide, by decide +kernel⟩
theorem wit_queue_malformed : AtHome (wQueue push1 0 3) 0 0 (qacc push1) 0 [] [] true ∧ qdescOf ((wQueue push1 0 3).bytes 0 64) = none ∧
    AtHome (wQueue pop1 0 3) 0 0 (qacc pop1) 0 [] [] false ∧ ({ qd 0 1 with esz := 16 } : QDesc).esz ≠ 8 ∧
    qdescOf (({ wQueue pop1 0 1 with mem := [(0, 64), (8, 16), (12, 2), (24, 1)] } : State).bytes 0 64) = some { qd 0 1 with esz := 16 } :=
  ⟨at_home _ _ _ _ (by decide +kernel), by decide +kernel, at_home _ _ _ _ (by decide +kernel), by decide, by decide +kernel⟩
/-- An atomic of four bytes at address 0. -/
def at0 : Access := { st0 with op := .atom (some 5) 0 .i32 1 0, pieces := [{ off := 0, va := 0, pa := 0, len := 4 }] }
/-- StorePerformed, AtomicPerformed, AtomicValues. -/
theorem wit_store_performed : (wo.cl 0).access 0 = some st0 ∧ st0.op = .store [1] ∧ st0.pieces = [{ off := 0, va := 0, pa := 0, len := 1 }] ∧ st0.fail ≠ some .deadlink ∧
    wo.mayPerform 0 st0 = true ∧ wo.deadPath 0 0 = false ∧ (∀ i, i < 1 → wo.isMem (0 + i) = true) ∧ wo.badAt 0 1 = false ∧ 0 + 1 ≤ [(1 : Byte)].length := by decide +kernel
/-- StoreShown: to the issuer's cluster, and to its die. -/
theorem wit_store_shown : (wo.cl 0).access 0 = some st0 ∧ wo.mayShow 0 st0 1 = true ∧ wo.mayShow 0 st0 3 = true := by decide +kernel
theorem wit_atomic_performed : ((on 0 { k0 with mq := [at0] }).cl 0).access 0 = some at0 ∧ at0.op = .atom (some 5) 0 .i32 1 0 ∧ at0.fail ≠ some .deadlink ∧
    at0.data = [] ∧ at0.err = none ∧ (on 0 { k0 with mq := [at0] }).mayPerform 0 at0 = true ∧ w0.deadPath 0 0 = false ∧ (4 : Nat) = Ty.i32.width / 8 ∧ (∀ i, i < 4 → w0.isMem (0 + i) = true) ∧
    w0.badAt 0 4 = false ∧ 0 < 2 ^ Ty.i32.width := by decide +kernel
/-- ResultsLand: a result no memory holds, a load, and the two streams of an LDQ. -/
def ld0 : Access := { st0 with op := .loadS 5 false 4, pieces := [], data := [(0, 7)] }
def ls0 : Access := { st0 with op := .ldqScale (some 7) (some 5), pieces := [] }
def lq0 : Access := { st0 with id := 1, op := .ldqData (some 5) (some 7) none 0, pieces := [] }
def wl : State := { on 0 { k0 with pend := [{ id := 9, x := 0, sec := 0, dst := .s 5, val := 1, mask := 1, flags := 0 }]
                                   mq := [ld0] } with cycle := 2 }
theorem wit_results_land : (∃ p, (wl.cl 0).pend.find? (fun p => p.id == 9) = some p ∧ ∀ b i, p.dst ≠ .q b i) ∧
    (wl.cl 0).pend.find? (fun p => p.id == 0) = none ∧ (wl.cl 0).access 0 = some ld0 ∧ ld0.landings ≠ [] ∧ ld0.pieces = [] ∧ ld0.fail = none ∧ ld0.cyc < wl.cycle.toNat :=
  ⟨⟨_, rfl, by simp⟩, by decide +kernel, by decide +kernel, by decide +kernel, rfl, rfl, by decide +kernel⟩
theorem wit_ldq_lands : ((on 0 { k0 with mq := [ls0] }).cl 0).access 0 = some ls0 ∧ ls0.landed = false ∧ ls0.pieces = [] ∧ ls0.fail = none ∧ ls0.err = none ∧
    ls0.cyc < wl.cycle.toNat ∧ ((on 0 { k0 with mq := [{ ls0 with landed := true }, lq0] }).cl 0).access 1 = some lq0 ∧
    ((on 0 { k0 with mq := [{ ls0 with landed := true }, lq0] }).cl 0).access 0 = some { ls0 with landed := true } ∧
    ((on 0 { k0 with mq := [{ ls0 with landed := true }, lq0] }).cl 0).scalesIn { ls0 with landed := true } = true ∧ lq0.err = none := by decide +kernel
/-- AccessesFail: the way dead, 2 ms past, and neither; a fence that an old store holds. -/
theorem wit_access_fails : ((acc [st0]).cl 0 |>.cx 0).phase = .accept [st0] false [] [] ∧ (acc [st0]).accessDead 0 st0 = false ∧
    st0.cyc + Config.cycles2ms ≤ ({ acc [st0] with cycle := BitVec.ofNat 64 Config.cycles2ms } : State).cycle.toNat ∧
    (acc [st0]).cycle.toNat < st0.cyc + Config.cycles2ms ∧
    ({ acc [st0] with links := ((acc [st0]).path 0 0).map fun l => (l, { Link.reset with dead := true }) } : State).accessDead 0 st0 = true := by decide +kernel
/-- AccessesFail: an accepted load that has had no answer for 2 ms. -/
def ldOpen : Access := { st0 with op := .loadS 5 false 4 }
def wlate : State := { on 0 { k0 with mq := [ldOpen] } with cycle := BitVec.ofNat 64 Config.cycles2ms }
theorem wit_read_fails : wlate.shownStores = [] ∧ (wlate.cl 0).mq = [ldOpen] ∧ ldOpen.op = .loadS 5 false 4 ∧ ldOpen.isOpen = true ∧ ldOpen.fail = none ∧
    wlate.accessDead 0 ldOpen = false ∧ ldOpen.cyc + Config.cycles2ms ≤ wlate.cycle.toNat ∧ ((wlate.cl 0).cx 1).phase = .header := by decide +kernel
theorem wit_fence_expires : f0.kind < 5 ∧ ({ f0 with kind := 3, id := 1 } : FenceRec).kind < 4 ∧ st0.isOpen = true ∧
    st0.before (queOf 0) 7 1 0 = true ∧ st0.fail ≠ some .deadlink ∧ 0 + Config.cycles2ms ≤ (BitVec.ofNat 64 Config.cycles2ms).toNat := by decide +kernel
/-- A message of the S engine of cluster 0 to cluster 1, whose payload stands at address 0. -/
def ms0 : Access := { st0 with x := 4, que := queOf 4, op := .msg 1 [] 0 1 100, pieces := [{ off := 0, va := 0, pa := 0, len := 8 }], rel := true }
def wm (permit : BitVec 4) : State :=
  { on 0 { k0 with ctx := [(4, { e0 with phase := .accept [ms0] false [] [] })] } with access := [(4, permit), (12 * 4096 + 4, 0xF)], cur := (0, 4) }
theorem wit_message : ((wm 0xF).cl 0 |>.cx 4).phase = .accept [ms0] false [] [] ∧ (wm 0xF).hub.modNo = 0 ∧ (wm 0xF).accessDead 0 ms0 = false ∧ (wm 0xF).mayPerform 0 ms0 = true ∧
    (wm 0xF).refusedAt 0 4 [ms0] [] = none ∧ (∀ r ∈ ms0.pieces, (wm 0xF).badAt r.pa r.len = false) ∧ (wm 0xF).permits (dieOf 1) (masterOf 0 4) &&& bitM ≠ 0 ∧
    ((wm 0xF).deliver 1 [1] 4 0 100).isSome = true ∧ ((wm 0xF).cl 1).freeSlot = some 0 ∧ (wm 0).permits (dieOf 1) (masterOf 0 4) &&& bitM = 0 ∧
    ({ Cluster.reset with slots := (List.range 16).map fun n => (n, { order := n, len := 1, src := 0, asid := 0, hnd := 0, started := false }) } : Cluster).freeSlot = none := by
  decide +kernel
/-- MessagesArrive: a read-only slot. -/
theorem wit_message_ro : (wm 0xF).slotRo 1 = false ∧ ({ wm 0xF with ro := [(((wm 0xF).here (sramBase 1) + slotOff 0) / 4096, true)] } : State).slotRo 1 = true := by decide +kernel
/-- MessagesArrive: a message from module 1 to module 0. -/
def wmFar : State := { wm 0xF with hub := { (wm 0xF).hub with modNo := 1, gwroute := [(0, 8)] } }
theorem wit_message_far : (wmFar.cl 0 |>.cx 4).phase = .accept [ms0] false [] [] ∧ (0 : BitVec 6) ≠ wmFar.hub.modNo ∧ wmFar.accessDead 0 ms0 = false ∧ wmFar.mayPerform 0 ms0 = true ∧
    wmFar.refusedAt 0 4 [ms0] [] = none ∧ (∀ r ∈ ms0.pieces, wmFar.badAt r.pa r.len = false) := by decide +kernel
/-- HandlersStart: a message that waits, and a trap. -/
def sl0 : Slot := { order := 0, len := 8, src := 4, asid := 0, hnd := 100, started := false }
theorem wit_handlers_start : ((on 0 { k0 with slots := [(3, sl0)] }).cl 0).slots = [(3, sl0)] ∧ sl0.started = false ∧ ((on 0 { k0 with slots := [(3, sl0)] }).cl 0).dormant 5 = true ∧
    ((on 0 { k0 with slots := [(3, sl0)] }).cl 0).traps = [] ∧ w0.handlersRun 0 = true ∧ ((on 0 { k0 with traps := [1] }).cl 0).dormant 6 = true ∧
    ({ on 0 { k0 with traps := [1] } with mem := [(0x10, 100)] } : State).tvec 0 = some 100 := by decide +kernel
/-- BanksWake: bank 31. -/
theorem wit_banks_wake : (31 : Nat) < 32 ∧ ((on 0 { k0 with waking := 0x80000000 }).cl 0).waking.getLsbD 31 = true := by decide +kernel
/-- Headers: at parcel 8 a section header of one word, an end of stream, and a word that is no header. -/
def wd (m : List Host.Cell) : State := { on 0 { k0 with ctx := [(0, { e0 with phase := .header, inSec := false })] } with mem := m }
theorem wit_headers : (wd []).mayIssue 0 0 = true ∧ ((wd []).cl 0 |>.cx 0).phase = .header ∧
    (match (wd [(38, 1), (39, 0x50)]).readHeader 0 0 8 with | .sect _ f => decide (f = 10) | _ => false) = true ∧
    (match (wd [(39, 0xA0)]).readHeader 0 0 8 with | .eos => true | _ => false) = true ∧
    (match (wd []).readHeader 0 0 8 with | .bad p t => decide (p = 8 ∧ t.cause ≠ .refused) | _ => false) = true := by decide +kernel
/-- Headers: at parcel 8 a header with a key of some tag, rotation selector 1 or none, and MISS field, for a task of some record. -/
def wkey (r : BitVec 1024) (tag rot miss : Nat) : State :=
  { wt with dists := [(0, { Dist.reset with tasks := [t0 r 0], nseq := 1 })]
            clusters := [(0, { k0 with task := some r, ctx := [(0, { e0 with phase := .header, inSec := false })] })]
            mem := [(32, 0x40), (38, 1), (39, 0x50)] ++ (if miss = 0 then [] else [(44, BitVec.ofNat 8 (miss * 64))]) ++
              (if rot = 1 then [(45, 1)] else [(45, 0xFF), (46, 0xFF), (47, 0xFF), (48, 0xFF)]) ++ [(49, BitVec.ofNat 8 tag)] }
/-- A record keyed by tag 6. -/
def r6 : BitVec 1024 := BitVec.ofNat 1024 (2 ^ 51 + 6 * 2 ^ 128)
/-- The header at the PC is read with its key, and the key stands so. -/
def keyed (s : State) (tag : BitVec 24) (rot : BitVec 32) (miss : Nat) (k : KeyRes) : Prop :=
  s.mayIssue 0 0 = true ∧ (match s.readHeader 0 0 8 with | .sect h f => decide (h.key = some (tag, rot, miss) ∧ f = 13) | _ => false) = true ∧
    ({ s with cur := (0, 0) } : State).keyCheck 0 tag rot = k
theorem wit_headers_hit : keyed (wkey 0 5 0 1) 5 0xFFFFFFFF 1 .hit ∧ keyed (wkey 0 6 0 2) 6 0xFFFFFFFF 2 .waits := by unfold keyed; decide +kernel
theorem wit_headers_own : keyed (wkey r6 6 0 0) 6 0xFFFFFFFF 0 .missOwn ∧ keyed (wkey r6 6 0 1) 6 0xFFFFFFFF 1 .missOwn ∧
    keyed (wkey r6 6 0 2) 6 0xFFFFFFFF 2 .missOwn ∧ keyed (wkey r6 6 0 3) 6 0xFFFFFFFF 3 .missOwn := by unfold keyed; decide +kernel
theorem wit_headers_other : keyed (wkey 0 6 1 0) 6 1 0 .missOther ∧ keyed (wkey 0 6 1 1) 6 1 1 .missOther ∧ keyed (wkey 0 6 1 3) 6 1 3 .missOther := by
  unfold keyed; decide +kernel
/-- SectionsRun: a section with no key starts; one with tag 5 finds its window, one with tag 6 and rotation 1 does not; a section retires. -/
def hd (k : Option (BitVec 24 × BitVec 32 × Nat)) : Header := { len := 1, aft := [0, 0, 0, 0], exposed := false, key := k }
def wsec (h : Header) (k : KeyState) : State := { wt with clusters := [(0, { k0 with ctx := [(0, { e0 with phase := .start h 10 k, inSec := false })] })] }
theorem wit_sections : (∀ k ∈ [KeyState.free, .judged true, .waits], ((wsec (hd none) k).cl 0 |>.cx 0).phase = .start (hd none) 10 k ∧
      (wsec (hd none) k).mayIssue 0 0 = true ∧ (wsec (hd none) k).mayStart 0 0 (hd none) = true) ∧
    (wsec (hd (some (5, 0xFFFFFFFF, 1))) .waits).keyCheck 0 5 0xFFFFFFFF = .hit ∧ (wsec (hd (some (6, 1, 2))) .waits).keyCheck 0 6 1 = .missOther ∧
    (wsec (hd (some (6, 1, 2))) .waits).mayStart 0 0 (hd (some (6, 1, 2))) = true ∧
    ((on 0 { k0 with ctx := [(0, { e0 with openSecs := [0], next := 2 })] }).cl 0 |>.cx 0).openSecs = [0] ∧
    ((on 0 { k0 with ctx := [(0, { e0 with openSecs := [0], next := 2 })] }).cl 0).sectionOpen 0 0 = false := by decide +kernel
/-- SectionWaits: the C engine waits for section 1020 of the S engine, whose last retired one is 2, three past it modulo 1,023; section 3 is still to come. -/
def ha (n : BitVec 10) : Header := { len := 1, aft := [1023, 1023, 1023, n], exposed := false, key := none }
def waft (n : BitVec 10) : State :=
  on 0 { k0 with ctx := [(0, { e0 with phase := .start (ha n) 10 .free, inSec := false }), (4, { Ctx.reset with forked := true, last := some 2 })] }
theorem wit_section_waits : (∀ n ∈ [(1020 : BitVec 10), 2, 1023, 3], (waft n).mayIssue 0 0 = true ∧ ((waft n).cl 0 |>.cx 0).phase = .start (ha n) 10 .free ∧
      (ha n).aft.length = 4 ∧ ((waft n).cl 0 |>.cx 0).lastMode.getD false = (ha n).exposed) ∧ (headerOf 0 none).aft.length = 4 ∧
    (∀ n ∈ [(1020 : BitVec 10), 2, 1023], ∀ p ∈ (waitedOn 0).zip (ha n).aft, WaitMet ((waft n).cl 0) p.1 p.2) ∧
    ∃ p ∈ (waitedOn 0).zip (ha 3).aft, ¬ WaitMet ((waft 3).cl 0) p.1 p.2 := by
  refine ⟨by decide +kernel, by decide, ?_, (4, 3), by decide, ?_⟩
  · intro n hn p hp
    simp only [List.mem_cons, List.not_mem_nil, or_false] at hn
    obtain rfl | rfl | rfl := hn <;> simp [waitedOn, ha] at hp <;> obtain rfl | rfl | rfl | rfl := hp <;>
      first | exact .inl rfl | exact .inr (.inr ⟨2, by decide +kernel, by decide⟩)
  · rintro (h | ⟨-, h⟩ | ⟨l, h, g⟩)
    · exact absurd h (by decide)
    · exact absurd h (by decide +kernel)
    · have e : some 2 = some l := h
      cases e
      exact absurd g (by decide)
/-! ### Vector words -/

/-- A Form B vector word. -/
def vB : BForm := { bw with dst := .v 5, ty := .f32, imm := 0x3F800000 }
/-- v2 bound to k0. -/
def wb2 : State := on 0 { k0 with bind := [(2, { kix := 0, gen := 0 })] }
theorem wb2_straight : Straight wb2 3 := ⟨rfl, by decide, by decide, by decide⟩
/-! VectorElements: each instruction and operand form of it. -/
theorem wit_el_vadd : (∃ u ew on f, Elements w0 (.vadd v3) u ew on f) ∧ Straight w0 3 :=
  ⟨⟨_, _, _, _, .vadd _ 0 0 (BitVec.allOnes 256) (.v 5) (by decide +kernel) (by decide +kernel) (by decide +kernel) (by decide +kernel)⟩, w0_straight⟩
theorem wit_el_vsub : (∃ u ew on f, Elements w0 (.vsub v3) u ew on f) ∧ Straight w0 3 :=
  ⟨⟨_, _, _, _, .vsub _ 0 0 (BitVec.allOnes 256) (.v 5) (by decide +kernel) (by decide +kernel) (by decide +kernel) (by decide +kernel)⟩, w0_straight⟩
theorem wit_el_vmul : (∃ u ew on f, Elements w0 (.vmul v3) u ew on f) ∧ Straight w0 3 :=
  ⟨⟨_, _, _, _, .vmul _ 0 0 (BitVec.allOnes 256) (.v 5) (by decide +kernel) (by decide +kernel) (by decide +kernel) (by decide +kernel)⟩, w0_straight⟩
theorem wit_el_vdiv : (∃ u ew on f, Elements w0 (.vdiv v3) u ew on f) ∧ Straight w0 3 :=
  ⟨⟨_, _, _, _, .vdiv _ 0 0 (BitVec.allOnes 256) (.v 5) (by decide +kernel) (by decide +kernel) (by decide +kernel) (by decide +kernel)⟩, w0_straight⟩
theorem wit_el_vfma : (∃ u ew on f, Elements w0 (.vfma v3) u ew on f) ∧ Straight w0 3 :=
  ⟨⟨_, _, _, _, .vfma _ 0 0 0 (BitVec.allOnes 256) (.v 5) (by decide +kernel) (by decide +kernel) (by decide +kernel) (by decide +kernel) (by decide +kernel)⟩, w0_straight⟩
theorem wit_el_vminI : (∃ u ew on f, Elements w0 (.vmin { v3 with ty := .i32 }) u ew on f) ∧ Straight w0 3 :=
  ⟨⟨_, _, _, _, .vminI _ 0 0 (BitVec.allOnes 256) (.v 5) (by decide +kernel) (by decide +kernel) (by decide +kernel) (by decide +kernel) rfl⟩, w0_straight⟩
theorem wit_el_vminF : (∃ u ew on f, Elements w0 (.vmin v3) u ew on f) ∧ Straight w0 3 :=
  ⟨⟨_, _, _, _, .vminF _ 0 0 (BitVec.allOnes 256) (.v 5) (by decide +kernel) (by decide +kernel) (by decide +kernel) (by decide +kernel) rfl⟩, w0_straight⟩
theorem wit_el_vmaxI : (∃ u ew on f, Elements w0 (.vmax { v3 with ty := .i32 }) u ew on f) ∧ Straight w0 3 :=
  ⟨⟨_, _, _, _, .vmaxI _ 0 0 (BitVec.allOnes 256) (.v 5) (by decide +kernel) (by decide +kernel) (by decide +kernel) (by decide +kernel) rfl⟩, w0_straight⟩
theorem wit_el_vmaxF : (∃ u ew on f, Elements w0 (.vmax v3) u ew on f) ∧ Straight w0 3 :=
  ⟨⟨_, _, _, _, .vmaxF _ 0 0 (BitVec.allOnes 256) (.v 5) (by decide +kernel) (by decide +kernel) (by decide +kernel) (by decide +kernel) rfl⟩, w0_straight⟩
theorem wit_el_vabs : (∃ u ew on f, Elements w0 (.vabs v3) u ew on f) ∧ Straight w0 3 :=
  ⟨⟨_, _, _, _, .vabs _ 0 (BitVec.allOnes 256) (.v 5) (by decide +kernel) (by decide +kernel) (by decide +kernel)⟩, w0_straight⟩
theorem wit_el_vrcp : (∃ u ew on f, Elements w0 (.vrcp v3) u ew on f) ∧ Straight w0 3 :=
  ⟨⟨_, _, _, _, .vrcp _ 0 (BitVec.allOnes 256) (.v 5) (by decide +kernel) (by decide +kernel) (by decide +kernel)⟩, w0_straight⟩
theorem wit_el_vrsq : (∃ u ew on f, Elements w0 (.vrsq v3) u ew on f) ∧ Straight w0 3 :=
  ⟨⟨_, _, _, _, .vrsq _ 0 (BitVec.allOnes 256) (.v 5) (by decide +kernel) (by decide +kernel) (by decide +kernel)⟩, w0_straight⟩
theorem wit_el_vexp : (∃ u ew on f, Elements w0 (.vexp v3) u ew on f) ∧ Straight w0 3 :=
  ⟨⟨_, _, _, _, .vexp _ 0 (BitVec.allOnes 256) (.v 5) (by decide +kernel) (by decide +kernel) (by decide +kernel)⟩, w0_straight⟩
theorem wit_el_vlog : (∃ u ew on f, Elements w0 (.vlog v3) u ew on f) ∧ Straight w0 3 :=
  ⟨⟨_, _, _, _, .vlog _ 0 (BitVec.allOnes 256) (.v 5) (by decide +kernel) (by decide +kernel) (by decide +kernel)⟩, w0_straight⟩
theorem wit_el_vact : (∃ u ew on f, Elements w0 (.vact v3) u ew on f) ∧ Straight w0 3 :=
  ⟨⟨_, _, _, _, .vact _ 0 (BitVec.allOnes 256) (.v 5) (by decide +kernel) (by decide +kernel) (by decide +kernel)⟩, w0_straight⟩
theorem wit_el_viadd : (∃ u ew on f, Elements w0 (.viadd { v3 with ty := .i32 }) u ew on f) ∧ Straight w0 3 :=
  ⟨⟨_, _, _, _, .viadd _ 0 0 (BitVec.allOnes 256) (.v 5) (by decide +kernel) (by decide +kernel) (by decide +kernel) (by decide +kernel)⟩, w0_straight⟩
theorem wit_el_visub : (∃ u ew on f, Elements w0 (.visub { v3 with ty := .i32 }) u ew on f) ∧ Straight w0 3 :=
  ⟨⟨_, _, _, _, .visub _ 0 0 (BitVec.allOnes 256) (.v 5) (by decide +kernel) (by decide +kernel) (by decide +kernel) (by decide +kernel)⟩, w0_straight⟩
theorem wit_el_vimul : (∃ u ew on f, Elements w0 (.vimul { v3 with ty := .i32 }) u ew on f) ∧ Straight w0 3 :=
  ⟨⟨_, _, _, _, .vimul _ 0 0 (BitVec.allOnes 256) (.v 5) (by decide +kernel) (by decide +kernel) (by decide +kernel) (by decide +kernel)⟩, w0_straight⟩
theorem wit_el_vimac : (∃ u ew on f, Elements w0 (.vimac { v3 with ty := .i32 }) u ew on f) ∧ Straight w0 3 :=
  ⟨⟨_, _, _, _, .vimac _ 0 0 (BitVec.allOnes 256) (.v 5) 0 (by decide +kernel) (by decide +kernel) (by decide +kernel) (by decide +kernel) (by decide +kernel) rfl⟩, w0_straight⟩
theorem wit_el_vimacDot : (∃ u ew on f, Elements w0 (.vimac { v3 with sub := 1, ty := .i8 }) u ew on f) ∧ Straight w0 3 :=
  ⟨⟨_, _, _, _, .vimacDot _ 0 0 (BitVec.allOnes 256) (.v 5) 0 (by decide +kernel) (by decide +kernel) (by decide +kernel) (by decide +kernel) (by decide +kernel) (by decide)⟩, w0_straight⟩
theorem wit_el_vtmac : (∃ u ew on f, Elements w0 (.vtmac { v3 with ty := .t3 }) u ew on f) ∧ Straight w0 3 :=
  ⟨⟨_, _, _, _, .vtmac _ 0 0 (BitVec.allOnes 256) (.v 5) 0 (by decide +kernel) (by decide +kernel) (by decide +kernel) (by decide +kernel) (by decide +kernel)⟩, w0_straight⟩
theorem wit_el_vbitTwo : (∃ u ew on f, Elements w0 (.vbit { v3 with ty := .i32 }) u ew on f) ∧ Straight w0 3 :=
  ⟨⟨_, _, _, _, .vbitTwo _ 0 0 (BitVec.allOnes 256) (.v 5) (by decide +kernel) (by decide) (by decide +kernel) (by decide +kernel) (by decide +kernel) (by decide)⟩, w0_straight⟩
theorem wit_el_vbitOne : (∃ u ew on f, Elements w0 (.vbit { v3 with sb := .null, sub := 4, ty := .i32 }) u ew on f) ∧ Straight w0 3 :=
  ⟨⟨_, _, _, _, .vbitOne _ 0 (BitVec.allOnes 256) (.v 5) (by decide +kernel) rfl (by decide +kernel) (by decide +kernel) (by decide)⟩, w0_straight⟩
theorem wit_el_vshImm : (∃ u ew on f, Elements w0 (.vsh { v3 with sb := .null, ty := .i32 }) u ew on f) ∧ Straight w0 3 :=
  ⟨⟨_, _, _, _, .vshImm _ 0 (BitVec.allOnes 256) (.v 5) (by decide +kernel) rfl (by decide +kernel) (by decide +kernel)⟩, w0_straight⟩
theorem wit_el_vshS : (∃ u ew on f, Elements w0 (.vsh { v3 with sb := .s 3, ty := .i32 }) u ew on f) ∧ Straight w0 3 :=
  ⟨⟨_, _, _, _, .vshS _ 0 0 (BitVec.allOnes 256) (.v 5) (by decide +kernel) ⟨3, rfl⟩ (by decide +kernel) (by decide +kernel) (by decide +kernel)⟩, w0_straight⟩
theorem wit_el_vshV : (∃ u ew on f, Elements w0 (.vsh { v3 with ty := .i32 }) u ew on f) ∧ Straight w0 3 :=
  ⟨⟨_, _, _, _, .vshV _ 0 0 (BitVec.allOnes 256) (.v 5) (by decide +kernel) (by decide +kernel) (by decide +kernel) (by decide +kernel)⟩, w0_straight⟩
theorem wit_el_vsel : (∃ u ew on f, Elements w0 (.vsel { v3 with sc := .vm 3 }) u ew on f) ∧ Straight w0 3 :=
  ⟨⟨_, _, _, _, .vsel _ 0 0 (BitVec.allOnes 256) (BitVec.allOnes 256) (.v 5) (by decide +kernel) (by decide +kernel) (by decide +kernel) (by decide +kernel) (by decide +kernel)⟩, w0_straight⟩
theorem wit_el_vdq : (∃ u ew on f, Elements wb2 (.vdq { v3 with ty := .f32 }) u ew on f) ∧ Straight wb2 3 :=
  ⟨⟨_, _, _, _, .vdq _ 0 0 (BitVec.allOnes 256) (.v 5) (by decide +kernel) (by decide +kernel) (by decide +kernel)⟩, wb2_straight⟩
theorem wit_el_vperm : (∃ u ew on f, Elements w0 (.vperm v3) u ew on f) ∧ Straight w0 3 :=
  ⟨⟨_, _, _, _, .vperm _ 0 0 (BitVec.allOnes 256) (.v 5) (by decide +kernel) (by decide +kernel) (by decide +kernel) (by decide +kernel)⟩, w0_straight⟩
theorem wit_el_vbcstS : (∃ u ew on f, Elements w0 (.vbcst { v3 with sa := .s 2 }) u ew on f) ∧ Straight w0 3 :=
  ⟨⟨_, _, _, _, .vbcstS _ 0 (BitVec.allOnes 256) (.v 5) ⟨2, rfl⟩ (by decide +kernel) (by decide +kernel) (by decide +kernel)⟩, w0_straight⟩
theorem wit_el_vbcstV : (∃ u ew on f, Elements w0 (.vbcst v3) u ew on f) ∧ Straight w0 3 :=
  ⟨⟨_, _, _, _, .vbcstV _ 0 (BitVec.allOnes 256) (.v 5) (by decide +kernel) (by decide +kernel) (by decide +kernel)⟩, w0_straight⟩
theorem wit_el_vsld : (∃ u ew on f, Elements w0 (.vsld v3) u ew on f) ∧ Straight w0 3 :=
  ⟨⟨_, _, _, _, .vsld _ 0 0 (BitVec.allOnes 256) (.v 5) (by decide +kernel) (by decide +kernel) (by decide +kernel) (by decide +kernel)⟩, w0_straight⟩
theorem wit_el_vilv : (∃ u ew on f, Elements w0 (.vilv v3) u ew on f) ∧ Straight w0 3 :=
  ⟨⟨_, _, _, _, .vilv _ 0 0 (BitVec.allOnes 256) (.v 5) (by decide +kernel) (by decide +kernel) (by decide +kernel) (by decide +kernel)⟩, w0_straight⟩
theorem wit_el_vxpose : (∃ u ew on f, Elements w0 (.vxpose v3) u ew on f) ∧ Straight w0 3 :=
  ⟨⟨_, _, _, _, .vxpose _ 0 (BitVec.allOnes 256) (.v 5) (by decide +kernel) (by decide +kernel) (by decide +kernel)⟩, w0_straight⟩
theorem wit_el_vimm : (∃ u ew on f, Elements w0 (.vimm vB) u ew on f) ∧ Straight w0 3 :=
  ⟨⟨_, _, _, _, .vimm _ (.v 5) (by decide +kernel)⟩, w0_straight⟩
theorem wit_el_vcvt : (∃ u ew on f, Elements w0 (.vcvt { v3 with ty := .f32, imm := BitVec.ofNat 24 (Ty.bf16.code * 256) }) u ew on f) ∧ Straight w0 3 :=
  ⟨⟨_, _, _, _, .vcvt _ 0 (BitVec.allOnes 256) (.v 5) .bf16 (by decide +kernel) (by decide +kernel) (by decide +kernel) rfl (by decide)⟩, w0_straight⟩
theorem wit_el_vcvtNarrow : (∃ u ew on f, Elements w0 (.vcvt { v3 with ty := .bf16, imm := BitVec.ofNat 24 (Ty.f32.code * 256) }) u ew on f) ∧ Straight w0 3 :=
  ⟨⟨_, _, _, _, .vcvtNarrow _ 0 (BitVec.allOnes 256) (.v 5) .f32 (by decide +kernel) (by decide +kernel) (by decide +kernel) rfl (by decide)⟩, w0_straight⟩
theorem wit_el_vred : (∃ u ew on f, Elements w0 (.vred { v3 with imm := 0x400 }) u ew on f) ∧ Straight w0 3 :=
  ⟨⟨_, _, _, _, .vred _ 0 (BitVec.allOnes 256) (.v 5) (by decide +kernel) (by decide +kernel) (by decide +kernel)⟩, w0_straight⟩
theorem wit_el_vscan : (∃ u ew on f, Elements w0 (.vscan { v3 with imm := 0x400 }) u ew on f) ∧ Straight w0 3 :=
  ⟨⟨_, _, _, _, .vscan _ 0 (BitVec.allOnes 256) (.v 5) (by decide +kernel) (by decide +kernel) (by decide +kernel)⟩, w0_straight⟩
theorem wit_el_vstat : (∃ u ew on f, Elements w0 (.vstat { v3 with imm := 0x400 }) u ew on f) ∧ Straight w0 3 :=
  ⟨⟨_, _, _, _, .vstat _ 0 (.v 5) (by decide +kernel) (by decide +kernel)⟩, w0_straight⟩
/-- VectorElements: VSMX over groups of 4, VROPE, and VQNT to e4m3. -/
theorem wit_el_long : (∃ u ew on f, Elements w0 (.vsmx { v3 with sb := .s 3, sc := .null, imm := 0x400 }) u ew on f) ∧ (∃ u ew on f, Elements w0 (.vrope v3) u ew on f) ∧
    (∃ u ew on f, Elements w0 (.vqnt { v3 with ty := .e4m3 }) u ew on f) ∧ Straight w0 3 :=
  ⟨⟨_, _, _, _, .vsmx _ 0 0 (BitVec.allOnes 256) (.v 5) (by decide +kernel) rfl (by decide +kernel) (by decide +kernel)⟩,
   ⟨_, _, _, _, .vrope _ 0 0 0 (BitVec.allOnes 256) (.v 5) _ (by decide +kernel) (by decide +kernel) (by decide +kernel) (by decide +kernel) (by decide +kernel) rfl⟩,
   ⟨_, _, _, _, .vqnt8 _ 0 (BitVec.allOnes 256) (.v 5) (Or.inl rfl) (by decide +kernel) (by decide +kernel) (by decide +kernel)⟩, w0_straight⟩
theorem wit_vcmp : (∃ u, VecWord w0 (.vcmp { v3 with dst := .vm 5 }) u) ∧ Straight w0 3 :=
  ⟨⟨_, .vcmp _ 0 0 (BitVec.allOnes 256) (by decide +kernel) (by decide +kernel) (by decide +kernel) rfl⟩, w0_straight⟩
/-- A mask word: vm5 from vm2 and vm3. -/
def m3 : AForm := { aw with dst := .vm 5, sa := .vm 2, sb := .vm 3 }
theorem wit_vmsk_count : ∃ u, VecWord w0 (.vmsk { m3 with dst := .s 5 }) u := ⟨_, .vmskCount _ (BitVec.allOnes 256) (BitVec.allOnes 256) 5 rfl rfl rfl rfl⟩
theorem wit_vmsk : (∃ u, VecWord w0 (.vmsk m3) u) ∧ (∃ u, VecWord w0 (.vmsk { m3 with sub := 1 }) u) ∧ (∃ u, VecWord w0 (.vmsk { m3 with sub := 2 }) u) ∧
    (∃ u, VecWord w0 (.vmsk { m3 with sub := 3 }) u) ∧ (∃ u, VecWord w0 (.vmsk { m3 with sub := 4 }) u) ∧ (∃ u, VecWord w0 (.vmsk { m3 with sub := 5 }) u) ∧
    (∃ u, VecWord w0 (.vmsk { m3 with sub := 6 }) u) ∧ Straight w0 3 :=
  ⟨⟨_, .vmskAnd _ (BitVec.allOnes 256) (BitVec.allOnes 256) 5 rfl rfl rfl rfl rfl⟩, ⟨_, .vmskOr _ (BitVec.allOnes 256) (BitVec.allOnes 256) 5 rfl rfl rfl rfl rfl⟩,
   ⟨_, .vmskXor _ (BitVec.allOnes 256) (BitVec.allOnes 256) 5 rfl rfl rfl rfl rfl⟩, ⟨_, .vmskAndn _ (BitVec.allOnes 256) (BitVec.allOnes 256) 5 rfl rfl rfl rfl rfl⟩,
   ⟨_, .vmskNot _ (BitVec.allOnes 256) (BitVec.allOnes 256) 5 rfl rfl rfl rfl rfl⟩, ⟨_, .vmskFirst _ (BitVec.allOnes 256) (BitVec.allOnes 256) 5 rfl rfl rfl rfl rfl⟩,
   ⟨_, .vmskBelow _ (BitVec.allOnes 256) (BitVec.allOnes 256) 5 rfl rfl rfl rfl (by decide)⟩, w0_straight⟩
theorem wit_vrnd : (∃ u, VecWord w0 (.vrnd { aw with md := 2 }) u) ∧ Straight w0 3 := ⟨⟨_, .vrnd _⟩, w0_straight⟩
theorem wit_vqnt : (∃ u, VecWord w0 (.vqnt { v3 with sb := .k 3, ty := .b4 }) u) ∧ Straight w0 3 :=
  ⟨⟨_, .vqnt _ 0 0 (BitVec.allOnes 256) (.v 5) (by decide +kernel) rfl (by decide +kernel) (by decide +kernel) (by decide +kernel)⟩, w0_straight⟩
theorem wit_vunp3 : (∃ u, VecWord w0 (.vunp3 { v3 with sc := .vm 4 }) u) ∧ (∃ u, VecWord w0 (.vunp3 { v3 with sc := .null }) u) ∧ Straight w0 3 :=
  ⟨⟨_, .vunp3 _ 0 (.v 5) 4 (by decide +kernel) (by decide +kernel) rfl rfl⟩, ⟨_, .vunp3None _ 0 (.v 5) (by decide +kernel) (by decide +kernel) rfl⟩, w0_straight⟩
theorem wit_vmovs : (∃ u, VecWord w0 (.vmovs { v3 with dst := .s 5 }) u) ∧ (∃ u, VecWord w0 (.vmovs { v3 with sa := .s 2 }) u) ∧ Straight w0 3 :=
  ⟨⟨_, .vmovsOut _ 0 5 (by decide +kernel) rfl rfl⟩, ⟨_, .vmovsIn _ 0 (.v 5) (by simp [v3]) rfl (by decide +kernel)⟩, w0_straight⟩
theorem wit_vmov : (∃ u, VecWord w0 (.vmov v3) u) ∧ (∃ u, VecWord w0 (.vmov m3) u) ∧ Straight w0 3 :=
  ⟨⟨_, .vmovV _ 0 2 (.v 5) 5 rfl rfl (by decide +kernel) (by decide +kernel)⟩, ⟨_, .vmovVM _ (BitVec.allOnes 256) 5 rfl rfl rfl⟩, w0_straight⟩
/-- VMOV to and from a queue register, as data and as b4. -/
def wqb : State := on 0 { wq.me with bind := [(2, { kix := 0, gen := 0 })] }
theorem wit_vmov_queue : (∃ u, VecWord wqb (.vmov { v3 with dst := .q false 1 }) u) ∧ (∃ u, VecWord wqb (.vmov { v3 with dst := .q false 1, ty := .b4 }) u) ∧
    (∃ u, VecWord wqb (.vmov { v3 with sa := .q false 2, sb := .null }) u) ∧ (∃ u, VecWord wqb (.vmov { v3 with sa := .q false 2, sb := .k 7, ty := .b4 }) u) :=
  ⟨⟨_, .vmovQ _ 0 1 2 rfl rfl (by decide) (by decide +kernel) (by decide +kernel)⟩, ⟨_, .vmovQB4 _ 0 0 1 2 rfl rfl rfl (by decide +kernel) (by decide +kernel)⟩,
   ⟨_, .vmovFromQ _ 1 false 2 5 rfl rfl (by decide) (by decide +kernel) (.v 5) (by decide +kernel) rfl⟩,
   ⟨_, .vmovFromQB4 _ 1 0 false 2 5 rfl rfl rfl (by decide +kernel) (.v 5) (by decide +kernel) (by decide +kernel)⟩⟩
/-- A parameter block with these fields. -/
def pf (fs : List Nat) : BitVec 384 := BitVec.ofNat 384 (packElems 32 fs)
/-- VTOPK of 4 of 64 elements, without an index vector and with one. -/
theorem wit_vtopk : (∃ u, VecWord w0 (.vtopk { head := { v3 with sc := .null }, par := pf [0x301, 0, 64, 4, 1] }) u) ∧
    (∃ u, VecWord w0 (.vtopk { head := v3, par := pf [0x301, 0, 64, 4, 1, 0, 1] }) u) ∧ Straight w0 15 :=
  ⟨⟨_, .vtopk _ [0x301, 0, 64, 4, 1, 0, 0, 0, 0, 0, 0, 0] [0] [] (.v 5) (by decide +kernel) (by decide +kernel) (Or.inl ⟨rfl, rfl⟩) (by decide +kernel) (by decide +kernel)⟩,
   ⟨_, .vtopk _ [0x301, 0, 64, 4, 1, 0, 1, 0, 0, 0, 0, 0] [0] [0] (.v 5) (by decide +kernel) (by decide +kernel) (Or.inr ⟨rfl, by decide +kernel⟩) (by decide +kernel) (by decide +kernel)⟩,
   rfl, by decide, by decide, by decide⟩
/-- LongVectorWords: VSMX, VROPE and VQNT to e4m3. -/
theorem wit_long_vector : w0.srcV v3.sa 2 (ftBit v3 2) = .ok 0 ∧ w0.srcV v3.sb 3 (ftBit v3 3) = .ok 0 ∧ w0.srcV v3.sc 4 (ftBit v3 4) = .ok 0 ∧ w0.srcS (.s 3) 3 false = .ok 0 ∧
    w0.vMask v3 = .ok (BitVec.allOnes 256) ∧ w0.dstV v3.dst = .ok (.v 5) ∧ ({ v3 with ty := .e4m3 } : AForm).ty = .e4m3 := by decide +kernel
/-- TopKOrder: two elements at different positions. -/
theorem wit_topk : (([{ val := 1, idx := 0, pos := 0 }, { val := 2, idx := 1, pos := 1 }] : List TopE).map (·.pos)).Nodup := by decide

/-! ### Scale words -/

/-- A scale word: k5 from k2 and k3. -/
def q3 : AForm := { aw with dst := .k 5, sa := .k 2, sb := .k 3, imm := 0x102 }
theorem wit_kmov : (∃ d qs fl f, ScaleBytes w0 (.kmov q3) d qs fl f) ∧ (∃ d qs fl f, ScaleBytes wq (.kmov { q3 with sa := .q false 2 }) d qs fl f) ∧ Straight w0 3 :=
  ⟨⟨_, _, _, _, .kmov _ 0 2 rfl rfl rfl⟩, ⟨_, _, _, _, .kmovQ _ 1 0 false 2 rfl (by decide +kernel) rfl⟩, w0_straight⟩
theorem wit_kset : (∃ d qs fl f, ScaleBytes w0 (.kset q3) d qs fl f) ∧ (∃ d qs fl f, ScaleBytes w0 (.ksetOne q3) d qs fl f) ∧
    (∃ d qs fl f, ScaleBytes w0 (.ksetS { q3 with sa := .s 2, sb := .s 3 }) d qs fl f) ∧ Straight w0 3 :=
  ⟨⟨_, _, _, _, .kset _ rfl⟩, ⟨_, _, _, _, .ksetOne _ 0 rfl⟩, ⟨_, _, _, _, .ksetS _ 0 0 rfl rfl rfl⟩, w0_straight⟩
theorem wit_kadd : (∃ d qs fl f, ScaleBytes w0 (.kadd { q3 with sb := .s 3 }) d qs fl f) ∧ (∃ d qs fl f, ScaleBytes w0 (.kadd { q3 with sb := .null }) d qs fl f) ∧ Straight w0 3 :=
  ⟨⟨_, _, _, _, .kadd _ 0 _ rfl (Or.inl ⟨3, 0, rfl, rfl, rfl⟩) rfl⟩, ⟨_, _, _, _, .kadd _ 0 _ rfl (Or.inr ⟨rfl, rfl⟩) rfl⟩, w0_straight⟩
theorem wit_kmax : (∃ d qs fl f, ScaleBytes w0 (.kmax q3) d qs fl f) ∧ (∃ d qs fl f, ScaleBytes w0 (.kmin q3) d qs fl f) ∧ Straight w0 3 :=
  ⟨⟨_, _, _, _, .kmax _ 0 0 rfl rfl rfl⟩, ⟨_, _, _, _, .kmin _ 0 0 rfl rfl rfl⟩, w0_straight⟩
theorem wit_ktype : (∃ d qs fl f, ScaleBytes w0 (.ktype q3) d qs fl f) ∧ Straight w0 3 := ⟨⟨_, _, _, _, .ktype _ 0 rfl rfl⟩, w0_straight⟩
theorem wit_kfrom : (∃ d qs fl f, ScaleBytes w0 (.kfrom { q3 with sa := .v 2, ty := .f32 }) d qs fl f) ∧ Straight w0 3 :=
  ⟨⟨_, _, _, _, .kfrom _ 0 0 (by decide +kernel) rfl⟩, w0_straight⟩
theorem wit_binding : (∃ u, Binding w0 (.kbind { q3 with dst := .v 5 }) u) ∧ (∃ u, Binding w0 (.kunb { q3 with dst := .v 5 }) u) ∧
    (∃ u, Binding w0 (.kgen { q3 with dst := .s 5 }) u) ∧ (∃ u, Binding wb2 (.kgenB { q3 with dst := .s 5, sa := .v 2 }) u) ∧
    (∃ u, Binding w0 (.kgenB { q3 with dst := .s 5, sa := .v 2 }) u) ∧ Straight w0 3 :=
  ⟨⟨_, .kbind _ 0 (.v 5) rfl (by decide +kernel)⟩, ⟨_, .kunb _ (.v 5) (by decide +kernel)⟩, ⟨_, .kgen _ rfl rfl⟩,
   ⟨_, .kgenBound _ { kix := 0, gen := 0 } (by decide +kernel) rfl rfl (by decide +kernel)⟩, ⟨_, .kgenFree _ (by decide +kernel) rfl rfl (by decide +kernel)⟩, w0_straight⟩

/-! ### Matrix words -/

theorem w0_straight15 : Straight w0 15 := ⟨rfl, by decide, by decide, by decide⟩
theorem wit_msrc : (∃ u, MatrixWord w0 (.msrc { a3 with sc := .s 4, ty := .bf16 }) 3 u) ∧ Straight w0 3 := ⟨⟨_, .msrc _ 0 0 0 rfl rfl rfl⟩, w0_straight⟩
theorem wit_mbsel : (∃ u, MatrixWord w0 (.mbselWin aw) 3 u) ∧ (∃ u, MatrixWord (we { e0 with s := [(3, 256)] }) (.mbselScr a3) 3 u) ∧ Straight w0 3 :=
  ⟨⟨_, .mbselWin _⟩, ⟨_, .mbselScr _ 0 256 0 rfl rfl rfl (by decide) (by decide) (by decide)⟩, w0_straight⟩
theorem wit_mfmt : (∃ u, MatrixWord w0 (.mfmt a3) 3 u) ∧ Straight w0 3 := ⟨⟨_, .mfmt _ 0 rfl (by decide)⟩, w0_straight⟩
theorem wit_mnest : (∃ u, MatrixWord w0 (.mnest { head := aw, par := pf [0x101, 1, 0, 0, 0, 1] }) 15 u) ∧ Straight w0 15 :=
  ⟨⟨_, .mnest _ [0x101, 1, 0, 0, 0, 1, 0, 0, 0, 0, 0, 0] (by decide +kernel)⟩, w0_straight15⟩
theorem wit_mgrp : (∃ u, MatrixWord w0 (.mgrp { head := aw, par := pf [0x201, 0, 1] }) 15 u) ∧ Straight w0 15 :=
  ⟨⟨_, .mgrp _ [0x201, 0, 1, 0, 0, 0, 0, 0, 0, 0, 0, 0] (by decide +kernel) (by decide +kernel) (Or.inr (by decide +kernel)) (by decide +kernel) (by decide +kernel)⟩, w0_straight15⟩
theorem wit_mzero : (∃ u, MatrixWord w0 (.mzero aw) 3 u) ∧ Straight w0 3 := ⟨⟨_, .mzero _ (by decide +kernel) (by decide +kernel)⟩, w0_straight⟩
theorem wit_mdrain : (∃ u, MatrixWord w0 (.mdrain { aw with dst := .v 64, ty := .bf16 }) 3 u) ∧ Straight w0 3 :=
  ⟨⟨_, .mdrain _ (by decide +kernel) (by decide +kernel) (by decide +kernel)⟩, w0_straight⟩
theorem wit_mload : (∃ u, MatrixWord w0 (.mload { aw with sa := .v 64, ty := .i8 }) 3 u) ∧ Straight w0 3 :=
  ⟨⟨_, .mload _ [0] (by decide +kernel) (by decide +kernel) (by decide +kernel)⟩, w0_straight⟩
theorem wit_mrnd : (∃ u, MatrixWord w0 (.mrnd { aw with md := 2 }) 3 u) ∧ Straight w0 3 := ⟨⟨_, .mrnd _⟩, w0_straight⟩
theorem wit_mstat : (∃ u, MatrixWord w0 (.mstat { aw with dst := .s 5, sub := 3 }) 3 u) ∧ Straight w0 3 := ⟨⟨_, .mstat _ rfl (by decide +kernel)⟩, w0_straight⟩
/-- A set-up that may start a nest: bf16 from SRAM and from scratch, one step, one row. -/
def set1 : MSet := { MSet.reset with aset := true, afmt := .bf16, scr := true, sfmt := BitVec.ofNat 64 Ty.bf16.code, rows := 1 }
def wn (m : MEng) : State := on 0 { k0 with m := m }
def n0 : Nest := nestOf (wn { MEng.reset with set := set1 }) aw false
/-- MatrixNests: a nest that passes the checks, a full queue, and no A source. -/
theorem wit_mgo : (wn { MEng.reset with set := set1 }).me.m.nests.length < 4 ∧ nestChecks (wn { MEng.reset with set := set1 }) false = .ok () ∧ n0.gen = none ∧
    4 ≤ (wn { MEng.reset with nests := [n0, n0, n0, n0] }).me.m.nests.length ∧
    (∃ d, nestChecks w0 false = .error (.trap { cause := .shape, info := some d })) := ⟨by decide, by decide +kernel, by decide +kernel, by decide, 1, by decide +kernel⟩
/-- MatrixNests: a nest on the window for a keyed task that does not hold its generation. -/
def wmiss : State :=
  { on 0 { k0 with task := some r6, m := { MEng.reset with set := { set1 with scr := false } } } with
    dists := [(0, { Dist.reset with tasks := [t0 r6 0] })], rings := [(0, { r5 with fmts := BitVec.ofNat 64 Ty.bf16.code, win := some { seg5 with len := 9437184 } })] }
theorem wit_mgo_missed : wmiss.me.m.nests.length < 4 ∧ nestChecks wmiss false = .ok () ∧ (nestOf wmiss aw false).gen = some { rot := 3, tag := 5 } ∧
    wmiss.taskOn wmiss.cur.1 = some (t0 r6 0) ∧ recKeyed (t0 r6 0).rcd = true ∧ (t0 r6 0).isHolder { rot := 3, tag := 5 } = false := by decide +kernel
/-- MatrixNests: the access table does not let the M engine read. -/
def wno : State := { wn { MEng.reset with set := set1 } with access := [] }
theorem wit_mgo_refused : wno.me.m.nests.length < 4 ∧ nestChecks wno false = .ok () ∧ wno.mReads wno.cur.1 = false ∧ n0.gen = none ∧
    (wn { MEng.reset with set := set1 }).mReads 0 = true := by decide +kernel
/-- NestSteps. -/
theorem wit_nest_cells : (n0.cells.map (·.1)).Nodup ∧ n0.cells ≠ [] := by decide +kernel
/-- MatrixSteps: a nest that may start, one that steps, one that the access table does not let read, one of another generation, one at its end, a drain. -/
def nw (n : Nest) : State := { wn { MEng.reset with nests := [n] } with cycle := 1, rings := [(0, r5)] }
def g5 : Gen := { rot := 3, tag := 5 }
theorem wit_matrix_steps : ((nw n0).cl 0).m.nests = [n0] ∧ n0.running = false ∧ n0.cyc < (nw n0).cycle.toNat ∧ ((nw n0).cl 0).m.movers = [] ∧
    n0.step < n0.total ∧ (nw n0).mHold 0 n0.cyc = false ∧ (nw n0).mReads 0 = true ∧ ({ nw n0 with access := [] } : State).mReads 0 = false ∧
    ({ nw n0 with access := [] } : State).mHold 0 n0.cyc = false ∧ ({ nw n0 with access := [] } : State).frozen 0 = false ∧ (nw n0).genNow (dieOf 0) = some g5 ∧
    (nw n0).windowBad 0 (n0.cells.map fun x => (x.2.2.1, chunkBytes ((mClass n0.set.afmt.code).getD 0))) (decide (mClass n0.set.afmt.code = some 0)) = false ∧
    (nw n0).genNow (dieOf 0) ≠ some { g5 with rot := 2 } ∧ recKeyed ((nw n0).cl 0).rec0 = false ∧ ({ n0 with step := 1 } : Nest).total ≤ 1 := by decide +kernel
/-- A drain of two rows whose first row moves in cycle 1, and an MZERO. -/
def mv0 : Mover := { id := 0, cyc := 0, sec := 0, bank := 0, row0 := 0, n := 2, done := 0, regs := [64, 65], ty := .bf16, sat := false, mode := 1, zero := false
                     load := false, atOnce := false, vals := [] }
theorem wit_movers : ((nw n0).cl 0).m.nests = [n0] ∧ ({ MEng.reset with nests := [n0], movers := [mv0] } : MEng).movers = [mv0] ∧ mv0.cyc + 1 + mv0.done ≤ (nw n0).cycle.toNat ∧
    (∀ v ∈ ({ MEng.reset with movers := [mv0] } : MEng).movers, (0 : Nat) < v.cyc + 1 + v.done) ∧
    ({ mv0 with atOnce := true } : Mover).atOnce = true ∧ 1 < mv0.n ∧ n0.id ≤ mv0.id := by decide +kernel
/-! ### Attention words -/

/-- A query of one row of 64 e4m3 elements with one head, as a context record gives it. -/
def q1 : BitVec 512 := BitVec.ofNat 512 (0x01000001 + 256 ^ 0x10)
/-- The pages of A-die 0 in the witnesses: page 0 empty in tier 0, 1 in tier 1, 2 on its way, 3 changing, 4 full, 5 empty in tier 0. -/
def pg : Desc := { Desc.zero with addr := BitVec.ofNat 52 (2 ^ 42 + 2 ^ 20), refc := 1, node := 0xFFFFFFFF }
def ad : ADie := { ADie.reset with en := true, ndesc := 16, hbm := { Pool.reset with base := BitVec.ofNat 52 (2 ^ 42), nf := 8, cap := 8 }, dcap := 16, dfresh := 6
                                   desc := [(0, pg), (1, { pg with tier := 1 }), (2, { pg with tier := 2 }), (3, { pg with seq := 1 }), (4, { pg with fill := 32 }), (5, pg)] }
/-- v3 names no page, page 0, 1, 2 and 3; v6 names page 4. -/
def ka (r : BitVec 512) : Cluster :=
  { k0 with v := [(3, packV 32 [0xFFFFFFFF, 0, 1, 2, 3]), (6, packV 32 [4])], a := { isSet := true, rcd := r, buf := [], c := 0 }
            ctx := [(0, { e0 with s := [(1, 1), (4, 32)] })] }
def sa0 : State := { on 256 (ka q1) with adies := [(0, ad)], mem := [(0, 1), (3, 1), (0x10, 1)] }
theorem sa0_straight : Straight sa0 3 := ⟨rfl, by decide, by decide, by decide⟩
theorem sa0_straight15 : Straight sa0 15 := ⟨rfl, by decide, by decide, by decide⟩
/-- AttentionWords: AQSET from the record at address 0. -/
theorem wit_aqset : (∃ u, AWord sa0 (.aqset { aw with sa := .v 40, sb := .s 2, sc := .s 3 }) 3 u) ∧ Straight sa0 3 := by
  obtain ⟨bs, h, g⟩ := ok_with (sa0.aRead sa0.aMaster 0 64) (fun bs => decide (BitVec.ofNat 512 (bytesNat bs) = q1)) (by decide +kernel)
  have e : BitVec.ofNat 512 (bytesNat bs) = q1 := of_decide_eq_true g
  have n : ((queryOf bs 0).nq * (queryOf bs 0).hd + 127) / 128 = 1 := by
    show ((AEng.nq { isSet := true, rcd := BitVec.ofNat 512 (bytesNat bs), buf := [], c := 0 } *
      AEng.hd { isSet := true, rcd := BitVec.ofNat 512 (bytesNat bs), buf := [], c := 0 } + 127) / 128) = 1
    rw [e]; decide +kernel
  exact ⟨⟨_, .aqset _ 0 0 bs [0] (by decide +kernel) rfl rfl (by decide) (by decide) h (by rw [e]; decide +kernel) (by rw [n]; decide) (by rw [n]; decide +kernel)⟩, sa0_straight⟩
/-- ASTEP of lane n of v3. -/
def stepWord (n : Nat) : PForm := { head := { aw with dst := .p 1, sa := .v 10, sb := .v 3, sc := .s 11 }, par := pf [0x401, 0, n] }
def stepFs (n : Nat) : List Nat := [0x401, 0, n, 0, 0, 0, 0, 0, 0, 0, 0, 0]
theorem step_reads (n : Nat) (s : State) (h : s.aHold true = .ok () ∧ s.params (.astep (stepWord n)) (stepWord n).par = .ok (stepFs n) ∧
    s.query = .ok s.me.a ∧ (s.srcBlock s.me.a (.v 10) 2 (ftBit (stepWord n).head 2)).toOption.isSome = true ∧ s.srcV (.v 3) 3 (ftBit (stepWord n).head 3) = .ok (packV 32 [0xFFFFFFFF, 0, 1, 2, 3]) ∧
    s.dstS (.s 11) = .ok ()) : ∃ rows, stepReads s (stepWord n) (stepFs n) s.me.a rows (packV 32 [0xFFFFFFFF, 0, 1, 2, 3]) := by
  obtain ⟨h1, h2, h3, h4, h5, h6⟩ := h
  obtain ⟨rows, hr⟩ := ok_is _ h4
  exact ⟨rows, h1, h2, h3, hr, h5, h6⟩
theorem wit_astep_absent : (∃ u, AWord sa0 (.astep (stepWord 0)) 15 u) ∧ Straight sa0 15 := by
  obtain ⟨rows, h⟩ := step_reads 0 sa0 (by decide +kernel)
  exact ⟨⟨_, .stepAbsent _ _ _ rows _ h (by decide +kernel)⟩, sa0_straight15⟩
theorem wit_astep_included : (∃ u, AWord sa0 (.astep (stepWord 1)) 15 u) ∧ Straight sa0 15 := by
  obtain ⟨rows, h⟩ := step_reads 1 sa0 (by decide +kernel)
  exact ⟨⟨_, .stepIncluded _ _ _ rows _ pg h (by decide +kernel) (by decide +kernel) rfl rfl (Or.inl rfl)⟩, sa0_straight15⟩
theorem wit_astep_miss : (∃ u, AWord sa0 (.astep (stepWord 3)) 15 u) ∧ (∃ u, AWord sa0 (.astep (stepWord 2)) 15 u) ∧ Straight sa0 15 := by
  obtain ⟨rows, h⟩ := step_reads 3 sa0 (by decide +kernel)
  obtain ⟨rows', h'⟩ := step_reads 2 sa0 (by decide +kernel)
  exact ⟨⟨_, .stepMiss _ _ _ rows _ { pg with tier := 2 } _ _ h (by decide +kernel) (by decide +kernel) (Or.inl rfl) Prod.mk.eta.symm⟩,
    ⟨_, .stepMiss _ _ _ rows' _ { pg with tier := 1 } _ _ h' (by decide +kernel) (by decide +kernel) (Or.inr ⟨rfl, by decide +kernel⟩) Prod.mk.eta.symm⟩, sa0_straight15⟩
/-- ASTEP of a page in tier 1, with AUTOIN. -/
def sa1 : State := { on 256 (ka (q1 ||| BitVec.ofNat 512 (2 * 256 ^ 0x12))) with adies := [(0, ad)] }
theorem wit_astep_auto : ∃ u, AWord sa1 (.astep (stepWord 2)) 15 u := by
  obtain ⟨rows, h⟩ := step_reads 2 sa1 (by decide +kernel)
  exact ⟨_, .stepMissAuto _ _ _ rows _ { pg with tier := 1 } _ _ h (by decide +kernel) (by decide +kernel) rfl (by decide +kernel) (by decide +kernel) Prod.mk.eta.symm fun _ => by decide +kernel⟩
theorem wit_astep_retry : (∃ u, AWord sa0 (.astep (stepWord 4)) 15 u) ∧ Straight sa0 15 := by
  obtain ⟨rows, h⟩ := step_reads 4 sa0 (by decide +kernel)
  exact ⟨⟨_, .stepRetry _ _ _ rows _ { pg with seq := 1 } h (by decide +kernel) (by decide +kernel) rfl rfl⟩, sa0_straight15⟩
theorem wit_amerge : (∃ u, AWord sa0 (.amerge { aw with dst := .v 30, sa := .v 10, sb := .v 20 }) 3 u) ∧ (∃ u, AWord sa0 (.afin { aw with dst := .v 30, sa := .v 10, ty := .f32 }) 3 u) ∧ Straight sa0 3 := by
  obtain ⟨xs, hx⟩ := ok_is (sa0.srcBlock sa0.me.a (.v 10) 2 false) (by decide +kernel)
  obtain ⟨ys, hy⟩ := ok_is (sa0.srcBlock sa0.me.a (.v 20) 3 false) (by decide +kernel)
  exact ⟨⟨_, .amerge _ sa0.me.a xs ys (by decide +kernel) hx hy (by decide +kernel) (by decide +kernel)⟩,
    ⟨_, .afin _ sa0.me.a xs 1 (by decide +kernel) hx (by decide +kernel) (by decide) (by decide +kernel)⟩, sa0_straight⟩
theorem wit_kvgath : (∃ u, AWord sa0 (.kvgath { head := { aw with dst := .v 30, sa := .s 2, sb := .v 4 }, par := pf [0x501, 0, 0, 1] }) 15 u) ∧ Straight sa0 15 := by
  obtain ⟨ps, h⟩ := ok_is (sa0.aReach sa0.aMaster (gatherParts 0 1 0)) (by decide +kernel)
  exact ⟨⟨_, .kvgath _ [0x501, 0, 0, 1, 0, 0, 0, 0, 0, 0, 0, 0] 0 0 (.v 30) 0 1 ps (by decide +kernel) (by decide +kernel) rfl (by decide +kernel) (by decide +kernel)
    (by decide +kernel) (Or.inr ⟨rfl, by decide, rfl, rfl⟩) h⟩, sa0_straight15⟩
theorem wit_pgalloc : (∃ u, AWord sa0 (.pgalloc { aw with dst := .p 1, sc := .s 5 }) 3 u) ∧
    (∃ u, AWord { sa0 with adies := [] } (.pgalloc { aw with dst := .p 1, sc := .s 5 }) 3 u) ∧ Straight sa0 3 :=
  ⟨⟨_, .pgallocYes _ (({ sa0 with seq := sa0.seq + 1 } : State).aAlloc sa0.seq false).1 6 (by decide +kernel) rfl (Prod.ext rfl (by decide +kernel))⟩,
   ⟨_, .pgallocNo _ (({ sa0 with adies := [], seq := sa0.seq + 1 } : State).aAlloc sa0.seq false).1 (by decide +kernel) rfl (Prod.ext rfl (by decide +kernel))⟩, sa0_straight⟩
theorem wit_pgfree : (∃ u, AWord sa0 (.pgfree { aw with sa := .s 2 }) 3 u) ∧ (∃ u, AWord sa0 (.seqrd { aw with dst := .s 5, sa := .s 2 }) 3 u) ∧ Straight sa0 3 :=
  ⟨⟨_, .pgfree _ 0 pg (by decide +kernel) rfl (by decide +kernel) (by decide) rfl⟩, ⟨_, .seqrd _ 0 pg (by decide +kernel) rfl rfl (by decide +kernel)⟩, sa0_straight⟩
theorem wit_pxlook : (∃ u, AWord sa0 (.pxlook { head := { aw with dst := .v 30, sa := .v 4, sc := .s 5 }, par := pf [0x601, 0, 32, 1] }) 15 u) ∧ Straight sa0 15 :=
  ⟨⟨_, .pxlook _ [0x601, 0, 32, 1, 0, 0, 0, 0, 0, 0, 0, 0] [0] (.v 30) _ _ (by decide +kernel) (by decide +kernel) (by decide) (by decide +kernel) (by decide +kernel) rfl rfl (by decide +kernel) rfl⟩, sa0_straight15⟩
theorem wit_pxins : (∃ u, AWord sa0 (.pxins { aw with dst := .s 5, sa := .v 4, sb := .v 6, sc := .s 4 }) 3 u) ∧ Straight sa0 3 :=
  ⟨⟨_, .pxins _ 32 [0] (packV 32 [4]) _ _ _ _ (by decide +kernel) rfl (by decide) (by decide) (by decide) (by decide +kernel) (by decide +kernel) rfl rfl rfl (by decide +kernel) rfl
    (by decide +kernel) rfl⟩, sa0_straight⟩
theorem wit_pxrel : (∃ u, AWord sa0 (.pxrel { aw with sa := .v 6, sb := .s 1 }) 3 u) ∧ Straight sa0 3 :=
  ⟨⟨_, .pxrel _ (packV 32 [4]) 1 _ (by decide +kernel) (by decide +kernel) rfl (by decide) rfl (by decide +kernel)⟩, sa0_straight⟩
theorem wit_bmap : (∃ u, AWord sa0 (.bmapSet { a3 with sc := .s 4 }) 3 u) ∧ (∃ u, AWord sa0 (.bmapRdlo a3) 3 u) ∧ (∃ u, AWord sa0 (.bmapRdhi a3) 3 u) ∧
    (∃ u, AWord sa0 (.bmapClr a3) 3 u) ∧ Straight sa0 3 :=
  ⟨⟨_, .bmapSet _ 0 0 32 rfl rfl rfl ⟨by decide, by decide +kernel⟩ (by decide)⟩, ⟨_, .bmapRdlo _ 0 rfl rfl ⟨by decide, by decide +kernel⟩⟩,
   ⟨_, .bmapRdhi _ 0 rfl rfl ⟨by decide, by decide +kernel⟩⟩, ⟨_, .bmapClr _ 0 rfl ⟨by decide, by decide +kernel⟩⟩, sa0_straight⟩
theorem wit_tier : (∃ u, AWord sa0 (.tierin { a3 with dst := .p 1, sa := .s 1 }) 3 u) ∧ (∃ u, AWord sa0 (.tierout { a3 with dst := .p 1 }) 3 u) ∧ Straight sa0 3 :=
  ⟨⟨_, .tierin _ 1 0 { pg with tier := 1 } _ _ (by decide +kernel) rfl rfl (by decide +kernel) Prod.mk.eta.symm (fun _ => by decide +kernel) fun _ => by decide +kernel⟩,
   ⟨_, .tierout _ 0 0 pg _ _ (by decide +kernel) rfl rfl (by decide +kernel) Prod.mk.eta.symm (fun _ => by decide +kernel) fun _ => by decide +kernel⟩, sa0_straight⟩
/-- MergeCommutes: two rows of one length. -/
theorem wit_merge : ∃ x y : ARow, x.acc.length = y.acc.length ∧ x ≠ y := ⟨{ m := 0, l := 0, acc := [] }, { m := 1, l := 0, acc := [] }, rfl, by simp⟩
/-- Appends: a token at position 0 of a row whose first entry is page 0, whose slot 0 is free. -/
def sap : State := { sa0 with mem := [] }
def appWord : AForm := { aw with dst := .p 1, sa := .s 2, sb := .s 3, sc := .v 20, imm := 16 }
/-- How an append ends that reads now. -/
def endsBy (p : App → Bool) (v : Append × State) : Bool := match v.2.appendNow v.2.me.a v.1 with | .ok a => p a | .error _ => false
def endsNow (s : State) (beam : Bool) (p : App → Bool) : Prop := ∃ r t, appendHas s t appWord beam r ∧ endsBy p (r, t) = true
theorem ends_now (s : State) (beam : Bool) (p : App → Bool) (h0 : s.ctx.phase = .body)
    (h : (match s.readAppend appWord beam with | .ok v => endsBy p v | .error _ => false) = true) : endsNow s beam p := by
  cases e : s.readAppend appWord beam with
  | ok v => exact ⟨v.1, v.2, Or.inl ⟨h0, e⟩, by rw [e] at h; exact h⟩
  | error x => rw [e] at h; exact absurd h (by simp)
/-- AppendsComplete: an append to its row, one through an entry of the Beam Map, and one to a page on its way, which waits and is then in its phase. -/
def sapB : State := { sap with adies := [(0, { ad with beam := [(0, BitVec.ofNat 128 (2 ^ 127 + 2 ^ 100))] })] }
def sapL : State := { sap with mem := [(0, 2)] }
def isDone : App → Bool | .done _ ok => ok | _ => false
def isLater : App → Bool | .later _ _ => true | _ => false
theorem wit_appends : endsNow sap false isDone ∧ endsNow sapB true isDone ∧ endsNow sapL false isLater ∧ Straight sap 3 :=
  ⟨ends_now _ _ _ rfl (by decide +kernel), ends_now _ _ _ rfl (by decide +kernel), ends_now _ _ _ rfl (by decide +kernel), rfl, by decide, by decide, by decide⟩
def wait0 : Append := { id := 0, cyc := 0, word := appWord, isBeam := false, entry := none, copy := none, page := 0, row := 0, rowParts := none, blk := 0, slot := 0, img := List.replicate 128 1 }
def sapW : State := { sap with clusters := [(256, { sap.me with ctx := [(0, { e0 with phase := .kvapp wait0 })] })] }
theorem wit_append_waits : appendHas sapW sapW appWord false wait0 ∧
    (match sapW.appendNow sapW.me.a wait0 with | .ok a => isDone a | _ => false) = true := ⟨Or.inr ⟨by decide +kernel, rfl⟩, by decide +kernel⟩
/-- AppendedToken. -/
theorem wit_append_reads : ∃ img, appendReads sap appWord 0 0 sap.me.a img ∧ img.length = 128 := by
  obtain ⟨img, h, g⟩ := ok_with (sap.tokenImage sap.me.a appWord) (fun img => decide (img.length = 128)) (by decide +kernel)
  exact ⟨img, ⟨by decide +kernel, rfl, rfl, by decide +kernel, h, by decide⟩, of_decide_eq_true g⟩
theorem wit_append_row : appendRow sap appWord 0 (.kvapp appWord) 0 ∧ appendRow sapB appWord 0 (.kvappBeam appWord) 0 :=
  ⟨Or.inl ⟨rfl, rfl, rfl⟩, Or.inr ⟨rfl, by decide, by decide +kernel, by decide +kernel, by decide +kernel, by decide +kernel⟩⟩
theorem wit_appended_token : sap.ctx.phase = .body ∧ sap.aEntry 0 = .ok 0 ∧ sap.aDesc 0 = .ok pg ∧ pg.ro = false ∧
    sap.aPage sap.aMaster true (slotPa sap.me.a pg sap.me.a.kvh pg.fill) sap.me.a.hb = .ok () ∧ sap.ro = [] ∧
    0 % 32 = pg.fill ∧ pg.tier = 0 ∧ pg.refc.toNat ≤ 1 ∧ pg.shared = false ∧ sap.isMem (slotPa sap.me.a pg sap.me.a.kvh pg.fill) = true ∧
    sap.badAt (slotPa sap.me.a pg sap.me.a.kvh pg.fill) 128 = false := by decide +kernel
/-- BeamReorder: entry 0 takes its own row. -/
def sbm : State := { on 256 (ka q1) with adies := [(0, { ad with beam := [(0, BitVec.ofNat 128 (2 ^ 127))] })] }
theorem wit_beam_reorder : sbm.aHold false = .ok () ∧ sbm.srcS (.s 2) 2 false = .ok 0 ∧ sbm.srcV (.v 4) 3 false = .ok 0 ∧ (0 : Word).toNat + 1 ≤ 256 ∧
    (∀ b, b < 1 → beamV (sbm.beam (0 + b)) = true ∧ sbm.beamOther (sbm.beam (0 + b)) = false ∧ elemOf 32 b (0 : VWord).toNat < 1) ∧ sbm.copyFrozen sbm.myA = false ∧
    (sbm.rowsPages (beamViews sbm 0 1 fun b => elemOf 32 b (0 : VWord).toNat) (distinct (((List.range 1).map fun b => beamRow (sbm.beam (0 + b))) ++
      (List.range 1).map fun b => beamRow (sbm.beam (0 + elemOf 32 b (0 : VWord).toNat))))).toOption.isSome = true := by decide +kernel

/-! ### Distributors -/

/-- The module with every hub core running; core 0 is the one supervisor. -/
def hs : State := { State.reset with hub := { Hub.reset with coresRun := 0xFFFF, supv := 1, sup := 1 } }
/-- A module that runs, where a hub core may not write. -/
theorem hs_core : CoreOn hs 0 := ⟨by decide, by decide, by decide⟩
/-- A record that is reissue-safe. -/
def rs : BitVec 1024 := BitVec.ofNat 1024 (2 ^ 52)
/-- A record with its task keyed by tag 7. -/
def rk : BitVec 1024 := BitVec.ofNat 1024 (2 ^ 51 + 7 * 2 ^ 128)
/-- A waiting task of a record. -/
def tk (r : BitVec 1024) : Task :=
  { tid := recTid r, rcd := r, seq := 0, waits := [], cnt := 0, released := false, ready := none, place := .waiting, issued := 0, xst := false
    wrel := false, holds := none, missed := [], deadline := 0, ranOn := none, issueNo := 0, sram := [] }
/-- Ring die 0 with some tasks. -/
def dq (l : List Task) : State := { hs with dists := [(0, { Dist.reset with tasks := l })] }
/-- A partition whose master lies in another module; a module with A-die 1 in reset. -/
def farMaster : State := { hs with dists := [(0, { Dist.reset with master := 300 })] }
def dieDown : State := hs.modHub fun h => { h with held := 2 }
theorem wit_submission : (∃ u, DistEvent hs (.hubSubmission 0 0 ⟨0, none⟩) u) ∧ (∃ u, DistEvent hs (.hubSubmission 0 0 ⟨rs, none⟩) u) ∧
    (∃ u, DistEvent hs (.hubSubmission 0 0 ⟨(BitVec.ofNat 1024 (2 ^ 48)), none⟩) u) ∧ (∃ u, DistEvent (dq (List.replicate 512 (tk 0))) (.hubSubmission 0 0 ⟨0, none⟩) u) ∧
    (∃ u, DistEvent (dq (List.replicate 512 (tk 0))) (.hubSubmission 0 0 ⟨0, some (0, 64)⟩) u) ∧ (∃ u, DistEvent hs (.hubSubmission 0 0 ⟨rs, some (0, 64)⟩) u) ∧
    (∃ u, DistEvent farMaster (.hubSubmission 0 0 ⟨rs, some (0, 64)⟩) u) ∧ (∃ u, DistEvent dieDown (.hubSubmission 0 9 ⟨rs, none⟩) u) :=
  ⟨⟨_, .submit _ _ _ hs_core (by decide) (by decide) (by decide) (by decide +kernel) (Or.inl (by decide +kernel))⟩,
   ⟨_, .submitSafe _ _ _ hs_core (by decide) (by decide) (by decide) (by decide +kernel) (by decide +kernel) (by decide)⟩,
   ⟨_, .bad _ _ _ hs_core (by decide) (by decide) (by decide) (by decide +kernel)⟩,
   ⟨_, .full _ _ _ ⟨by decide, by decide, by decide⟩ (by decide) (by decide) (by decide +kernel)⟩,
   ⟨_, .fullRange _ _ _ _ _ ⟨by decide, by decide, by decide⟩ (by decide) (by decide) (by decide +kernel)⟩,
   ⟨_, .launched _ _ _ _ _ 0 hs_core (by decide) (by decide) (by decide) (by decide +kernel)⟩,
   ⟨_, .launchedFar _ _ _ _ _ ⟨by decide, by decide, by decide⟩ (by decide) (by decide) (by decide) (by decide +kernel)⟩,
   ⟨_, .notUp _ _ _ ⟨by decide, by decide, by decide⟩ (by decide) (by decide)⟩⟩
/-- Ring die 0 with a signal that came early at tick 0, after some ticks. -/
def eq0 (n : Nat) : State := { hs with dists := [(0, { Dist.reset with early := [(9, { count := 1, tick := 0 })] })], rings := [(0, { Ring.reset with ticks := n })] }
theorem wit_expiry : (∃ u, DistEvent (eq0 4194304) (.earlySignalExpiry 0 9) u) ∧ (∃ u, DistEvent (eq0 4194303) (.earlySignalExpiry 0 9) u) :=
  ⟨⟨_, .expired _ _ { count := 1, tick := 0 } (by decide +kernel) (by decide +kernel)⟩, ⟨_, .early _ _ { count := 1, tick := 0 } (by decide +kernel) (by decide +kernel)⟩⟩
/-- A segment with tag 7. -/
def sg : Seg := { pos := 3, tag := 7, len := 0, splen := 0, fmt := 5, first := true, bytes := [], bad := [], lost := false, moved := 0 }
/-- Ring die 0 in a window of that tag with some tasks. -/
def kq (l : List Task) : State := { dq l with rings := [(0, { Ring.reset with run := true, inWin := true, win := some sg })] }
theorem wit_release : (∃ u, DistEvent (dq [tk 0]) (.taskRelease 0 0) u) ∧ (∃ u, DistEvent (kq [tk rk]) (.taskRelease 0 0) u) ∧
    (∃ u, DistEvent (dq [tk rk]) (.taskRelease 0 0) u) ∧ (∃ u, DistEvent (dq [{ tk 0 with cnt := 1 }]) (.taskRelease 0 0) u) ∧
    (∃ u, DistEvent (dq [tk (BitVec.ofNat 1024 (1 <<< 160))]) (.taskRelease 0 0) u) :=
  ⟨⟨_, .release _ _ (tk 0) (by decide +kernel) ⟨rfl, rfl, rfl, rfl⟩ (by decide +kernel) (Or.inl (by decide +kernel))⟩,
   ⟨_, .release _ _ (tk rk) (by decide +kernel) ⟨rfl, rfl, rfl, rfl⟩ (by decide +kernel) (Or.inr ⟨by decide +kernel, ⟨⟨0, 7⟩, by decide +kernel, by decide +kernel⟩⟩)⟩,
   ⟨_, .heldBack _ _ (tk rk) (by decide +kernel) (Or.inr (Or.inr ⟨by decide +kernel, Or.inr fun g h => by
      have : (dq [tk rk]).genNow 0 = none := by decide +kernel
      rw [this] at h; exact absurd h (by simp)⟩))⟩,
   ⟨_, .heldBack _ _ { tk 0 with cnt := 1 } (by decide +kernel) (Or.inl fun h => absurd h.2.1 (by decide))⟩,
   ⟨_, .heldBack _ _ (tk (BitVec.ofNat 1024 (1 <<< 160))) (by decide +kernel) (Or.inr (Or.inl (by decide +kernel)))⟩⟩
/-- Every ring die bypassed. -/
def allBypassed : State := { hs with rings := (List.range 8).map fun d => (d, { Ring.reset with bypass := 0xFF }) }
theorem wit_source : (∃ u, DistEvent { hs with rings := [(1, { Ring.reset with bypass := 1 })] } (.timingSourceChange 0) u) ∧
    (∃ u, DistEvent { hs with dists := [(8, { Dist.reset with held := true })] } (.timingSourceChange 0) u) ∧ (∃ u, DistEvent allBypassed (.timingSourceChange 0) u) ∧
    (∃ u, DistEvent { hs with cycle := 65 } (.timingSourceChange 0) u) :=
  ⟨⟨_, .source 0 1 (by decide) (by decide) (by decide +kernel) (Or.inl (by decide +kernel))⟩, ⟨_, .source 0 0 (by decide) (by decide) (by decide +kernel) (Or.inr (by decide +kernel))⟩,
   ⟨_, .noSource 0 (by decide) (by decide) (by decide +kernel) (by decide +kernel)⟩, ⟨_, .midTick 0 (by decide)⟩⟩
theorem wit_distributor_message : (∃ u, DistEvent hs (.distributorMessageArrival (.election 0 2)) u) ∧
    (∃ u, DistEvent hs (.distributorMessageArrival (.launch 0 rs 0xA00 0 8)) u) ∧ (∃ u, DistEvent hs (.distributorMessageArrival (.reissue 0 rs 0 8)) u) ∧
    (∃ u, DistEvent dieDown (.distributorMessageArrival (.launch 9 rs 0xA00 0 8)) u) ∧ (∃ u, DistEvent hs (.distributorMessageArrival (.ringRun true)) u) :=
  ⟨⟨_, .election _ _ (by decide)⟩, ⟨_, .launch _ _ _ _ _ (by decide) (by decide)⟩, ⟨_, .reissue _ _ _ _ (by decide) (by decide)⟩,
   ⟨_, .notTaken _ _ _ _ _ (by decide)⟩, ⟨_, .ringRun true⟩⟩
/-- TaskStarts. -/
theorem wit_task_starts : dieOf 0 = 0 ∧ (dq [{ tk 0 with ready := some (0, 0) }]).openCluster 0 = true ∧
    firstReady ((dq [{ tk 0 with ready := some (0, 0) }]).readyFor 0 0) = some { tk 0 with ready := some (0, 0) } := by decide +kernel
/-- TaskRetires: a task that has ended, and one that is killed. -/
def ended0 : State := { dq [{ tk 0 with place := .running 0 }] with clusters := [(0, { k0 with ctx := [(0, { Ctx.reset with run := .arrived })] })] }
theorem wit_task_retires : ended0.taskOn 0 = some { tk 0 with place := .running 0 } ∧ (ended0.sup (dieOf 0)).cmd ≠ some (.kill 0) ∧
    ((ended0.cl 0).cx 0).run = .arrived ∧ ended0.quiet 0 = true ∧ (ended0.cl 0).pend = [] ∧ (ended0.cl 0).land = [] ∧
    ((ended0.cl 0).cx 5).trapHandler = false ∧ ((ended0.cl 0).cx 6).trapHandler = false ∧ (ended0.cl 0).marks = [] ∧ (ended0.cl 0).m.drop = [] ∧ (ended0.dist (dieOf 0)).todo = [] ∧
    ({ ended0 with sups := [(0, { Sup.reset with cmd := some (.kill 0) })] } : State).quiet 0 = true := by decide +kernel

/-! ### The ring -/

/-- Ring die 0 at the end of its first tick, in a window, with some tasks. -/
def rg (r : Ring) (l : List Task) : State := { dq l with cycle := 63, rings := [(0, { r with run := true, inWin := true, win := some sg })] }
/-- A task that holds the window. -/
def hold7 : Task := { tk rk with released := true, place := .running 0, holds := some ⟨0, 7⟩ }
theorem wit_tick_within : (∃ u, RingEvent (rg Ring.reset [hold7]) (.tickEnd 0) u) ∧ (∃ u, RingEvent (rg Ring.reset []) (.tickEnd 0) u) ∧
    (∃ u, RingEvent (rg { Ring.reset with tick := 34 } []) (.tickEnd 0) u) :=
  ⟨⟨_, .within _ ⟨⟨by decide, rfl, rfl, by decide +kernel⟩, by unfold LastCycle; decide, rfl⟩ rfl (by decide) (Or.inl (by decide +kernel))⟩, ⟨_, .within _ ⟨⟨by decide, rfl, rfl, by decide +kernel⟩, by unfold LastCycle; decide, rfl⟩ rfl (by decide) (Or.inr (Or.inl (by decide)))⟩,
   ⟨_, .within _ ⟨⟨by decide, rfl, rfl, by decide +kernel⟩, by unfold LastCycle; decide, rfl⟩ rfl (by decide) (Or.inr (Or.inr (by decide)))⟩⟩
theorem wit_tick_early : ∃ u, RingEvent (rg { Ring.reset with tick := 34, slackMax := 1 } []) (.tickEnd 0) u :=
  ⟨_, .earlyRelease _ ⟨⟨by decide, rfl, rfl, by decide +kernel⟩, by unfold LastCycle; decide, rfl⟩ rfl (by decide) (by decide +kernel) (by decide) (by decide)⟩
theorem wit_tick_on_time : (∃ u, RingEvent (rg { Ring.reset with tick := 35 } []) (.tickEnd 0) u) ∧
    (∃ u, RingEvent (rg { Ring.reset with tick := 35, slack := 1 } [hold7]) (.tickEnd 0) u) ∧ (∃ u, RingEvent (rg { Ring.reset with tick := 35 } [hold7]) (.tickEnd 0) u) ∧
    (∃ u, RingEvent (rg { Ring.reset with tick := 35, slack := 2, stall := true } [hold7]) (.tickEnd 0) u) :=
  ⟨⟨_, .onTime _ ⟨⟨by decide, rfl, rfl, by decide +kernel⟩, by unfold LastCycle; decide, rfl⟩ rfl (by decide) (by decide +kernel)⟩, ⟨_, .stalls _ ⟨⟨by decide, rfl, rfl, by decide +kernel⟩, by unfold LastCycle; decide, rfl⟩ rfl (by decide) (by decide +kernel) (by decide)⟩,
   ⟨_, .skips _ ⟨⟨by decide, rfl, rfl, by decide +kernel⟩, by unfold LastCycle; decide, rfl⟩ rfl (by decide) (by decide +kernel) rfl⟩, ⟨_, .stallGoesOn _ ⟨⟨by decide, rfl, rfl, by decide +kernel⟩, by unfold LastCycle; decide, rfl⟩ rfl (by decide +kernel) (by decide)⟩⟩
/-- RingEvents: the last stalled tick with a holder left, and one with none. -/
theorem wit_tick_stall_ends : (∃ u, RingEvent (rg { Ring.reset with tick := 35, slack := 1, stall := true } [hold7]) (.tickEnd 0) u) ∧
    (∃ u, RingEvent (rg { Ring.reset with tick := 35, slack := 3, stall := true } []) (.tickEnd 0) u) :=
  ⟨⟨_, .stallSkips _ ⟨⟨by decide, rfl, rfl, by decide +kernel⟩, by unfold LastCycle; decide, rfl⟩ rfl (by decide +kernel) rfl⟩,
   ⟨_, .stallReleased _ ⟨⟨by decide, rfl, rfl, by decide +kernel⟩, by unfold LastCycle; decide, rfl⟩ rfl (by decide +kernel)⟩⟩
/-- Ring die 0, its own successor die 1, and die 1. -/
def rr (r r' : Ring) : State := { hs with rings := [(0, { r with run := true, succD := 1 }), (1, { r' with run := true })] }
theorem wit_frame_start : ∃ u, RingEvent (rr { Ring.reset with incoming := some sg } Ring.reset) (.frameStart 0) u :=
  ⟨_, .start _ ⟨by decide, rfl, rfl, by decide +kernel⟩ rfl (by decide +kernel) (by decide)⟩
theorem wit_forward : (∃ u, RingEvent (rr { Ring.reset with fwd := [sg] } Ring.reset) (.segmentForward 0) u) ∧
    (∃ u, RingEvent (rr { Ring.reset with fwd := [sg] } { Ring.reset with fifo := List.replicate 224 sg }) (.segmentForward 0) u) :=
  ⟨⟨_, .forward 0 sg [] 1 rfl (by decide +kernel) rfl rfl (by decide +kernel) (by decide +kernel) (by decide +kernel) rfl⟩,
   ⟨_, .noCredit 0 sg [] 1 rfl (by decide +kernel) (by decide +kernel)⟩⟩
/-- Ring die 0 of a ring that leaves the module for module 1, its heartbeat 64 ticks old; and of one of whose members here one does not run. -/
def farRing : State := { hs with hub := { hs.hub with farRun := true }, rings := (List.range 8).map fun d => (d, { Ring.reset with run := true, nseg := 1, ticks := 64, succMod := 1, succD := BitVec.ofNat 3 d }) }
def halfRing : State := { farRing with rings := [(0, { Ring.reset with run := true, nseg := 1, succMod := 1 })] }
/-- The same, with the Ring Forwarders' reads permitted everywhere. -/
def rf (r : Ring) : State := { rr r Ring.reset with access := (List.range 14).map fun t => (t * 4096 + 0xA18, 0xF) }
theorem wit_arrival : (∃ u, RingEvent (rr { Ring.reset with onWay := [sg] } Ring.reset) (.segmentArrival 1 []) u) ∧
    (∃ u, RingEvent (rf { Ring.reset with fifo := [{ sg with lost := true }] }) (.segmentRefetch 0 3) u) :=
  ⟨⟨_, .arrive 1 0 sg [] [] (by decide +kernel) (by decide +kernel) (by decide +kernel) rfl⟩,
   ⟨_, .refetch 0 3 ⟨by decide, rfl, rfl, by decide +kernel⟩ (by decide +kernel) ⟨{ sg with lost := true }, by decide +kernel, rfl, Or.inl rfl⟩ rfl (Or.inr (by decide +kernel))⟩⟩
theorem wit_losses : (∃ u, RingEvent (rr { Ring.reset with ticks := 64 } Ring.reset) (.heartbeatTimeout 0 1) u) ∧ (∃ u, RingEvent (rr { Ring.reset with ticks := 63 } Ring.reset) (.heartbeatTimeout 0 1) u) ∧
    (∃ u, RingEvent farRing (.heartbeatTimeout 0 512) u) ∧ (∃ u, RingEvent (rr Ring.reset Ring.reset) (.segmentStoreError 0) u) ∧
    (∃ u, RingEvent (rr { Ring.reset with repairing := true } Ring.reset) (.repairComplete 0) u) ∧
    (∃ u, RingEvent (rr Ring.reset { Ring.reset with lost := [4] }) (.repairComplete 0) u) :=
  ⟨⟨_, .timeout 0 1 ⟨by decide, rfl, rfl, by decide +kernel⟩ (by decide) (by decide) (by decide) (Or.inl (by decide +kernel))⟩, ⟨_, .beating 0 1 (by decide)⟩,
   ⟨_, .timeoutFar 0 512 ⟨by decide, rfl, rfl, by decide +kernel⟩ (by decide) (by decide) (by decide +kernel)⟩, ⟨_, .storeError 0⟩, ⟨_, .repaired 0 (by decide) rfl (by decide +kernel)⟩,
   ⟨_, .notRepaired 0 1 (by decide) (by decide +kernel) (by decide +kernel)⟩⟩
/-- RingEvents: a tick of a starved die, one of a die whose ring does not run yet, and the re-injection of a segment, which copy engine 0 reads. -/
theorem wit_starved_fifo : (∃ u, RingEvent { rr { Ring.reset with fifo := [sg] } Ring.reset with cycle := 63 } (.tickEnd 0) u) ∧
    (∃ u, RingEvent { rr { Ring.reset with fifo := [{ sg with lost := true }] } Ring.reset with cycle := 63 } (.tickEnd 0) u) ∧
    (∃ u, RingEvent { rr { Ring.reset with incoming := some sg } Ring.reset with cycle := 63 } (.tickEnd 0) u) :=
  ⟨⟨_, .starvedFills 0 sg [] ⟨by decide, rfl, rfl, by decide +kernel⟩ (by unfold LastCycle; decide) rfl rfl rfl rfl rfl (by decide) rfl⟩,
   ⟨_, .starvedWaits 0 { sg with lost := true } [] ⟨by decide, rfl, rfl, by decide +kernel⟩ (by unfold LastCycle; decide) rfl rfl rfl (Or.inl rfl)⟩,
   ⟨_, .starvedStarts 0 sg ⟨by decide, rfl, rfl, by decide +kernel⟩ (by unfold LastCycle; decide) rfl rfl⟩⟩
theorem wit_starved : (∃ u, RingEvent { rr Ring.reset Ring.reset with cycle := 63 } (.tickEnd 0) u) ∧ (∃ u, RingEvent { halfRing with cycle := 63 } (.tickEnd 0) u) :=
  ⟨⟨_, .starved 0 ⟨by decide, rfl, rfl, by decide +kernel⟩ (by unfold LastCycle; decide) rfl rfl rfl⟩,
   ⟨_, .notStarted 0 (by decide) rfl rfl (by decide +kernel) (by unfold LastCycle; decide)⟩⟩
def ri (r : Ring) : State := { rr r Ring.reset with access := (List.range 14).map fun t => (t * 4096 + 0xA10, 0xF) }
theorem wit_reinject : ∃ u, RingEvent (ri { Ring.reset with lost := [4] }) (.segmentRefetch 0 4) u :=
  ⟨_, .reinject 0 4 [] ⟨by decide, rfl, rfl, by decide +kernel⟩ (by decide +kernel) (by decide +kernel) rfl (by decide +kernel) rfl rfl (Or.inr (by decide +kernel))⟩
/-- FramesTurn; LossesAreRepaired, of a ring that may lose one and of one that may not. -/
theorem wit_frames_and_losses : ((rr { Ring.reset with incoming := some sg } Ring.reset).ring 0).incoming = some sg ∧
    ((rr { Ring.reset with rcap := true } { Ring.reset with rcap := true }).ring 1).run = true ∧ ((rr { Ring.reset with rcap := true } { Ring.reset with rcap := true }).ring 1).rcap = true ∧ (rr { Ring.reset with rcap := true } { Ring.reset with rcap := true }).bypassed 1 = false ∧
    ((rr { Ring.reset with rcap := true } Ring.reset).liveDies ((rr { Ring.reset with rcap := true } Ring.reset).partOf 1)).filter (· != 1) = [0, 2, 3, 4, 5, 6, 7] ∧
    (∀ q, q < 8 → q ≠ 1 → (rr { Ring.reset with rcap := true } Ring.reset).partOf q = (rr { Ring.reset with rcap := true } Ring.reset).partOf 1 →
      (rr { Ring.reset with rcap := true } Ring.reset).succHere q = some 1 → ((rr { Ring.reset with rcap := true } Ring.reset).ring q).run = true →
      ((rr { Ring.reset with rcap := true } Ring.reset).modRing q fun r => { r with
        succMod := ((rr { Ring.reset with rcap := true } Ring.reset).ring 1).succMod, succD := ((rr { Ring.reset with rcap := true } Ring.reset).ring 1).succD }).ringDead q = false) ∧
    ((rr Ring.reset Ring.reset).ring 1).run = true ∧ (rr Ring.reset Ring.reset).bypassed 1 = false ∧
    (((rr Ring.reset Ring.reset).liveDies ((rr Ring.reset Ring.reset).partOf 1)).filter (· != 1)).head? = some 0 ∧ ((rr Ring.reset Ring.reset).ring 1).rcap = false ∧
    ((rr Ring.reset Ring.reset).dist 0).master < 8 := by decide +kernel

/-! ### The supervisor -/

/-- Ring die 0 with a supervisor block, tasks and a cluster 0. -/
def sv (b : Sup) (q : Dist) (l : SMap Cluster) : State := { hs with sups := [(0, b)], dists := [(0, q)], clusters := l }
/-- A task of team 0 that runs on cluster 0. -/
def run0 : Task := { tk 0 with place := .running 0 }
def dt : Dist := { Dist.reset with tasks := [run0] }
/-- A cluster whose C engine has trapped. -/
def kt : Cluster := { k0 with halted := true, ctx := [(0, { e0 with run := .trapped, tpc := 8 })] }
/-- A block with cluster 0 escalated. -/
def esc0 : Sup := { Sup.reset with esc := 1 }
def drain3 : Dist := { dt with pre := some { team := 3, act := .drain, noDrain := false, since := 0 } }
/-- Core 0 may write a register of ring die 0's block. -/
def supOk (s : State) (o : Nat) : Bool :=
  s.hub.coresRun.getLsbD 0 && !(s.sup 12).frz.getLsbD 0 && s.mayAccess 0xA00 bitW (s.cfgPa (0x13000 + o)) && s.superOfDie 0 == some 0
theorem super_of (s : State) (o : Nat) (h : supOk s o = true) : SuperMay s 0 0 o := by
  simp only [supOk, Bool.and_eq_true, Bool.not_eq_true', beq_iff_eq] at h
  exact ⟨⟨by decide, h.1.1.1, h.1.1.2, by simpa using h.1.2⟩, by decide, h.2⟩
theorem sv_may : SuperMay (sv { Sup.reset with rspDone := false } dt [(0, k0)]) 0 0 0x18 ∧ SuperMay (sv esc0 dt [(0, kt)]) 0 0 0x18 ∧
    SuperMay (sv { esc0 with frz := 1 } dt [(0, kt)]) 0 0 0x18 ∧ SuperMay (sv Sup.reset dt [(0, k0)]) 0 0 0x18 ∧ SuperMay (sv Sup.reset drain3 [(0, k0)]) 0 0 0x18 ∧
    SuperMay (sv esc0 dt [(0, k0)]) 0 0 0x18 ∧ SuperMay (sv { Sup.reset with swap := [(0, none)] } dt [(0, k0)]) 0 0 0x18 ∧
    SuperMay (sv Sup.reset dt []) 0 0 0 ∧ SuperMay (sv Sup.reset dt []) 0 0 0x10 ∧ SuperMay (sv Sup.reset dt []) 0 0 0x38 := by
  refine ⟨?_, ?_, ?_, ?_, ?_, ?_, ?_, ?_, ?_, ?_⟩ <;> exact super_of _ _ (by decide +kernel)
theorem wit_sup_busy : ∃ u, SupWord (sv { Sup.reset with rspDone := false } dt [(0, k0)]) 0 0 (.kill 0 0 0) 0x18 u :=
  ⟨_, .busy _ 0 0 rfl (by simp)⟩
theorem wit_sup_retry : (∃ u, SupWord (sv esc0 dt [(0, kt)]) 0 0 (.retry 0 0 0) 0x18 u) ∧ (∃ u, SupWord (sv esc0 dt [(0, kt)]) 0 0 (.skip 0 0 0) 0x18 u) ∧
    (∃ u, SupWord (sv esc0 dt [(0, kt)]) 0 0 (.retry 0 0 31) 0x18 u) ∧ (∃ u, SupWord (sv { esc0 with frz := 1 } dt [(0, kt)]) 0 0 (.skip 0 0 0) 0x18 u) :=
  ⟨⟨_, .retry 0 rfl rfl rfl⟩, ⟨_, .skip 0 rfl rfl rfl⟩, ⟨_, .retryNot 31 rfl (Or.inl rfl)⟩, ⟨_, .skipNot 0 rfl (Or.inr rfl)⟩⟩
theorem wit_sup_kill : (∃ u, SupWord (sv esc0 dt [(0, kt)]) 0 0 (.kill 0 0 0) 0x18 u) ∧ (∃ u, SupWord (sv esc0 dt [(0, kt)]) 0 0 (.kill 0 0 31) 0x18 u) :=
  ⟨⟨_, .kill 0 0 rfl (by decide) rfl⟩, ⟨_, .killNot 31 rfl (Or.inr rfl)⟩⟩
theorem wit_sup_save : (∃ u, SupWord (sv Sup.reset dt [(0, k0)]) 0 0 (.saveTeam 0 0 0) 0x18 u) ∧ (∃ u, SupWord (sv Sup.reset dt [(0, k0)]) 0 0 (.saveTeam 0 0 1) 0x18 u) ∧
    (∃ u, SupWord (sv Sup.reset drain3 [(0, k0)]) 0 0 (.saveTeam 0 0 0) 0x18 u) :=
  ⟨⟨_, .save 0 0 rfl ⟨run0, List.mem_singleton_self _, by decide +kernel⟩ rfl (by decide +kernel) (by decide +kernel)⟩, ⟨_, .saveNot 1 rfl (by decide +kernel)⟩,
   ⟨_, .saveLater 0 { team := 3, act := .drain, noDrain := false, since := 0 } rfl ⟨run0, List.mem_singleton_self _, by decide +kernel⟩ rfl⟩⟩
theorem wit_sup_swap : (∃ u, SupWord (sv Sup.reset dt [(0, k0)]) 0 0 (.swapout 0 0) 0x18 u) ∧ (∃ u, SupWord (sv esc0 dt [(0, k0)]) 0 0 (.swapout 0 0) 0x18 u) ∧
    (∃ u, SupWord (sv { Sup.reset with swap := [(0, none)] } dt [(0, k0)]) 0 0 (.swapin 0 0) 0x18 u) ∧ (∃ u, SupWord (sv Sup.reset dt [(0, k0)]) 0 0 (.swapin 0 0) 0x18 u) :=
  ⟨⟨_, .swapout rfl (by decide +kernel) rfl rfl rfl (by decide +kernel)⟩, ⟨_, .swapoutNot rfl (Or.inr (Or.inl (by decide)))⟩,
   ⟨_, .swapin rfl (by decide)⟩, ⟨_, .swapinNot rfl rfl⟩⟩
theorem wit_sup_registers : (∃ u, SupWord (sv Sup.reset dt []) 0 0 (.frz 0 0 1) 0 u) ∧ (∃ u, SupWord (sv Sup.reset dt []) 0 0 (.agfrz 0 0 1) 0x10 u) ∧
    (∃ u, SupWord (sv Sup.reset dt []) 0 8 (.agfrz 0 8 1) 0x10 u) ∧ (∃ u, SupWord (sv Sup.reset dt []) 0 8 (.agfrz 0 8 0) 0x10 u) ∧
    (∃ u, SupWord (sv Sup.reset dt []) 0 0 (.estclr 0 0 false 9) 0x38 u) ∧ (∃ u, SupWord (sv Sup.reset dt []) 0 0 (.estclr 0 0 true 0) 0x38 u) :=
  ⟨⟨_, .frz 1⟩, ⟨_, .agfrz (by decide)⟩, ⟨_, .agfrzCopy (by decide)⟩, ⟨_, .agfrzKeep⟩, ⟨_, .estclr 9⟩, ⟨_, .estclrAll 0⟩⟩
/-- SupervisorWords: core 1 is no supervisor; core 0 may write the hub's FRZ. -/
theorem wit_sup_other : SupTouch 1 0 (.kill 1 0 0) 0x18 ∧ SupTouch 1 0 (.frz 1 0 1) 0 ∧ SupTouch 1 0 (.agfrz 1 0 1) 0x10 ∧ SupTouch 1 0 (.estclr 1 0 true 0) 0x38 ∧ CoreMay hs 1 (0x13000 + 0 * 0x100 + 0x18) ∧ hs.superOfDie 0 ≠ some 1 ∧ CoreMay hs 0 0x13C00 ∧ hs.hub.supv.getLsbD 0 = true :=
  ⟨.kill 0, .frz 1, .agfrz 1, .estclr true 0, ⟨by decide, by decide, by decide, by decide +kernel⟩, by decide +kernel, ⟨by decide, by decide, by decide, by decide +kernel⟩, by decide⟩
/-- EstimatorChooses: drain, discard, save, discard although late, save although late, drain although late. -/
theorem wit_estimator : ((27 ≤ 50 ∧ 27 ≤ 2 * 61) ∧ ¬ (900 ≤ 50 ∧ 900 ≤ 2 * 61) ∧ 100 ≤ 2 * 61) ∧ 61 ≤ 100 ∧ 2 * 61 < 500 ∧ ¬ (61 ≤ 50 ∧ true = true) ∧ 61 ≤ 900 ∧
    ¬ (61 ≤ 900 ∧ false = true) := by decide

/-! ### Pre-emption -/

/-- Ring die 0 with one cluster, pre-empting. -/
def pq (p : Preempt) (k : Cluster) : State := sv Sup.reset { dt with pre := some p } [(0, k)]
def saving0 : Preempt := { team := 0, act := .save, noDrain := false, since := 0 }
theorem wit_preempt : (∃ u, PreEvent (pq saving0 k0) (.preemptionCheck 0) u) ∧ (∃ u, PreEvent (sv { Sup.reset with cmd := some (.save 0) } dt [(0, k0)]) (.preemptionCheck 0) u) ∧
    (∃ u, PreEvent (sv Sup.reset dt [(0, k0)]) (.preemptionCheck 0) u) ∧
    (∃ u, PreEvent { sv Sup.reset dt [(0, k0)] with cycle := 65 } (.preemptionCheck 0) u) :=
  ⟨⟨_, .goesOn 0 saving0 (by decide) rfl⟩, ⟨_, .supervisors 0 0 (by decide) rfl rfl⟩, ⟨_, .nobodyAsks 0 (by decide) rfl ⟨by simp [sv, SMap.get, State.sup, Sup.reset], by decide⟩ (by decide +kernel)⟩,
   ⟨_, .midTick 0 (by decide) rfl (by simp [sv, SMap.get, State.sup, Sup.reset]) (by decide)⟩⟩
/-- Cluster 0 with a task of class 3 on it, which runs for the task x of class 0 to wait one tick. -/
def low : BitVec 1024 := BitVec.ofNat 1024 (3 * 2 ^ 54)
def klow : Cluster := { k0 with task := some low }
def high : Task := { tk (BitVec.ofNat 1024 9) with deadline := 2 ^ 20, ready := some (0, 0) }
def waitsFor : State := { sv Sup.reset { Dist.reset with tasks := [{ tk low with place := .running 0 }, high] } [(0, klow)] with rings := [(0, { Ring.reset with ticks := 1 })] }
theorem wit_preempt_chosen : ∃ u, PreEvent waitsFor (.preemptionCheck 0) u :=
  ⟨_, .chosen 0 high 0 (by decide) rfl ⟨by simp [waitsFor, sv, SMap.get, State.sup, Sup.reset], by decide⟩ (by decide +kernel) (by decide +kernel)⟩
/-- Cluster 0 being saved. -/
def sav (k : Cluster) : State := { pq saving0 { k with saving := true } with dists := [(0, { dt with pre := some saving0 })] }
def kdone : Cluster := { k0 with ctx := [(0, { e0 with stopped := true })] }
theorem wit_saved : (∃ u, PreEvent (sav kdone) (.saveImageComplete 0) u) ∧
    (∃ u, PreEvent (sav { kdone with ctx := [(0, { e0 with phase := .post })] }) (.saveImageComplete 0) u) :=
  ⟨⟨_, .saved 0 0 run0 (by decide) (by decide) (by decide +kernel) (Or.inl rfl) (by decide +kernel) (by decide +kernel)⟩,
   ⟨_, .notYet 0 run0 (by decide) (by decide) (by decide +kernel) rfl (by decide +kernel)⟩⟩
theorem wit_falls_back : (∃ u, PreEvent { pq saving0 k0 with rings := [(0, { Ring.reset with ticks := 4096 })] } (.saveDrainFallback 0) u) ∧
    (∃ u, PreEvent (pq saving0 k0) (.saveDrainFallback 0) u) :=
  ⟨⟨_, .fallsBack 0 saving0 rfl rfl rfl (by decide)⟩, ⟨_, .keepsSaving 0 saving0 rfl (Or.inr (Or.inr (by decide)))⟩⟩
/-- The image of a cluster that has done nothing: its magic, format and kind. -/
def back0 (img : SMap Byte) : State :=
  sv Sup.reset { Dist.reset with tasks := [{ run0 with place := .saved 0, ready := some (0, 0) }]
                                 shadow := [(0, { img := img, ctxs := [], fails := [], steps := 0, traps := [] })] } []
def img0 : SMap Byte := [(0, 0x43), (1, 0x58), (2, 0x54), (3, 0x43), (4, 1)]
/-- The task of that image. -/
def saved0 : Task := { run0 with place := .saved 0, ready := some (0, 0) }
theorem wit_restored : (∃ u, PreEvent (back0 img0) (.contextRestore 0 0) u) ∧ (∃ u, PreEvent (back0 []) (.contextRestore 0 0) u) :=
  ⟨⟨_, .restored 0 0 saved0 (by decide) (by decide) (by decide +kernel) (by decide +kernel) rfl (by decide +kernel)⟩,
   ⟨_, .restoreFails 0 0 saved0 (by decide) (by decide) (by decide +kernel) (by decide +kernel) rfl (by decide +kernel)⟩⟩
/-- SavedImage. -/
theorem wit_saved_image : (sav kdone).taskOn 0 = some run0 ∧ ((sav kdone).cl 0).m.drop = [] ∧ dieOf 0 < 8 := by decide +kernel

/-! ### Pages -/

/-- A module with A-die 0. -/
def pa0 (a : ADie) : State := { hs with adies := [(0, a)] }
theorem core_of (s : State) (o : Nat) (h : (s.hub.coresRun.getLsbD 0 && !(s.sup 12).frz.getLsbD 0 && s.mayAccess 0xA00 bitW (s.cfgPa o)) = true) : CoreMay s 0 o := by
  simp only [Bool.and_eq_true, Bool.not_eq_true'] at h
  exact ⟨by decide, h.1.1, h.1.2, h.2⟩
theorem pa0_may : CoreMay (pa0 ad) 0 (0x10800 + 0 * 0x100 + 0x38) ∧ CoreMay (pa0 ADie.reset) 0 (0x10800 + 0 * 0x100 + 0x38) ∧ CoreMay (pa0 ADie.reset) 0 (0x10800 + 0 * 0x100 + 8) ∧
    CoreMay { pa0 ad with ro := [((2 ^ 42 + 2 ^ 20) / 4096, true)] } 0 (0x10800 + 0 * 0x100 + 0x38) := by
  refine ⟨?_, ?_, ?_, ?_⟩ <;> exact core_of _ _ (by decide +kernel)
theorem wit_alloc : (∃ q, PageWord (pa0 ad) 0 0 (.alloc 0 0 1 0) q) ∧ (∃ q, PageWord (pa0 ADie.reset) 0 0 (.alloc 0 0 0 0) q) :=
  ⟨⟨_, .alloc 1 0 (ad.allocPage 0 0 ((pa0 ad).horizon 0) true).1 6 (Prod.ext rfl (by decide +kernel))⟩, ⟨_, .allocNot 0 0 (ADie.reset.allocPage 0 0 ((pa0 ADie.reset).horizon 0) false).1 (Prod.ext rfl (by decide +kernel))⟩⟩
theorem wit_counts : (∃ q, PageWord (pa0 ad) 0 0 (.refPage 0 0 1 0) q) ∧ (∃ q, PageWord (pa0 ad) 0 0 (.unref 0 0 1 0) q) ∧ (∃ q, PageWord (pa0 ad) 0 0 (.unref 0 0 2 0) q) :=
  ⟨⟨_, .refPage 1 0 (by unfold PageNamed; decide +kernel) (by decide) (by decide) (by decide +kernel)⟩, ⟨_, .unref 1 0 (by unfold PageNamed; decide +kernel) (by decide) (by decide +kernel)⟩,
   ⟨_, .unrefNot 2 0 (Or.inr (Or.inr (Or.inr (by decide +kernel))))⟩⟩
theorem wit_page_bits : (∃ q, PageWord (pa0 ad) 0 0 (.setro 0 0 0 0) q) ∧ (∃ q, PageWord (pa0 ad) 0 0 (.clrro 0 0 0 0) q) ∧
    (∃ q, PageWord { pa0 ad with ro := [((2 ^ 42 + 2 ^ 20) / 4096, true)] } 0 0 (.clrro 0 0 0 0) q) ∧
    (∃ q, PageWord (pa0 ad) 0 0 (.setpin 0 0 0 0) q) ∧ (∃ q, PageWord (pa0 ad) 0 0 (.clrpin 0 0 0 0) q) :=
  ⟨⟨_, .setro 0 0 (by unfold PageNamed; decide +kernel)⟩, ⟨_, .clrro 0 0 (by unfold PageNamed; decide +kernel) (by decide +kernel)⟩,
   ⟨_, .clrroNot 0 0 0 (by decide +kernel) (by decide +kernel)⟩, ⟨_, .setpin 0 0 (by unfold PageNamed; decide +kernel)⟩, ⟨_, .clrpin 0 0 (by unfold PageNamed; decide +kernel)⟩⟩
theorem wit_evict : (∃ q, PageWord (pa0 ad) 0 0 (.evict 0 0 1 0) q) ∧ (∃ q, PageWord (pa0 ad) 0 0 (.evict 0 0 0 0) q) ∧ (∃ q, PageWord (pa0 ad) 0 0 (.publish 0 0 32 0) q) :=
  ⟨⟨_, .evict 1 0 (by decide)⟩, ⟨_, .evictNone 0 0 rfl⟩, ⟨_, .publish 32 0 (by unfold PageNamed; decide +kernel) (by decide) (by decide +kernel) (by decide +kernel)⟩⟩
/-- A leaf of the Prefix Index that holds page 0, and an A-die with few frames. -/
def leaf : PNode := { ns := 1, parent := none, toks := 0, page := 0, stamp := 1, hash := 0 }
def few : ADie := { ad with nodes := [(0, leaf)], wmark := 9, desc := [(0, { pg with intree := true, refc := 0, node := 0 })] }
/-- PageCommands: enabling with and without EN, the end of an initialisation, an eviction, none. -/
theorem wit_page_commands : ADie.reset.en = false ∧ 1 ≤ (BitVec.ofNat 64 (2 ^ 63 + 1)).toNat % 2 ^ 27 ∧ (BitVec.ofNat 64 (2 ^ 63 + 2 ^ 26)).toNat % 2 ^ 27 ≤ 2 ^ 26 ∧
    (BitVec.ofNat 64 (2 ^ 63 + 1)).getLsbD 32 = false ∧ ad.rspDone = true ∧ ((pa0 { ad with rspDone := false }).adie 0).rspDone = false ∧ ((pa0 { ad with initing := true }).adie 0).initing = true ∧
    ((pa0 few).adie 0).hbm.free < ((pa0 few).adie 0).wmark ∧ ((pa0 few).adie 0).oldestLeaf (((pa0 few).adie 0).leafIn 0) = some 0 ∧
    ((pa0 ad).adie 0).wmark ≤ ((pa0 ad).adie 0).hbm.free := by decide +kernel
/-- PageCommands: a command while the last one is not done. -/
theorem wit_page_busy : PageCmd 0 0 0 0 (.setro 0 0 0 0) ∧ CoreMay (pa0 { ad with rspDone := false }) 0 (0x10800 + 0 * 0x100 + 0x38) ∧
    ((pa0 { ad with rspDone := false }).adie 0).rspDone = false := ⟨.setro, core_of _ _ (by decide +kernel), by decide +kernel⟩
/-- PageGrants. -/
theorem wit_page_grants : ad.allocPage 0 0 0 true = ((ad.allocPage 0 0 0 true).1, some 6) ∧ ADie.reset.en = false ∧ ad.nodes = [] ∧ ad.hbm.free ≤ 8 ∧
    (ad.hbm.take 0 (2 ^ 21)).isSome = true ∧ ({ ad.hbm with back := [(ad.hbm.base, 4)] } : Pool).take 4 (2 ^ 21) = some ({ ad.hbm with back := [] }, ad.hbm.base) :=
  ⟨Prod.ext rfl (by decide +kernel), rfl, rfl, by decide, by decide +kernel, by decide +kernel⟩
/-- TierMoveEnds. -/
def mv1 : Move := { page := 1, cyc := 0, toIn := true, frame := BitVec.ofNat 52 (2 ^ 42 + 2 ^ 21), reqs := [], rev := [], still := false, going := true }
def moving : ADie := { ad with moves := [mv1] }
def pmv : State := { pa0 moving with access := (List.range 14).map fun t => (t * 4096 + 0xA10, 0xF) }
theorem wit_tier_move : (pmv.adie 0).moves = [mv1] ∧ mv1.still = false ∧ mv1.going = true ∧ pmv.dieHeld (8 + 0) = false ∧ ({ mv1 with going := false } : Move).going = false ∧
    pmv.moveRefused 0 ((pmv.adie 0).descOf mv1.page).addr.toNat mv1.frame.toNat = none ∧
    (((pa0 moving).adie 0).descOf 1).free = false ∧ (((pa0 moving).adie 0).descOf 1).refc ≠ 0 ∧ Memory.wf (pa0 moving).mem = true := by decide +kernel

/-! ### Configuration registers -/

/-- The module with every die halted: all clusters frozen by a set bit of each block. -/
theorem hs_halted : ∀ t, t < 12 → hs.dieHalted t = true := by decide +kernel
/-- The module with ring die 0 running. -/
def hr (r : Ring) : State := { hs with rings := [(0, { r with run := true, nseg := 8, flenMin := 5 })] }
theorem wit_partcfg : (∃ u, RegWrite hs 0 (.partcfg 0 (BitVec.ofNat 32 (2 ^ 31 + 2))) 0x14018 u) ∧ (∃ u, RegWrite (hr Ring.reset) 0 (.partcfg 0 0) 0x14018 u) ∧
    (∃ u, RegWrite hs 0 (.partsup 0 5) 0x14020 u) ∧ (∃ u, RegWrite (hr Ring.reset) 0 (.partsup 0 5) 0x14020 u) :=
  ⟨⟨_, .partcfg _ (by decide) hs_halted⟩, ⟨_, .partcfgNot _ 0 (by decide) (by decide +kernel)⟩, ⟨_, .partsup _ hs_halted⟩, ⟨_, .partsupNot _ 0 (by decide) (by decide +kernel)⟩⟩
/-- Cluster 0 in four groups. -/
def fourGroups : State := { hs with groups := (List.range 4).map fun i => (i, { Group.reset with mask := 1 }) }
theorem wit_groups : (∃ u, RegWrite hs 0 (.groupTableWrite 0 9 3) (0x210000 + 9 * 64) u) ∧ (∃ u, RegWrite fourGroups 0 (.groupTableWrite 0 3 1) (0x210000 + 3 * 64) u) ∧
    (∃ u, RegWrite fourGroups 0 (.groupTableWrite 0 255 1) (0x210000 + 255 * 64) u) :=
  ⟨⟨_, .group 9 3 (by decide) (fun _ _ _ => by simp [State.otherGroups, hs, State.reset]) (by decide +kernel)⟩, ⟨_, .groupSame 3 1 (by decide) (by decide +kernel) (by decide +kernel)⟩,
   ⟨_, .groupFifth 255 1 0 (by decide) (by decide) (by decide) (by decide +kernel)⟩⟩
theorem wit_rfcfg : (∃ u, RegWrite (hr Ring.reset) 0 (.rfcfg 0 0 (BitVec.ofNat 64 (8 * 2 ^ 32 + 64))) (0x10000 + 0 * 0x100 + 0x20) u) ∧
    (∃ u, RegWrite { hs with hub := { hs.hub with shape := 1 }, rings := [(0, { Ring.reset with nseg := 8 })] } 0 (.rfcfg 0 0 (BitVec.ofNat 64 (8 * 2 ^ 32 + 32))) (0x10000 + 0 * 0x100 + 0x20) u) ∧
    (∃ u, RegWrite { hs with hub := { hs.hub with shape := 1 } } 0 (.rfcfg 0 0 (BitVec.ofNat 64 (8 * 2 ^ 32 + 2 ^ 20 + 32))) (0x10000 + 0 * 0x100 + 0x20) u) :=
  ⟨⟨_, .rfcfgStop 0 _ (by decide) rfl (by decide) (by decide +kernel) (by decide +kernel) (by decide +kernel) (by decide +kernel) (by decide +kernel)⟩,
   ⟨_, .rfcfgSet 0 _ (by decide) rfl (by decide) (by decide +kernel) (by decide) (by decide) (Or.inr (by decide +kernel)) (by decide +kernel)⟩,
   ⟨_, .rfcfgSplit 0 _ (by decide) rfl (by decide) (by decide +kernel)⟩⟩
theorem wit_bypass : (∃ u, RegWrite hs 0 (.bypass 0 7 2) (0x10000 + 7 * 0x100 + 0x40) u) ∧ (∃ u, RegWrite (hr { Ring.reset with bypass := 2 }) 0 (.bypass 0 0 0) (0x10000 + 0 * 0x100 + 0x40) u) ∧
    (∃ u, RegWrite (hr { Ring.reset with bypass := 2 }) 0 (.bypass 0 0 2) (0x10000 + 0 * 0x100 + 0x40) u) :=
  ⟨⟨_, .bypass 7 2 (by decide) rfl⟩, ⟨_, .bypassClear 0 0 (by decide) rfl (by decide)⟩, ⟨_, .bypassSame 0 (by decide) rfl⟩⟩
theorem wit_hub_registers : (∃ u, RegWrite hs 0 (.fabcfg 0 1000) 0x10F00 u) ∧ (∃ u, RegWrite hs 0 (.fabcfg 0 1001) 0x10F00 u) ∧ (∃ u, RegWrite hs 0 (.fabcfg 0 0) 0x10F00 u) ∧
    (∃ u, RegWrite hs 0 (.hostwin 0 (2 * 192 + 1)) 0x14010 u) ∧ (∃ u, RegWrite hs 0 (.hostwin 0 (2 * 193)) 0x14010 u) ∧
    (∃ u, RegWrite hs 0 (.pwrcap 0 (BitVec.ofNat 64 (85 * 2 ^ 40 + 84 * 2 ^ 32 + 32 * 2 ^ 16 + 1000))) 0x14000 u) ∧
    (∃ u, RegWrite hs 0 (.pwrcap 0 (BitVec.ofNat 64 (111 * 2 ^ 40 + 84 * 2 ^ 32 + 32 * 2 ^ 16 + 1000))) 0x14000 u) ∧ (∃ u, RegWrite hs 0 (.pwrcap 0 0) 0x14000 u) :=
  ⟨⟨_, .fabcfg _ (by decide) (by decide)⟩, ⟨_, .fabcfgNot _ (Or.inr (by decide))⟩, ⟨_, .fabcfgNot _ (Or.inl (by decide))⟩, ⟨_, .hostwin _ (by decide)⟩, ⟨_, .hostwinNot _ (by decide)⟩,
   ⟨_, .pwrcap _ (by decide) (by decide) (by decide) (by decide) (by decide) (by decide) (by decide)⟩, ⟨_, .pwrcapNot _ (Or.inl (by decide))⟩,
   ⟨_, .pwrcapNot _ (Or.inr (Or.inl (by decide)))⟩⟩
theorem wit_other_registers : (∃ u, RegWrite hs 0 (.configRegisterWrite 0 (0x12400 + 8 * 63) 5) (0x12400 + 8 * 63) u) ∧ (∃ u, RegWrite hs 0 (.configRegisterWrite 0 (0x12800 + 8 * 0) 5) (0x12800 + 8 * 0) u) ∧
    (∃ u, RegWrite hs 0 (.configRegisterWrite 0 (0x10000 + 7 * 0x100) 35) (0x10000 + 7 * 0x100) u) ∧ (∃ u, RegWrite hs 0 (.configRegisterWrite 0 (0x10000 + 7 * 0x100) 34) (0x10000 + 7 * 0x100) u) :=
  ⟨⟨_, .gwroute 63 5 (by decide)⟩, ⟨_, .gwrmt 0 5 (by decide)⟩, ⟨_, .esccfg 7 35 (by decide) rfl (by decide)⟩, ⟨_, .esccfgNot 7 34 (by decide) (Or.inr (by decide))⟩⟩
theorem wit_gateway_sets : (∃ u, RegWrite hs 0 (.configRegisterWrite 0 (0x12C00 + 16 * 63) 5) (0x12C00 + 16 * 63) u) ∧ (∃ u, RegWrite hs 0 (.configRegisterWrite 0 (0x12C08 + 16 * 0) 1) (0x12C08 + 16 * 0) u) :=
  ⟨⟨_, .gwmask 63 5 (by decide)⟩, ⟨_, .gwval 0 1 (by decide)⟩⟩
/-- A ring die that runs with the least FLEN its backing allows, and a base in a slower memory. -/
def slowRing : State := { hr { Ring.reset with flen := 1 } with access := (List.range 14).map fun t => (t * 4096 + 0xA18, 0xF) }
theorem wit_bkbase : (∃ u, RegWrite hs 0 (.configRegisterWrite 0 (0x10028 + 7 * 0x100) 1) (0x10028 + 7 * 0x100) u) ∧
    (∃ u, RegWrite slowRing 0 (.configRegisterWrite 0 (0x10028 + 0 * 0x100) 0) (0x10028 + 0 * 0x100) u) :=
  ⟨⟨_, .bkbaseNot 7 1 (by decide) (by decide)⟩, ⟨_, .bkbaseRuns (s := slowRing) 0 0 (by decide) rfl (by decide +kernel) rfl (by decide +kernel) (by decide +kernel)⟩⟩
/-- RegisterWrites: a backing image that the Forwarder of die 0 may read. -/
theorem wit_backing : (slowRing.ring 0).nseg ≠ 0 ∧ (slowRing.sup 0).agfrz = false ∧ slowRing.backingRefused 0 (slowRing.ring 0).bkbase.toNat (slowRing.ring 0).nseg.toNat = none := by decide +kernel
/-- Core 0 may write the registers of the witnesses. -/
theorem wit_cores_may : CoreMay hs 0 0x14018 ∧ CoreMay (hr Ring.reset) 0 0x14018 ∧ CoreMay hs 0 (0x210000 + 9 * 64) ∧ CoreMay fourGroups 0 (0x210000 + 3 * 64) ∧
    CoreMay (hr Ring.reset) 0 (0x10000 + 0 * 0x100 + 0x20) ∧ CoreMay hs 0 0x10F00 ∧ CoreMay hs 0 0x14010 ∧ CoreMay hs 0 0x14000 ∧ CoreMay hs 0 (0x12400 + 8 * 63) ∧
    CoreMay hs 0 (0x200000 + 13 * 4096 + (0xFFF : BitVec 12).toNat) := by
  refine ⟨?_, ?_, ?_, ?_, ?_, ?_, ?_, ?_, ?_, ?_⟩ <;> exact core_of _ _ (by decide +kernel)
/-- RegisterWrites: core 1 may not write configuration space; core 1 does not run. -/
theorem wit_cores_refused : CoreOn { hs with access := [(13 * 4096 + 0xA01, 1)] } 1 ∧
    ({ hs with access := [(13 * 4096 + 0xA01, 1)] } : State).mayAccess (0xA00 + 1) bitW (({ hs with access := [(13 * 4096 + 0xA01, 1)] } : State).cfgPa 0x14010) = false ∧
    ¬ CoreOn { hs with hub := { Hub.reset with coresRun := 1 } } 1 :=
  ⟨⟨by decide, by decide, by decide⟩, by decide +kernel, fun h => absurd h.2.1 (by decide)⟩

/-! ### The fabric -/

/-- A module with one link that is up, or as given. -/
def lk (k : Link) : State := { hs with links := [(7, k)] }
def upLink : Link := { Link.reset with up := true }
/-- The link after its first flit, whose header had every field zero but VC 7. -/
def h7 : BitVec 128 := BitVec.ofNat 128 (7 * 2 ^ 124)
theorem wit_flits : (∃ u, FabricEvent hs (.flitReceived 7 false 0 true) u) ∧ (∃ u, FabricEvent (lk upLink) (.flitReceived 7 false 1 true) u) ∧
    (∃ u, FabricEvent (lk { upLink with d0 := { LinkDir.reset with replay := [h7] } }) (.flitReceived 7 false h7 false) u) ∧
    (∃ u, FabricEvent (lk upLink) (.flitReceived 7 true h7 true) u) ∧ (∃ u, FabricEvent (lk upLink) (.flitReceived 7 true (h7 ||| BitVec.ofNat 128 (2 ^ 127)) true) u) :=
  ⟨⟨_, .deaf _ _ _ _ (Or.inl rfl)⟩, ⟨_, .firstBad 7 _ _ _ (by decide) rfl rfl rfl (Or.inr (Or.inr (by decide))) (by decide +kernel) (by decide)⟩,
   ⟨_, .secondBad 7 _ _ _ (by decide) rfl rfl rfl (Or.inl rfl) (by decide)⟩, ⟨_, .good 7 _ _ (by decide) rfl rfl rfl (Or.inr (by decide)) (by decide) (by decide) (by decide +kernel)⟩,
   ⟨_, .deaf _ _ _ _ (Or.inr (Or.inr (Or.inr (by decide +kernel))))⟩⟩
/-- FlitsCounted: a flit that fills a replay, and a new one. -/
theorem wit_flit_counts : h7 ∈ (((lk { upLink with d0 := { LinkDir.reset with replay := [h7] } }).link 7).dir false).replay ∧ h7 ∉ (((lk upLink).link 7).dir false).replay ∧
    ((0 : BitVec 128).extractLsb' 124 3).toNat < 4 := by decide
theorem wit_keys : (∃ u, FabricEvent (lk upLink) (.keyUpdate 7 false) u) ∧ (∃ u, FabricEvent (lk { upLink with d0 := { LinkDir.reset with rekey := true } }) (.keyUpdate 7 false) u) :=
  ⟨⟨_, .key 7 _ (by decide) rfl rfl⟩, ⟨_, .keyHeld 7 _ rfl⟩⟩
theorem wit_links : (∃ u, FabricEvent (lk upLink) (.linkLosesTraining 7) u) ∧ (∃ u, FabricEvent (lk { upLink with locked := true }) (.linkDeclaredDead 7) u) ∧
    (∃ u, FabricEvent { lk { Link.reset with lostAt := some 5 } with cycle := 105005 } (.linkDeclaredDead 7) u) ∧
    (∃ u, FabricEvent { lk { Link.reset with lostAt := some 5 } with cycle := 105004 } (.linkDeclaredDead 7) u) ∧ (∃ u, FabricEvent hs (.linkUp 61 3) u) ∧
    (∃ u, FabricEvent dieDown (.linkUp 51 0) u) :=
  ⟨⟨_, .untrained 7 (by decide) rfl⟩, ⟨_, .dead 7 (by decide) rfl (Or.inl rfl)⟩, ⟨_, .dead 7 (by decide) rfl (Or.inr (Or.inl ⟨5, rfl, by decide⟩))⟩,
   ⟨_, .alive 7 5 rfl rfl (by decide)⟩, ⟨_, .up 61 3 (by decide) (by decide +kernel)⟩, ⟨_, .upNot 51 0 (by decide +kernel)⟩⟩
/-- A shoot-down at the hub, which one die has still to answer. -/
def so : Shoot := { home := 12, gran := 4, n := 2, start := 0, need := [3], lease := 1, c := 0, x := 0 }
def shooting (h : Shoot) : State := { we { e0 with phase := .shoot (some 5) [12] false } with shoots := [h] }
theorem wit_shoot_downs : (∃ u, FabricEvent hs (.leaseExpiry 0 9) u) ∧ (∃ u, FabricEvent (shooting so) (.shootDown 12 3) u) ∧ (∃ u, FabricEvent (shooting so) (.shootDown 12 8) u) ∧
    (∃ u, FabricEvent (shooting so) (.roClearAtHome 12) u) :=
  ⟨⟨_, .lease 0 9⟩, ⟨_, .shot 12 3 so rfl (by decide) (by decide +kernel)⟩, ⟨_, .shotOther 12 8 so rfl (by decide) (by decide +kernel)⟩, ⟨_, .waits 12 so rfl (by decide) (by decide)⟩⟩
/-- RoClears: answered by all, and with the lease past. -/
theorem wit_ro_clears : (shooting { so with need := [] }).shootOf 12 = some { so with need := [] } ∧ so.grant = false ∧ (((shooting so).cl so.c).cx so.x).phase = .shoot (some 5) [12] false ∧
    ({ shooting so with cycle := 1050 } : State).shootOf 12 = some so ∧ so.start + so.lease * 1050 ≤ (1050 : BitVec 64).toNat ∧ so.c < 320 := by decide +kernel

/-! ### Requests from outside -/

/-- A request of one quadword of LPDDR6. -/
def rq (k : ReqKind) : BusReq := { kind := k, addr := 0x1000, len := 8, data := 5 }
theorem wit_permitted (k : ReqKind) (h : k = .read ∨ k = .write ∨ k = .atomicAdd) : Permitted hs 0 (rq k) :=
  ⟨⟨by decide, by decide, by decide⟩, by rcases h with rfl | rfl | rfl <;> decide +kernel, by rcases h with rfl | rfl | rfl <;> decide +kernel,
   fun _ => by decide +kernel, by rcases h with rfl | rfl | rfl <;> decide +kernel⟩
theorem wit_core_access : ∀ k ∈ [ReqKind.read, .write, .atomicAdd], (∀ b ∈ reqBytes (rq k).kind (rq k).addr (rq k).len, hs.isRo b = false) ∧
    hs.badAt (rq k).addr (rq k).len = false ∧ isCfg (rq k).addr = false := by decide +kernel
def refusing : State := { hs with access := [(12 * 4096 + 0xA01, 1)] }
theorem wit_core_access_refused : CoreOn refusing 1 ∧ refusing.isFar (rq .write).addr = false ∧ (∀ i ∈ refusing.path 12 (rq .write).addr, (refusing.link i).dead = false) ∧
    refusing.dieHeld 12 = false ∧ (∀ b ∈ reqBytes (rq .write).kind (rq .write).addr (reqWidth (rq .write).len (rq .write).kind), b < 2 ^ 52 ∧ refusing.noTarget b = false) ∧
    (∃ b ∈ reqBytes (rq .write).kind (rq .write).addr (reqWidth (rq .write).len (rq .write).kind), refusing.mayAccess (0xA00 + 1) (reqBit (rq .write).kind) b = false) :=
  ⟨⟨by decide, by decide, by decide⟩, by decide +kernel, by decide +kernel, by decide +kernel, by decide +kernel, by decide +kernel⟩
/-- RoClearsForMasters: a home whose shoot-down core 0 asked for, and core 0's request that has its answer. -/
def soCore : Shoot := { so with c := 320, x := 0, need := [] }
theorem wit_ro_clears_master : ({ (shooting soCore).modHub (fun h => { h with clears := [(0, [12], false)] }) with cycle := 9 } : State).shootOf 12 = some soCore ∧ soCore.grant = false ∧
    320 ≤ soCore.c ∧ SMap.get? ((shooting soCore).modHub fun h => { h with clears := [(0, [12], false)] }).hub.clears soCore.x = some ([12], false) := by decide +kernel
def rqClr : BusReq := { rq .attrClr with addr := 0x1000, len := 4096 }
def cleared0 : State := hs.modHub fun h => { h with clears := [(0, [], true)] }
theorem wit_clear_answered : Permitted cleared0 0 rqClr ∧ rqClr.addr % 4096 = 0 ∧ rqClr.len % 4096 = 0 ∧ rqClr.len ≠ 0 ∧ cleared0.badAt rqClr.addr rqClr.len = false ∧
    SMap.get? cleared0.hub.clears 0 = some ([], true) :=
  ⟨⟨⟨by decide, by decide, by decide⟩, by decide +kernel, by decide +kernel, fun _ => by decide +kernel, by decide +kernel⟩, by decide, by decide, by decide, by decide +kernel, by decide⟩
/-- OutsideRequests: the host, with its window closed and open, and its aperture's ends. -/
theorem wit_host : hs.hub.power ≠ .off ∧ hs.hub.hostEn = false ∧ ({ hs with hub := { hs.hub with hostEn := true } } : State).hub.hostEn = true ∧ (rq .read).addr < 2 ^ 24 ∧
    2 ^ 24 ≤ ({ rq .read with addr := 2 ^ 24 } : BusReq).addr ∧ ({ rq .read with addr := 2 ^ 36 - 1 } : BusReq).addr < 2 ^ 36 := by decide +kernel
/-- OutsideRequests: a hub core's fence, at first and with nothing older open; an access to a module without a route; kinds the host lacks. -/
def fenced : State := { hs with hub := { hs.hub with fences := [(0, 9)] } }
theorem wit_hub_fence : SMap.get? hs.hub.fences 0 = none ∧ SMap.get? fenced.hub.fences 0 = some 9 ∧ fenced.clusters = [] ∧ fenced.rings = [] ∧ fenced.adies = [] ∧
    hs.isFar (5 * 2 ^ 46) = true ∧ (∀ i ∈ hs.path 12 (5 * 2 ^ 46), (hs.link i).dead = false) ∧ (SMap.get 0 hs.hub.gwroute (5 * 2 ^ 46 / 2 ^ 46)).getLsbD 3 = false ∧
    reqOfHost (rq .read).kind = true ∧ reqOfHost (rq .fence).kind = false := by decide +kernel
/-- OutsideRequests: the fence of a core that does not run any more, in its own cycle and after it. -/
theorem wit_hub_fence_busy : fenced.cycle.toNat ≤ 9 ∧ (0 : Nat) < 9 ∧ (9 : Nat) < ({ fenced with cycle := 10 } : State).cycle.toNat := by decide +kernel
/-- A module that admits module 5's requests. -/
def rmt : State := { hs with hub := { hs.hub with gwrmt := [(5, 0xF)] }, access := (List.range 14).map fun t => (t * 4096 + 0xA21, 0xF), clusters := [(0, k0)] }
def rreq (k : ReqKind) : RemoteReq := { srcMod := 5, srcMaster := 3, kind := k, addr := if k = .message then 0 else 0x1000, bytes := [1, 2, 3, 4, 5, 6, 7, 8], hnd := 16, asid := 0 }
theorem wit_remote : rmt.dieHeld 13 = false ∧
    (∀ b ∈ reqBytes (rreq .write).kind (rmt.here ((rreq .write).addr % 2 ^ 46)) (reqWidth (rreq .write).bytes.length (rreq .write).kind),
      rmt.noTarget b = false ∧ rmt.mayAccess 0xA21 (reqBit (rreq .write).kind) b = true) ∧ (rreq .write).kind ≠ .message ∧ targetA rmt.cxl ((rreq .write).addr % 2 ^ 46) = some 12 ∧
    (SMap.get 0 rmt.hub.gwrmt (rreq .write).srcMod.toNat) &&& reqBit (rreq .write).kind = reqBit (rreq .write).kind ∧
    targetA rmt.cxl ({ rreq .write with addr := 8 * 2 ^ 42 } : RemoteReq).addr = none ∧ targetA rmt.cxl (({ rreq .write with addr := 2 ^ 42 } : RemoteReq).addr % 2 ^ 46) = some 8 ∧
    (SMap.get 0 rmt.hub.gwrmt ({ rreq .write with srcMod := 6 } : RemoteReq).srcMod.toNat) &&& reqBit (rreq .write).kind ≠ reqBit (rreq .write).kind := by decide +kernel
/-- A module whose die 0 does not let the Gateway write. -/
def rmtNot : State := { rmt with access := rmt.access.filter fun e => decide (e.1 ≥ 4096) }
def rreqDie : RemoteReq := { rreq .write with addr := 6 * 2 ^ 42 }
theorem wit_remote_refused : targetA rmtNot.cxl (rreqDie.addr % 2 ^ 46) = some 0 ∧
    (∀ b ∈ reqBytes rreqDie.kind (rmtNot.here (rreqDie.addr % 2 ^ 46)) (reqWidth rreqDie.bytes.length rreqDie.kind), rmtNot.noTarget b = false) ∧
    (reqBytes rreqDie.kind (rmtNot.here (rreqDie.addr % 2 ^ 46)) (reqWidth rreqDie.bytes.length rreqDie.kind)).find? (fun b => !rmtNot.mayAccess 0xA21 (reqBit rreqDie.kind) b) =
      some (rmtNot.here (rreqDie.addr % 2 ^ 46)) ∧ rmtNot.target (rmtNot.here (rreqDie.addr % 2 ^ 46)) = some 0 := by decide +kernel
theorem wit_remote_message : (SMap.get 0 rmt.hub.gwrmt (rreq .message).srcMod.toNat) &&& bitM = bitM ∧ rmt.permits (dieOf ((rreq .message).addr % 512)) 0xA21 &&& bitM ≠ 0 ∧
    rmt.slotRo 0 = false ∧ rmt.slotWhole 0 (rreq .message).bytes = true ∧
    ({ rmt with ro := [((rmt.here (sramBase 0) + slotOff 0) / 4096, true)] } : State).slotRo 0 = true ∧
    (rmt.deliver ((rreq .message).addr % 512) (rreq .message).bytes (BitVec.ofNat 22 ((rreq .message).srcMod.toNat * 2 ^ 16 + (rreq .message).srcMaster.toNat))
      (rreq .message).asid (rreq .message).hnd).isSome = true := by decide +kernel

/-! ### The hub -/

/-- An image that a stage accepts, and a bank of such images. -/
def im : FlashImage := { present := true, readable := true, sigOk := true, svn := 0, digest := 1 }
/-- A record of empty items of the given types, as 31 R390 lays it out: signed with key 1, it trusts key 7. -/
def recordOf (items : List Nat) : List Byte :=
  natBytes 4 0x47524643 ++ natBytes 2 1 ++ natBytes 2 items.length ++ natBytes 4 (248 + 4 * items.length) ++ natBytes 4 0 ++ natBytes 8 1 ++ natBytes 8 0 ++
    natBytes 8 7 ++ natBytes 56 0 ++ (items.flatMap fun t => natBytes 2 t ++ natBytes 2 0) ++ natBytes 4 0x47495356 ++ natBytes 4 1 ++ natBytes 144 0
def fb : FlashBank := { stage1 := im, record := im, firmware := im, loader := im, recordBytes := recordOf [1, 2], acceptedKeys := [1], loaderKey := 7, recordOk := true, writes := [], cxl := [], modNo := 0, caps := [], shadow := [] }
theorem wit_hub : (∃ u, HubEvent hs (.pldmFirmwareUpdate false fb) u) ∧ (∃ u, HubEvent hs (.pldmFirmwareUpdate true fb) u) ∧
    (∃ u, HubEvent (hs.modHub fun h => { h with booted := true }) (.pldmFirmwareUpdate (hs.modHub fun h => { h with booted := true }).hub.bank fb) u) ∧
    (∃ u, HubEvent hs .getCertificate u) ∧ (∃ u, HubEvent hs (.challenge 9) u) ∧ (∃ u, HubEvent hs (.getMeasurements 9) u) ∧ (∃ u, HubEvent hs (.keyExchange 9) u) :=
  ⟨⟨_, .update0 fb (by decide) (Or.inl rfl)⟩, ⟨_, .update1 fb (by decide) (Or.inl rfl)⟩, ⟨_, .updateNot fb rfl rfl⟩, ⟨_, .certificate ⟨by decide, by decide⟩⟩,
   ⟨_, .challenge 9 ⟨by decide, by decide⟩⟩, ⟨_, .measurements 9 ⟨by decide, by decide⟩⟩, ⟨_, .session 9 ⟨by decide, by decide⟩⟩⟩
/-- A module that saves power, and one that is too hot. -/
def inP1 : State := hs.modHub fun h => { h with power := .p1 }
def inH : State := hs.modHub fun h => { h with power := .h }
/-- The next measurement of power and temperature. -/
def metered (s : State) (w : BitVec 16) (temp : BitVec 8) : State := { s with meter := [(w, temp)] }
theorem wit_power : (∃ u, HubEvent (metered hs 6201 0) .p1Entry u) ∧ (∃ u, HubEvent (metered hs 0 96) .p1Entry u) ∧ (∃ u, HubEvent (metered hs 6200 95) .p1Entry u) ∧
    (∃ u, HubEvent (metered inP1 6201 96) .p1Entry u) ∧ (∃ u, HubEvent (metered inP1 6199 94) .p1Exit u) ∧ (∃ u, HubEvent (metered inP1 6200 94) .p1Exit u) ∧
    (∃ u, HubEvent (metered inH 0 94) .p1Exit u) ∧ (∃ u, HubEvent hs (.thermalHalt 0 105 false) u) ∧ (∃ u, HubEvent hs .powerRemoved u) ∧
    (∃ u, HubEvent (metered inH 0 96) .p1Entry u) ∧ (∃ u, HubEvent (metered hs 0 0) .p1Exit u) ∧ (∃ u, HubEvent inH (.thermalHalt 13 106 false) u) ∧
    (∃ u, HubEvent hs .p1Entry u) ∧ (∃ u, HubEvent inP1 .p1Exit u) :=
  ⟨⟨_, .p1 _ _ _ rfl rfl (Or.inl (by decide))⟩, ⟨_, .p1 _ _ _ rfl rfl (Or.inr (by decide))⟩, ⟨_, .p1Within _ _ _ rfl rfl (by decide) (by decide)⟩,
   ⟨_, .p1Not _ _ _ rfl (by decide) (Or.inl (by decide))⟩, ⟨_, .p0 _ _ _ rfl rfl (by decide) (by decide)⟩, ⟨_, .p1Stays _ _ _ rfl rfl (Or.inl (by decide))⟩,
   ⟨_, .cooled _ _ _ rfl (by decide) (by decide) (by decide)⟩, ⟨_, .cold 0 105 (by decide)⟩, ⟨_, .off⟩, ⟨_, .warm _ _ _ rfl (by decide) (by decide) (by decide)⟩,
   ⟨_, .p0Not _ _ _ rfl (by decide) (Or.inl (by decide))⟩, ⟨_, .stillHot 13 106 false (by decide) (by decide) (by decide)⟩,
   ⟨_, .unmeasured _ rfl (Or.inl rfl)⟩, ⟨_, .unmeasured _ rfl (Or.inr rfl)⟩⟩
/-- ThermalHaltAndSuspend. -/
theorem wit_thermal : hs.hub.power = .p0 ∧ hs.hub.tcrit < (106 : BitVec 8) ∧ hs.hub.power ≠ .off ∧ hs.hub.power ≠ .s ∧ hs.hub.ms = false ∧ outlives 0x1000 = true ∧
    ((hr Ring.reset).ring 0).run = true := by decide
/-- EntriesLogged: an entry at the hub, with room for it and without; the first entry of a log in LPDDR6. -/
def logging (rd depth : BitVec 20) : State :=
  hs.modSup 12 fun p => { p with evBase := 0x1000, rd := rd, depth := depth.setWidth 4, evq := [natBytes 64 5] }
theorem wit_entries : ((logging 0 0).sup 12).evq = [natBytes 64 5] ∧ (natBytes 64 5).length = 64 ∧ Memory.wf (logging 0 0).mem = true ∧
    ((logging 0 0).sup 12).wr.toNat + 1 < 64 * 2 ^ ((logging 0 0).sup 12).depth.toNat ∧ ((logging 0 0).sup 12).rd = 0 ∧ ((logging 1 0).sup 12).rd = 1 ∧
    (logging 0 0).isMem 0x1000 = true ∧ (∀ i, i < 64 → (logging 0 0).isRo (0x1000 + i) = false) := by decide +kernel
/-- BootOrder: a bank whose images pass, in bank 0 or in bank 1, and none. -/
def flashed (a b : Option FlashBank) : State := hs.modHub fun h => { h with flash0 := a, flash1 := b }
def failed0 (a : Option FlashBank) : Hub := ((resetStart (flashed none a)).tryBank none).1
def second (a : Option FlashBank) : State := (resetStart (flashed none a)).modHub fun _ => (failed0 a).setReason false 7
theorem ends_with (s : State) (f : Option FlashBank) (x : Option Nat) (h : (s.tryBank f).2 = x) : s.tryBank f = ((s.tryBank f).1, x) := Prod.ext rfl h
theorem wit_boot : ∃ h, (resetStart (flashed (some fb) none)).tryBank (some fb) = (h, none) := ⟨_, ends_with _ _ _ (by decide +kernel)⟩
theorem wit_boot_second : (resetStart (flashed none (some fb))).tryBank none = (failed0 (some fb), some 7) ∧ ∃ k, (second (some fb)).tryBank (some fb) = (k, none) :=
  ⟨ends_with _ _ _ (by decide +kernel), _, ends_with _ _ _ (by decide +kernel)⟩
theorem wit_boot_neither : (resetStart (flashed none none)).tryBank none = (failed0 none, some 7) ∧ ∃ k, (second none).tryBank none = (k, some 7) :=
  ⟨ends_with _ _ _ (by decide +kernel), _, ends_with _ _ _ (by decide +kernel)⟩
theorem wit_boot_images : ({ im with sigOk := false } : FlashImage).sigOk = false ∧ imageFail Hub.reset.svn 1 fb.stage1 = none ∧ imageFail Hub.reset.svn 2 (recImageOf fb) = none ∧
    imageFail Hub.reset.svn 2 fb.firmware = none ∧ recordFormOk fb.recordBytes = true ∧ fb.recordOk = true ∧ splitJoin fb = false ∧ hs.breaksLimit fb = false ∧
    recordHas fb.recordBytes 1 = true ∧ recordHas fb.recordBytes 2 = true ∧
    (BitVec.ofNat 64 1).toNat % 4 ≠ 0 ∧ (BitVec.ofNat 64 (5 * 2 ^ 20)).extractLsb' 20 6 ≠ fb.modNo := by decide +kernel
/-- BankPasses: a record whose items repeat, and one that splits the module while it joins another one's ring. -/
theorem wit_bad_records : recordFormOk (recordOf [1, 1]) = false ∧ splitJoin { fb with writes := [⟨0x14018, 1⟩, ⟨0x10020, BitVec.ofNat 64 (5 * 2 ^ 20)⟩] } = true ∧
    imageFail Hub.reset.svn 2 (recImageOf { fb with recordBytes := recordOf [1, 1] }) = none ∧ imageFail Hub.reset.svn 2 (recImageOf { fb with recordBytes := [] }) = some 7 ∧
    imageFail Hub.reset.svn 2 (recImageOf { fb with acceptedKeys := [2] }) = some 2 ∧ imageFail Hub.reset.svn 2 ({ im with readable := false } : FlashImage) = some 8 := by decide +kernel
/-- BootRuns: a loader that passes and one signed with a key the record does not trust; dies that come up, and a register write that is ignored. -/
theorem wit_boot_runs : imageFail (hs.hub.stageTwo false fb).svn 3 (loaderImageOf fb) = none ∧ imageFail (hs.hub.stageTwo true fb).svn 3 (loaderImageOf { fb with loaderKey := 8 }) = some 3 ∧
    ((loaderMeasured hs false fb).bringUp { pufOk := true, failed := [] } fb).isSome = true ∧
    (loaderMeasured hs false { fb with writes := [⟨0x10020, BitVec.ofNat 64 (2 ^ 62)⟩] }).bringUp { pufOk := true, failed := [] }
      { fb with writes := [⟨0x10020, BitVec.ofNat 64 (2 ^ 62)⟩] } = none := by decide +kernel
/-- A module that sleeps. -/
def asleep : State := hs.modHub fun h => { h with flash0 := some fb, power := .s }
theorem wit_wake : (∃ t, (asleep.modHub fun h => { h with power := if h.hot then .h else .p0, coresRun := 1 }).bringUp { pufOk := true, failed := [] } fb = some t) ∧
    asleep.hub.ms = false ∧ asleep.hub.power = .s ∧ (if asleep.hub.bank then asleep.hub.flash1 else asleep.hub.flash0) = some fb ∧
    (asleep.modHub fun h => { h with flash0 := none }).hub.flash0 = none :=
  ⟨Option.isSome_iff_exists.mp (by decide +kernel), rfl, rfl, rfl, rfl⟩

/-! ### Words, steps and the whole machine -/

/-- NOP, and MNEST with its parameters as 17 R256 writes them out. -/
def nopBits : Nat := 0x0000FFFF * 2 ^ 64 + 0xFFFFFFF0 * 2 ^ 32
def mnestBits : Nat := 0xB000FFFF * 2 ^ 64 + 0xFFFFFFF0 * 2 ^ 32 + (0x101 + 0x40 * 2 ^ 32 + 0x10 * 2 ^ 64 + 0x1000 * 2 ^ 96 + 0x1100 * 2 ^ 128 + 2 ^ 160 + 0xFF * 2 ^ 288) * 2 ^ 96
/-- StepRunsWord: a word of three parcels, and one of fifteen. -/
theorem wit_short_word : (State.reset.placeWord nopBits).turns = [.issue 0 0] ∧ ((State.reset.placeWord nopBits).cl 0).clash 0 = false ∧
    (∃ i, ShortWord { State.reset.placeWord nopBits with turns := [], cur := (0, 0) } i ∧ parOf i = none ∧ Issues { State.reset.placeWord nopBits with turns := [], cur := (0, 0) } 0 0) :=
  ⟨by decide +kernel, by decide +kernel, .nop aw, ⟨0, 0xFFFFFFF0, 0x0000FFFF, by decide +kernel, by decide +kernel, by decide +kernel, by decide +kernel, by decide +kernel⟩, rfl,
   by decide +kernel, Or.inl (by decide +kernel)⟩
def mnestW : PForm := { head := aw, par := pf [0x101, 0x40, 0x10, 0x1000, 0x1100, 1, 0, 0, 0, 0xFF] }
/-- The same NOP under the guard p1, which is 0. -/
theorem wit_skipped_word : (∃ i, ShortWord { State.reset.placeWord (nopBits + 2 ^ 80) with turns := [], cur := (0, 0) } i ∧ parOf i = none ∧
    (((State.reset.placeWord (nopBits + 2 ^ 80)).cl 0).cx 0).getP (guardOf i).2.toNat = (guardOf i).1) ∧
    Issues { State.reset.placeWord (nopBits + 2 ^ 80) with turns := [], cur := (0, 0) } 0 0 :=
  ⟨⟨.nop { aw with gp := 1 }, ⟨0, 0xFFFFFFF0, 0x0001FFFF, by decide +kernel, by decide +kernel, by decide +kernel, by decide +kernel, by decide +kernel⟩, rfl,
   by decide +kernel⟩, by decide +kernel, Or.inl (by decide +kernel)⟩
theorem wit_long_word : (State.reset.placeWord mnestBits).turns = [.issue 0 2] ∧ LongWord { State.reset.placeWord mnestBits with turns := [], cur := (0, 2) } (.mnest mnestW) ∧
    Issues { State.reset.placeWord mnestBits with turns := [], cur := (0, 2) } 0 2 :=
  ⟨by decide +kernel, ⟨0, 0xFFFFFFF0, 0xB000FFFF, [0x101, 0x40, 0x10, 0x1000, 0x1100, 1, 0, 0, 0, 0xFF, 0, 0], mnestW.par, by decide +kernel, by decide +kernel, by decide +kernel,
    by decide +kernel, by decide +kernel, by decide +kernel, by decide +kernel, rfl, by decide +kernel, by decide +kernel⟩, by decide +kernel, Or.inl (by decide +kernel)⟩
theorem wit_event_turn : ({ hs with turns := [.event .suspend] } : State).turns = [.event .suspend] ∧ Instr.suspend.body = none ∧ hs.turns = [] := by decide
/-- StepRunsWord: with no turn left, a row that moves in this cycle, a tick that ends with it, and neither. -/
def rowNow : State := { on 0 { k0 with m := { MEng.reset with movers := [mv0] } } with cycle := 1 }
theorem wit_clocked : rowNow.turns = [] ∧ rowNow.rowDue = some 0 ∧ (rg Ring.reset []).turns = [] ∧ (rg Ring.reset []).rowDue = none ∧ (rg Ring.reset []).tickDue = some 0 ∧
    hs.turns = [] ∧ hs.rowDue = none ∧ hs.tickDue = none := by decide +kernel
/-- DecodeOfEncode. -/
theorem wit_well_formed : WellFormed (.nop aw) ∧ WellFormed (.mnest mnestW) ∧ WellFormed (.vadd { v3 with sc := .null, imm := 0 }) := by unfold WellFormed; decide +kernel
/-- StepsKeepMemory. -/
theorem wit_memory : Memory.wf State.reset.mem = true ∧ Memory.wf (State.reset.placeWord nopBits).mem = true ∧ ∃ t, step State.reset = .next t :=
  ⟨by decide, by decide +kernel, ⟨_, rfl⟩⟩
/-- EmptyRegisters: s3 empty, s4 error-pending, s5 full. -/
def sh : State := we { e0 with sHold := [(3, .empty), (4, .mark 8 1 255)] }
theorem wit_empty_registers : SMap.get? sh.ctx.sHold (3 : BitVec 6).toNat = some .empty ∧ SMap.get? sh.ctx.sHold (4 : BitVec 6).toNat = some (.mark 8 1 255) ∧
    SMap.get? sh.ctx.sHold (5 : BitVec 6).toNat = none := by decide +kernel
/-- ResultsLandInOrder: two results for v7, one of which is not due. -/
def l7 (n : Nat) : Land := { due := n, x := 1, sec := 0, dst := .v 7, kind := .write 1 3 none, flags := 0 }
theorem wit_results : ({ k0 with land := [l7 9, l7 4] } : Cluster).land = [l7 9] ++ [l7 4] ∧ (l7 4).due ≤ 4 ∧ (l7 4).dst = .v 7 ∧ (l7 4).kind = .write 1 3 none ∧
    (∀ l ∈ ({ k0 with land := [l7 9] } : Cluster).land, l.due ≤ 4 → ∀ i, l.dst = .v i → i.toNat ≠ 7) :=
  ⟨rfl, by decide, rfl, rfl, fun l h d => absurd d (by simp only [List.mem_singleton] at h; rw [h]; decide)⟩
/-- TrapEntry: a task without a trap handler, and one with. -/
theorem wit_trap : ({ cause := .priv } : Trap).cause ≠ .refused ∧ w0.tvec 0 = none ∧ ({ w0 with mem := [(0x10, 1)] } : State).tvec 0 = some 1 := by decide +kernel
/-- WordsAndStepsComplete: the words, each in a state of its own (those of the other witnesses). -/
theorem wit_words_complete : Straight w0 3 ∧ w0.me.m.drop = [] ∧ w0.cur.2 = 0 ∧ w0.me.allArrived = true ∧ (we { e0 with loops := [l0] }).ctx.loops[cw.lv.toNat]? = some l0 ∧
    w0.dstS (.s 5) = .ok () ∧ w0.countOf { aw with imm := 256 } = .ok 1 ∧ 1 ≤ ((on 0 { k0 with ev := [(0, 1)] }).me.event (eventOf { aw with imm := 256 })).toNat ∧
    (1 : BitVec 3) ≠ 0 ∧ wt.srcSOr .null 2 false 0xFFFFFFFF = .ok 0xFFFFFFFF ∧ wt.keyCheck wt.cur.1 5 ((0xFFFFFFFF : Word).setWidth 32) = .hit ∧
    wg.groupIn 0 = .ok 0 ∧ (wg.group 0).phase ≠ (7 : Word).setWidth 16 ∧ nestChecks (wn { MEng.reset with set := set1 }) false = .ok () ∧ n0.gen = none :=
  ⟨w0_straight, by decide +kernel, rfl, by decide +kernel, by decide +kernel, rfl, by decide +kernel, by decide +kernel, by decide, by decide +kernel, by decide +kernel,
    by decide +kernel, by decide +kernel, by decide +kernel, by decide +kernel⟩
/-- WordsAndStepsComplete: the steps; those of headers, sections, keys, nests, rows, accesses, messages, moves and losses are the witnesses of
their own statements, beside which stands the end of a repair. -/
theorem wit_steps_complete : (wd []).mayIssue 0 0 = true ∧ (wsec (hd none) .free).mayStart 0 0 (hd none) = true ∧ ((nw n0).cl 0).m.nests = [n0] ∧
    plainOp st0.op = true ∧ (pmv.adie 0).moves = [mv1] ∧ ((rr { Ring.reset with ticks := 64 } Ring.reset).succHere 0) = some 1 ∧
    (∀ e, e < 8 → (rr { Ring.reset with repairing := true } Ring.reset).partOf e = (rr { Ring.reset with repairing := true } Ring.reset).partOf 0 →
      ((rr { Ring.reset with repairing := true } Ring.reset).ring e).lost = []) := by decide +kernel
/-- RegistersReadBack. -/
theorem wit_predicate : (1 : BitVec 3) ≠ 0 := by decide

/-! ### The form of words -/

/-- What the decoder refusal of the encoding of a term. -/
def refusal (i : Instr) : Option DecodeErr := match decode (encode i) with | .ok _ => none | .error e => some e
theorem test_sub_refused : refusal (.nop { aw with sub := 1 }) = some (.form 0) := by decide +kernel
theorem test_guard_refused : refusal (.nop { aw with gn := true }) = some (.form 0) := by decide +kernel
theorem test_dst_refused : refusal (.addI { a3 with dst := .p 5 }) = some (.form 1) := by decide +kernel
theorem test_sa_refused : refusal (.addI { a3 with sa := .v 5 }) = some (.form 2) := by decide +kernel
theorem test_sb_refused : refusal (.addI { a3 with sb := .null }) = some (.form 3) := by decide +kernel
theorem test_sc_refused : refusal (.addI { a3 with sc := .s 1 }) = some (.form 4) := by decide +kernel
theorem test_type_refused : refusal (.addI { a3 with ty := .f32 }) = some (.form 0) := by decide +kernel
theorem test_md_refused : refusal (.addI { a3 with md := 6 }) = some (.form 0) ∧ refusal (.vrnd aw) = some (.form 0) := by decide +kernel
theorem test_imm_refused : refusal (.addI { a3 with imm := 1 }) = some (.form 0) ∧ refusal (.vadd { v3 with sc := .null, imm := 0x10 }) = some (.form 0) := by decide +kernel
theorem test_level_refused : refusal (.lidx { cw with dst := .s 1, lv := 6 }) = some (.form 0) := by decide +kernel
theorem test_cf_refused : refusal (.loop { cw with sa := .s 1, cf := 2 }) = some (.form 0) := by decide +kernel
theorem test_fork_engine_refused : refusal (.fork { cw with cf := 5 }) = some (.form 0) := by decide +kernel
theorem test_extra_refused : refusal (.post { aw with sa := .s 1, imm := 0x100 }) = some (.form 0) := by decide +kernel
theorem test_immediate_form_refused : refusal (.addImm { b2 with md := 7 }) = some (.form 0) := by decide +kernel
theorem test_queue_twice_refused : refusal (.vadd { v3 with sa := .q false 1, sb := .q false 1, sc := .null, imm := 0 }) = some (.form 3) := by decide +kernel
theorem test_queue_kept_refused : refusal (.vadd { v3 with dst := .q false 1, sc := .null }) = some (.form 1) := by decide +kernel
/-- A word without its parameters is cut short. -/
theorem test_short : decode [0, 0xFFFFFFF0, 0xB000FFFF] = .error .short := by decide +kernel
/-- OPC 0x0D and 0xFF are reserved (09 R128). -/
theorem test_reserved : decode [0, 0xFFFFFFF0, 0x0D00FFFF] = .error .opcReserved ∧ decode [0, 0xFFFFFFF0, 0xFF00FFFF] = .error .opcReserved := by decide +kernel

/-! ### Words written out from the spec -/

/-- The nine words of WordsDecode stand for well-formed instructions. -/
theorem wit_words : ∀ e ∈ workedWords, e.2.body.isSome = true ∧ formErr e.2 = none := by decide +kernel
/-- NOP: OPC 0x00 and every operand null. -/
theorem test_nop : decode [0, 0xFFFFFFF0, 0x0000FFFF] = .ok (.nop aw, []) := by decide +kernel
/-- (p1) VADD.f32.rtz v12, v40, v41 with GN set and GP 0 is reserved (09 R120). -/
theorem test_vadd_guard : decode [0xB2000000, 0xA014FFF0, 0x70080180] = .error (.form 0) := by decide +kernel
/-- KADD k8, k7, -1. -/
theorem test_kadd : decode [0x000000FF, 0x1FFFFFF0, 0xA2008110] = .ok (.kadd { aw with dst := .k 8, sa := .k 7, imm := 0xFF }, []) := by decide +kernel
/-- LDQ v40, k7, [s2 + 0x100], s3. -/
theorem test_ldq : decode [0xE0000100, 0x0A03A030, 0x46000508] = .ok (.ldq { aw with dst := .v 40, sa := .s 2, sb := .k 7, sc := .s 3, ty := .b4, imm := 0x100 }, []) := by decide +kernel
/-- VUNP3 v5, v1, vm2, 32. -/
theorem test_vunp3 : decode [0xF0002000, 0x07FFAC20, 0x8B0000A0] = .ok (.vunp3 { aw with dst := .v 5, sa := .v 1, sc := .vm 2, ty := .t3, imm := 0x2000 }, []) := by decide +kernel
/-- MDRAIN.bf16.z v64, 1, 0, 128. -/
theorem test_mdrain : decode [0xA0017F00, 0xFFFFFFF0, 0xB510081F] = .ok (.mdrain { aw with sub := 1, dst := .v 64, ty := .bf16, imm := 0x17F00 }, []) := by decide +kernel
/-- MGO 1. -/
theorem test_mgo : decode [0x00000001, 0xFFFFFFF0, 0xB400FFFF] = .ok (.mgo { aw with imm := 1 }, []) := by decide +kernel
/-- MNEST, with its twelve parameters. -/
theorem test_mnest : decode [0, 0xFFFFFFF0, 0xB000FFFF, 0x101, 0x40, 0x10, 0x1000, 0x1100, 1, 0, 0, 0, 0xFF, 0, 0] = .ok (.mnest mnestW, []) := by decide +kernel
/-- FENCE.sc.mod s8, 1. -/
theorem test_fence : decode [0x06000001, 0xFFFFFFF0, 0x5130411F] = .ok (.fenceSc { aw with sub := 3, dst := .s 8, md := 6, imm := 1 }, []) := by decide +kernel
/-- (p5) KVAPP p6, 16. -/
theorem test_kvapp : decode [0x00000010, 0x19028180, 0xD40550C8] = .ok (.kvapp { aw with gp := 5, dst := .p 6, sa := .s 6, sb := .s 5, sc := .v 24, imm := 0x10 }, []) := by decide +kernel
/-- Of the bits of NOP in the table's numbering, the decoder reads NOP; a step runs the placed word. -/
theorem test_table_word : decodeTableWord 96 nopBits = some (.nop aw) ∧
    (match (State.reset.withFetchWord 96 nopBits).plan with | .run (.nop w) _ => w == aw | _ => false) = true := by decide +kernel

/-- A bundle of one template, whose parameter image holds a datum at 0x20 that another word names (R139, kind 6). -/
def bun0 : Bundle :=
  { file := [], nkrn := 1, streams := [], tokens := [], templates := [], manifest := [], relocs := [], sigOff := 0
    symbols := [{ name := 0, kind := 2, bind := 0, loc := 0x8000, value := 0x20 }]
    sig := { magic := 0x47495356, alg := 1, keyId := 1, siga := 0, sigb := 0 } }
/-- PARAM is 0x1000: the word becomes 0x1000 + 0x20 + 4; an addend that leaves the field refuses the bundle. -/
theorem test_bundle_relocation :
    bun0.relocate { base := [], param := [0x1000] } { streams := [], images := [natBytes 8 0], rcds := [] }
        { kind := 6, loc := 0x8000, sym := 0, pos := 0, add := 4 } = some { streams := [], images := [natBytes 8 0x1024], rcds := [] } ∧
      bun0.relocate { base := [], param := [0x1000] } { streams := [], images := [natBytes 4 0], rcds := [] }
        { kind := 7, loc := 0x8000, sym := 0, pos := 0, add := 2 ^ 32 } = none := by decide +kernel
/-- The classes of R139: b4 with AX set matches class 1 and no other; no byte matches a reserved class. -/
theorem test_bundle_classes : (List.range 16).filter (fun c => classMatches c 0x2E) = [1, 15] := by decide +kernel

end Sys2Proof.Tests
end

section
/-! PROOFS. Which operations leave memory as it is. -/

namespace Sys2Proof.Machine

theorem Memory.wf_of_eq {s t : State} (h : t.mem = s.mem) (hs : Memory.wf s.mem = true) : Memory.wf t.mem = true := h ▸ hs

/-- A state chosen by a condition has the chosen one's memory. -/
@[simp] theorem State.mem_ite (p : Prop) [Decidable p] (s t : State) : (if p then s else t).mem = if p then s.mem else t.mem :=
  apply_ite State.mem p s t

/-- A fold of operations that leave memory alone leaves it alone. -/
@[simp] theorem State.mem_foldl {α : Type} (f : State → α → State) (l : List α) (s : State) (hf : ∀ s a, (f s a).mem = s.mem) :
    (l.foldl f s).mem = s.mem := by
  induction l generalizing s with
  | nil => rfl
  | cons a l ih => exact (ih (f s a)).trans (hf s a)

/-! ### Event logs, freezes, escalation and traps -/

@[simp] theorem State.mem_logEvent (s : State) (t : Nat) (e : List Byte) : (s.logEvent t e).mem = s.mem := rfl
@[simp] theorem State.mem_msi (s : State) (n : Nat) : (s.msi n).mem = s.mem := rfl
@[simp] theorem State.mem_logFault (s : State) (t : Nat) (r : Fault.Rec) : (s.logFault t r).mem = s.mem := rfl
@[simp] theorem State.mem_cfgIgnoredBy (s : State) (m off : Nat) : (s.cfgIgnoredBy m off).mem = s.mem := rfl
@[simp] theorem State.mem_cfgIgnored (s : State) (core off : Nat) : (s.cfgIgnored core off).mem = s.mem := rfl
@[simp] theorem State.mem_refuse (s : State) (c x tgt va pc : Nat) : (s.refuse c x tgt va pc).mem = s.mem := by
  simp [State.refuse]
@[simp] theorem State.mem_agentRefused (s : State) (m pa : Nat) : (s.agentRefused m pa).mem = s.mem := by
  unfold State.agentRefused
  dsimp only
  split <;> simp
@[simp] theorem State.mem_refuseCopy (s : State) (c x m tgt va : Nat) (pc : Nat) : (s.refuseCopy c x m tgt va pc).mem = s.mem := by
  simp [State.refuseCopy]
@[simp] theorem State.mem_tvecRefused (s : State) (c : Nat) : (s.tvecRefused c).mem = s.mem := by
  unfold State.tvecRefused; split <;> simp
@[simp] theorem State.mem_interrupt (s : State) (t : Nat) : (s.interrupt t).mem = s.mem := by
  unfold State.interrupt; dsimp only; split <;> simp
@[simp] theorem State.mem_cancelPre (s : State) (d : Nat) (team : BitVec 16) : (s.cancelPre d team).mem = s.mem := by
  unfold State.cancelPre; split <;> simp
@[simp] theorem State.mem_escalate (s : State) (c x : Nat) (t : Trap) : (s.escalate c x t).mem = s.mem := by
  simp [State.escalate]
@[simp] theorem State.mem_takeTrap (s : State) (c x : Nat) (pc : Parcel) (t : Trap) : (s.takeTrap c x pc t).mem = s.mem := by
  unfold State.takeTrap
  cases t.info <;> cases t.agent <;> simp

/-! ### Sequencing: what completing, waiting and trapping leave -/

@[simp] theorem State.mem_issuedWord (s : State) : s.issuedWord.mem = s.mem := rfl
@[simp] theorem State.mem_trapHere (s : State) (t : Trap) : (s.trapHere t).mem = s.mem := by simp [State.trapHere]
@[simp] theorem State.mem_leaveTo (s : State) (a : Parcel) : (s.leaveTo a).mem = s.mem := rfl
theorem State.mem_goto {s t : State} {a : Parcel} (h : s.goto a = .ok t) : t.mem = s.mem := by
  unfold State.goto at h
  split at h
  · cases h; rfl
  · split at h <;> cases h <;> simp
theorem State.mem_arrive {s t : State} {a : Parcel} (h : s.arrive a = .ok t) : t.mem = s.mem := by
  unfold State.arrive at h
  split at h
  · cases h; rfl
  · exact State.mem_goto h
@[simp] theorem State.mem_preemptPoint (s : State) : s.preemptPoint.mem = s.mem := by simp [State.preemptPoint]
theorem State.mem_transfer {s t : State} {back : Prop} [Decidable back] {a : Parcel}
    (h : (if back then s.goto a else s.arrive a) = .ok t) : t.mem = s.mem := by
  split at h
  · exact State.mem_goto h
  · exact State.mem_arrive h
@[simp] theorem State.mem_succeed (s : State) (nx : Parcel) : (s.succeed nx).mem = s.mem := by
  simp only [State.succeed]
  split
  next t ht =>
    have hm := State.mem_transfer ht
    rw [State.mem_modCtx] at hm
    simp [hm]
  next => simp
  next => rfl
@[simp] theorem State.mem_complete (s : State) (len : Nat) : (s.complete len).mem = s.mem := by simp [State.complete]
@[simp] theorem State.mem_wakeBank (s : State) (b : Nat) : (s.wakeBank b).mem = s.mem := rfl
@[simp] theorem State.mem_waits (s : State) : s.waits.mem = s.mem := rfl
@[simp] theorem State.mem_stopped (s : State) (e : Stop) : (s.stopped e).mem = s.mem := by
  cases e <;> simp [State.stopped]
@[simp] theorem State.mem_resume (s : State) (c x : Nat) : (s.resume c x).mem = s.mem := rfl
theorem State.mem_resumeSkip {s t : State} {c x : Nat} (h : s.resumeSkip c x = some t) : t.mem = s.mem := by
  unfold State.resumeSkip at h
  dsimp only at h
  split at h
  iterate 2
    split at h
    · split at h <;> cases h; rfl
    · cases h
  · cases h; simp
@[simp] theorem State.mem_finishWord (s : State) (c x len : Nat) : (s.finishWord c x len).mem = s.mem := by
  simp [State.finishWord]
@[simp] theorem State.mem_banksOf (s : State) (c : Nat) : (s.banksOf c).mem = s.mem := by
  refine State.mem_foldl _ _ _ fun s x => ?_
  split <;> simp
@[simp] theorem State.mem_postOne (s : State) (c : Nat) (p : Post) : (s.postOne c p).mem = s.mem := by
  simp [State.postOne]
@[simp] theorem State.mem_postsOf (s : State) (c : Nat) : (s.postsOf c).mem = s.mem := by simp [State.postsOf]
@[simp] theorem State.mem_noteV (s : State) (i : Instr) : (s.noteV i).mem = s.mem := by simp [State.noteV]

/-! ### Results, registers and queue registers -/

@[simp] theorem State.mem_putOpnd (s : State) (o : Opnd) (v : Word) : (s.putOpnd o v).mem = s.mem := by
  cases o <;> rfl
@[simp] theorem State.mem_putPred (s : State) (o : Opnd) (v : Bool) : (s.putPred o v).mem = s.mem := by simp [State.putPred]
@[simp] theorem State.mem_lands (s : State) (lat : Nat) (d : Opnd) (k : LandKind) (f : Flags) : (s.lands lat d k f).mem = s.mem := rfl
@[simp] theorem State.mem_popsOf (s : State) (c x : Nat) (os : List Opnd) : (s.popsOf c x os).mem = s.mem := rfl
@[simp] theorem State.mem_pops (s : State) (os : List Opnd) : (s.pops os).mem = s.mem := rfl
@[simp] theorem State.mem_reserve (s : State) (i id : Nat) : (s.reserve i id).mem = s.mem := rfl
@[simp] theorem State.mem_resultV (s : State) (lat : Nat) (d : Opnd) (val mask : VWord) (b : Option Bind) (fl : Flags) :
    (s.resultV lat d val mask b fl).mem = s.mem := by cases d <;> rfl
@[simp] theorem State.mem_empties (s : State) (d : Opnd) : (s.empties d).mem = s.mem := by cases d <;> rfl
@[simp] theorem State.mem_resultLong (s : State) (d : Opnd) (val mask : VWord) (fl : Flags) :
    (s.resultLong d val mask fl).mem = s.mem := by cases d <;> rfl
@[simp] theorem State.mem_resultS (s : State) (lat : Nat) (d : Opnd) (v : Word) : (s.resultS lat d v).mem = s.mem := by
  simp [State.resultS]
@[simp] theorem State.mem_resultAs (s : State) (lat : Option Nat) (d : Opnd) (val mask : VWord) (fl : Flags) :
    (s.resultAs lat d val mask fl).mem = s.mem := by cases lat <;> simp [State.resultAs]
@[simp] theorem State.mem_resultVM (s : State) (d : Opnd) (m : MWord) (fl : Flags) : (s.resultVM d m fl).mem = s.mem := rfl
@[simp] theorem State.mem_resultK (s : State) (d : Opnd) (k : KWord) (fl : Flags) : (s.resultK d k fl).mem = s.mem := rfl
@[simp] theorem State.mem_takeEvent (s : State) (n c : Nat) : (s.takeEvent n c).mem = s.mem := rfl
theorem State.mem_writeBank {s t : State} {v m : BitVec 64} (h : s.writeBank v m = .ok t) : t.mem = s.mem := by
  unfold State.writeBank at h
  split at h <;> cases h
  rfl

/-! ### Tasks, windows, Distributors -/

@[simp] theorem State.mem_modTask (s : State) (t : Nat) (tid : BitVec 32) (f : Task → Task) : (s.modTask t tid f).mem = s.mem := rfl
@[simp] theorem State.mem_modTaskOn (s : State) (c : Nat) (f : Task → Task) : (s.modTaskOn c f).mem = s.mem := by
  unfold State.modTaskOn; split <;> rfl
theorem State.mem_reportDrop {s t : State} {p : Drop → Bool} (h : s.reportDrop p = some t) : t.mem = s.mem := by
  unfold State.reportDrop at h
  split at h <;> cases h
  simp
@[simp] theorem State.mem_setMasters (s : State) : s.setMasters.mem = s.mem := by
  refine State.mem_foldl _ _ _ fun s t => ?_
  split <;> simp
@[simp] theorem State.mem_rotateWait (s : State) (c : Nat) : (s.rotateWait c).mem = s.mem := by simp [State.rotateWait]
@[simp] theorem State.mem_modM (s : State) (c : Nat) (f : MEng → MEng) : (s.modM c f).mem = s.mem := rfl
@[simp] theorem State.mem_modSet (s : State) (f : MSet → MSet) : (s.modSet f).mem = s.mem := rfl
@[simp] theorem State.mem_missLog (s : State) (d src : Nat) (tid : BitVec 32) (g : Gen) (why : Nat) :
    (s.missLog d src tid g why).mem = s.mem := rfl
@[simp] theorem State.mem_missTask (s : State) (c : Nat) (g : Gen) (why : Nat) : (s.missTask c g why).mem = s.mem := by
  unfold State.missTask; split <;> simp
@[simp] theorem State.mem_runStep (s : State) (c : Nat) (n : Nest) : (s.runStep c n).mem = s.mem := rfl
@[simp] theorem State.mem_signal (s : State) (t : Nat) (tid : BitVec 32) : (s.signal t tid).1.mem = s.mem := by
  simp only [State.signal]
  split
  · rfl
  · split <;> split <;> rfl
@[simp] theorem State.mem_makeReady (s : State) (t : Nat) (tid : BitVec 32) (f : Task → Task) : (s.makeReady t tid f).mem = s.mem := rfl
@[simp] theorem State.mem_noteSrc (s : State) (d : Nat) (tid : BitVec 32) (c : Nat) : (s.noteSrc d tid c).mem = s.mem := rfl
@[simp] theorem State.mem_placeTask (s : State) (t c : Nat) (x : Task) : (s.placeTask t c x).mem = s.mem := rfl
@[simp] theorem State.mem_markRecords (s : State) (c : Nat) : (s.markRecords c).mem = s.mem :=
  State.mem_foldl _ _ _ fun _ _ => rfl
@[simp] theorem State.mem_dropRecords (s : State) (c : Nat) : (s.dropRecords c).mem = s.mem :=
  State.mem_foldl _ _ _ fun _ _ => rfl
@[simp] theorem State.mem_unlistTrap (s : State) (c g : Nat) : (s.unlistTrap c g).mem = s.mem := rfl

/-! ### Accesses and their homes -/

@[simp] theorem State.mem_beginXfer (s : State) (accs : List Access) (grp : Bool) (dests : List Opnd) (qid : Nat) (srcs : List Opnd) :
    (s.beginXfer accs grp dests qid srcs).mem = s.mem := by
  simp only [State.beginXfer, State.mem_modCtx]
  refine State.mem_foldl _ _ _ fun s o => ?_
  split <;> simp
@[simp] theorem State.mem_xfer1 (s : State) (a : Access) (dests srcs : List Opnd) : (s.xfer1 a dests srcs).mem = s.mem := by
  simp [State.xfer1]
@[simp] theorem State.mem_trapXfer (s : State) (c x : Nat) (accs : List Access) (undo : List (Opnd × Option Hold)) (t : Trap) :
    (s.trapXfer c x accs undo t).mem = s.mem := by simp [State.trapXfer]
@[simp] theorem State.mem_failStore (s : State) (c que id : Nat) (why : Fail) (tgt : Nat) : (s.failStore c que id why tgt).mem = s.mem := rfl
@[simp] theorem State.mem_eccRecord (s : State) (c x : Nat) (asid : BitVec 8) (va tgt : Nat) (phys : Bool) :
    (s.eccRecord c x asid va tgt phys).mem = s.mem := rfl
@[simp] theorem State.mem_eccStore (s : State) (c : Nat) (a : Access) (p : Piece) : (s.eccStore c a p).mem = s.mem := rfl
@[simp] theorem State.mem_landAll (s : State) (c x sec : Nat) (ls : List (Opnd × LandKind)) : (s.landAll c x sec ls).mem = s.mem := rfl
@[simp] theorem State.mem_failAccess (s : State) (c : Nat) (a : Access) (why : Fail) (q : Option Piece) :
    (s.failAccess c a why q).1.mem = s.mem := by
  simp only [State.failAccess]
  split
  case h_5 => split <;> rfl
  all_goals rfl
@[simp] theorem State.mem_mapShown (s : State) (f : Nat → Access → Shown → Shown) : (s.mapShown f).mem = s.mem := rfl
@[simp] theorem State.mem_noteSeen (s : State) (p : Nat → Access → Shown → Bool) (y : Seer) : (s.noteSeen p y).mem = s.mem := rfl
@[simp] theorem State.mem_noteSync (s : State) (c : Nat) (a : Access) (g : Nat) : (s.noteSync c a g).mem = s.mem := by
  simp [State.noteSync]
@[simp] theorem State.mem_fillLine (s : State) (t pa : Nat) : (s.fillLine t pa).mem = s.mem := by simp [State.fillLine]
@[simp] theorem State.mem_dropAccess (s : State) (c id : Nat) : (s.dropAccess c id).mem = s.mem := rfl
@[simp] theorem State.mem_markXstIf (s : State) (c : Nat) (b : Bool) : (s.markXstIf c b).mem = s.mem := by simp [State.markXstIf]
@[simp] theorem State.mem_markXst (s : State) (c : Nat) (accs : List Access) : (s.markXst c accs).mem = s.mem := by simp [State.markXst]
@[simp] theorem State.mem_accepted (s : State) (c x : Nat) (pops : List Opnd) : (s.accepted c x pops).mem = s.mem := by
  simp [State.accepted]
@[simp] theorem State.mem_enterQueue (s : State) (c x : Nat) (accs : List Access) (pops : List Opnd) :
    (s.enterQueue c x accs pops).mem = s.mem := by simp [State.enterQueue]
@[simp] theorem State.mem_farFail (s : State) (c : Nat) (far : FarMap) (a : Access) : (s.farFail c far a).1.mem = s.mem := by
  unfold State.farFail; split <;> simp
/-- Treating accesses one by one leaves memory alone where treating each does. -/
@[simp] theorem mem_foldAcc (f : State → Access → State × Option Access) (s : State) (l : List Access)
    (hf : ∀ s a, (f s a).1.mem = s.mem) : (foldAcc f s l).1.mem = s.mem := by
  induction l generalizing s with
  | nil => rfl
  | cons a l ih => exact (ih (f s a).1).trans (hf s a)
@[simp] theorem State.mem_groupAnswers (s : State) (c x : Nat) (accs : List Access) (undo : List (Opnd × Option Hold)) (pops : List Opnd) :
    (s.groupAnswers c x accs undo pops).mem = s.mem := by
  simp only [State.groupAnswers]
  split
  · simp
  · split
    · simp
    · simp only [State.mem_foldl, State.mem_refuse, State.mem_trapXfer, State.mem_modCl, State.mem_markXst, implies_true]
      exact State.mem_foldl _ _ _ fun _ _ => rfl
@[simp] theorem State.mem_queueFails (s : State) (c x : Nat) (a : Access) (p : BitVec 3) (src : Bool) (why : Fail) (va tgt : Nat) :
    (s.queueFails c x a p src why va tgt).1.mem = s.mem := by
  simp only [State.queueFails]
  split <;> simp
@[simp] theorem State.mem_failWaiting (s : State) (c x : Nat) (a : Access) (why : Fail) (q : Option Piece) :
    (s.failWaiting c x a why q).1.mem = s.mem := by
  simp only [State.failWaiting]
  split
  case h_3 => split <;> simp
  all_goals simp
@[simp] theorem State.mem_loseAccepted (s : State) (c : Nat) (lost : List (Nat × Nat)) : (s.loseAccepted c lost).mem = s.mem := by
  refine mem_foldAcc _ _ _ fun t a => ?_
  split
  · rfl
  · split
    · rfl
    · split
      · simp
      · split <;> simp
@[simp] theorem State.mem_show (s : State) (c : Nat) (a : Access) (sc : Nat) : (s.show c a sc).mem = s.mem := rfl
@[simp] theorem State.mem_slotFails (s : State) (c : Nat) (a : Access) (cl : Nat) : (s.slotFails c a cl).mem = s.mem := rfl
@[simp] theorem State.mem_msgSync (s : State) (c : Nat) (a : Access) (cl : Nat) : (s.msgSync c a cl).mem = s.mem := rfl
@[simp] theorem State.mem_synced (s : State) (f : FenceRec) : (s.synced f).mem = s.mem := by simp [State.synced]
@[simp] theorem State.mem_fenceSync (s : State) (own : Nat) (f : FenceRec) : (s.fenceSync own f).mem = s.mem := by simp [State.fenceSync]
@[simp] theorem State.mem_endFence (s : State) (w : AForm) (own : Nat) (f : FenceRec) : (s.endFence w own f).mem = s.mem := by
  simp [State.endFence]
@[simp] theorem State.mem_grantRo (s : State) (gs : List Nat) : (s.grantRo gs).mem = s.mem := rfl
@[simp] theorem State.mem_awaitHomes (s : State) (d : Option (BitVec 6)) (sh : List Shoot) : (s.awaitHomes d sh).mem = s.mem := rfl
@[simp] theorem State.mem_sectionSync (s : State) (c x n : Nat) : (s.sectionSync c x n).mem = s.mem := rfl
@[simp] theorem State.mem_taskSync (s : State) (c : Nat) : (s.taskSync c).mem = s.mem := rfl

/-! ### Pages and the attention engine -/

@[simp] theorem State.mem_modPage (s : State) (p : Nat) (f : Desc → Desc) : (s.modPage p f).mem = s.mem := rfl
@[simp] theorem State.mem_unrefPage (s : State) (p k : Nat) : (s.unrefPage p k).mem = s.mem := rfl
@[simp] theorem State.mem_aXst (s : State) : s.aXst.mem = s.mem := by simp [State.aXst]
@[simp] theorem State.mem_landRun (s : State) (i : Nat) (vs : List (VWord × VWord)) (fl : Flags) : (s.landRun i vs fl).mem = s.mem := by
  simp [State.landRun]
@[simp] theorem State.mem_outcome (s : State) (w : AForm) (n : Nat) : (s.outcome w n).mem = s.mem := by simp [State.outcome]
@[simp] theorem State.mem_setBeam (s : State) (e : Nat) (v : BitVec 128) : (s.setBeam e v).mem = s.mem := rfl
@[simp] theorem State.mem_applyDeltas (s : State) (ds : List (Nat × Int)) : (s.applyDeltas ds).mem = s.mem := by
  simp [State.applyDeltas]
@[simp] theorem State.mem_modADies (s : State) (f : Nat → ADie → ADie) : (s.modADies f).mem = s.mem :=
  State.mem_foldl _ _ _ fun _ _ => rfl
@[simp] theorem State.mem_aAlloc (s : State) (own : Nat) (pin : Bool) : (s.aAlloc own pin).1.mem = s.mem := rfl
@[simp] theorem State.mem_dropCopy (s : State) (r : Append) : (s.dropCopy r).mem = s.mem := by
  unfold State.dropCopy; split <;> rfl
@[simp] theorem State.mem_inPhase (s : State) (p : Phase) : (s.inPhase p).mem = s.mem := rfl

end Sys2Proof.Machine
end

section
/-! PROOFS. The steps of the module that leave memory as it is: rings, supervisors, page commands, registers, links and the hub. -/

namespace Sys2Proof.Machine

/-! ### Rings (23) -/

@[simp] theorem State.mem_fill (s : State) (d : Nat) : (s.fill d).mem = s.mem := by simp [State.fill]
@[simp] theorem State.mem_reHold (s : State) (d : Nat) (g : Gen) : (s.reHold d g).mem = s.mem := by
  refine State.mem_foldl _ _ _ fun t c => ?_
  split <;> simp
@[simp] theorem State.mem_startFrame (s : State) (d : Nat) : (s.startFrame d).mem = s.mem := by
  unfold State.startFrame
  split
  · rfl
  · dsimp only; split <;> simp
@[simp] theorem State.mem_slip (s : State) (d : Nat) (x : Staller) : (s.slip d x).mem = s.mem := rfl
@[simp] theorem State.mem_slips (s : State) (d : Nat) (l : List Staller) : (s.slips d l).mem = s.mem :=
  State.mem_foldl _ _ _ fun _ _ => rfl
@[simp] theorem State.mem_release (s : State) (d : Nat) : (s.release d).mem = s.mem := by simp [State.release]
@[simp] theorem State.mem_skipWindow (s : State) (d : Nat) (l : List Staller) : (s.skipWindow d l).mem = s.mem := by
  unfold State.skipWindow
  split
  · rfl
  next g _ =>
    simp only [State.mem_release, State.mem_slips]
    refine (State.mem_foldl _ _ _ ?_).trans (State.mem_foldl _ _ _ ?_)
    · exact fun _ _ => rfl
    · exact fun _ _ => rfl
@[simp] theorem State.mem_tickOpen (s : State) (d : Nat) : (s.tickOpen d).mem = s.mem := by simp [State.tickOpen]
@[simp] theorem State.mem_arriveSeg (s : State) (d : Nat) (w : Seg) : (s.arriveSeg d w).mem = s.mem := by simp [State.arriveSeg]
@[simp] theorem State.mem_elect (s : State) (p : Nat) : (s.elect p).mem = s.mem := by
  unfold State.elect
  split <;> simp
@[simp] theorem State.mem_repairEntry (s : State) (p why lost nrei first flg : Nat) :
    (s.repairEntry p why lost nrei first flg).mem = s.mem := by
  unfold State.repairEntry
  split <;> simp
@[simp] theorem State.mem_fenceOff (s : State) (d : Nat) : (s.fenceOff d).mem = s.mem :=
  State.mem_foldl _ _ _ fun _ _ => rfl
/-- A change of each of a list of rings leaves memory alone. -/
@[simp] theorem State.mem_foldl_modRing {α : Type} (l : List α) (i : α → Nat) (f : Ring → Ring) (s : State) :
    (l.foldl (fun s d => s.modRing (i d) f) s).mem = s.mem := State.mem_foldl _ _ _ fun _ _ => rfl
@[simp] theorem State.mem_ringCut (s : State) (d : Nat) : (s.ringCut d).mem = s.mem := by simp [State.ringCut]
@[simp] theorem State.mem_electFar (s : State) (d lost : Nat) : (s.electFar d lost).mem = s.mem := by simp [State.electFar]
@[simp] theorem State.mem_repairFar (s : State) (d lost : Nat) : (s.repairFar d lost).mem = s.mem := by simp [State.repairFar]

/-! ### Saving, pre-emption and the supervisor (29) -/

@[simp] theorem State.mem_freeSlot (s : State) (t n : Nat) : (s.freeSlot t n).mem = s.mem := rfl
@[simp] theorem State.mem_saveDone (s : State) (t : Nat) : (s.saveDone t).mem = s.mem := by
  unfold State.saveDone
  split <;> simp
@[simp] theorem State.mem_restoreRecord (s : State) (c : Nat) (tid : BitVec 32) (asid : BitVec 8) :
    (s.restoreRecord c tid asid).mem = s.mem := rfl
@[simp] theorem State.mem_beginPre (s : State) (t : Nat) (team : BitVec 16) (act : PreAct) (b : Bool) :
    (s.beginPre t team act b).mem = s.mem := by simp [State.beginPre]
@[simp] theorem State.mem_supDone (s : State) (t : Nat) (ok : Bool) : (s.supDone t ok).mem = s.mem := rfl
@[simp] theorem State.mem_supBegin (s : State) (t : Nat) (cmd : SupCmd) : (s.supBegin t cmd).mem = s.mem := rfl
@[simp] theorem State.mem_resumeAll (s : State) (t : Nat) (cl : BitVec 5) (skip : Bool) : (s.resumeAll t cl skip).mem = s.mem := by
  simp only [State.resumeAll]
  split
  · rfl
  · refine State.mem_foldl _ _ _ fun s x => ?_
    have hskip : ((s.resumeSkip (clusterNo t cl.toNat) x).getD (s.resume (clusterNo t cl.toNat) x)).mem = s.mem := by
      cases hr : s.resumeSkip (clusterNo t cl.toNat) x with
      | none => rfl
      | some u => exact State.mem_resumeSkip hr
    simp [hskip]
@[simp] theorem State.mem_releaseAgent (s : State) (t : Nat) : (s.releaseAgent t).mem = s.mem := by simp [State.releaseAgent]

/-! ### What a core's write comes to -/

/-- A hub core's write does nothing, makes its change, or is refused (R7, R12). -/
theorem State.coreWrite_cases (s : State) (core off : Nat) (f : State → State) :
    s.coreWrite core off f = s ∨ s.coreWrite core off f = f s ∨
      s.coreWrite core off f = s.agentRefused (0xA00 + core) (s.cfgPa off) := by
  unfold State.coreWrite
  split
  · exact .inl rfl
  · split
    · exact .inr (.inl rfl)
    · exact .inr (.inr rfl)

@[simp] theorem State.mem_coreWrite (s : State) (core off : Nat) (f : State → State) (hf : ∀ u, (f u).mem = u.mem) :
    (s.coreWrite core off f).mem = s.mem := by
  rcases s.coreWrite_cases core off f with h | h | h <;> simp [h, hf]
@[simp] theorem State.mem_supWrite (s : State) (core t o : Nat) (f : State → State) (hf : ∀ u, (f u).mem = u.mem) :
    (s.supWrite core t o f).mem = s.mem := by simp [State.supWrite, hf]
@[simp] theorem State.mem_hubBlockWrite (s : State) (core o : Nat) (f : State → State) (hf : ∀ u, (f u).mem = u.mem) :
    (s.hubBlockWrite core o f).mem = s.mem := by simp [State.hubBlockWrite, hf]
@[simp] theorem State.mem_supCommand (s : State) (core t : Nat) (f : State → State) (hf : ∀ u, (f u).mem = u.mem) :
    (s.supCommand core t f).mem = s.mem := by simp [State.supCommand, hf]
@[simp] theorem State.mem_pageCommand (s : State) (core a : Nat) (f : State → State) (hf : ∀ u, (f u).mem = u.mem) :
    (s.pageCommand core a f).mem = s.mem := by simp [State.pageCommand, hf]
@[simp] theorem State.mem_onPage (s : State) (a : Nat) (page : BitVec 30) (f : State → ADie → Desc → Option ADie) :
    (s.onPage a page f).mem = s.mem := by
  simp only [State.onPage]
  split <;> rfl

/-! ### Registers (00 R7, 23 R329, 25 R335, 29 R371, 31 R385) -/

@[simp] theorem State.mem_writePgcfg (s : State) (core a : Nat) (v : BitVec 64) : (s.writePgcfg core a v).mem = s.mem := by
  simp [State.writePgcfg]
@[simp] theorem State.mem_masterRefused (s : State) (m pa : Nat) : (s.masterRefused m pa).mem = s.mem := by
  simp [State.masterRefused]
@[simp] theorem State.mem_lookLen (s : State) (d : Nat) : (s.lookLen d).mem = s.mem := by
  simp only [State.lookLen]
  split
  · rfl
  · split <;> simp
@[simp] theorem State.mem_lookLens (s : State) (d : Nat) : (s.lookLens d).mem = s.mem := State.mem_foldl _ _ _ State.mem_lookLen
@[simp] theorem State.mem_placeShare (s : State) (d : Nat) : (s.placeShare d).mem = s.mem := by
  simp only [State.placeShare]
  split
  · rfl
  · simp only [State.mem_modRing]
    split <;> simp
@[simp] theorem State.mem_startRing (s : State) (d : Nat) : (s.startRing d).mem = s.mem := by simp [State.startRing]
@[simp] theorem State.mem_writeRfcfg (s : State) (core d : Nat) (v : BitVec 64) : (s.writeRfcfg core d v).mem = s.mem := by
  simp [State.writeRfcfg]
@[simp] theorem State.mem_writeEsccfg (s : State) (core d : Nat) (v : BitVec 64) : (s.writeEsccfg core d v).mem = s.mem := by
  simp [State.writeEsccfg]
@[simp] theorem State.mem_writeBkbase (s : State) (core d : Nat) (v : BitVec 64) : (s.writeBkbase core d v).mem = s.mem := by
  simp [State.writeBkbase]
@[simp] theorem State.mem_writePageReg (s : State) (core a o : Nat) (v : BitVec 64) : (s.writePageReg core a o v).mem = s.mem := by
  simp [State.writePageReg]
@[simp] theorem State.mem_writeEvent (s : State) (core t o : Nat) (v : BitVec 64) : (s.writeEvent core t o v).mem = s.mem := by
  simp [State.writeEvent]

theorem State.mem_writeFabcfg {s bad : State} (v : BitVec 64) (hb : bad.mem = s.mem) : (s.writeFabcfg bad v).mem = s.mem := by
  simp [State.writeFabcfg, hb]
theorem State.mem_writePartcfg {s bad : State} (v : Nat) (hb : bad.mem = s.mem) : (s.writePartcfg bad v).mem = s.mem := by
  simp [State.writePartcfg, hb]
theorem State.mem_writePartsup {s bad : State} (v : BitVec 64) (hb : bad.mem = s.mem) : (s.writePartsup bad v).mem = s.mem := by
  simp [State.writePartsup, hb]
theorem State.mem_openReg {s bad u : State} (o : Nat) (v : BitVec 64) (hb : bad.mem = s.mem) (hu : u.mem = s.mem) :
    ((s.openReg bad o v).getD u).mem = s.mem := by
  have hite (p : Prop) [Decidable p] (a b : Option State) : (if p then a else b).getD u = if p then a.getD u else b.getD u :=
    apply_ite (fun x : Option State => x.getD u) p a b
  simp [State.openReg, hite, State.mem_writeFabcfg _ hb, State.mem_writePartcfg _ hb, State.mem_writePartsup _ hb, hu]
@[simp] theorem State.mem_cfgPut (s : State) (m off : Nat) (bs : List Byte) : (s.cfgPut m off bs).mem = s.mem :=
  State.mem_foldl _ _ _ fun _ _ => State.mem_openReg _ _ rfl rfl

/-! ### Links, the bus and the hub (27, 31) -/

@[simp] theorem State.mem_goodFlit (s : State) (l : Nat) (dir : Bool) (hdr : BitVec 128) : (s.goodFlit l dir hdr).mem = s.mem := rfl
@[simp] theorem State.mem_answer (s : State) (r : BusRes) : (s.answer r).mem = s.mem := rfl
@[simp] theorem State.mem_remoteRefused (s : State) (r : RemoteReq) (t pa : Nat) : (s.remoteRefused r t pa).mem = s.mem := rfl
@[simp] theorem State.mem_remoteSlotFails (s : State) (r : RemoteReq) (cl : Nat) : (s.remoteSlotFails r cl).mem = s.mem := rfl
@[simp] theorem State.mem_serveAttr (s : State) (key : Nat) (set : Bool) (pa len : Nat) : (s.serveAttr key set pa len).mem = s.mem := by
  simp only [State.serveAttr]
  split
  · rfl
  · split
    · simp
    · split <;> simp
@[simp] theorem State.mem_coreFence (s : State) (core : Nat) : (s.coreFence core).mem = s.mem := by
  unfold State.coreFence
  split <;> simp
@[simp] theorem State.mem_trainLinks (s : State) (failed : List Nat) : (s.trainLinks failed).mem = s.mem :=
  State.mem_foldl _ _ _ fun _ _ => rfl
/-- Halting clusters leaves memory alone. -/
@[simp] theorem State.mem_foldl_modCl {α : Type} (l : List α) (i : α → Nat) (f : Cluster → Cluster) (s : State) :
    (l.foldl (fun s c => s.modCl (i c) f) s).mem = s.mem := State.mem_foldl _ _ _ fun _ _ => rfl
@[simp] theorem State.mem_setBypass (s : State) (lost : List Nat) : (s.setBypass lost).mem = s.mem := by
  refine (State.mem_foldl _ _ _ ?_).trans (State.mem_foldl _ _ _ ?_)
  · exact fun s d => State.mem_foldl_modCl _ id _ s
  · exact fun _ _ => rfl
@[simp] theorem State.mem_trainPorts (s : State) (peers : List (Nat × BitVec 6)) : (s.trainPorts peers).mem = s.mem := by
  simp [State.trainPorts]
@[simp] theorem State.mem_haltShort (s : State) : s.haltShort.mem = s.mem := by simp [State.haltShort]
@[simp] theorem State.mem_buildCaps (s : State) (ports : List (Nat × BitVec 64)) (cs : List Cap) : (s.buildCaps ports cs).mem = s.mem := by
  simp [State.buildCaps]
@[simp] theorem State.mem_reply (s : State) (f : BitVec 1056 → Reply) (nonce : Nat) : (s.reply f nonce).mem = s.mem := by
  simp [State.reply]
@[simp] theorem State.mem_measured (s : State) (f : BitVec 16 → BitVec 8 → Hub → Hub) : (s.measured f).mem = s.mem := by
  unfold State.measured; split <;> rfl

/-! ### Sections and keys (03 R28 to R36) -/

@[simp] theorem State.mem_judgeKey (s : State) (h : Header) (f : Parcel) (key : BitVec 24 × BitVec 32 × Nat) (rot : Bool) :
    (s.judgeKey h f key rot).mem = s.mem := by
  simp only [State.judgeKey]
  split
  · rfl
  · rfl
  · split <;> simp
@[simp] theorem State.mem_startIfFree (s : State) (c x : Nat) : (s.startIfFree c x).mem = s.mem := by
  unfold State.startIfFree
  split <;> simp

end Sys2Proof.Machine
end

section
/-! PROOFS. The operations that write memory keep it canonical. -/

namespace Sys2Proof.Machine

@[simp] theorem State.mem_copyPage? (s : State) (r : Append) : (s.copyPage? r).1.mem = s.mem := by
  unfold State.copyPage?
  split <;> rfl

@[simp] theorem State.mem_fst_ite {β : Type} (p : Prop) [Decidable p] (a b : State × β) :
    (if p then a else b).1.mem = if p then a.1.mem else b.1.mem := apply_ite (fun r : State × β => r.1.mem) p a b

/-- A fold of operations that keep memory canonical keeps it canonical. -/
theorem Memory.wf_foldl {α : Type} {f : State → α → State} {s : State}
    (hf : ∀ s a, Memory.wf s.mem = true → Memory.wf (f s a).mem = true) (l : List α) (h : Memory.wf s.mem = true) :
    Memory.wf (l.foldl f s).mem = true := by
  induction l generalizing s with
  | nil => exact h
  | cons a l ih => exact ih (hf s a h)

/-- An operation keeps memory canonical. -/
def KeepsCanonical (f : State → State) : Prop := ∀ s, Memory.wf s.mem = true → Memory.wf (f s).mem = true

/-- A fold of operations that keep memory canonical, each named as one operation. -/
theorem Memory.wf_foldl_keeps {α : Type} {f : State → α → State} {s : State} (hf : ∀ a, KeepsCanonical fun s => f s a) (l : List α)
    (h : Memory.wf s.mem = true) : Memory.wf (l.foldl f s).mem = true := Memory.wf_foldl (fun s a h => hf a s h) l h

/-- Of two canonical memories a condition chooses a canonical one. -/
theorem Memory.wf_ite {p : Prop} [Decidable p] {m n : List Host.Cell} (hm : Memory.wf m = true) (hn : Memory.wf n = true) :
    Memory.wf (if p then m else n) = true := by
  split
  · exact hm
  · exact hn

section
variable {s : State} (h : Memory.wf s.mem = true)
include h

/-! ### Homes of accesses (21 R294) -/

theorem Memory.wf_put (m pa : Nat) (bs : List Byte) : Memory.wf (s.put m pa bs).1.mem = true := by
  unfold State.put
  split
  · simpa using h
  · exact Memory.wf_store s pa bs h

theorem Memory.wf_copyUnits (m src dst n : Nat) : Memory.wf (s.copyUnits m src dst n).1.mem = true := by
  induction n with
  | zero => exact h
  | succ n ih =>
    rw [State.copyUnits]
    dsimp only
    split
    · exact ih
    · exact Memory.wf_put ih _ _ _

theorem Memory.wf_pieceHome (c : Nat) (a : Access) : Memory.wf (s.pieceHome c a).1.mem = true := by
  unfold State.pieceHome
  split
  · exact h
  next p rest _ =>
    dsimp only
    split
    case h_1 => -- a store
      split
      · simpa using h
      · simpa using Memory.wf_put h _ _ _
    case h_2 => -- a copy
      split
      · exact h
      · split
        · simpa using h
        · simpa using Memory.wf_copyUnits h _ _ _ _
    case h_3 => -- an atomic
      split
      · simpa using h
      · split
        · simpa using h
        · exact Memory.wf_put h _ _ _
    case h_4 => -- a reduction
      split
      · simpa using h
      · split
        · split <;> simpa using h
        · exact Memory.wf_put h _ _ _
    case h_5 => exact h
    case h_6 => simpa using h

theorem Memory.wf_performPiece (c : Nat) (a : Access) : Memory.wf (s.performPiece c a).1.mem = true := by
  unfold State.performPiece
  split
  · exact h
  · simpa using Memory.wf_pieceHome h c a

theorem Memory.wf_performAll (c n : Nat) (a : Access) : Memory.wf (s.performAll c n a).1.mem = true := by
  induction n generalizing s a with
  | zero => exact h
  | succ n ih => exact ih (Memory.wf_performPiece h c a) _

theorem Memory.wf_flushShown : Memory.wf s.flushShown.mem = true := by
  refine Memory.wf_foldl (fun s e h => ?_) _ h
  split
  · exact Memory.wf_performAll h _ _ _
  · exact h

theorem Memory.wf_seenBy (u : Nat) : Memory.wf (s.seenBy u).mem = true := by
  simpa [State.seenBy] using Memory.wf_ite (Memory.wf_flushShown h) h

theorem Memory.wf_endAccess {c : Nat} {a : Access} {ext : List Byte} {r : State × Access} (hr : s.endAccess c a ext = some r) :
    Memory.wf r.1.mem = true := by
  unfold State.endAccess at hr
  split at hr
  · split at hr <;> cases hr
    exact h
  · split at hr <;> cases hr
    exact Memory.wf_performAll h _ _ _

theorem Memory.wf_giveUp (c : Nat) (covers : Access → Bool) : Memory.wf (s.giveUp c covers).mem = true := by
  have hm : (s.giveUp c covers).mem = s.flushShown.mem := by
    refine mem_foldAcc _ _ _ fun t a => ?_
    split
    · split
      · simp
      · split <;> simp
    · rfl
  exact hm ▸ Memory.wf_flushShown h

theorem Memory.wf_expireMarks (c que : Nat) : Memory.wf (s.expireMarks c que).mem = true := Memory.wf_giveUp h _ _

theorem Memory.wf_expireCore (core : Nat) : Memory.wf (s.expireCore core).mem = true := by
  unfold State.expireCore
  split
  · exact h
  · split
    · exact Memory.wf_foldl (fun s c h => Memory.wf_giveUp h _ _) _ h
    · exact h

theorem Memory.wf_deliver {cl : Nat} {bytes : List Byte} {src : BitVec 22} {asid : BitVec 8} {hnd : Parcel} {t : State}
    (ht : s.deliver cl bytes src asid hnd = some t) : Memory.wf t.mem = true := by
  unfold State.deliver at ht
  split at ht
  · cases ht
  · cases ht
    rw [State.mem_modCl]
    exact Memory.wf_store _ _ _ h

/-! ### Event logs and the end of a cycle -/

theorem Memory.wf_endCycle : Memory.wf s.endCycle.mem = true := by
  refine Memory.wf_foldl (fun s t h => Memory.wf_writeEvents s t h) _ ?_
  simpa using h

/-! ### Queues in memory (13 R204) -/

omit h in
/-- A queue operation that is done leaves memory canonical. -/
def QRes.canonical : QRes → Prop
  | .done t _ _ _ => Memory.wf t.mem = true
  | _ => True

omit h in
theorem QRes.canonical_ite {p : Prop} [Decidable p] {a b : QRes} (ha : a.canonical) (hb : b.canonical) :
    (if p then a else b).canonical := by
  split
  · exact ha
  · exact hb

theorem State.queueOn_canonical (m : Nat) (place : QDesc → Except Nat (List (Piece × Bool × Bool))) (va pa : Nat)
    (src : Option (List Byte)) (small : Bool) (far : FarMap) : (s.queueOn m place va pa src small far).canonical := by
  unfold State.queueOn
  refine QRes.canonical_ite trivial (QRes.canonical_ite trivial (QRes.canonical_ite trivial ?_))
  split -- the descriptor, where it is well formed
  · trivial
  refine QRes.canonical_ite trivial (QRes.canonical_ite trivial ?_)
  split -- the entry's parts, where they are mapped
  · trivial
  split -- read-only, cut off, refused or unbacked parts
  · trivial
  split
  · trivial
  split
  · trivial
  split
  · trivial
  split
  · exact Memory.wf_put (Memory.wf_foldl (fun s p h => Memory.wf_put h _ _ _) _ h) _ _ _
  · exact Memory.wf_put h _ _ _

theorem State.hwPush_canonical (m c : Nat) (asid : BitVec 8) (va : Nat) (bs : List Byte) : (s.hwPush m c asid va bs).canonical := by
  unfold State.hwPush
  refine QRes.canonical_ite trivial ?_
  split
  · trivial
  · exact QRes.canonical_ite trivial (QRes.canonical_ite trivial (State.queueOn_canonical h ..))

/-! ### Hardware pushes and page moves (19 R280, R291) -/

theorem Memory.wf_pushFor (m c : Nat) (asid : BitVec 8) (tid : BitVec 32) (va v : Nat) :
    Memory.wf (s.pushFor m c asid tid va v).1.mem = true := by
  have hs : ∀ u, Memory.wf (s.seenBy u).mem = true := Memory.wf_seenBy h
  unfold State.pushFor
  dsimp only
  split
  next => simpa using hs _
  next t _ _ bad hq =>
    have ht : Memory.wf t.mem = true := by
      have := State.hwPush_canonical (hs (if 0xA10 ≤ m then 8 + (m - 0xA10) else dieOf c)) m c asid va (natBytes 8 v)
      rwa [hq] at this
    refine Memory.wf_foldl ?_ bad ht
    exact fun s p h => h
  next => exact hs _
  next => simpa using hs _

theorem Memory.wf_pushDone (n p : Nat) (moved : Bool) (rs : List TierReq) : Memory.wf (s.pushDone n p moved rs).mem = true := by
  refine Memory.wf_foldl (fun s r h => ?_) rs h
  split
  · exact h
  · exact Memory.wf_pushFor h ..

theorem Memory.wf_doneInTurn (n p : Nat) (r : TierReq) : Memory.wf (s.doneInTurn n p r).mem = true := by
  unfold State.doneInTurn
  split
  · exact h
  · split
    · exact Memory.wf_pushDone h ..
    · exact h

theorem Memory.wf_tierRequest (own p : Nat) (r : TierReq) : Memory.wf (s.tierRequest own p r).1.mem = true := by
  simp only [State.tierRequest, State.mem_fst_ite]
  exact Memory.wf_ite (Memory.wf_doneInTurn h ..) (Memory.wf_ite h (Memory.wf_ite h h))

theorem Memory.wf_startReverse (n p : Nat) (rs : List TierReq) : Memory.wf (s.startReverse n p rs).mem = true := by
  unfold State.startReverse
  split
  · exact h
  · simp only [State.mem_ite]
    exact Memory.wf_ite (Memory.wf_pushDone h ..) (Memory.wf_ite (Memory.wf_pushDone h ..)
      (Memory.wf_ite h (Memory.wf_pushDone (s := s.modADie n fun _ => _) h ..)))

theorem Memory.wf_tierMiss (a : AEng) (own p blk : Nat) (d : Desc) : Memory.wf (s.tierMiss a own p blk d).1.mem = true := by
  have hpush : Memory.wf (s.pushFor (masterOf s.cur.1 2) s.cur.1 (s.me.asid s.cur.2) s.me.tid a.missq
      (a.seqid * 2 ^ 32 + p)).1.mem = true := Memory.wf_pushFor h ..
  simp only [State.tierMiss, State.mem_logEvent, State.mem_fst_ite]
  refine Memory.wf_ite (Memory.wf_tierRequest ?_ ..) ?_ <;> simpa using Memory.wf_ite h hpush

/-! ### Appends (19 R286) -/

theorem Memory.wf_aStore (va pa : Nat) (bs : List Byte) (phys : Bool) : Memory.wf (s.aStore va pa bs phys).mem = true := by
  simpa [State.aStore] using Memory.wf_store s pa bs h

theorem Memory.wf_aWrite (ps : List Piece) (bs : List Byte) : Memory.wf (s.aWrite ps bs).mem = true := by
  refine Memory.wf_foldl (fun s p h => ?_) ps h
  split
  · exact h
  · exact Memory.wf_aStore h ..

theorem Memory.wf_setRow (ps : List Piece) (pg : Nat) : Memory.wf (s.setRow ps pg).mem = true := by
  simpa [State.setRow] using Memory.wf_aWrite h ps (natBytes 4 pg)

theorem Memory.wf_forked (r : Append) : Memory.wf (s.forked r).mem = true := by
  unfold State.forked
  split
  · simpa using Memory.wf_aWrite h _ _
  · exact h

theorem Memory.wf_append (a : AEng) (pg slot : Nat) (img : List Byte) : Memory.wf (s.append a pg slot img).mem = true := by
  simpa [State.append] using Memory.wf_aStore h _ _ img true

theorem Memory.wf_copySlots (a : AEng) (p n : Nat) : Memory.wf (s.copySlots a p n).mem = true := by
  simpa [State.copySlots] using Memory.wf_foldl (fun s _ h => Memory.wf_aStore h _ _ _ true) _ h

theorem Memory.wf_undone (r : Append) : Memory.wf (s.undone r).mem = true := by
  have hd : Memory.wf (s.dropCopy r).mem = true := by simpa using h
  simpa [State.undone] using Memory.wf_ite (Memory.wf_tierRequest hd _ _ _) h

end

end Sys2Proof.Machine
end

section
/-! PROOFS. What the module's agents write: appends, images, launches, repairs and saves keep memory canonical. -/

namespace Sys2Proof.Machine

@[simp] theorem State.mem_publish (s : State) (t : Nat) (r : BitVec 1024) (src byTid : Nat) : (s.publish t r src byTid).1.mem = s.mem := by
  simp [State.publish]

section
variable {s : State} (h : Memory.wf s.mem = true)
include h

/-! ### Context images (29 R379) -/

theorem Memory.wf_putImage (im : SMap Byte) (ps : List Piece) : Memory.wf (s.putImage im ps).mem = true := by
  refine Memory.wf_foldl (fun s p h => ?_) ps h
  split
  · exact h
  · split
    · exact Memory.wf_replace s _ _ _ h
    · exact Memory.wf_put h _ _ _

theorem Memory.wf_loadInto (c : Nat) (im : SMap Byte) (ctxs : SMap Ctx) : Memory.wf (s.loadInto c im ctxs).mem = true :=
  Memory.wf_replace (s.modCl c _) _ _ _ h

theorem Memory.wf_putShadow (t n : Nat) (k : Cluster) (w : Saved) : Memory.wf (s.putShadow t n k w).mem = true := by
  unfold State.putShadow
  dsimp only
  split
  · exact h
  · exact Memory.wf_foldl (fun s r h => Memory.wf_replace s _ _ _ h) _ h

theorem Memory.wf_loadSaved (c : Nat) (w : Saved) : Memory.wf (s.loadSaved c w).mem = true := Memory.wf_loadInto h ..

theorem Memory.wf_saveCluster (c n : Nat) (x : Task) : Memory.wf (s.saveCluster c n x).mem = true := by
  have hd : Memory.wf (s.dropRecords c).mem = true := by simpa using h
  simpa [State.saveCluster] using Memory.wf_putShadow hd _ _ _ _

theorem Memory.wf_discardOn (c : Nat) (x : Task) : Memory.wf (s.discardOn c x).mem = true := by
  simpa [State.discardOn] using Memory.wf_replace s _ _ _ h

theorem Memory.wf_goOnPre (t : Nat) (p : Preempt) : Memory.wf (s.goOnPre t p).mem = true := by
  have hd : Memory.wf ((s.teamOn t p.team).foldl (fun s q =>
      if s.beingDropped q.1 && s.quiet q.1 then s.discardOn q.1 q.2 else s) s).mem = true := by
    refine Memory.wf_foldl (fun s q h => ?_) _ h
    split
    · exact Memory.wf_discardOn h _ _
    · exact h
  simpa [State.goOnPre] using Memory.wf_ite hd h

/-! ### Launches, retirement and repair (03 R43 to R50, 23 R326) -/

theorem Memory.wf_launchPart (t : Nat) (r : BitVec 1024) (first count src : Nat) :
    Memory.wf (s.launchPart t r first count src).mem = true := by
  have hput (u : State) (hu : Memory.wf u.mem = true) (o v : Nat) :
      Memory.wf (match u.translate (clusterNo t 0) (recAsid r) ((recParam r).toNat + o) with
        | some (pa, _) => u.storeNat pa 8 v
        | none => u).mem = true := by
    split
    · exact Memory.wf_storeNat u _ _ _ hu
    · exact hu
  unfold State.launchPart
  simp only [State.mem_ite, State.mem_publish, State.mem_modDist]
  exact Memory.wf_ite (hput _ (hput s h 0 first) 8 count) (Memory.wf_ite h h)

theorem Memory.wf_launchOver (dies : List Nat) (far : Nat) (r : BitVec 1024) (first count src : Nat) :
    Memory.wf (s.launchOver dies far r first count src).mem = true :=
  Memory.wf_foldl (fun _ _ h => Memory.wf_launchPart h ..) _ h

theorem Memory.wf_launchTodo (t : Nat) : Memory.wf (s.launchTodo t).mem = true :=
  Memory.wf_foldl (fun _ _ h => Memory.wf_launchPart h ..) _ h

theorem Memory.wf_forget (t : Nat) (x : Task) : Memory.wf (s.forget t x).mem = true := by
  refine Memory.wf_launchTodo ?_ t
  exact h

theorem Memory.wf_retireTask (c : Nat) : Memory.wf (s.retireTask c).mem = true := by
  unfold State.retireTask
  dsimp only
  split
  · exact Memory.wf_forget (s := s.taskSync c) h ..
  · exact h

theorem Memory.wf_killed (c : Nat) : Memory.wf (s.killed c).mem = true := by
  have hd : Memory.wf ((s.markRecords c).dropRecords c).mem = true := by simpa using h
  simpa [State.killed] using Memory.wf_retireTask hd c

theorem Memory.wf_restoreFails (c : Nat) (x : Task) : Memory.wf (s.restoreFails c x).mem = true :=
  Memory.wf_forget (s := s.restoreRecord c _ _) h _ _

theorem Memory.wf_swapInto (c : Nat) (rcd : Option (BitVec 1024)) : Memory.wf (s.swapInto c rcd).mem = true := by
  have hf : Memory.wf (s.freeSlot (dieOf c) (swapSlot (dieOf c) (localOf c))).mem = true := h
  unfold State.swapInto
  dsimp only
  split
  next =>
    split
    · exact Memory.wf_loadSaved hf ..
    · exact h
  next r =>
    split
    · exact Memory.wf_loadSaved (s := (State.freeSlot ..).modCl c _) hf ..
    · split
      · exact Memory.wf_restoreFails hf ..
      · exact h

theorem Memory.wf_reissue (p lost : Nat) : Memory.wf (s.reissue p lost).mem = true := by
  unfold State.reissue
  split
  · exact h
  · dsimp only
    refine Memory.wf_foldl (fun s e h => Memory.wf_launchOver h ..) _ ?_
    refine Memory.wf_foldl (fun s x h => ?_) _ h
    split
    · exact Memory.wf_launchOver h ..
    · exact h

end

end Sys2Proof.Machine
end

section
/-! PROOFS. Outcomes that keep memory canonical: words, through their checks, and the losses that a repair answers. -/

namespace Sys2Proof.Machine

/-- The next state that an outcome names has its memory in canonical form. -/
structure OutCanonical (o : Out) : Prop where
  next : ∀ t, o = .next t → Memory.wf t.mem = true

/-- What a check answers, where it does, has a property. -/
def Ensures {α : Type} (r : Chk α) (P : α → Prop) : Prop := ∀ a, r = .ok a → P a

@[simp] theorem outCanonical_next (t : State) : OutCanonical (.next t) ↔ Memory.wf t.mem = true :=
  ⟨fun h => h.next t rfl, fun h => ⟨fun _ ht => by cases ht; exact h⟩⟩
@[simp] theorem outCanonical_ite (p : Prop) [Decidable p] (a b : Out) :
    OutCanonical (if p then a else b) ↔ (p → OutCanonical a) ∧ (¬p → OutCanonical b) := by
  split <;> simp [*]

theorem wf_stateOf {s : State} {o : Out} (h : Memory.wf s.mem = true) (ho : OutCanonical o) : Memory.wf (stateOf s o).mem = true := by
  cases o with
  | next t => exact ho.next t rfl
  | fault r => exact h
  | refused r => exact h

section
variable {α β : Type} {P : α → Prop}

@[simp] theorem ensures_ok (a : α) : Ensures (.ok a) P ↔ P a := ⟨fun h => h a rfl, fun h _ ha => by cases ha; exact h⟩
@[simp] theorem ensures_error (e : Stop) : Ensures (.error e) P := fun _ h => by cases h
@[simp] theorem ensures_trapWith (c : Cause) (opnd : Nat) : Ensures (trapWith c opnd) P := ensures_error _
@[simp] theorem ensures_waitHere : Ensures waitHere P := ensures_error _
@[simp] theorem ensures_shapeA (reason n : Nat) : Ensures (shapeA reason n) P := ensures_error _
@[simp] theorem ensures_ite (p : Prop) [Decidable p] (x y : Chk α) :
    Ensures (if p then x else y) P ↔ (p → Ensures x P) ∧ (¬p → Ensures y P) := by
  split <;> simp [*]
/-- What a check followed by another answers is what the second answers on the first's answer. -/
@[simp] theorem ensures_bind (x : Chk β) (f : β → Chk α) : Ensures (x >>= f) P ↔ ∀ b, x = .ok b → Ensures (f b) P := by
  cases x with
  | error e => exact ⟨fun _ b hb => (by cases hb), fun _ => ensures_error e⟩
  | ok b => exact ⟨fun h c hc => (by cases hc; exact h), fun h => h b rfl⟩
end

section
variable {s : State} (h : Memory.wf s.mem = true)
include h

/-- A word that answers through finish keeps memory canonical where what its checks leave is canonical. -/
theorem finish_canonical {len : Nat} {r : Chk State} (hr : Ensures r fun t => Memory.wf t.mem = true) : OutCanonical (finish s len r) := by
  cases r with
  | ok t => simpa [finish] using hr t rfl
  | error e => simpa [finish] using h

theorem finishAt_canonical {r : Chk State} (hr : Ensures r fun t => Memory.wf t.mem = true) : OutCanonical (finishAt s r) := by
  cases r with
  | ok t => simpa [finishAt] using hr t rfl
  | error e => simpa [finishAt] using h

theorem finishWait_canonical {r : Chk State} (hr : Ensures r fun t => Memory.wf t.mem = true) : OutCanonical (finishWait s r) := by
  cases r with
  | ok t => simpa [finishWait] using hr t rfl
  | error e => simpa [finishWait] using h

theorem ensures_goto (a : Parcel) : Ensures (s.goto a) fun t => Memory.wf t.mem = true :=
  fun _ ht => Memory.wf_of_eq (State.mem_goto ht) h

/-! ### The loss of a ring die (23 R326) -/

theorem Memory.wf_repair (lost why : Nat) : Memory.wf (s.repair lost why).mem = true := by
  have key (u : State) (hu : u.mem = s.mem) (p d n why lost nrei first flg : Nat) :
      Memory.wf ((u.reissue p lost).repairEntry p why d nrei first flg).mem = true := by
    rw [State.mem_repairEntry]
    exact Memory.wf_reissue (Memory.wf_of_eq hu h) _ _
  unfold State.repair
  split
  · exact h
  · refine key _ ?_ _ _ 0 _ _ _ _ _
    dsimp only
    generalize (List.range 8).find? _ = pred
    generalize s.succHere lost = next
    cases pred <;> cases next <;> simp

end

end Sys2Proof.Machine
end

section
/-! PROOFS. Commands and register writes of the hub cores keep memory canonical (25 R335, 29 R371 to R378, 31 R385). -/

namespace Sys2Proof.Machine

section
variable {s : State} (h : Memory.wf s.mem = true)
include h

/-! ### Supervisor commands -/

theorem execRetry_canonical (core t : Nat) (cl : BitVec 5) : OutCanonical (execRetry core t cl s) := by
  simp [execRetry, h]
theorem execSkip_canonical (core t : Nat) (cl : BitVec 5) : OutCanonical (execSkip core t cl s) := by
  simp [execSkip, h]
theorem execKill_canonical (core t : Nat) (cl : BitVec 5) : OutCanonical (execKill core t cl s) := by
  simp [execKill, h]
theorem execSaveTeam_canonical (core t : Nat) (team : BitVec 16) : OutCanonical (execSaveTeam core t team s) := by
  simp [execSaveTeam, h]
theorem execSwapout_canonical (core t : Nat) : OutCanonical (execSwapout core t s) := by
  simp only [execSwapout, outCanonical_next]
  rw [State.mem_supCommand]
  · exact h
  · intro u
    split
    · rfl
    · refine (State.mem_foldl _ _ _ ?_).trans ?_
      · exact fun _ _ => rfl
      · show (match (u.dist t).pre with | some p => u.cancelPre t p.team | none => u).mem = u.mem
        split <;> simp
theorem execSwapin_canonical (core t : Nat) : OutCanonical (execSwapin core t s) := by
  simp [execSwapin, h]
theorem execFrz_canonical (core t : Nat) (v : BitVec 32) : OutCanonical (execFrz core t v s) := by
  unfold execFrz
  split
  · rw [outCanonical_next, State.mem_hubBlockWrite]
    · exact h
    · exact fun _ => rfl
  · rw [outCanonical_next, State.mem_supWrite]
    · exact h
    · exact fun _ => rfl
theorem execAgfrz_canonical (core t : Nat) (v : BitVec 1) : OutCanonical (execAgfrz core t v s) := by
  simp [execAgfrz, h]
theorem execEstclr_canonical (core t : Nat) (all : Bool) (tid : BitVec 32) : OutCanonical (execEstclr core t all tid s) := by
  rw [execEstclr, outCanonical_next, State.mem_supWrite]
  · exact h
  · exact fun _ => rfl

/-! ### Page commands -/

theorem execAlloc_canonical (core a : Nat) (arg : BitVec 28) (page : BitVec 30) : OutCanonical (execAlloc core a arg page s) := by
  rw [execAlloc, outCanonical_next, State.mem_pageCommand]
  · exact h
  · exact fun _ => rfl
theorem execRefPage_canonical (core a : Nat) (arg : BitVec 28) (page : BitVec 30) : OutCanonical (execRefPage core a arg page s) := by
  simp [execRefPage, h]
theorem execUnref_canonical (core a : Nat) (arg : BitVec 28) (page : BitVec 30) : OutCanonical (execUnref core a arg page s) := by
  simp [execUnref, h]
theorem execSetro_canonical (core a : Nat) (arg : BitVec 28) (page : BitVec 30) : OutCanonical (execSetro core a arg page s) := by
  simp [execSetro, h]
theorem execClrro_canonical (core a : Nat) (arg : BitVec 28) (page : BitVec 30) : OutCanonical (execClrro core a arg page s) := by
  simp [execClrro, h]
theorem execSetpin_canonical (core a : Nat) (arg : BitVec 28) (page : BitVec 30) : OutCanonical (execSetpin core a arg page s) := by
  simp [execSetpin, h]
theorem execClrpin_canonical (core a : Nat) (arg : BitVec 28) (page : BitVec 30) : OutCanonical (execClrpin core a arg page s) := by
  simp [execClrpin, h]
theorem execEvict_canonical (core a : Nat) (arg : BitVec 28) (page : BitVec 30) : OutCanonical (execEvict core a arg page s) := by
  rw [execEvict, outCanonical_next, State.mem_pageCommand]
  · exact h
  · exact fun _ => rfl
theorem execPublish_canonical (core a : Nat) (arg : BitVec 28) (page : BitVec 30) : OutCanonical (execPublish core a arg page s) := by
  simp [execPublish, h]

/-! ### Configuration registers and tables -/

theorem execPageAllocatorEnable_canonical (core a : Nat) (v : BitVec 64) : OutCanonical (execPageAllocatorEnable core a v s) := by
  simp [execPageAllocatorEnable, h]
theorem execPartcfg_canonical (core : Nat) (v : BitVec 32) : OutCanonical (execPartcfg core v s) := by
  rw [execPartcfg, outCanonical_next, State.mem_coreWrite]
  · exact h
  · exact fun _ => State.mem_writePartcfg _ rfl
theorem execPartsup_canonical (core : Nat) (v : BitVec 64) : OutCanonical (execPartsup core v s) := by
  rw [execPartsup, outCanonical_next, State.mem_coreWrite]
  · exact h
  · exact fun _ => State.mem_writePartsup _ rfl
theorem execAccessTableWrite_canonical (m : BitVec 12) (t : Nat) (e : BitVec 12) (v : BitVec 8) :
    OutCanonical (execAccessTableWrite m t e v s) := by
  simp [execAccessTableWrite, h]
theorem execGroupTableWrite_canonical (core i : Nat) (mask : BitVec 320) : OutCanonical (execGroupTableWrite core i mask s) := by
  rw [execGroupTableWrite]
  rw [outCanonical_ite]
  refine ⟨fun _ => (outCanonical_next s).2 h, fun _ => ?_⟩
  rw [outCanonical_next, State.mem_coreWrite]
  · exact h
  · intro u
    rw [State.mem_ite, State.mem_ite, ite_self, State.mem_cfgIgnored, ite_self]
theorem execRfcfg_canonical (core d : Nat) (v : BitVec 64) : OutCanonical (execRfcfg core d v s) := by
  simp [execRfcfg, h]
theorem execFabcfg_canonical (core : Nat) (v : BitVec 64) : OutCanonical (execFabcfg core v s) := by
  rw [execFabcfg, outCanonical_next, State.mem_coreWrite]
  · exact h
  · exact fun _ => State.mem_writeFabcfg _ rfl
theorem execHostwin_canonical (core : Nat) (v : BitVec 64) : OutCanonical (execHostwin core v s) := by
  simp [execHostwin, h]
theorem execPwrcap_canonical (core : Nat) (v : BitVec 64) : OutCanonical (execPwrcap core v s) := by
  simp [execPwrcap, h]

/-- A core's write keeps memory canonical where the change it makes does. -/
theorem Memory.wf_coreWrite (core off : Nat) {f : State → State} (hf : Memory.wf (f s).mem = true) :
    Memory.wf (s.coreWrite core off f).mem = true := by
  rcases s.coreWrite_cases core off f with e | e | e <;> rw [e]
  · exact h
  · exact hf
  · rw [State.mem_agentRefused]; exact h

theorem execBypass_canonical (core d : Nat) (v : BitVec 8) : OutCanonical (execBypass core d v s) := by
  simp only [execBypass, outCanonical_next, State.mem_ite]
  refine Memory.wf_ite h (Memory.wf_coreWrite h _ _ ?_)
  simp only [State.mem_ite, State.mem_setMasters, State.mem_modRing, State.mem_cfgIgnored]
  exact Memory.wf_ite h (Memory.wf_ite h (Memory.wf_foldl (fun _ _ h => Memory.wf_repair h _ _) _ h))

theorem Memory.wf_writeSupcmd (core t : Nat) (v : BitVec 64) : Memory.wf (s.writeSupcmd core t v).mem = true := by
  have hbad : Memory.wf (s.supWrite core t 0x18 fun s => s.cfgIgnored core (supOff t 0x18)).mem = true := by
    rw [State.mem_supWrite]
    · exact h
    · exact fun _ => rfl
  simp only [State.writeSupcmd, State.mem_ite]
  refine Memory.wf_ite hbad ?_
  split
  · exact wf_stateOf h (execRetry_canonical h ..)
  · exact wf_stateOf h (execSkip_canonical h ..)
  · exact wf_stateOf h (execKill_canonical h ..)
  · exact wf_stateOf h (execSaveTeam_canonical h ..)
  · exact wf_stateOf h (execSwapout_canonical h ..)
  · exact wf_stateOf h (execSwapin_canonical h ..)
  · exact hbad

theorem Memory.wf_writePgcmd (core a : Nat) (v : BitVec 64) : Memory.wf (s.writePgcmd core a v).mem = true := by
  have hbad : Memory.wf (s.coreWrite core (pageOff a 0x38) fun s => s.cfgIgnored core (pageOff a 0x38)).mem = true :=
    Memory.wf_coreWrite h _ _ h
  simp only [State.writePgcmd, State.mem_ite]
  refine Memory.wf_ite hbad ?_
  split
  · exact wf_stateOf h (execAlloc_canonical h ..)
  · exact wf_stateOf h (execRefPage_canonical h ..)
  · exact wf_stateOf h (execUnref_canonical h ..)
  · exact wf_stateOf h (execSetro_canonical h ..)
  · exact wf_stateOf h (execClrro_canonical h ..)
  · exact wf_stateOf h (execSetpin_canonical h ..)
  · exact wf_stateOf h (execClrpin_canonical h ..)
  · exact wf_stateOf h (execEvict_canonical h ..)
  · exact wf_stateOf h (execPublish_canonical h ..)
  · exact hbad

omit h in
theorem keepsCanonical_tableWrite (m : BitVec 12) (t : Nat) (e : BitVec 12) (v : BitVec 8) :
    KeepsCanonical fun s => stateOf s (execAccessTableWrite m t e v s) :=
  fun _ h => wf_stateOf h (execAccessTableWrite_canonical h ..)

theorem Memory.wf_writeTables (core o : Nat) (v : BitVec 64) : Memory.wf (s.writeTables core o v).mem = true := by
  unfold State.writeTables
  refine Memory.wf_foldl_keeps ?_ _ h
  exact fun _ => keepsCanonical_tableWrite _ _ _ _

/-- A write of any offset of configuration space (00 R7). -/
theorem Memory.wf_cfgWrite (core o : Nat) (v : BitVec 64) : Memory.wf (s.cfgWrite core o v).mem = true := by
  have hreg {f : State → State} (hf : (f s).mem = s.mem) : Memory.wf (s.coreWrite core o f).mem = true :=
    Memory.wf_coreWrite h _ _ (Memory.wf_of_eq hf h)
  have hid : Memory.wf (s.coreWrite core o id).mem = true := hreg rfl
  simp only [State.cfgWrite, State.mem_ite]
  refine Memory.wf_ite (Memory.wf_writeTables h ..) (Memory.wf_ite ?groups (Memory.wf_ite ?rings (Memory.wf_ite ?pages
    (Memory.wf_ite ?sups (Memory.wf_ite ?power (Memory.wf_ite ?host ?rest))))))
  case groups => exact Memory.wf_ite (wf_stateOf h (execGroupTableWrite_canonical h ..)) hid
  case rings =>
    exact Memory.wf_ite (hreg (State.mem_writeEsccfg ..)) (Memory.wf_ite (wf_stateOf h (execRfcfg_canonical h ..))
      (Memory.wf_ite (hreg (State.mem_writeBkbase ..)) (Memory.wf_ite (wf_stateOf h (execBypass_canonical h ..)) hid)))
  case pages =>
    exact Memory.wf_ite (wf_stateOf h (execPageAllocatorEnable_canonical h ..)) (Memory.wf_ite (Memory.wf_writePgcmd h ..)
      (Memory.wf_ite (hreg (State.mem_writePageReg ..)) hid))
  case sups =>
    refine Memory.wf_ite (wf_stateOf h (execFrz_canonical h ..)) (Memory.wf_ite ?_ (Memory.wf_ite hid
      (Memory.wf_ite (wf_stateOf h (execAgfrz_canonical h ..)) (Memory.wf_ite (Memory.wf_writeSupcmd h ..)
        (Memory.wf_ite (wf_stateOf h (execEstclr_canonical h ..)) ?_)))))
    · simpa using h
    · simpa using h
  case power => exact wf_stateOf h (execPwrcap_canonical h ..)
  case host => exact wf_stateOf h (execHostwin_canonical h ..)
  case rest => exact hreg (State.mem_openReg _ _ rfl rfl)

theorem execConfigRegisterWrite_canonical (core off : Nat) (v : BitVec 64) : OutCanonical (execConfigRegisterWrite core off v s) := by
  simpa [execConfigRegisterWrite] using Memory.wf_ite (Memory.wf_cfgWrite h core off v) h

theorem Memory.wf_cfgWriteBytes (core off len v : Nat) : Memory.wf (s.cfgWriteBytes core off len v).mem = true := by
  simp only [State.cfgWriteBytes, State.mem_ite]
  refine Memory.wf_ite (Memory.wf_foldl_keeps ?_ _ h)
    (Memory.wf_ite (Memory.wf_cfgWrite h ..) (Memory.wf_cfgWrite h ..))
  exact fun _ => keepsCanonical_tableWrite _ _ _ _

theorem Memory.wf_cfgWriteSpan (core off len v : Nat) : Memory.wf (s.cfgWriteSpan core off len v).mem = true := by
  unfold State.cfgWriteSpan
  exact Memory.wf_foldl (fun _ _ h => Memory.wf_cfgWriteBytes h ..) _ h

end

end Sys2Proof.Machine
end

section
/-! PROOFS. Links, requests on the bus, boot and power keep memory canonical (27, 31). -/

namespace Sys2Proof.Machine

/-- A module that is cleared has no memory listed (31 R388, log 35). -/
@[simp] theorem State.mem_cleared (s : State) : s.cleared.mem = [] := rfl

section
variable {s : State} (h : Memory.wf s.mem = true)
include h

/-! ### Links (27 R348 to R355) -/

theorem Memory.wf_ringLinkLost (link : Nat) : Memory.wf (s.ringLinkLost link).mem = true := by
  unfold State.ringLinkLost
  split
  next =>
    dsimp only
    rw [State.mem_foldl _ _ _ State.mem_ringCut]
    split
    · exact Memory.wf_repair h _ _
    · exact h
  next a b _ =>
    dsimp only
    generalize (if s.succHere a = some b ∧ (s.ring a).run = true then some a
      else if s.succHere b = some a ∧ (s.ring b).run = true then some b else none) = fwd
    cases fwd with
    | none => exact h
    | some f => exact Memory.wf_repair h _ _

theorem Memory.wf_killLink (link : Nat) : Memory.wf (s.killLink link).mem = true := by
  unfold State.killLink
  refine Memory.wf_ringLinkLost (Memory.wf_of_eq (s := s.flushShown) ?_ (Memory.wf_flushShown h)) link
  rfl

theorem Memory.wf_badFlit (link : Nat) (dir : Bool) (hdr : BitVec 128) : Memory.wf (s.badFlit link dir hdr).mem = true := by
  simp only [State.badFlit, State.mem_ite]
  refine Memory.wf_ite (Memory.wf_killLink ?_ link) h
  exact h

theorem execFlitReceived_canonical (link : Nat) (dir : Bool) (hdr : BitVec 128) (tagOk : Bool) :
    OutCanonical (execFlitReceived link dir hdr tagOk s) := by
  simp [execFlitReceived, h, Memory.wf_badFlit h]
theorem execKeyUpdate_canonical (link : Nat) (dir : Bool) : OutCanonical (execKeyUpdate link dir s) := by
  simp [execKeyUpdate, h]
theorem execLinkLosesTraining_canonical (link : Nat) : OutCanonical (execLinkLosesTraining link s) := by
  simp [execLinkLosesTraining, h]
theorem execLinkDeclaredDead_canonical (link : Nat) : OutCanonical (execLinkDeclaredDead link s) := by
  simp [execLinkDeclaredDead, h, Memory.wf_killLink h]
theorem execLinkUp_canonical (link : Nat) (peer : BitVec 6) : OutCanonical (execLinkUp link peer s) := by
  simp [execLinkUp, h]
theorem execLeaseExpiry_canonical (d line : Nat) : OutCanonical (execLeaseExpiry d line s) := by
  simp [execLeaseExpiry, h]
theorem execShootDown_canonical (home die : Nat) : OutCanonical (execShootDown home die s) := by
  unfold execShootDown
  split <;> simp [h]
theorem execRoClearAtHome_canonical (home : Nat) : OutCanonical (execRoClearAtHome home s) := by
  unfold execRoClearAtHome
  split
  · simp [h]
  · simp only [outCanonical_ite, outCanonical_next, h, State.mem_modHub, implies_true, true_and]
    intro _ _
    split
    · simp only [outCanonical_ite, outCanonical_next, State.mem_finishWord, State.mem_modCx, h, implies_true, and_true]
      intro _
      split <;> simp [h]
    · simp [h]

/-! ### Requests on the bus (31 R383 to R386) -/

theorem Memory.wf_serveQueue (m base pa : Nat) (src : Option (List Byte)) {deny : Nat → State} (far : FarMap)
    (hd : ∀ a, Memory.wf (deny a).mem = true) : Memory.wf (s.serveQueue m base pa src deny far).mem = true := by
  unfold State.serveQueue
  split
  next => simpa using Memory.wf_ite (hd _) h
  next => exact h
  next => exact h
  next t got err bad hq =>
    have ht : Memory.wf t.mem = true := by
      have := State.queueOn_canonical h m (slotAt base src.isSome) pa pa src false far
      rwa [hq] at this
    simpa using ht

theorem Memory.wf_serve (m key : Nat) (core : Option Nat) (kind : ReqKind) (pa len v : Nat) {deny : Nat → State} (far : FarMap)
    (hd : ∀ a, Memory.wf (deny a).mem = true) : Memory.wf (s.serve m key core kind pa len v deny far).mem = true := by
  have hput (v : Nat) : Memory.wf (if isCfg pa && !s.isFar pa then
      match core with
      | some c => s.cfgWriteSpan c (pa % 2 ^ 24) (reqWidth len kind) v
      | none => s.cfgPut m (pa % 2 ^ 24) (natBytes (reqWidth len kind) v)
    else s.storeNat pa (reqWidth len kind) v).mem = true := by
    rw [State.mem_ite]
    refine Memory.wf_ite ?_ (Memory.wf_storeNat s _ _ _ h)
    cases core with
    | none => simpa using h
    | some c => exact Memory.wf_cfgWriteSpan h _ _ _ _
  simp only [State.serve, State.mem_ite]
  refine Memory.wf_ite h (Memory.wf_ite h ?_)
  cases kind
  case read | message | fence => exact h
  case qpush base => exact Memory.wf_serveQueue h _ _ _ _ _ hd
  case qpop base => exact Memory.wf_serveQueue h _ _ _ _ _ hd
  case attrSet | attrClr => simpa using h
  all_goals exact hput _

theorem Memory.wf_farRequest (core : Nat) (kind : ReqKind) (pa len v : Nat) (far : FarMap) :
    Memory.wf (s.farRequest core kind pa len v far).mem = true := by
  simp only [State.farRequest, State.mem_ite]
  refine Memory.wf_ite h (Memory.wf_ite h (Memory.wf_ite h (Memory.wf_ite h (Memory.wf_serve h _ _ _ _ _ _ _ _ fun a => ?_))))
  simpa using h

theorem Memory.wf_coreRequest (core : Nat) (kind : ReqKind) (pa len v : Nat) (far : FarMap) :
    Memory.wf (s.coreRequest core kind pa len v far).mem = true := by
  have hf : Memory.wf (s.coreFence core).mem = true := by simpa using h
  simp only [State.coreRequest, State.mem_ite]
  refine Memory.wf_ite hf (Memory.wf_ite h (Memory.wf_ite h (Memory.wf_ite h (Memory.wf_ite (Memory.wf_farRequest h ..) ?_))))
  split
  · simpa using h
  · refine Memory.wf_serve h _ _ _ _ _ _ _ _ fun a => ?_
    simpa using h

theorem execHubCoreAccess_canonical (core : Nat) (req : BusReq) : OutCanonical (execHubCoreAccess core req s) := by
  simpa [execHubCoreAccess] using Memory.wf_ite (Memory.wf_coreRequest h ..) h

theorem Memory.wf_hostRequest (req : BusReq) (pa : Nat) : Memory.wf (s.hostRequest req pa).mem = true :=
  Memory.wf_coreRequest (s := { s with host := true }) h ..

theorem execHostBarAccess_canonical (bar2 : Bool) (req : BusReq) : OutCanonical (execHostBarAccess bar2 req s) := by
  simp [execHostBarAccess, h, Memory.wf_hostRequest h]

theorem execRemoteAccessArrival_canonical (r : RemoteReq) : OutCanonical (execRemoteAccessArrival r s) := by
  unfold execRemoteAccessArrival
  dsimp only
  split
  next =>
    simp only [outCanonical_ite, outCanonical_next, State.mem_answer, State.mem_remoteRefused, h, implies_true, true_and]
    intro _ _ _
    split
    next t ht =>
      have hs : Memory.wf (if s.slotWhole (r.addr % 512) r.bytes = true then s else s.remoteSlotFails r (r.addr % 512)).mem = true := by
        rw [State.mem_ite]
        exact Memory.wf_ite h h
      simpa using Memory.wf_deliver hs ht
    next => simpa using h
  next =>
    simp only [outCanonical_ite, outCanonical_next, State.mem_remoteRefused, h, implies_true, true_and]
    intro _
    split
    · simpa using h
    · simp only [outCanonical_ite, outCanonical_next, State.mem_answer, h, implies_true, true_and]
      intro _ _
      split
      · simpa using h
      · rw [outCanonical_next]
        exact Memory.wf_serve h _ _ _ _ _ _ _ _ fun _ => h

theorem execDistributorMessageArrival_canonical (msg : DistMsg) : OutCanonical (execDistributorMessageArrival msg s) := by
  unfold execDistributorMessageArrival
  split
  · simpa using h
  · simpa using h
  · simpa using Memory.wf_ite (Memory.wf_launchPart h ..) h
  · simpa using Memory.wf_ite (Memory.wf_launchPart h ..) h

/-! ### Boot, reset and power (31 R387 to R397) -/

theorem Memory.wf_writeAll {ws : List (Nat × BitVec 64)} {t : State} (ht : s.writeAll ws = some t) : Memory.wf t.mem = true := by
  induction ws generalizing s with
  | nil => cases ht; exact h
  | cons w ws ih =>
    rw [State.writeAll] at ht
    split at ht
    · cases ht
    · exact ih (Memory.wf_cfgWrite h _ _ _) ht

theorem Memory.wf_writeRecord {f : FlashBank} {t : State} (ht : s.writeRecord f = some t) : Memory.wf t.mem = true := by
  unfold State.writeRecord at ht
  refine Memory.wf_writeAll ?_ ht
  exact h

theorem Memory.wf_bringUp {env : ResetEnv} {f : FlashBank} {t : State} (ht : s.bringUp env f = some t) : Memory.wf t.mem = true := by
  unfold State.bringUp at ht
  dsimp only at ht
  split at ht
  · cases ht
  next u hu =>
    have hl : Memory.wf (s.trainLinks (env.failed ++ heldLinks ((List.range 4).filter fun n => env.failed.contains (50 + n)))).mem =
      true := by simpa using h
    refine Memory.wf_writeAll (Memory.wf_of_eq (State.mem_foldl _ _ _ ?_) ?_) ht
    · exact fun s n => State.mem_foldl_modCl (dieClusters (8 + n)) id _ s
    · simpa using Memory.wf_writeRecord hl hu

theorem Memory.wf_bootFrom (env : ResetEnv) (bank : Bool) (f : FlashBank) : Memory.wf (s.bootFrom env bank f).mem = true := by
  unfold State.bootFrom
  dsimp only
  split
  · exact h
  · split
    · exact h
    next t ht =>
      rw [State.mem_modHub]
      refine Memory.wf_bringUp ?_ ht
      simpa using h

omit h in
theorem execModuleReset_canonical (env : ResetEnv) : OutCanonical (execModuleReset env s) := by
  have hempty : Memory.wf [] = true := rfl
  unfold execModuleReset
  simp only [outCanonical_ite, outCanonical_next, State.mem_modHub, State.mem_cleared, hempty, implies_true, true_and]
  intro _
  split
  · rw [outCanonical_next]
    refine Memory.wf_bootFrom ?_ _ _ _
    rw [State.mem_modHub, State.mem_modHub, State.mem_cleared, hempty]
  · split
    · rw [outCanonical_next]
      refine Memory.wf_bootFrom ?_ _ _ _
      rw [State.mem_modHub, State.mem_modHub, State.mem_cleared, hempty]
    · rw [outCanonical_next, State.mem_modHub, State.mem_modHub, State.mem_cleared, hempty]

theorem execPldmFirmwareUpdate_canonical (bank : Bool) (img : FlashBank) : OutCanonical (execPldmFirmwareUpdate bank img s) := by
  simp [execPldmFirmwareUpdate, h]
theorem execThermalHalt_canonical (target : Nat) (temp : BitVec 8) (coolant : Bool) : OutCanonical (execThermalHalt target temp coolant s) := by
  simp [execThermalHalt, h]
theorem execSuspend_canonical : OutCanonical (execSuspend s) := by
  simp [execSuspend, h, Memory.wf_filter]
theorem execWake_canonical (env : ResetEnv) : OutCanonical (execWake env s) := by
  unfold execWake
  simp only [outCanonical_ite, outCanonical_next, h, implies_true, true_and]
  intro _
  split
  · simpa using h
  · split
    · simpa using h
    next t ht =>
      rw [outCanonical_next, State.mem_modHub]
      refine Memory.wf_bringUp ?_ ht
      exact h

end

theorem execPowerRemoved_canonical (s : State) : OutCanonical (execPowerRemoved s) := by
  simp only [execPowerRemoved, outCanonical_next, State.mem_modHub, State.mem_cleared]
  rfl

end Sys2Proof.Machine
end

section
/-! PROOFS. Words of the engines keep memory canonical: the words that have more than one course, and the shared bodies of the others. -/

namespace Sys2Proof.Machine

section
variable {s : State} (h : Memory.wf s.mem = true)
include h

/-! ### Shared bodies: scalar, vector, scale and beam words -/

theorem alu1_canonical (w : AForm) (f : Word → Word) : OutCanonical (s.alu1 w f) := finish_canonical h (by simp [h])
theorem alu2_canonical (lat : Nat) (w : AForm) (f : Word → Word → Word) : OutCanonical (s.alu2 lat w f) :=
  finish_canonical h (by simp [h])
theorem alu3_canonical (lat : Nat) (w : AForm) (f : Word → Word → Word → Word) : OutCanonical (s.alu3 lat w f) :=
  finish_canonical h (by simp [h])
theorem aluImm_canonical (w : BForm) (f : Word → Word) : OutCanonical (s.aluImm w f) := finish_canonical h (by simp [h])
theorem aluDiv_canonical (w : AForm) (f : Word → Word → Word) : OutCanonical (s.aluDiv w f) := finish_canonical h (by simp [h])
theorem vec_canonical (w : AForm) (lat : Option Nat) (ew : Nat) (qs : List Opnd) (reads : Chk (Nat → Nat × Flags)) :
    OutCanonical (s.vec w lat ew qs reads) := finish_canonical h (by simp [h])
theorem kMinMax_canonical (w : AForm) (f : Nat → Nat → Nat) : OutCanonical (s.kMinMax w f) := finish_canonical h (by simp [h])
theorem beamRead_canonical (w : AForm) (hi : Bool) : OutCanonical (s.beamRead w hi) := finish_canonical h (by simp [h])
theorem load_canonical (w : AForm) (scope : Nat) (acq : Bool) : OutCanonical (finishWait s (s.load w scope acq)) :=
  finishWait_canonical h (by simp [h, State.load])
theorem storeS_canonical (w : AForm) (scope : Nat) (rel : Bool) : OutCanonical (finishWait s (s.storeS w scope rel)) :=
  finishWait_canonical h (by simp [h, State.storeS])

/-! ### Sequencing words (11 R143 to R154) -/

theorem ensures_doEnd : Ensures s.doEnd fun t => Memory.wf t.mem = true := by
  unfold State.doEnd
  dsimp only
  split -- the engine that ends: a handler, C, or another
  · split
    · simpa using h
    · split <;> simpa using h
    · simpa using h
  · split
    · split <;> simp [h]
    · simp [h]

theorem endHere_canonical : OutCanonical s.endHere := by
  unfold State.endHere
  split
  · simpa using h
  · exact finishAt_canonical h (ensures_doEnd h)

theorem actEnd_canonical : OutCanonical s.actEnd := by
  unfold State.actEnd
  split
  · split
    next t ht => simpa using Memory.wf_of_eq (State.mem_reportDrop ht) h
    next => exact endHere_canonical h
  · exact endHere_canonical h

theorem branchB_canonical (o : Opnd) : OutCanonical (s.branchB o) := by
  unfold State.branchB
  split
  · dsimp only
    split
    · simpa using h
    · exact finishAt_canonical h (ensures_goto (s := s.modCtx _) h _)
    · split
      · simpa using h
      · exact finishAt_canonical h (ensures_goto h _)
  · simpa using h

theorem execJtab_canonical (w : AForm) : OutCanonical (execJtab w s) := by
  refine finishAt_canonical h ?_
  simp only [ensures_bind]
  intro i _ b _ _ _
  split
  · exact ensures_error _
  · exact ensures_goto h _

theorem execLoop_canonical (w : CForm) : OutCanonical (execLoop w s) := by
  unfold execLoop
  dsimp only
  split
  · simpa using h
  · simp only [outCanonical_ite, outCanonical_next, State.mem_trapHere, State.mem_issuedWord, State.mem_succeed]
    exact ⟨fun _ => h, fun _ => ⟨fun _ => h, fun _ => ⟨fun _ => h, fun _ => ⟨fun _ => h,
      fun _ => finish_canonical h (by simpa using h)⟩⟩⟩⟩

theorem execLbrk_canonical (w : CForm) : OutCanonical (execLbrk w s) := by
  unfold execLbrk
  split
  · simpa using h
  · refine finishAt_canonical h ?_
    rw [ensures_bind]
    intro t ht
    have hm := State.mem_arrive ht
    simpa [hm] using h

theorem execLidx_canonical (w : CForm) : OutCanonical (execLidx w s) := by
  refine finish_canonical h ?_
  rw [ensures_bind]
  intro _ _
  split <;> simp [h]

theorem execWseg_canonical (w : AForm) : OutCanonical (execWseg w s) := by
  unfold execWseg
  split
  · simpa using h
  · dsimp only
    split -- what the key check finds
    · exact finish_canonical h (by simpa using h)
    · simpa using h
    · split -- what the word does on a miss
      · split
        · split <;> simpa using h
        · simpa using h
      · simpa using h
      · simpa using h
      · exact finish_canonical h (by simpa using h)

/-! ### Register and control words -/

theorem execMov_canonical (w : AForm) : OutCanonical (execMov w s) := by
  refine finish_canonical h ?_
  rw [ensures_bind]
  intro _ _
  split <;> simp [h]

theorem execSpld_canonical (w : AForm) : OutCanonical (execSpld w s) := by
  refine finish_canonical h ?_
  simp only [ensures_bind]
  intro _ _
  split <;> simp [h]

theorem execGetc_canonical (w : AForm) : OutCanonical (execGetc w s) := by
  refine finish_canonical h ?_
  rw [ensures_bind]
  intro _ _
  split
  · simpa using h
  · split <;> simp [h]

theorem finishOrWait_canonical {p : Prop} [Decidable p] {len : Nat} {r : Chk State} (hr : Ensures r fun t => Memory.wf t.mem = true) :
    OutCanonical ((if p then finishWait s else finish s len) r) := by
  split
  · exact finishWait_canonical h hr
  · exact finish_canonical h hr

theorem execSetc_canonical (w : AForm) : OutCanonical (execSetc w s) := by
  refine finishOrWait_canonical h ?_
  simp only [ensures_bind]
  intro _ _ _ _ v _
  split -- the control register that it writes
  · simpa using h
  · split <;> simp [h]
  · exact fun t ht => Memory.wf_of_eq (State.mem_writeBank ht) h
  · simpa using h
  · simpa using h

theorem execQcfg_canonical (w : AForm) : OutCanonical (execQcfg w s) := by
  refine finish_canonical h ?_
  rw [ensures_bind]
  intro _ _
  split <;> simp [h]

theorem execTspawn_canonical (w : AForm) : OutCanonical (execTspawn w s) := by
  unfold execTspawn
  split
  · simpa using h
  · split
    · simpa using h
    · split
      next f u hf =>
        have hu : Memory.wf u.mem = true := by
          split at hf <;> cases hf <;> exact h
        split
        · simpa using hu
        · dsimp only
          split
          · simpa using hu
          · split <;> exact finish_canonical (by simpa using hu) (by simpa using hu)

theorem execTyield_canonical (w : AForm) : OutCanonical (execTyield w s) := by
  have no : OutCanonical (finish s 3 (.ok (s.putPred w.dst false))) := finish_canonical h (by simpa using h)
  unfold execTyield
  dsimp only
  split
  · simpa using h
  · split
    · exact no
    · split
      · simpa using h
      · exact no

theorem execTretSkip_canonical (w : AForm) : OutCanonical (execTretSkip w s) := by
  refine finish_canonical h ?_
  rw [ensures_bind]
  intro _ _
  split
  · simp
  next t ht => simpa [State.mem_resumeSkip ht] using h

theorem execCtxsave_canonical (w : AForm) : OutCanonical (execCtxsave w s) := by
  refine finish_canonical h ?_
  simp only [ensures_bind]
  intro _ _ c _ a _ _ _ _ _ ps _ _ _
  refine (ensures_ok _).2 ?_
  simpa using Memory.wf_putImage h (s.saveImage c).img ps

theorem execCtxload_canonical (w : AForm) : OutCanonical (execCtxload w s) := by
  refine finish_canonical h ?_
  have key (c : Nat) (im : SMap Byte) : Ensures (pure ((s.loadInto c im (s.cl c).ctx).modCl c fun k =>
      { k with ctx := k.ctx.map fun e => if e.1 < 5 then (e.1, e.2.atPc) else e })) fun t => Memory.wf t.mem = true :=
    (ensures_ok _).2 (Memory.wf_loadInto (s := s) h c im (s.cl c).ctx)
  simp only [ensures_bind]
  intro _ _ c _ _ _ _ _ _ _ ps _ _ _ _ _
  split
  · simp only [ensures_bind]
    exact fun _ _ _ _ => key _ _
  · simp only [ensures_bind]
    exact fun _ _ => key _ _

theorem execBank_canonical (w : AForm) : OutCanonical (execBank w s) := by
  refine finishWait_canonical h ?_
  rw [ensures_bind]
  exact fun _ _ t ht => Memory.wf_of_eq (State.mem_writeBank ht) h

/-- A word of the ATTR kind, by what its checks leave. -/
theorem attrDone_canonical {r : Chk (State × Bool)} (hr : Ensures r fun t => Memory.wf t.1.mem = true) : OutCanonical (attrDone s r) := by
  unfold attrDone
  split
  next t => exact finishWait_canonical h ((ensures_ok _).2 (hr (t, true) rfl))
  next t => exact finish_canonical h ((ensures_ok _).2 (hr (t, false) rfl))
  next => exact finish_canonical h (ensures_error _)

theorem execAttrSet_canonical (w : AForm) : OutCanonical (execAttrSet w s) := attrDone_canonical h (by simp [h])
theorem execAttrClr_canonical (w : AForm) : OutCanonical (execAttrClr w s) := attrDone_canonical h (by simp [h])

/-! ### Words of the X engine (13) -/

/-- A word that either begins transfers or completes at once. -/
theorem beginOrComplete_canonical {r : Chk (Option State)} (hr : Ensures r fun o => ∀ t ∈ o, Memory.wf t.mem = true) :
    OutCanonical (match (generalizing := false) r with
      | .ok (some s') => finishWait s (.ok s')
      | .ok none => finish s 3 (.ok s)
      | .error e => finish s 3 (.error e)) := by
  split
  next t => exact finishWait_canonical h ((ensures_ok _).2 (hr (some t) rfl t rfl))
  next => exact finish_canonical h ((ensures_ok _).2 h)
  next => exact finish_canonical h (ensures_error _)

theorem execCopy_canonical (w : AForm) : OutCanonical (execCopy w s) := beginOrComplete_canonical h (by simp [h])
theorem execFill_canonical (w : AForm) : OutCanonical (execFill w s) := beginOrComplete_canonical h (by simp [h])

theorem fence_canonical (w : AForm) (kind : Nat) : OutCanonical (s.fence w kind) := by
  unfold State.fence
  split
  · simpa using h
  · split
    next f u hf =>
      have hu : Memory.wf u.mem = true := by
        split at hf <;> cases hf <;> exact h
      dsimp only
      split
      · simpa using hu
      · exact finish_canonical hu (by simpa using hu)

theorem execPref_canonical (w : AForm) : OutCanonical (execPref w s) := by
  refine finish_canonical h ?_
  simp only [ensures_bind]
  intro a _ len _
  split
  · refine (ensures_ok _).2 (Memory.wf_foldl (fun t p ht => ?_) _ h)
    split
    · split
      · simpa using ht
      · exact ht
    · exact ht
  · simpa using h

/-! ### Words of the V and M engines (15, 17) -/

theorem execVmsk_canonical (w : AForm) : OutCanonical (execVmsk w s) := by
  refine finish_canonical h ?_
  simp only [ensures_bind]
  intro _ _ _ _
  split <;> simp [h]

theorem execVunp3_canonical (w : AForm) : OutCanonical (execVunp3 w s) := by
  refine finish_canonical h ?_
  simp only [ensures_bind]
  intro _ _ _ _ _ _
  refine (ensures_ok _).2 ?_
  split <;> simpa using h

theorem execVmovs_canonical (w : AForm) : OutCanonical (execVmovs w s) := by
  refine finish_canonical h ?_
  split <;> simp [h]

theorem execVrope_canonical (w : AForm) : OutCanonical (execVrope w s) := by
  refine finish_canonical h ?_
  refine (ensures_bind _ _).2 fun _ _ => (ensures_bind _ _).2 fun _ _ => (ensures_bind _ _).2 fun _ _ =>
    (ensures_bind _ _).2 fun _ _ => (ensures_bind _ _).2 fun _ _ => (ensures_ok _).2 ?_
  rw [State.mem_resultLong, State.mem_pops]
  exact h

theorem execVmov_canonical (w : AForm) : OutCanonical (execVmov w s) := by
  refine finish_canonical h ?_
  split
  · simp [h, State.vmovPush]
  · simp [h]
  · split
    · simp [h]
    · simp [h]

theorem bankCmd_canonical (bank : Nat) {r : Chk State} (hr : Ensures r fun t => Memory.wf t.mem = true) : OutCanonical (s.bankCmd bank r) := by
  unfold State.bankCmd
  split
  · simpa using h
  · split
    next t ht => simpa using Memory.wf_of_eq (State.mem_reportDrop ht) h
    next => exact finish_canonical h hr

theorem execMdrain_canonical (w : AForm) : OutCanonical (execMdrain w s) := by
  refine bankCmd_canonical h _ ?_
  simp only [ensures_bind]
  intro _ _
  refine (ensures_ok _).2 ?_
  rw [State.mem_modM, State.mem_foldl _ _ _ fun _ _ => State.mem_empties _ _]
  exact h

theorem execMzero_canonical (w : AForm) : OutCanonical (execMzero w s) := bankCmd_canonical h _ (by simpa using h)
theorem execMload_canonical (w : AForm) : OutCanonical (execMload w s) := bankCmd_canonical h _ (by simp [h])

theorem mgo_canonical (w : AForm) (grp : Bool) : OutCanonical (s.mgo w grp) := by
  refine finish_canonical h ?_
  simp only [ensures_bind]
  intro _ _ _ _
  split
  · simpa using h
  · simp [h]

theorem execMgrp_canonical (w : PForm) : OutCanonical (execMgrp w s) := by
  refine finish_canonical h ?_
  simp only [ensures_bind]
  intro _ _ _ _
  split
  · simp
  · split
    · simp
    · simpa using h

theorem execMstat_canonical (w : AForm) : OutCanonical (execMstat w s) := by
  unfold execMstat
  dsimp only
  split
  · simpa using h
  · split
    next t ht =>
      split at ht
      · simpa using Memory.wf_of_eq (State.mem_reportDrop ht) h
      · cases ht
    next =>
      refine finish_canonical h ?_
      simp only [ensures_bind]
      intro _ _
      split <;> simpa using h

/-! ### Words of the A engine (19) -/

theorem execAstep_canonical (w : PForm) : OutCanonical (execAstep w s) := by
  refine finish_canonical h ?_
  simp only [ensures_bind]
  intro _ _ fs _ a _ rows _ pv _ _ _
  split
  · simpa using h
  · simp only [ensures_bind]
    intro d _
    split
    · simp only [ensures_bind]
      intro _ _
      have ht := Memory.wf_tierMiss (s := { s with seq := s.seq + 1 }) h a s.seq (elemOf 32 (fs.getD 2 0) pv.toNat) (fs.getD 3 0) d
      split
      · simp only [ensures_bind]
        exact fun _ _ => (ensures_ok _).2 (by rwa [State.mem_outcome])
      · exact (ensures_ok _).2 (by rwa [State.mem_outcome])
    · split
      · simpa using h
      · simp [h]

theorem execPxrel_canonical (w : AForm) : OutCanonical (execPxrel w s) := by
  refine finish_canonical h ?_
  simp only [ensures_bind]
  intro _ _ _ _ _ _ _ _ _ _
  refine (ensures_ok _).2 ?_
  rw [State.mem_foldl _ _ _ fun _ _ => State.mem_unrefPage _ _ _]
  exact h

theorem execBmapRo_canonical (w : AForm) : OutCanonical (execBmapRo w s) := by
  refine finish_canonical h ?_
  simp only [ensures_bind]
  intro _ _ e0 _ pv _ _ _
  split
  · simp
  · split
    · simp
    · simp only [ensures_bind]
      intro _ _ ds _
      refine (ensures_ok _).2 ?_
      rw [State.mem_foldl _ _ _ fun _ _ => State.mem_setBeam _ _ _, State.mem_applyDeltas]
      exact h

theorem tierMove_canonical (w : AForm) (toIn : Bool) : OutCanonical (s.tierMove w toIn) := by
  refine finish_canonical h ?_
  simp only [ensures_bind]
  intro _ _ x _ q _ d _
  have ht := Memory.wf_tierRequest (s := { s with seq := s.seq + 1 }) h s.seq (x.toNat % 2 ^ 32)
    { queue := q, asid := s.me.asid s.cur.2, toIn := toIn, cl := s.cur.1 }
  intro _ _
  split
  · simp only [ensures_bind]
    exact fun _ _ => (ensures_ok _).2 (by rwa [State.mem_putPred])
  · exact (ensures_ok _).2 (by rwa [State.mem_putPred])

end

end Sys2Proof.Machine
end

section
/-! PROOFS. Appends to the KV cache keep memory canonical (19 R275, R286). -/

namespace Sys2Proof.Machine

/-- What an append comes to leaves memory canonical. -/
def App.canonical : App → Prop
  | .done u _ => Memory.wf u.mem = true
  | .later u _ => Memory.wf u.mem = true

section
variable {s : State} (h : Memory.wf s.mem = true)
include h

theorem ensures_appendAsks (a : AEng) (r : Append) (d : Desc) : Ensures (s.appendAsks a r d) App.canonical := by
  unfold State.appendAsks
  refine (ensures_bind _ _).2 fun _ _ => ?_
  have hc : Memory.wf (if d.sharedPage then s.copyPage? r else (s, r.copy)).1.mem = true := by simpa using h
  revert hc
  generalize (if d.sharedPage then s.copyPage? r else (s, r.copy)) = p
  obtain ⟨t, got⟩ := p
  intro hc
  have hq := Memory.wf_tierRequest hc r.id r.page { queue := 0, asid := 0, toIn := true, cl := s.cur.1 }
  dsimp only
  split
  · exact (ensures_ok _).2 (Memory.wf_forked hc r)
  · split
    next u hu =>
      rw [hu] at hq
      exact (ensures_ok _).2 (Memory.wf_forked (s := u.dropCopy _) (by rwa [State.mem_dropCopy]) r)
    next u _ _ hu =>
      rw [hu] at hq
      refine (ensures_bind _ _).2 fun _ _ => ?_
      split
      · simp only [ensures_bind]
        exact fun _ _ _ _ => (ensures_ok _).2 hq
      · simp only [ensures_bind]
        exact fun _ _ => (ensures_ok _).2 hq

omit h in
/-- A check that is made first, or not, before what follows. -/
theorem ensures_checkIf {α : Type} {P : α → Prop} {p : Prop} [Decidable p] {x : Chk Unit} {k : Unit → Chk α} (hk : ∀ u, Ensures (k u) P) :
    Ensures (if p then x >>= k else k ()) P := by
  split
  · exact (ensures_bind _ _).2 fun u _ => hk u
  · exact hk ()

theorem ensures_appendNow (a : AEng) (r : Append) : Ensures (s.appendNow a r) App.canonical := by
  have hf := Memory.wf_forked h r
  unfold State.appendNow
  refine ensures_checkIf fun _ => ?_
  dsimp only
  split
  · have ha : Memory.wf ((s.forked r).aAlloc r.id false).1.mem = true := by simpa using hf
    split -- a new page
    next t ht =>
      rw [ht] at ha
      exact (ensures_ok _).2 ha
    next t n ht =>
      rw [ht] at ha
      have hr := Memory.wf_setRow ha (r.rowParts.getD []) n
      refine (ensures_bind _ _).2 fun _ _ => (ensures_ok _).2 (Memory.wf_append ?_ a n r.slot r.img)
      split
      · simpa using hr
      · exact hr
  · refine (ensures_bind _ _).2 fun d _ => ?_
    split
    · exact (ensures_ok _).2 h
    · split
      · exact ensures_appendAsks h a r d
      · split
        · have hc : Memory.wf ((s.forked r).copyPage? r).1.mem = true := by simpa using hf
          refine (ensures_bind _ _).2 fun _ _ => (ensures_bind _ _).2 fun _ _ => (ensures_bind _ _).2 fun _ _ =>
            (ensures_bind _ _).2 fun ps _ => ?_
          split -- a copy-on-write of the page
          next t ht =>
            rw [ht] at hc
            exact (ensures_ok _).2 (Memory.wf_undone hc r)
          next t n ht =>
            rw [ht] at hc
            refine (ensures_bind _ _).2 fun _ _ => (ensures_ok _).2 (Memory.wf_append (Memory.wf_setRow ?_ ps n) a n r.slot r.img)
            simpa using Memory.wf_copySlots hc a r.page n
        · refine (ensures_bind _ _).2 fun _ _ => (ensures_ok _).2 (Memory.wf_append ?_ a r.page r.slot r.img)
          simpa using hf

omit h in
theorem mem_appendOf (w : AForm) (beam : Bool) : Ensures (s.appendOf w beam) fun r => r.2.mem = s.mem := by
  unfold State.appendOf
  split
  · exact (ensures_ok _).2 rfl
  · simp [State.readAppend]

theorem kvapp_canonical (w : AForm) (beam : Bool) : OutCanonical (s.kvapp w beam) := by
  unfold State.kvapp
  split
  · simpa using h
  next r t hr =>
    have ht : Memory.wf t.mem = true := Memory.wf_of_eq (mem_appendOf w beam _ hr) h
    have ha := ensures_appendNow ht t.me.a r
    split -- what the append comes to
    · simpa using Memory.wf_undone h r
    · simpa using ht
    next u q hu => simpa [App.canonical] using ha _ hu
    next u ok hu => simpa [App.canonical] using ha _ hu

end

end Sys2Proof.Machine
end

section
/-! PROOFS. Steps of accesses, page moves, sections, traps and messages keep memory canonical (13, 19, 11). -/

namespace Sys2Proof.Machine

section
variable {s : State} (h : Memory.wf s.mem = true)
include h

/-! ### Accesses (13 R183 to R201) -/

theorem State.queueAt_canonical (m c : Nat) (asid : BitVec 8) (va pa : Nat) (src : Option (List Byte)) (small : Bool) (far : FarMap) :
    (s.queueAt m c asid va pa src small far).canonical := State.queueOn_canonical h ..

theorem Memory.wf_queueAnswer (c x : Nat) (a : Access) (undo : List (Opnd × Option Hold)) (pops : List Opnd) (p : BitVec 3)
    (src : Option (List Byte)) (small : Bool) (far : FarMap) : Memory.wf (s.queueAnswer c x a undo pops p src small far).mem = true := by
  have hq := State.queueAt_canonical h (masterOf c x) c a.asid a.va ((a.pieces.head?.map (·.pa)).getD 0) src small far
  unfold State.queueAnswer
  dsimp only
  split
  · simpa using h
  · simpa using h
  · simpa using h
  next t got err bad ht =>
    have hd : Memory.wf t.mem = true := by rwa [ht] at hq
    have hb : (bad.foldl (fun s p => s.eccStore c a p) (t.noteSync c a ((a.pieces.head?.map (·.pa)).getD 0 / 64))).mem = t.mem := by
      rw [State.mem_foldl _ _ _ fun _ _ => State.mem_eccStore _ _ _ _, State.mem_noteSync]
    split <;> simpa [hb] using hd

theorem Memory.wf_queueLate (c : Nat) (a : Access) (src : Option (List Byte)) (small : Bool) :
    Memory.wf (s.queueLate c a src small).mem = true := by
  have hq := State.queueAt_canonical h (masterOf c a.x) c a.asid a.va ((a.pieces.head?.map (·.pa)).getD 0) src small []
  unfold State.queueLate
  split
  next t _ _ bad ht =>
    rw [ht] at hq
    rw [State.mem_foldl _ _ _ fun _ _ => State.mem_eccStore _ _ _ _, State.mem_noteSync]
    exact hq
  next => split <;> simpa using h
  next => exact h

theorem execAccessAccepted_canonical (c x : Nat) (far : FarMap) : OutCanonical (execAccessAccepted c x far s) := by
  unfold execAccessAccepted
  split
  next accs grp undo pops _ =>
    simp only [outCanonical_ite, outCanonical_next]
    refine ⟨fun _ => h, fun _ => ⟨fun _ => by simpa using h, fun _ => ?_⟩⟩
    split -- the kind of transfer
    · exact (outCanonical_next _).2 h
    · split
      · simp [h, Memory.wf_queueAnswer h]
      · exact (outCanonical_next _).2 h
    · split
      · simp [h, Memory.wf_queueAnswer h]
      · exact (outCanonical_next _).2 h
    · split
      · simpa using h
      · simpa using h
  next => exact (outCanonical_next _).2 h

theorem execAcceptanceTimeout_canonical (c : Nat) (u : Unanswered) : OutCanonical (execAcceptanceTimeout c u s) := by
  have hs : Memory.wf (if u.lost.isEmpty then s else s.flushShown.loseAccepted c u.lost).mem = true := by
    simpa using Memory.wf_ite h (Memory.wf_flushShown h)
  unfold execAcceptanceTimeout
  generalize (if u.lost.isEmpty then s else s.flushShown.loseAccepted c u.lost) = w at hs
  dsimp only
  split
  · split
    · exact (outCanonical_next _).2 hs
    · split
      · simpa using hs
      · split <;> simpa using hs
  · exact (outCanonical_next _).2 hs

theorem execAccessPerformed_canonical (c : Nat) (p : Performed) : OutCanonical (execAccessPerformed c p s) := by
  unfold execAccessPerformed
  split
  · exact (outCanonical_next _).2 h
  · simp only [outCanonical_ite, outCanonical_next]
    refine ⟨fun _ => by simpa using h, fun _ => ⟨fun _ => h, fun _ => ?_⟩⟩
    split
    · simpa using Memory.wf_queueLate h ..
    · simpa using Memory.wf_queueLate h ..
    · simpa using Memory.wf_performPiece h ..

theorem execResultLands_canonical (c n : Nat) (ext : List Byte) : OutCanonical (execResultLands c n ext s) := by
  unfold execResultLands
  split
  · simpa using h
  · split
    · simpa using h
    next a _ =>
      split
      · simpa using h
      · split
        · simpa using h
        next r hr => simpa using Memory.wf_endAccess h hr

theorem execLdqScalesLand_canonical (c n : Nat) (ext : List Byte) : OutCanonical (execLdqScalesLand c n ext s) := by
  unfold execLdqScalesLand
  split
  · simpa using h
  · split
    · split
      · simpa using h
      · split
        · simpa using h
        next r hr =>
          have hl := Memory.wf_endAccess h hr
          dsimp only
          split <;> simpa using hl
    · simpa using h

theorem execLdqDataLands_canonical (c n : Nat) (ext : List Byte) : OutCanonical (execLdqDataLands c n ext s) := by
  unfold execLdqDataLands
  split
  · simpa using h
  · split
    · split
      · simpa using h
      · split
        · simpa using h
        · split
          · simpa using h
          next r hr =>
            have hl := Memory.wf_endAccess h hr
            dsimp only
            split <;> simpa using hl
    · simpa using h

theorem execFenceWaitExpiry_canonical (c x : Nat) : OutCanonical (execFenceWaitExpiry c x s) := by
  unfold execFenceWaitExpiry
  split
  · simpa using Memory.wf_expireCore h x
  · split
    · split
      · simpa using Memory.wf_giveUp h c _
      · simpa using Memory.wf_expireMarks h c _
    · simpa using Memory.wf_expireMarks h c _

/-! ### Page moves (19 R291) -/

theorem execTierMoveEnd_canonical (n : Nat) : OutCanonical (execTierMoveEnd n s) := by
  unfold execTierMoveEnd
  split
  · simpa using h
  next m ms _ =>
    simp only [outCanonical_ite, outCanonical_next]
    refine ⟨fun _ => h, fun _ => ⟨fun _ => ?_, fun _ => ?_⟩⟩
    · exact Memory.wf_pushDone (s := s.modADie n _) h ..
    · split
      · simpa using h
      · refine (outCanonical_next _).2 ?_
        refine Memory.wf_startReverse (Memory.wf_pushDone (s := (s.copyPage _ _ _).modADie n _) ?_ ..) ..
        exact Memory.wf_copyPage s _ _ _ h

theorem execBackgroundEviction_canonical (n : Nat) : OutCanonical (execBackgroundEviction n s) := (outCanonical_next _).2 h
theorem execPageAllocatorInitDone_canonical (a : Nat) : OutCanonical (execPageAllocatorInitDone a s) := by
  simpa [execPageAllocatorInitDone] using h

/-! ### Sections, banks and handlers (11) -/

theorem execHeaderReached_canonical (c x : Nat) : OutCanonical (execHeaderReached c x s) := by
  have hs : Memory.wf ({ s with cur := (c, x) } : State).mem = true := h
  unfold execHeaderReached
  dsimp only
  split
  · exact (outCanonical_next _).2 h
  · split
    · split
      · exact actEnd_canonical hs
      · split <;> simpa using h
      · simpa using h
    · exact (outCanonical_next _).2 h

theorem execSectionStart_canonical (c x : Nat) : OutCanonical (execSectionStart c x s) := by
  simpa [execSectionStart] using ⟨fun _ => h, fun _ => h⟩

theorem execSegmentKeyHit_canonical (c x : Nat) : OutCanonical (execSegmentKeyHit c x s) := by
  unfold execSegmentKeyHit
  dsimp only
  split
  · exact (outCanonical_next _).2 h
  · split
    · split
      · exact execWseg_canonical (s := { s with cur := (c, x) }) h _
      · exact (outCanonical_next _).2 h
    · split
      · split <;> simpa using h
      · exact (outCanonical_next _).2 h
    · exact (outCanonical_next _).2 h

theorem execSectionRetire_canonical (c x : Nat) : OutCanonical (execSectionRetire c x s) := by
  unfold execSectionRetire
  split
  · simpa using h
  · split <;> simpa using h

theorem execBankWake_canonical (c b : Nat) : OutCanonical (execBankWake c b s) := by
  simpa [execBankWake] using ⟨fun _ _ => h, fun _ => h⟩

theorem execTaskTrapHandlerStart_canonical (c : Nat) : OutCanonical (execTaskTrapHandlerStart c s) := by
  unfold execTaskTrapHandlerStart
  dsimp only
  generalize (if (s.cl c).dormant 6 then some 6 else if (s.cl c).dormant 5 then some 5 else none) = x
  split
  · split
    · simpa using h
    · split <;> simpa using h
  · simpa using h

theorem execArrivalHandlerStart_canonical (c : Nat) : OutCanonical (execArrivalHandlerStart c s) := by
  unfold execArrivalHandlerStart
  dsimp only
  split
  · split <;> simpa using h
  · simpa using h

/-! ### Messages (13 R205) -/

theorem execMessageArrival_canonical (c : Nat) (far : MsgAns) : OutCanonical (execMessageArrival c far s) := by
  unfold execMessageArrival
  split
  · split
    · split
      · simpa using h
      · split -- the payload is refused, or cannot be read, or is read
        · simpa using h
        · split
          · simpa using h
          · dsimp only
            split
            · split <;> simpa using h
            · split
              · simpa using h
              · split
                · simpa using h
                · split
                  next t ht => simpa using Memory.wf_deliver (by simpa using h) ht
                  next => simpa using h
    · simpa using h
  · simpa using h

end

end Sys2Proof.Machine
end

section
/-! PROOFS. Steps of the Distributors, the rings, the M engine and the hub keep memory canonical (03, 05, 17, 29, 31). -/

namespace Sys2Proof.Machine

section
variable {s : State} (h : Memory.wf s.mem = true)
include h

/-! ### Tasks (05, 03) -/

theorem execHubSubmission_canonical (core t : Nat) (r : Submission) : OutCanonical (execHubSubmission core t r s) := by
  unfold execHubSubmission
  simp only [outCanonical_ite]
  refine ⟨fun _ => ⟨fun _ => (outCanonical_next _).2 h, fun _ => ⟨fun _ => (outCanonical_next _).2 h, fun _ => ?_⟩⟩,
    fun _ => (outCanonical_next _).2 h⟩
  split
  next =>
    refine (outCanonical_next _).2 ?_
    dsimp only
    split
    · exact Memory.wf_launchOver h ..
    · exact h
  next => exact (outCanonical_next _).2 (by simpa using h)

theorem execEarlySignalExpiry_canonical (t : Nat) (tid : BitVec 32) : OutCanonical (execEarlySignalExpiry t tid s) := by
  unfold execEarlySignalExpiry
  split
  · simpa using h
  · split <;> simpa using h

theorem execTaskRelease_canonical (t : Nat) (tid : BitVec 32) : OutCanonical (execTaskRelease t tid s) := by
  unfold execTaskRelease
  split
  · simpa using h
  · dsimp only
    split <;> simpa using h

theorem execTaskIssue_canonical (t c : Nat) : OutCanonical (execTaskIssue t c s) := by
  unfold execTaskIssue
  split
  · split
    · simpa using h
    · split <;> simpa using h
  · simpa using h

theorem execTaskRetirement_canonical (c : Nat) : OutCanonical (execTaskRetirement c s) := by
  have hd : Memory.wf ((s.markRecords c).dropRecords c).mem = true := by simpa using h
  unfold execTaskRetirement
  dsimp only
  split
  · simpa using Memory.wf_ite (Memory.wf_killed h c) h
  · split
    · simpa using Memory.wf_retireTask hd c
    · simpa using h

theorem execTimingSourceChange_canonical (a : Nat) : OutCanonical (execTimingSourceChange a s) := by
  unfold execTimingSourceChange
  split
  · simpa using h
  · dsimp only
    split
    · split <;> simpa using h
    · split <;> simpa using h

theorem execSaveDrainFallback_canonical (t : Nat) : OutCanonical (execSaveDrainFallback t s) := by
  unfold execSaveDrainFallback
  split
  · split
    · refine (outCanonical_next _).2 ?_
      rw [State.mem_foldl]
      · exact h
      · intro u c
        split <;> simp
    · simpa using h
  · simpa using h

theorem execSaveImageComplete_canonical (c : Nat) : OutCanonical (execSaveImageComplete c s) := by
  have hd : Memory.wf (s.dropRecords c).mem = true := by simpa using h
  have hp := Memory.wf_putShadow hd (dieOf c) (swapSlot (dieOf c) (localOf c)) (s.cl c) ((s.dropRecords c).saveImage c)
  unfold execSaveImageComplete
  dsimp only
  split
  · simpa using h
  · split
    · split
      · simpa using hp
      · simpa using h
    · split
      · simpa using h
      · split
        · split
          · simpa using Memory.wf_ite (Memory.wf_saveCluster h _ _ _) h
          · simpa using h
        · split <;> simpa using h

theorem execContextRestore_canonical (t c : Nat) : OutCanonical (execContextRestore t c s) := by
  unfold execContextRestore
  split
  · simpa using h
  · split
    · split -- a swap-in
      · simpa using h
      next rcd _ =>
        split
        · simpa using h
        · dsimp only
          split
          · simpa using Memory.wf_swapInto h c rcd
          · simpa using Memory.wf_swapInto h c rcd
    · split -- a task whose image is in the shadow
      · split
        · simpa using h
        next x _ =>
          split
          next n _ =>
            dsimp only
            split
            · refine (outCanonical_next _).2 (Memory.wf_loadSaved ?_ c _)
              simpa using h
            · refine (outCanonical_next _).2 (Memory.wf_restoreFails ?_ c x)
              simpa using h
          next => simpa using h
      · simpa using h

theorem execPreemptionCheck_canonical (t : Nat) : OutCanonical (execPreemptionCheck t s) := by
  unfold execPreemptionCheck
  dsimp only
  split
  · simpa using h
  · split
    · simpa using Memory.wf_goOnPre h t _
    · split
      · simpa using h
      · split
        · simpa using h
        · split
          · simpa using h
          · split <;> simpa using h

/-! ### Rings (03) -/

theorem execFrameStart_canonical (d : Nat) : OutCanonical (execFrameStart d s) := by
  unfold execFrameStart
  dsimp only
  split <;> simpa using h

theorem execTickEnd_canonical (d : Nat) : OutCanonical (execTickEnd d s) := by
  unfold execTickEnd
  dsimp only
  split
  · split
    · simpa using h
    · split <;> simpa using h
  · simpa using h

theorem execSegmentForward_canonical (d : Nat) : OutCanonical (execSegmentForward d s) := by
  unfold execSegmentForward
  split
  · simpa using h
  · split
    · simpa using h
    · split
      · split <;> simpa using h
      · simpa using h

theorem execSegmentArrival_canonical (d : Nat) (ext : List Byte) : OutCanonical (execSegmentArrival d ext s) := by
  unfold execSegmentArrival
  dsimp only
  split
  · simpa using h
  · split
    · split
      · simpa using h
      · split <;> simpa using h
    · split <;> simpa using h

theorem execSegmentRefetch_canonical (d p : Nat) : OutCanonical (execSegmentRefetch d p s) := by
  unfold execSegmentRefetch
  dsimp only
  split
  · simpa using h
  · split
    · split
      · simpa using h
      · split <;> simpa using h
    · split
      · split
        · simpa using h
        · split <;> simpa using h
      · simpa using h

theorem execHeartbeatTimeout_canonical (d lost : Nat) : OutCanonical (execHeartbeatTimeout d lost s) := by
  simpa [execHeartbeatTimeout] using ⟨fun _ _ _ _ => Memory.wf_ite (Memory.wf_repair h lost 1) h, fun _ => h⟩

theorem execSegmentStoreError_canonical (d : Nat) : OutCanonical (execSegmentStoreError d s) :=
  (outCanonical_next _).2 (Memory.wf_repair h d 2)

theorem execRepairComplete_canonical (d : Nat) : OutCanonical (execRepairComplete d s) := by
  unfold execRepairComplete
  dsimp only
  split <;> simpa using h

/-! ### The M engine (17) -/

theorem execNestStart_canonical (c : Nat) : OutCanonical (execNestStart c s) := by
  unfold execNestStart
  split
  · split <;> simpa using h
  · simpa using h

theorem execNestStep_canonical (c : Nat) : OutCanonical (execNestStep c s) := by
  unfold execNestStep
  split
  · simpa using h
  · split
    · simpa using h
    · split
      · simpa using h
      · split
        · dsimp only
          split <;> simpa using h
        · dsimp only
          split <;> simpa using h

theorem execNestEnd_canonical (c : Nat) : OutCanonical (execNestEnd c s) := by
  unfold execNestEnd
  split
  · split <;> simpa using h
  · simpa using h

theorem execMdrainRowLands_canonical (c : Nat) : OutCanonical (execMdrainRowLands c s) := by
  unfold execMdrainRowLands
  split <;> simpa using h

/-! ### The hub (31) -/

theorem execGetCertificate_canonical : OutCanonical (execGetCertificate s) := by simpa [execGetCertificate] using h
theorem execChallenge_canonical (nonce : Nat) : OutCanonical (execChallenge nonce s) := by simpa [execChallenge] using h
theorem execGetMeasurements_canonical (nonce : Nat) : OutCanonical (execGetMeasurements nonce s) := by simpa [execGetMeasurements] using h
theorem execKeyExchange_canonical (nonce : Nat) : OutCanonical (execKeyExchange nonce s) := by simpa [execKeyExchange] using h
theorem execP1Entry_canonical : OutCanonical (execP1Entry s) := by simpa [execP1Entry] using h
theorem execP1Exit_canonical : OutCanonical (execP1Exit s) := by simpa [execP1Exit] using h

end

end Sys2Proof.Machine
end

section
/-! PROOFS. Every instruction and every step keeps memory canonical (00 R4, log 3): O54. -/

namespace Sys2Proof.Machine

section
variable {s : State} (h : Memory.wf s.mem = true)
include h

/-- Whatever an instruction does, it leaves memory canonical: word by word and event by event. -/
theorem exec_canonical (i : Instr) : OutCanonical (exec i s) := by
  cases i with
  | nop _ => exact finish_canonical h ((ensures_ok _).2 h)
  | endI _ => exact actEnd_canonical h
  | bri _ => exact finishAt_canonical h (ensures_goto h _)
  | br _ => exact branchB_canonical h ..
  | pbr _ => exact finish_canonical h ((ensures_ok _).2 (by simpa using h))
  | jtab _ => exact execJtab_canonical h ..
  | call w => exact finishAt_canonical h (ensures_goto (s := s.putOpnd w.dst _) (by simpa using h) _)
  | ret _ => exact branchB_canonical h ..
  | loop _ => exact execLoop_canonical h ..
  | lbrk _ => exact execLbrk_canonical h ..
  | lidx _ => exact execLidx_canonical h ..
  | post _ => exact finishWait_canonical h (by simp [h])
  | await _ => exact finish_canonical h (by simp [h])
  | awaitNb _ => exact finish_canonical h (by simp [h])
  | wseg _ => exact execWseg_canonical h ..
  | trapI _ => exact (outCanonical_next _).2 (by simpa using h)
  | addI _ => exact alu2_canonical h ..
  | subI _ => exact alu2_canonical h ..
  | andI _ => exact alu2_canonical h ..
  | orI _ => exact alu2_canonical h ..
  | xorI _ => exact alu2_canonical h ..
  | shl _ => exact alu2_canonical h ..
  | shr _ => exact alu2_canonical h ..
  | sar _ => exact alu2_canonical h ..
  | minI _ => exact alu2_canonical h ..
  | maxI _ => exact alu2_canonical h ..
  | minn _ => exact alu2_canonical h ..
  | maxn _ => exact alu2_canonical h ..
  | clz _ => exact alu1_canonical h ..
  | popc _ => exact alu1_canonical h ..
  | bext _ => exact alu2_canonical h ..
  | bins _ => exact alu3_canonical h ..
  | addImm _ => exact aluImm_canonical h ..
  | subImm _ => exact aluImm_canonical h ..
  | andImm _ => exact aluImm_canonical h ..
  | orImm _ => exact aluImm_canonical h ..
  | xorImm _ => exact aluImm_canonical h ..
  | shlImm _ => exact aluImm_canonical h ..
  | shrImm _ => exact aluImm_canonical h ..
  | sarImm _ => exact aluImm_canonical h ..
  | minImm _ => exact aluImm_canonical h ..
  | maxImm _ => exact aluImm_canonical h ..
  | minnImm _ => exact aluImm_canonical h ..
  | maxnImm _ => exact aluImm_canonical h ..
  | mulI _ => exact alu2_canonical h ..
  | mulh _ => exact alu2_canonical h ..
  | mulhn _ => exact alu2_canonical h ..
  | madd _ => exact alu3_canonical h ..
  | divI _ => exact aluDiv_canonical h ..
  | divn _ => exact aluDiv_canonical h ..
  | rem _ => exact aluDiv_canonical h ..
  | remn _ => exact aluDiv_canonical h ..
  | cmp _ => exact finish_canonical h (by simp [h])
  | cmpi _ => exact finish_canonical h (by simp [h])
  | sel _ => exact finish_canonical h (by simp [h])
  | li _ => exact finish_canonical h (by simp [h])
  | liHi _ => exact finish_canonical h (by simp [h])
  | mov _ => exact execMov_canonical h ..
  | plog _ => exact finish_canonical h (by simp [h])
  | lea _ => exact finish_canonical h (by simp [h])
  | leaPc _ => exact finish_canonical h (by simp [h])
  | spld _ => exact execSpld_canonical h ..
  | spst _ => exact finish_canonical h (by simp [h])
  | getc _ => exact execGetc_canonical h ..
  | setc _ => exact execSetc_canonical h ..
  | fork _ => exact finish_canonical h (by simp [h])
  | rdv _ => exact finish_canonical h (by simp [h])
  | qcfg _ => exact execQcfg_canonical h ..
  | tspawn _ => exact execTspawn_canonical h ..
  | tsig _ => exact finish_canonical h (by simp [h])
  | tyield _ => exact execTyield_canonical h ..
  | gbar _ => exact finish_canonical h (by simp [h])
  | gwait _ => exact finish_canonical h (by simp [h])
  | prog _ => exact finish_canonical h (by simp [h])
  | wrel _ => exact finish_canonical h (by simp [h])
  | tret _ => exact finish_canonical h (by simp [h])
  | tretSkip _ => exact execTretSkip_canonical h ..
  | ctxsave _ => exact execCtxsave_canonical h ..
  | ctxload _ => exact execCtxload_canonical h ..
  | lttw _ => exact finish_canonical h (by simp [h])
  | bank _ => exact execBank_canonical h ..
  | attrSet _ => exact execAttrSet_canonical h ..
  | attrClr _ => exact execAttrClr_canonical h ..
  | halt _ => exact finish_canonical h (by simp [h])
  | haltGo _ => exact finish_canonical h (by simp [h])
  | ld _ => exact load_canonical h ..
  | st _ => exact storeS_canonical h ..
  | lda _ => exact load_canonical h ..
  | stl _ => exact storeS_canonical h ..
  | vld _ => exact finishWait_canonical h (by simp [h])
  | vst _ => exact finishWait_canonical h (by simp [h])
  | ldq _ => exact finishWait_canonical h (by simp [h])
  | stq _ => exact finishWait_canonical h (by simp [h])
  | kld _ => exact finishWait_canonical h (by simp [h])
  | kst _ => exact finishWait_canonical h (by simp [h])
  | gath _ => exact finishWait_canonical h (by simp [h])
  | scat _ => exact finishWait_canonical h (by simp [h])
  | copy _ => exact execCopy_canonical h ..
  | fill _ => exact execFill_canonical h ..
  | atom _ => exact finishWait_canonical h (by simp [h])
  | redst _ => exact finishWait_canonical h (by simp [h])
  | mcst _ => exact finishWait_canonical h (by simp [h])
  | fenceAcq _ => exact fence_canonical h ..
  | fenceRel _ => exact fence_canonical h ..
  | fenceAr _ => exact fence_canonical h ..
  | fenceSc _ => exact fence_canonical h ..
  | qfence _ => exact finish_canonical h ((ensures_ok _).2 (by simpa using h))
  | qpush _ => exact finishWait_canonical h (by simp [h])
  | qpop _ => exact finishWait_canonical h (by simp [h])
  | msgsend _ => exact finishWait_canonical h (by simp [h])
  | pref _ => exact execPref_canonical h ..
  | vadd _ => exact vec_canonical h ..
  | vsub _ => exact vec_canonical h ..
  | vmul _ => exact vec_canonical h ..
  | vfma _ => exact vec_canonical h ..
  | vmin _ => exact vec_canonical h ..
  | vmax _ => exact vec_canonical h ..
  | vabs _ => exact vec_canonical h ..
  | vdiv _ => exact vec_canonical h ..
  | vrcp _ => exact vec_canonical h ..
  | vrsq _ => exact vec_canonical h ..
  | vexp _ => exact vec_canonical h ..
  | vlog _ => exact vec_canonical h ..
  | vact _ => exact vec_canonical h ..
  | viadd _ => exact vec_canonical h ..
  | visub _ => exact vec_canonical h ..
  | vimul _ => exact vec_canonical h ..
  | vimac _ => exact vec_canonical h ..
  | vbit _ => exact vec_canonical h ..
  | vsh _ => exact vec_canonical h ..
  | vimm _ => exact finish_canonical h (by simp [h])
  | vcmp _ => exact finish_canonical h (by simp [h])
  | vsel _ => exact vec_canonical h ..
  | vmsk _ => exact execVmsk_canonical h ..
  | vcvt _ => exact finish_canonical h (by simp [h])
  | vrnd _ => exact finish_canonical h ((ensures_ok _).2 (by simpa using h))
  | vqnt _ => exact finish_canonical h (by simp [h])
  | vdq _ => exact vec_canonical h ..
  | vunp3 _ => exact execVunp3_canonical h ..
  | vtmac _ => exact vec_canonical h ..
  | vred _ => exact finish_canonical h (by simp [h])
  | vscan _ => exact finish_canonical h (by simp [h])
  | vtopk _ => exact finish_canonical h (by simp [h, -Nat.reducePow])
  | vperm _ => exact vec_canonical h ..
  | vbcst _ => exact vec_canonical h ..
  | vsld _ => exact vec_canonical h ..
  | vilv _ => exact vec_canonical h ..
  | vxpose _ => exact vec_canonical h ..
  | vmovs _ => exact execVmovs_canonical h ..
  | vsmx _ => exact finish_canonical h (by simp [h])
  | vrope _ => exact execVrope_canonical h ..
  | vstat _ => exact finish_canonical h (by simp [h])
  | vmov _ => exact execVmov_canonical h ..
  | kmov _ => exact finish_canonical h (by simp [h])
  | kset _ => exact finish_canonical h (by simp [h])
  | ksetOne _ => exact finish_canonical h (by simp [h])
  | ksetS _ => exact finish_canonical h (by simp [h])
  | kadd _ => exact finish_canonical h (by simp [h])
  | kmax _ => exact kMinMax_canonical h ..
  | kmin _ => exact kMinMax_canonical h ..
  | ktype _ => exact finish_canonical h (by simp [h])
  | kbind _ => exact finish_canonical h (by simp [h])
  | kunb _ => exact finish_canonical h (by simp [h])
  | kgen _ => exact finish_canonical h (by simp [h])
  | kgenB _ => exact finish_canonical h (by simp [h])
  | kfrom _ => exact finish_canonical h (by simp [h])
  | mnest _ => exact finish_canonical h (by simp [h])
  | msrc _ => exact finish_canonical h (by simp [h])
  | mbselWin _ => exact finish_canonical h ((ensures_ok _).2 (by simpa using h))
  | mbselScr _ => exact finish_canonical h (by simp [h])
  | mfmt _ => exact finish_canonical h (by simp [h])
  | mgo _ => exact mgo_canonical h ..
  | mgoGrp _ => exact mgo_canonical h ..
  | mdrain _ => exact execMdrain_canonical h ..
  | mzero _ => exact execMzero_canonical h ..
  | mload _ => exact execMload_canonical h ..
  | mrnd _ => exact finish_canonical h ((ensures_ok _).2 (by simpa using h))
  | mgrp _ => exact execMgrp_canonical h ..
  | mstat _ => exact execMstat_canonical h ..
  | aqset _ => exact finish_canonical h (by simp [h])
  | astep _ => exact execAstep_canonical h ..
  | amerge _ => exact finish_canonical h (by simp [h])
  | afin _ => exact finish_canonical h (by simp [h])
  | kvapp _ => exact kvapp_canonical h ..
  | kvappBeam _ => exact kvapp_canonical h ..
  | kvgath _ => exact finish_canonical h (by simp [h])
  | pgalloc _ => exact finish_canonical h (by simp [h])
  | pgfree _ => exact finish_canonical h (by simp [h])
  | pxlook _ => exact finish_canonical h (by simp [h])
  | pxins _ => exact finish_canonical h (by simp [h])
  | pxrel _ => exact execPxrel_canonical h ..
  | bmapRo _ => exact execBmapRo_canonical h ..
  | bmapSet _ => exact finish_canonical h (by simp [h])
  | bmapRdlo _ => exact beamRead_canonical h ..
  | bmapRdhi _ => exact beamRead_canonical h ..
  | bmapClr _ => exact finish_canonical h (by simp [h])
  | tierin _ => exact tierMove_canonical h ..
  | tierout _ => exact tierMove_canonical h ..
  | seqrd _ => exact finish_canonical h (by simp [h])
  | tierMoveEnd _ => exact execTierMoveEnd_canonical h ..
  | headerReached _ _ => exact execHeaderReached_canonical h ..
  | sectionStart _ _ => exact execSectionStart_canonical h ..
  | segmentKeyHit _ _ => exact execSegmentKeyHit_canonical h ..
  | sectionRetire _ _ => exact execSectionRetire_canonical h ..
  | resultLands _ _ _ => exact execResultLands_canonical h ..
  | ldqScalesLand _ _ _ => exact execLdqScalesLand_canonical h ..
  | ldqDataLands _ _ _ => exact execLdqDataLands_canonical h ..
  | acceptanceTimeout _ _ => exact execAcceptanceTimeout_canonical h ..
  | fenceWaitExpiry _ _ => exact execFenceWaitExpiry_canonical h ..
  | bankWake _ _ => exact execBankWake_canonical h ..
  | taskTrapHandlerStart _ => exact execTaskTrapHandlerStart_canonical h ..
  | messageArrival _ _ => exact execMessageArrival_canonical h ..
  | arrivalHandlerStart _ => exact execArrivalHandlerStart_canonical h ..
  | hubSubmission _ _ _ => exact execHubSubmission_canonical h ..
  | earlySignalExpiry _ _ => exact execEarlySignalExpiry_canonical h ..
  | taskRelease _ _ => exact execTaskRelease_canonical h ..
  | taskIssue _ _ => exact execTaskIssue_canonical h ..
  | taskRetirement _ => exact execTaskRetirement_canonical h ..
  | timingSourceChange _ => exact execTimingSourceChange_canonical h ..
  | tickEnd _ => exact execTickEnd_canonical h ..
  | frameStart _ => exact execFrameStart_canonical h ..
  | segmentArrival _ _ => exact execSegmentArrival_canonical h ..
  | segmentForward _ => exact execSegmentForward_canonical h ..
  | segmentRefetch _ _ => exact execSegmentRefetch_canonical h ..
  | heartbeatTimeout _ _ => exact execHeartbeatTimeout_canonical h ..
  | repairComplete _ => exact execRepairComplete_canonical h ..
  | nestStart _ => exact execNestStart_canonical h ..
  | nestStep _ => exact execNestStep_canonical h ..
  | nestEnd _ => exact execNestEnd_canonical h ..
  | mdrainRowLands _ => exact execMdrainRowLands_canonical h ..
  | backgroundEviction _ => exact execBackgroundEviction_canonical h ..
  | preemptionCheck _ => exact execPreemptionCheck_canonical h ..
  | saveImageComplete _ => exact execSaveImageComplete_canonical h ..
  | saveDrainFallback _ => exact execSaveDrainFallback_canonical h ..
  | contextRestore _ _ => exact execContextRestore_canonical h ..
  | retry _ _ _ => exact execRetry_canonical h ..
  | skip _ _ _ => exact execSkip_canonical h ..
  | kill _ _ _ => exact execKill_canonical h ..
  | saveTeam _ _ _ => exact execSaveTeam_canonical h ..
  | swapout _ _ => exact execSwapout_canonical h ..
  | swapin _ _ => exact execSwapin_canonical h ..
  | frz _ _ _ => exact execFrz_canonical h ..
  | agfrz _ _ _ => exact execAgfrz_canonical h ..
  | estclr _ _ _ _ => exact execEstclr_canonical h ..
  | alloc core a arg page => exact execAlloc_canonical h core a arg page
  | refPage core a arg page => exact execRefPage_canonical h core a arg page
  | unref core a arg page => exact execUnref_canonical h core a arg page
  | setro core a arg page => exact execSetro_canonical h core a arg page
  | clrro core a arg page => exact execClrro_canonical h core a arg page
  | setpin core a arg page => exact execSetpin_canonical h core a arg page
  | clrpin core a arg page => exact execClrpin_canonical h core a arg page
  | evict core a arg page => exact execEvict_canonical h core a arg page
  | publish core a arg page => exact execPublish_canonical h core a arg page
  | pageAllocatorEnable _ _ _ => exact execPageAllocatorEnable_canonical h ..
  | pageAllocatorInitDone _ => exact execPageAllocatorInitDone_canonical h ..
  | partcfg _ _ => exact execPartcfg_canonical h ..
  | partsup _ _ => exact execPartsup_canonical h ..
  | accessTableWrite _ _ _ _ => exact execAccessTableWrite_canonical h ..
  | groupTableWrite _ _ _ => exact execGroupTableWrite_canonical h ..
  | rfcfg _ _ _ => exact execRfcfg_canonical h ..
  | bypass _ _ _ => exact execBypass_canonical h ..
  | fabcfg _ _ => exact execFabcfg_canonical h ..
  | hostwin _ _ => exact execHostwin_canonical h ..
  | pwrcap _ _ => exact execPwrcap_canonical h ..
  | configRegisterWrite _ _ _ => exact execConfigRegisterWrite_canonical h ..
  | flitReceived _ _ _ _ => exact execFlitReceived_canonical h ..
  | keyUpdate _ _ => exact execKeyUpdate_canonical h ..
  | linkDeclaredDead _ => exact execLinkDeclaredDead_canonical h ..
  | linkUp _ _ => exact execLinkUp_canonical h ..
  | remoteAccessArrival _ => exact execRemoteAccessArrival_canonical h ..
  | leaseExpiry _ _ => exact execLeaseExpiry_canonical h ..
  | shootDown _ _ => exact execShootDown_canonical h ..
  | roClearAtHome _ => exact execRoClearAtHome_canonical h ..
  | hostBarAccess _ _ => exact execHostBarAccess_canonical h ..
  | moduleReset _ => exact execModuleReset_canonical _
  | pldmFirmwareUpdate _ _ => exact execPldmFirmwareUpdate_canonical h ..
  | getCertificate => exact execGetCertificate_canonical h
  | challenge _ => exact execChallenge_canonical h ..
  | getMeasurements _ => exact execGetMeasurements_canonical h ..
  | keyExchange _ => exact execKeyExchange_canonical h ..
  | p1Entry => exact execP1Entry_canonical h
  | p1Exit => exact execP1Exit_canonical h
  | thermalHalt _ _ _ => exact execThermalHalt_canonical h ..
  | suspend => exact execSuspend_canonical h
  | wake _ => exact execWake_canonical h ..
  | powerRemoved => exact execPowerRemoved_canonical s
  | accessAccepted _ _ _ => exact execAccessAccepted_canonical h ..
  | accessPerformed _ _ => exact execAccessPerformed_canonical h ..
  | hubCoreAccess _ _ => exact execHubCoreAccess_canonical h ..
  | segmentStoreError _ => exact execSegmentStoreError_canonical h ..
  | linkLosesTraining _ => exact execLinkLosesTraining_canonical h ..
  | distributorMessageArrival _ => exact execDistributorMessageArrival_canonical h ..

omit h in
/-- A turn leaves memory canonical: the answer does, or the state that the instruction runs in has it so. -/
def Plan.canonical : Plan → Prop
  | .answer o => OutCanonical o
  | .run _ t => Memory.wf t.mem = true

omit h in
theorem Plan.canonical_ite {p : Prop} [Decidable p] {a b : Plan} (ha : a.canonical) (hb : b.canonical) : (if p then a else b).canonical := by
  split
  · exact ha
  · exact hb

omit h in
theorem Plan.canonical_answer_next {t : State} (ht : Memory.wf t.mem = true) : (Plan.answer (.next t)).canonical := (outCanonical_next t).2 ht

theorem planEnd_canonical : s.planEnd.canonical := by
  unfold State.planEnd
  split
  · exact h
  · exact h
  · exact Plan.canonical_answer_next (Memory.wf_endCycle h)

theorem issueWord_canonical : s.issueWord.canonical := by
  unfold State.issueWord
  split
  · exact Plan.canonical_answer_next (by simpa using h)
  next i _ =>
    refine Plan.canonical_ite ?_ (Plan.canonical_answer_next (by simpa using h))
    exact Memory.wf_of_eq (State.mem_noteV s i) h

theorem issueTurn_canonical : s.issueTurn.canonical := by
  unfold State.issueTurn
  refine Plan.canonical_ite (Plan.canonical_answer_next h) ?_
  split -- the phase of the context
  · exact h
  · exact Plan.canonical_ite h h
  · exact Plan.canonical_answer_next h
  · exact Plan.canonical_answer_next h
  · exact Plan.canonical_answer_next h
  · exact Plan.canonical_answer_next h
  · exact h
  all_goals exact issueWord_canonical h

theorem plan_canonical : s.plan.canonical := by
  unfold State.plan
  split
  · exact planEnd_canonical h
  · exact Plan.canonical_ite (Plan.canonical_answer_next h) h
  next c x ts _ => exact Plan.canonical_ite (planEnd_canonical h) (issueTurn_canonical (s := { s with turns := ts, cur := (c, x) }) h)

theorem step_canonical : OutCanonical (step s) := by
  have hp := plan_canonical h
  unfold step
  split
  next o ho => rwa [ho] at hp
  next i t ht => exact exec_canonical (by rwa [ht] at hp) i

end

end Sys2Proof.Machine

namespace Sys2Proof.Claims
open Sys2Proof.Machine

/-- Settles O54: canonical memory is kept by each instruction's meaning (exec_canonical) and by the choice of the turn (plan_canonical). -/
theorem stepsKeepMemory : Obligations.StepsKeepMemory := by
  unfold Obligations.StepsKeepMemory
  intro s t h ht
  exact (step_canonical h).next t ht

end Sys2Proof.Claims
end

section
/-! PROOFS. The machine right after reset (00 R4, R7): O55. -/

namespace Sys2Proof.Machine

/-- At reset an entry of the access table permits the hub cores (00 R7, log 2) and the Hub Security Core everything, and no other master anything. -/
theorem permits_reset (t m : Nat) : State.reset.permits t m = if (0xA00 ≤ m ∧ m ≤ 0xA0F) ∨ m = 0xA20 then 0xF else 0 := rfl

theorem permits_reset_cluster {t m : Nat} (h : m < 0xA00) : State.reset.permits t m = 0 := by
  rw [permits_reset, if_neg (by omega)]

theorem permits_reset_core {t m : Nat} (h : 0xA00 ≤ m) (h' : m ≤ 0xA0F) : State.reset.permits t m = 0xF := by
  rw [permits_reset, if_pos (.inl ⟨h, h'⟩)]

end Sys2Proof.Machine

namespace Sys2Proof.Claims
open Sys2Proof.Machine

/-- Settles O55: every finite map of the reset state lists nothing, so each unit reads as its reset value. -/
theorem resetState : Obligations.ResetState := by
  unfold Obligations.ResetState
  exact ⟨Memory.wf_reset, fun _ => rfl, rfl, fun _ => ⟨rfl, rfl, fun _ => rfl⟩, fun _ => ⟨rfl, rfl, rfl, rfl⟩, fun _ => rfl,
    fun _ => ⟨rfl, rfl, rfl⟩, fun _ _ => permits_reset_cluster, fun _ _ => permits_reset_core, rfl, rfl, rfl, rfl, rfl, rfl, rfl⟩

end Sys2Proof.Claims
end

section
/-! PROOFS. Writes of configuration registers (00 R7, 01 R21, R25, 03 R43, 23 R328, R329, 27 R364, 31 R385, R395): O45. -/

namespace Sys2Proof.Machine

/-! ### Fields of a written value -/

theorem extractLsb'_toNat_eq_bitsNat {n : Nat} (v : BitVec n) {hi lo w : Nat} (h : hi + 1 - lo = w) :
    (v.extractLsb' lo w).toNat = bitsNat v.toNat hi lo := by
  rw [BitVec.extractLsb'_toNat, bitsNat, h]

theorem ofNat_bitsNat {n : Nat} (v : BitVec n) {hi lo w : Nat} (h : hi + 1 - lo = w) :
    BitVec.ofNat w (bitsNat v.toNat hi lo) = v.extractLsb' lo w := by
  rw [← extractLsb'_toNat_eq_bitsNat v h, BitVec.ofNat_toNat, BitVec.setWidth_eq]

theorem ofNat_toNat_eq_extract {n : Nat} (v : BitVec n) (w : Nat) : BitVec.ofNat w v.toNat = v.extractLsb' 0 w := by
  apply BitVec.eq_of_toNat_eq
  simp [BitVec.extractLsb'_toNat]

/-! ### A hub core's write (01 R25, R26) -/

theorem State.coreWrite_of_acts {s : State} {core off : Nat} (f : State → State) (ha : s.coreActs core = true)
    (hm : s.mayAccess (0xA00 + core) bitW (s.cfgPa off) = true) : s.coreWrite core off f = f s := by
  simp [State.coreWrite, ha, hm]

theorem State.coreWrite_of_refused {s : State} {core off : Nat} (f : State → State) (ha : s.coreActs core = true)
    (hm : s.mayAccess (0xA00 + core) bitW (s.cfgPa off) = false) :
    s.coreWrite core off f = s.agentRefused (0xA00 + core) (s.cfgPa off) := by
  simp [State.coreWrite, ha, hm]

theorem State.coreWrite_of_idle {s : State} {core off : Nat} (f : State → State) (ha : s.coreActs core = false) :
    s.coreWrite core off f = s := by
  simp [State.coreWrite, ha]

@[simp] theorem State.hub_agentRefused (s : State) (m pa : Nat) : (s.agentRefused m pa).hub = s.hub := by
  unfold State.agentRefused
  dsimp only
  split <;> rfl

theorem State.ring_agentRefused (s : State) (m pa d : Nat) : (s.agentRefused m pa).ring d = s.ring d := by
  unfold State.agentRefused
  dsimp only
  split <;> rfl

/-- A hub core that is refused is frozen. -/
theorem State.frz_agentRefused_core (s : State) {core : Nat} (pa : Nat) (h : core < 16) :
    ((s.agentRefused (0xA00 + core) pa).sup 12).frz.getLsbD core = true := by
  have h1 : ¬(0xA10 ≤ 0xA00 + core ∧ 0xA00 + core < 0xA14) := by omega
  have h2 : ¬(0xA18 ≤ 0xA00 + core ∧ 0xA00 + core < 0xA20) := by omega
  have h3 : isCore (0xA00 + core) = true := by simp [isCore]; omega
  have hb : (BitVec.ofNat 32 (2 ^ core)).getLsbD core = true := by
    rw [BitVec.getLsbD_ofNat, Nat.testBit_two_pow_self]
    simp; omega
  simp only [State.agentRefused, if_neg h1, if_neg h2, h3, if_true, State.sup_modSup_same, BitVec.getLsbD_or, Nat.add_sub_cancel_left, hb,
    Bool.or_true]

/-! ### Partitions (01 R21) -/

theorem State.allHalted {s : State} (h : ∀ t, t < 12 → s.dieHalted t = true) : (List.range 12).all s.dieHalted = true := by
  simpa using h

theorem State.notAllHalted {s : State} {t : Nat} (ht : t < 12) (h : s.dieHalted t = false) : (List.range 12).all s.dieHalted = false := by
  simp only [List.all_eq_false, List.mem_range]
  exact ⟨t, ht, by simp [h]⟩

theorem State.writePartcfg_set {s : State} (bad : State) {v : BitVec 32} (hv : v.toNat % 4 ≠ 3) (h : ∀ t, t < 12 → s.dieHalted t = true) :
    s.writePartcfg bad v.toNat =
      (s.modHub fun h => { h with supv := v.extractLsb' 16 16, shape := v.extractLsb' 0 2 }).setMasters := by
  have h3 : bitsNat v.toNat 1 0 ≠ 3 := by simpa [bitsNat] using hv
  simp only [State.writePartcfg, h3, State.allHalted h, ofNat_bitsNat v (hi := 31) (lo := 16) (w := 16) rfl, ofNat_toNat_eq_extract, Bool.not_true,
    Bool.or_false, decide_false, Bool.false_eq_true, if_false]

theorem State.writePartcfg_bad {s bad : State} {t v : Nat} (ht : t < 12) (h : s.dieHalted t = false) : s.writePartcfg bad v = bad := by
  simp [State.writePartcfg, State.notAllHalted ht h]

theorem State.writePartsup_set {s bad : State} {v : BitVec 64} (h : ∀ t, t < 12 → s.dieHalted t = true) :
    s.writePartsup bad v = s.modHub fun h => { h with sup := v } := by
  rw [State.writePartsup, if_pos (State.allHalted h)]

theorem State.writePartsup_bad {s bad : State} {t : Nat} {v : BitVec 64} (ht : t < 12) (h : s.dieHalted t = false) :
    s.writePartsup bad v = bad := by
  simp [State.writePartsup, State.notAllHalted ht h]

/-! ### The hub's registers (27 R364, 31 R385, R395) -/

theorem State.writeFabcfg_set {s bad : State} {v : BitVec 64} (h0 : v.toNat % 1024 ≠ 0) (h1 : v.toNat % 1024 ≤ 1000) :
    s.writeFabcfg bad v = s.modHub fun h => { h with
      lease := v.extractLsb' 0 10
      oldLeases := (h.oldLeases.filter fun e => decide (s.cycle.toNat < e.2 + 1050000)) ++ [(h.lease, s.cycle.toNat)] } := by
  have hc : ¬(BitVec.ofNat 10 v.toNat = 0 ∨ 1000 < (BitVec.ofNat 10 v.toNat).toNat) := by
    rintro (h | h)
    · exact h0 (by simpa using congrArg BitVec.toNat h)
    · exact absurd h1 (by simpa using h)
  rw [State.writeFabcfg, if_neg hc, ofNat_toNat_eq_extract]
  rfl

theorem State.writeFabcfg_bad {s bad : State} {v : BitVec 64} (h : v.toNat % 1024 = 0 ∨ 1000 < v.toNat % 1024) :
    s.writeFabcfg bad v = bad := by
  have hc : BitVec.ofNat 10 v.toNat = 0 ∨ 1000 < (BitVec.ofNat 10 v.toNat).toNat :=
    h.imp (fun h => BitVec.eq_of_toNat_eq (by simpa using h)) (fun h => by simpa using h)
  rw [State.writeFabcfg, if_pos hc]

/-! ### The Gateway's registers (27 R350, R351) -/

theorem State.cfgWrite_gateway (s : State) (core : Nat) (v : BitVec 64) {o : Nat} (h : 0x12400 ≤ o) (h' : o < 0x13000) :
    s.cfgWrite core o v = s.coreWrite core o fun s => (s.openReg (s.cfgIgnored core o) o v).getD s := by
  unfold State.cfgWrite
  rw [if_neg (by omega), if_neg (by omega), if_neg (by omega), if_neg (by omega), if_neg (by omega), if_neg (by omega), if_neg (by omega)]

theorem State.openReg_gwroute (s bad : State) (v : BitVec 64) {n : Nat} (h : n < 64) : s.openReg bad (0x12400 + 8 * n) v =
    some (s.modHub fun h => { h with gwroute := SMap.set h.gwroute n (v.extractLsb' 0 4) }) := by
  have hn : (0x12400 + 8 * n - 0x12400) / 8 = n := by omega
  unfold State.openReg
  rw [if_neg (by omega), if_pos (by omega), hn, ofNat_toNat_eq_extract]

theorem State.openReg_gwrmt (s bad : State) (v : BitVec 64) {n : Nat} (h : n < 64) : s.openReg bad (0x12800 + 8 * n) v =
    some (s.modHub fun h => { h with gwrmt := SMap.set h.gwrmt n (v.extractLsb' 0 4) }) := by
  have hn : (0x12800 + 8 * n - 0x12800) / 8 = n := by omega
  unfold State.openReg
  rw [if_neg (by omega), if_neg (by omega), if_pos (by omega), hn, ofNat_toNat_eq_extract]

theorem State.openReg_gwmask (s bad : State) (v : BitVec 64) {n : Nat} (h : n < 64) : s.openReg bad (0x12C00 + 16 * n) v =
    some (s.modHub fun h => { h with gwmask := SMap.set h.gwmask n v }) := by
  have hn : (0x12C00 + 16 * n - 0x12C00) / 16 = n := by omega
  unfold State.openReg
  rw [if_neg (by omega), if_neg (by omega), if_neg (by omega), if_pos (by omega), if_pos (by omega), hn]

theorem State.openReg_gwval (s bad : State) (v : BitVec 64) {n : Nat} (h : n < 64) : s.openReg bad (0x12C08 + 16 * n) v =
    some (s.modHub fun h => { h with gwval := SMap.set h.gwval n (v.getLsbD 0) }) := by
  have hn : (0x12C08 + 16 * n - 0x12C00) / 16 = n := by omega
  unfold State.openReg
  rw [if_neg (by omega), if_neg (by omega), if_neg (by omega), if_pos (by omega), if_neg (by omega), hn]

/-! ### FLENMIN (23 R319) -/

theorem State.ring_lookLen (s : State) (e d : Nat) : ∃ m, (s.lookLen e).ring d = { s.ring d with flenMin := m } := by
  unfold State.lookLen
  dsimp only
  split
  · exact ⟨_, rfl⟩
  · split
    · exact ⟨_, State.ring_agentRefused ..⟩
    · by_cases h : d = e
      · subst h
        exact ⟨_, State.ring_modRing_same ..⟩
      · exact ⟨_, State.ring_modRing_ne _ _ h⟩

theorem State.ring_foldl_lookLen (l : List Nat) (s : State) (d : Nat) : ∃ m, (l.foldl State.lookLen s).ring d = { s.ring d with flenMin := m } := by
  induction l generalizing s with
  | nil => exact ⟨_, rfl⟩
  | cons e l ih =>
    obtain ⟨m, hm⟩ := s.ring_lookLen e d
    obtain ⟨n, hn⟩ := ih (s.lookLen e)
    exact ⟨n, by rw [List.foldl_cons, hn, hm]⟩

/-- A look at the lengths changes no field of a ring but FLENMIN. -/
theorem State.ring_lookLens (s : State) (e d : Nat) : ∃ m, (s.lookLens e).ring d = { s.ring d with flenMin := m } :=
  State.ring_foldl_lookLen _ s d

theorem State.flenMin_lookLen {s : State} {d : Nat} (hn : (s.ring d).nseg ≠ 0) (hf : (s.sup d).agfrz = false)
    (hr : s.backingRefused d (s.ring d).bkbase.toNat (s.ring d).nseg.toNat = none) :
    s.lookLen d = s.modRing d fun r => { r with flenMin := s.flenMinOf d r.bkbase.toNat r.nseg.toNat } := by
  have hc : ¬((decide ((s.ring d).nseg = 0) || (s.sup d).agfrz) = true) := by simpa [hf] using hn
  rw [State.lookLen, if_neg hc, hr]

/-! ### RFCFG (23 R328, R329) -/

/-- A ring with the fields of a written value of RFCFG, but for RUN. -/
def Ring.withRfcfg (r : Ring) (v : BitVec 64) : Ring :=
  { r with
    rcap := v.getLsbD 62, nseg := BitVec.ofNat 20 (bitsNat v.toNat 51 32), succMod := BitVec.ofNat 6 (bitsNat v.toNat 25 20)
    succD := BitVec.ofNat 3 (bitsNat v.toNat 18 16), hbto := if BitVec.ofNat 16 v.toNat = 0 then r.hbto else BitVec.ofNat 16 v.toNat }

theorem Ring.withRfcfg_eq (r : Ring) (v : BitVec 64) : r.withRfcfg v = { r with
    rcap := v.getLsbD 62, nseg := v.extractLsb' 32 20, succMod := v.extractLsb' 20 6, succD := v.extractLsb' 16 3
    hbto := if v.extractLsb' 0 16 = 0 then r.hbto else v.extractLsb' 0 16 } := by
  rw [Ring.withRfcfg, ofNat_bitsNat v (hi := 51) (lo := 32) (w := 20) rfl, ofNat_bitsNat v (hi := 25) (lo := 20) (w := 6) rfl,
    ofNat_bitsNat v (hi := 18) (lo := 16) (w := 3) rfl, ofNat_toNat_eq_extract]

/-- The state with a written value of RFCFG on a stopped die: another NSEG leaves no segment placed, and FLENMIN is computed anew. -/
def State.withRfcfg (s : State) (d : Nat) (v : BitVec 64) : State :=
  let r := (s.ring d).withRfcfg v
  (s.modRing d fun _ => if r.nseg = (s.ring d).nseg then r
    else { r with fifo := [], fwd := [], onWay := [], inWin := false, incoming := none }).lookLens d

theorem State.ring_withRfcfg (s : State) (d : Nat) (v : BitVec 64) : ((s.withRfcfg d v).ring d).nseg = ((s.ring d).withRfcfg v).nseg ∧
    ((s.withRfcfg d v).ring d).succMod = ((s.ring d).withRfcfg v).succMod := by
  obtain ⟨m, hm⟩ := State.ring_lookLens (s.modRing d fun _ => if ((s.ring d).withRfcfg v).nseg = (s.ring d).nseg then (s.ring d).withRfcfg v
    else { (s.ring d).withRfcfg v with fifo := [], fwd := [], onWay := [], inWin := false, incoming := none }) d d
  rw [State.ring_modRing_same] at hm
  rw [State.withRfcfg, hm]
  split <;> exact ⟨rfl, rfl⟩

/-- NSEG, the ring's room or the successor does not admit the value. -/
def State.rfcfgBad (s : State) (d : Nat) (v : BitVec 64) : Prop :=
  let room := ((s.modRing d fun _ => (s.ring d).withRfcfg v).ringMembers d - if ((s.ring d).withRfcfg v).rcap then 1 else 0) * Config.fifoSlots
  ((s.withRfcfg d v).ring d).nseg = 0 ∨ room < ((s.withRfcfg d v).ring d).nseg.toNat ∨
    (partSize s.hub.shape ≠ 8 ∧ ((s.withRfcfg d v).ring d).succMod ≠ s.hub.modNo)

/-- While the ring runs, a write of RFCFG that gives the other fields their own values writes RUN. -/
theorem State.writeRfcfg_running (s : State) (core : Nat) {d : Nat} {v : BitVec 64} (hr : (s.ring d).run = true)
    (hs : (s.ring d).withRfcfg v = s.ring d) : s.writeRfcfg core d v = s.modRing d fun r => { r with run := v.getLsbD 63 } :=
  (if_pos hr).trans (if_pos hs)

theorem State.writeRfcfg_bad (s : State) (core : Nat) {d : Nat} {v : BitVec 64} (hr : (s.ring d).run = false) (hb : s.rfcfgBad d v) :
    s.writeRfcfg core d v = s.cfgIgnored core (ringOff d 0x20) :=
  (if_neg (by simp [hr])).trans (if_pos hb)

/-- While the ring is stopped, a write of RFCFG that leaves it so sets the other fields. -/
theorem State.writeRfcfg_stopped (s : State) (core : Nat) {d : Nat} {v : BitVec 64} (hr : (s.ring d).run = false) (hv : v.getLsbD 63 = false)
    (hb : ¬s.rfcfgBad d v) : s.writeRfcfg core d v = s.withRfcfg d v := by
  refine (if_neg (by simp [hr])).trans ((if_neg hb).trans ((if_neg ?_).trans (if_neg ?_)))
  · rw [hv, Bool.false_and]
    exact Bool.false_ne_true
  · rw [hv]
    exact Bool.false_ne_true

/-! ### BYPASS and ESCCFG (23 R326, R329) -/

theorem execBypass_eq (core : Nat) {d : Nat} (v : BitVec 8) (s : State) (h : d < 8) :
    execBypass core d v s = .next (s.coreWrite core (ringOff d 0x40) fun s =>
      if !(s.ring d).run then (s.modRing d fun r => { r with bypass := v }).setMasters
      else if (s.ring d).bypass &&& ~~~v ≠ 0 then s.cfgIgnored core (ringOff d 0x40)
      else (((List.range 8).filter fun e => v.getLsbD e && !(s.ring d).bypass.getLsbD e).foldl (fun s e => s.repair e 3) s).modRing d
        fun r => { r with bypass := r.bypass ||| v }) := by
  rw [execBypass, if_neg (by omega)]

theorem State.cfgWrite_esccfg (s : State) (core : Nat) (v : BitVec 64) {d : Nat} (h : d < 8) :
    s.cfgWrite core (0x10000 + d * 0x100) v = s.coreWrite core (0x10000 + d * 0x100) fun s => s.writeEsccfg core d v := by
  have hd : (0x10000 + d * 0x100 - 0x10000) / 256 = d := by omega
  have hm : (0x10000 + d * 0x100) % 256 = 0 := by omega
  unfold State.cfgWrite
  rw [if_neg (by omega), if_neg (by omega), if_pos (by omega)]
  dsimp only
  rw [hd, hm, if_pos rfl]

theorem State.cfgWrite_bkbase (s : State) (core : Nat) (v : BitVec 64) {d : Nat} (h : d < 8) :
    s.cfgWrite core (0x10028 + d * 0x100) v = s.coreWrite core (0x10028 + d * 0x100) fun s => s.writeBkbase core d v := by
  have hd : (0x10028 + d * 0x100 - 0x10000) / 256 = d := by omega
  have hm : (0x10028 + d * 0x100) % 256 = 0x28 := by omega
  unfold State.cfgWrite
  rw [if_neg (by omega), if_neg (by omega), if_pos (by omega)]
  dsimp only
  rw [hd, hm, if_neg (by decide), if_neg (by decide), if_pos rfl]

theorem State.writeEsccfg_set (s : State) (core : Nat) {d : Nat} {v : BitVec 64} (hr : (s.ring d).run = false)
    (hm : (s.ring d).flenMin ≤ v.extractLsb' 0 12) :
    s.writeEsccfg core d v = s.modRing d fun r => { r with flen := v.extractLsb' 0 12, slackMax := v.extractLsb' 32 16 } := by
  have hc : ¬(((s.ring d).run || decide (v.extractLsb' 0 12 < (s.ring d).flenMin)) = true) := by simpa [hr] using hm
  simp only [State.writeEsccfg, ofNat_toNat_eq_extract, ofNat_bitsNat v (hi := 47) (lo := 32) (w := 16) rfl, if_neg hc]

theorem State.writeEsccfg_bad (s : State) (core : Nat) {d : Nat} {v : BitVec 64}
    (h : (s.ring d).run = true ∨ v.extractLsb' 0 12 < (s.ring d).flenMin) : s.writeEsccfg core d v = s.cfgIgnored core (ringOff d 0) := by
  have hc : ((s.ring d).run || decide (v.extractLsb' 0 12 < (s.ring d).flenMin)) = true := by simpa using h
  simp only [State.writeEsccfg, ofNat_toNat_eq_extract, if_pos hc]

/-! ### BKBASE (23 R319, R329, log 32) -/

/-- The state with another BKBASE on die d. -/
def State.withBkbase (s : State) (d : Nat) (b : BitVec 52) : State := s.modRing d fun r => { r with bkbase := b }

theorem State.ring_withBkbase (s : State) (d e : Nat) (b : BitVec 52) : ∃ c, (s.withBkbase d b).ring e = { s.ring e with bkbase := c } := by
  by_cases h : e = d
  · subst h
    exact ⟨b, State.ring_modRing_same ..⟩
  · exact ⟨_, State.ring_modRing_ne _ _ h⟩

theorem State.winByte_withBkbase (s : State) (d e x : Nat) (b : BitVec 52) : (s.withBkbase d b).winByte e x = s.winByte e x := by
  obtain ⟨c, hc⟩ := s.ring_withBkbase d e b
  unfold State.winByte
  rw [hc]
  rfl

/-- A register that is no BKBASE of a ring reads as before. -/
theorem State.cfgWord_withBkbase (s : State) (d : Nat) (b : BitVec 52) {o : Nat} (h : o % 256 ≠ 0x28) :
    (s.withBkbase d b).cfgWord o = s.cfgWord o := by
  obtain ⟨c, hc⟩ := s.ring_withBkbase d ((o - 0x10000) / 256) b
  have hr : ((s.withBkbase d b).ring ((o - 0x10000) / 256)).readReg (o % 256) = (s.ring ((o - 0x10000) / 256)).readReg (o % 256) := by
    rw [hc]
    unfold Ring.readReg
    rw [if_neg h, if_neg h]
    rfl
  unfold State.cfgWord
  rw [hr]
  rfl

theorem State.cfgByte_withBkbase (s : State) (d : Nat) (b : BitVec 52) {o : Nat} (h : o % 256 < 8) :
    (s.withBkbase d b).cfgByte o = s.cfgByte o := by
  rw [State.cfgByte, State.cfgByte, State.cfgWord_withBkbase s d b (by omega)]

theorem State.byte_withBkbase (s : State) (d : Nat) (b : BitVec 52) {pa : Nat} (h : pa % 256 < 8) :
    (s.withBkbase d b).byte pa = s.byte pa := by
  unfold State.byte
  rw [State.winByte_withBkbase, State.cfgByte_withBkbase s d b (by omega)]
  rfl

/-- An image at an aligned base keeps each LEN clear of every BKBASE, should it lie in configuration space. -/
theorem State.lenMax_withBkbase (s : State) (d : Nat) (b : BitVec 52) (n : Nat) {base : Nat} (h : base % 4096 = 0) :
    (s.withBkbase d b).lenMax base n = s.lenMax base n := by
  have hb (i : Nat) : (s.withBkbase d b).bytes (base + i * Config.backingStride + 4) 4 = s.bytes (base + i * Config.backingStride + 4) 4 := by
    refine List.map_congr_left fun j hj => State.byte_withBkbase s d b ?_
    have hj4 : j < 4 := List.mem_range.1 hj
    simp only [Config.backingStride]
    omega
  simp only [State.lenMax, hb]

theorem State.ringSpans_withBkbase (s : State) (d e : Nat) (b : BitVec 52) : (s.withBkbase d b).ringSpans e = s.ringSpans e := by
  have hn (x : Nat) : ((s.withBkbase d b).ring x).nseg = (s.ring x).nseg := by
    obtain ⟨c, hc⟩ := s.ring_withBkbase d x b
    rw [hc]
  have hm (x : Nat) : ((s.withBkbase d b).ring x).succMod = (s.ring x).succMod := by
    obtain ⟨c, hc⟩ := s.ring_withBkbase d x b
    rw [hc]
  simp only [State.ringSpans, hn, hm]
  rfl

theorem State.flenMinOf_withBkbase (s : State) (d : Nat) (b : BitVec 52) (n : Nat) {base : Nat} (h : base % 4096 = 0) :
    (s.withBkbase d b).flenMinOf d base n = s.flenMinOf d base n := by
  rw [State.flenMinOf, State.flenMinOf, State.lenMax_withBkbase s d b n h, State.ringSpans_withBkbase]

theorem State.writeBkbase_misaligned (s : State) (core d : Nat) {v : BitVec 64} (h : v.toNat % 4096 ≠ 0) :
    s.writeBkbase core d v = s.cfgIgnored core (ringOff d 0x28) := by
  refine if_pos (.inl ?_)
  rw [BitVec.toNat_ofNat]
  omega

theorem State.ring_withBkbase_same (s : State) (d : Nat) (b : BitVec 52) : (s.withBkbase d b).ring d = { s.ring d with bkbase := b } :=
  State.ring_modRing_same ..

/-- The ring of die d after a new BKBASE and a look at its image, when the look is not refused. -/
theorem State.ring_lookLen_withBkbase {s : State} {d : Nat} {b : BitVec 52} (h : b.toNat % 4096 = 0) (hn : (s.ring d).nseg ≠ 0)
    (hf : (s.sup d).agfrz = false) (hb : s.backingRefused d b.toNat (s.ring d).nseg.toNat = none) :
    ((s.withBkbase d b).lookLen d).ring d = { s.ring d with bkbase := b, flenMin := s.flenMinOf d b.toNat (s.ring d).nseg.toNat } := by
  have hn' : ((s.withBkbase d b).ring d).nseg ≠ 0 := by rwa [State.ring_withBkbase_same]
  have hb' : (s.withBkbase d b).backingRefused d ((s.withBkbase d b).ring d).bkbase.toNat ((s.withBkbase d b).ring d).nseg.toNat = none := by
    rw [State.ring_withBkbase_same]
    exact hb
  rw [State.flenMin_lookLen hn' hf hb', State.ring_modRing_same, State.ring_withBkbase_same, State.flenMinOf_withBkbase s d b _ h]

/-- While the ring runs, a BKBASE whose image needs a longer frame than FLEN is ignored (R319). -/
theorem State.writeBkbase_short (s : State) (core : Nat) {d : Nat} {v : BitVec 64} (hr : (s.ring d).run = true) (hn : (s.ring d).nseg ≠ 0)
    (hf : (s.sup d).agfrz = false) (hb : s.backingRefused d (v.extractLsb' 0 52).toNat (s.ring d).nseg.toNat = none)
    (hl : (s.ring d).flen < s.flenMinOf d (v.extractLsb' 0 52).toNat (s.ring d).nseg.toNat) :
    s.writeBkbase core d v = s.cfgIgnored core (ringOff d 0x28) := by
  by_cases ha : v.toNat % 4096 = 0
  case neg => exact s.writeBkbase_misaligned core d ha
  have hbase : (v.extractLsb' 0 52).toNat % 4096 = 0 := by
    rw [← ofNat_toNat_eq_extract, BitVec.toNat_ofNat]
    omega
  have ht := State.ring_lookLen_withBkbase hbase hn hf hb
  simp only [State.writeBkbase, if_pos hr, ofNat_toNat_eq_extract]
  refine if_pos (.inr ?_)
  change ((((s.withBkbase d (v.extractLsb' 0 52)).lookLen d).ring d).run = true) ∧
    ((((s.withBkbase d (v.extractLsb' 0 52)).lookLen d).ring d).flen < (((s.withBkbase d (v.extractLsb' 0 52)).lookLen d).ring d).flenMin ∨ _)
  rw [ht]
  exact ⟨hr, .inl hl⟩

end Sys2Proof.Machine

namespace Sys2Proof.Claims
open Sys2Proof.Machine

variable {s u : State} {core off : Nat}

theorem CoreOn.acts (h : CoreOn s core) : s.coreActs core = true := by
  obtain ⟨hc, hr, hf⟩ := h
  simp only [State.coreActs, hc, hr, hf, decide_true, Bool.not_false, Bool.and_true, Bool.or_true]

theorem not_acts_of_not_coreOn (h : ¬CoreOn s core) (hh : s.host = false) : s.coreActs core = false := by
  by_contra ha
  simp only [State.coreActs, hh, Bool.false_or, Bool.not_eq_false, Bool.and_eq_true, decide_eq_true_eq, Bool.not_eq_true'] at ha
  exact h ha

theorem CoreMay.acts (h : CoreMay s core off) : s.coreActs core = true := by
  obtain ⟨hc, hr, hf, _⟩ := h
  exact CoreOn.acts ⟨hc, hr, hf⟩

/-- A write that a hub core may make comes to its change. -/
theorem CoreMay.write (h : CoreMay s core off) {f : State → State} (hf : f s = u) : (.next (s.coreWrite core off f) : Out) = .next u := by
  obtain ⟨_, _, _, hm⟩ := id h
  rw [State.coreWrite_of_acts f h.acts hm, hf]

end Sys2Proof.Claims
end

section
/-! PROOFS. O45, register by register. -/

namespace Sys2Proof.Claims
open Sys2Proof.Machine

section
variable {s : State} {core : Nat}

theorem hostwin_set {v : BitVec 64} (h : CoreMay s core 0x14010) (hv : v.toNat / 2 % 256 ≤ 192) : exec (.hostwin core v) s =
    .next (s.modHub fun h => { h with hostBase := v.extractLsb' 1 8, hostEn := v.getLsbD 0 }) := by
  have hb : ¬192 < bitsNat v.toNat 8 1 := by simpa [bitsNat, Nat.shiftRight_eq_div_pow] using hv
  refine h.write ?_
  dsimp only
  rw [if_neg hb, ofNat_bitsNat v (hi := 8) (lo := 1) (w := 8) rfl]

theorem hostwin_bad {v : BitVec 64} (h : CoreMay s core 0x14010) (hv : 192 < v.toNat / 2 % 256) :
    exec (.hostwin core v) s = .next (s.cfgIgnored core 0x14010) := by
  have hb : 192 < bitsNat v.toNat 8 1 := by simpa [bitsNat, Nat.shiftRight_eq_div_pow] using hv
  refine h.write ?_
  dsimp only
  rw [if_pos hb]

theorem pwrcap_set {v : BitVec 64} (h : CoreMay s core 0x14000) (h1 : 85 ≤ (v.extractLsb' 40 8).toNat) (h2 : (v.extractLsb' 40 8).toNat ≤ 110)
    (h3 : (v.extractLsb' 32 8).toNat < (v.extractLsb' 40 8).toNat) (h4 : 1 ≤ (v.extractLsb' 16 6).toNat) (h5 : (v.extractLsb' 16 6).toNat ≤ 32)
    (h6 : 1000 ≤ (v.extractLsb' 0 16).toNat) (h7 : (v.extractLsb' 0 16).toNat ≤ 6200) : exec (.pwrcap core v) s = .next (s.modHub fun h => { h with
      tcrit := v.extractLsb' 40 8, twarn := v.extractLsb' 32 8, maxcl := v.extractLsb' 16 6, capw := v.extractLsb' 0 16 }) := by
  refine h.write ?_
  simp only [← extractLsb'_toNat_eq_bitsNat v (hi := 47) (lo := 40) (w := 8) rfl, ← extractLsb'_toNat_eq_bitsNat v (hi := 39) (lo := 32) (w := 8) rfl,
    ← extractLsb'_toNat_eq_bitsNat v (hi := 21) (lo := 16) (w := 6) rfl, ← extractLsb'_toNat_eq_bitsNat v (hi := 15) (lo := 0) (w := 16) rfl]
  rw [if_pos ⟨h1, h2, h3, h4, h5, h6, h7⟩]
  simp only [BitVec.ofNat_toNat, BitVec.setWidth_eq]

theorem pwrcap_bad {v : BitVec 64} (h : CoreMay s core 0x14000) (hv : 110 < (v.extractLsb' 40 8).toNat ∨
    (v.extractLsb' 40 8).toNat ≤ (v.extractLsb' 32 8).toNat ∨ (v.extractLsb' 16 6).toNat = 0 ∨ 6200 < (v.extractLsb' 0 16).toNat) :
    exec (.pwrcap core v) s = .next (s.cfgIgnored core 0x14000) := by
  refine h.write ?_
  simp only [← extractLsb'_toNat_eq_bitsNat v (hi := 47) (lo := 40) (w := 8) rfl, ← extractLsb'_toNat_eq_bitsNat v (hi := 39) (lo := 32) (w := 8) rfl,
    ← extractLsb'_toNat_eq_bitsNat v (hi := 21) (lo := 16) (w := 6) rfl, ← extractLsb'_toNat_eq_bitsNat v (hi := 15) (lo := 0) (w := 16) rfl]
  rw [if_neg]
  rintro ⟨h1, h2, h3, h4, h5, h6, h7⟩
  omega

/-! ### Group entries (03 R43) -/

/-- A group entry is written where no cluster comes to a fifth group. -/
theorem groupWrite_of_room {i : Nat} {mask : BitVec 320} (h : CoreMay s core (0x210000 + i * 64)) (hi : i < 256)
    (hg : ∀ c, c < 320 → mask.getLsbD c = true → s.otherGroups i c < 4) : exec (.groupTableWrite core i mask) s =
    .next (if (s.group i).mask = mask then s else { s with groups := SMap.set s.groups i { mask := mask, phase := 0, arrived := 0, marks := 0 } }) := by
  have hc : ¬((List.range 320).any fun c => mask.getLsbD c && decide (4 ≤ s.otherGroups i c)) = true := by
    simp only [List.any_eq_true, List.mem_range, Bool.and_eq_true, decide_eq_true_eq, not_exists, not_and, Nat.not_le]
    exact hg
  refine (if_neg (by omega)).trans (h.write ?_)
  exact if_neg hc

theorem groupWrite_fifth {i c : Nat} {mask : BitVec 320} (h : CoreMay s core (0x210000 + i * 64)) (hi : i < 256) (hc : c < 320)
    (hm : mask.getLsbD c = true) (hg : 4 ≤ s.otherGroups i c) :
    exec (.groupTableWrite core i mask) s = .next (s.cfgIgnored core (0x210000 + i * 64)) := by
  have hany : ((List.range 320).any fun c => mask.getLsbD c && decide (4 ≤ s.otherGroups i c)) = true := by
    simp only [List.any_eq_true, List.mem_range, Bool.and_eq_true, decide_eq_true_eq]
    exact ⟨c, hc, hm, hg⟩
  refine (if_neg (by omega)).trans (h.write ?_)
  exact if_pos hany

/-! ### The ring's registers (23 R328, R329) -/

theorem rfcfg_eq {d : Nat} {v : BitVec 64} {u : State} (h : CoreMay s core (0x10000 + d * 0x100 + 0x20)) (hd : d < 8)
    (hw : s.writeRfcfg core d v = u) : exec (.rfcfg core d v) s = .next u := by
  have he : exec (.rfcfg core d v) s = .next (s.coreWrite core (ringOff d 0x20) fun s => s.writeRfcfg core d v) :=
    congrArg Host.Outcome.next (if_neg (by omega))
  rw [he]
  exact h.write hw

theorem withRfcfg_self {r : Ring} {v : BitVec 64} (hc : v.getLsbD 62 = r.rcap) (hn : v.extractLsb' 32 20 = r.nseg)
    (hm : v.extractLsb' 20 6 = r.succMod) (hd : v.extractLsb' 16 3 = r.succD) (hh : v.extractLsb' 0 16 = r.hbto) : r.withRfcfg v = r := by
  rw [Ring.withRfcfg_eq, hc, hn, hm, hd, hh, ite_self]

/-- The fields of a ring that a write of RFCFG with its own NSEG and an HBTO sets. -/
def rfcfgFields (v : BitVec 64) (r : Ring) : Ring :=
  { r with rcap := v.getLsbD 62, succMod := v.extractLsb' 20 6, succD := v.extractLsb' 16 3, hbto := v.extractLsb' 0 16 }

theorem withRfcfg_ring {r : Ring} {v : BitVec 64} (hn : v.extractLsb' 32 20 = r.nseg) (hh : v.extractLsb' 0 16 ≠ 0) :
    r.withRfcfg v = rfcfgFields v r := by
  rw [Ring.withRfcfg_eq, hn, if_neg hh]
  rfl

theorem withRfcfg_sameNseg {d : Nat} {v : BitVec 64} (hn : v.extractLsb' 32 20 = (s.ring d).nseg) (hh : v.extractLsb' 0 16 ≠ 0) :
    s.withRfcfg d v = (s.modRing d (rfcfgFields v)).lookLens d := by
  have hsame : (rfcfgFields v (s.ring d)).nseg = (s.ring d).nseg := rfl
  rw [State.withRfcfg, withRfcfg_ring hn hh, if_pos hsame]
  rfl

theorem not_rfcfgBad {d : Nat} {v : BitVec 64} (hn : v.extractLsb' 32 20 = (s.ring d).nseg) (h0 : (s.ring d).nseg ≠ 0)
    (hh : v.extractLsb' 0 16 ≠ 0) (hs : partSize s.hub.shape = 8 ∨ v.extractLsb' 20 6 = s.hub.modNo)
    (hroom : (s.ring d).nseg.toNat ≤ ((s.modRing d (rfcfgFields v)).ringMembers d - if v.getLsbD 62 then 1 else 0) * 224) :
    ¬s.rfcfgBad d v := by
  obtain ⟨hns, hms⟩ := s.ring_withRfcfg d v
  rw [State.rfcfgBad, hns, hms, withRfcfg_ring hn hh]
  rintro (h | h | ⟨hp, hm⟩)
  · exact h0 h
  · exact absurd hroom (Nat.not_le.2 h)
  · exact hs.elim hp hm

/-- Dies that are bypassed already are bypassed anew: nothing is repaired, and nothing changes. -/
theorem addBypass_same (s : State) (d : Nat) :
    (((List.range 8).filter fun e => (s.ring d).bypass.getLsbD e && !(s.ring d).bypass.getLsbD e).foldl (fun s e => s.repair e 3) s).modRing d
      (fun r => { r with bypass := r.bypass ||| (s.ring d).bypass }) = s.modRing d fun r => r := by
  simp only [Bool.and_not_self, List.filter_false, List.foldl_nil, State.modRing, BitVec.or_self]

theorem bypass_eq {d : Nat} {v : BitVec 8} {u : State} (h : CoreMay s core (0x10000 + d * 0x100 + 0x40)) (hd : d < 8)
    (hw : (if !(s.ring d).run then (s.modRing d fun r => { r with bypass := v }).setMasters
      else if (s.ring d).bypass &&& ~~~v ≠ 0 then s.cfgIgnored core (ringOff d 0x40)
      else (((List.range 8).filter fun e => v.getLsbD e && !(s.ring d).bypass.getLsbD e).foldl (fun s e => s.repair e 3) s).modRing d
        fun r => { r with bypass := r.bypass ||| v }) = u) : exec (.bypass core d v) s = .next u :=
  (execBypass_eq core v s hd).trans (h.write hw)

theorem configWrite_eq {o : Nat} {v : BitVec 64} (ho : o % 8 = 0) : exec (.configRegisterWrite core o v) s = .next (s.cfgWrite core o v) :=
  congrArg Host.Outcome.next (if_pos ho)

theorem bkbaseOff {d : Nat} : ringOff d 0x28 = 0x10028 + d * 0x100 := by
  unfold ringOff
  omega

/-- A register written under its rule is as the rule leaves it. -/
theorem exec_of_regWrite {i : Instr} {off : Nat} {u : State} (h : CoreMay s core off) (hw : RegWrite s core i off u) : exec i s = .next u := by
  cases hw with
  | partcfg v hv ha => exact h.write (State.writePartcfg_set _ hv ha)
  | partcfgNot v t ht ha => exact h.write (State.writePartcfg_bad ht ha)
  | partsup v ha => exact h.write (State.writePartsup_set ha)
  | partsupNot v t ht ha => exact h.write (State.writePartsup_bad ht ha)
  | group i mask hi hg hne =>
    rw [groupWrite_of_room h hi hg, if_neg hne]
  | groupSame i mask hi hg he =>
    rw [groupWrite_of_room h hi hg, if_pos he]
  | groupFifth i mask c hi hc hm hg => exact groupWrite_fifth h hi hc hm hg
  | rfcfgStop d v hd hr hv hc hn hm hs hh =>
    refine rfcfg_eq h hd ?_
    rw [State.writeRfcfg_running s core hr (withRfcfg_self hc hn hm hs hh), hv]
  | rfcfgSet d v hd hr hv hn h0 hh hs hroom =>
    have hb : ¬s.rfcfgBad d v := not_rfcfgBad hn h0 hh hs hroom
    exact rfcfg_eq h hd ((State.writeRfcfg_stopped s core hr hv hb).trans (withRfcfg_sameNseg hn hh))
  | rfcfgSplit d v hd hr hp hm =>
    refine rfcfg_eq h hd (State.writeRfcfg_bad s core hr (.inr (.inr ⟨hp, ?_⟩)))
    rw [(s.ring_withRfcfg d v).2, Ring.withRfcfg_eq]
    exact hm
  | bypass d v hd hr => exact bypass_eq h hd (if_pos (by simp [hr]))
  | bypassClear d v hd hr hv => exact bypass_eq h hd ((if_neg (by simp [hr])).trans (if_pos hv))
  | bypassSame d hd hr =>
    exact bypass_eq h hd ((if_neg (by simp [hr])).trans ((if_neg (by simp)).trans (addBypass_same s d)))
  | fabcfg v h0 h1 => exact h.write (State.writeFabcfg_set h0 h1)
  | fabcfgNot v hv => exact h.write (State.writeFabcfg_bad hv)
  | hostwin v hv => exact hostwin_set h hv
  | hostwinNot v hv => exact hostwin_bad h hv
  | pwrcap v h1 h2 h3 h4 h5 h6 h7 => exact pwrcap_set h h1 h2 h3 h4 h5 h6 h7
  | pwrcapNot v hv => exact pwrcap_bad h hv
  | gwroute n v hn =>
    rw [configWrite_eq (by omega), State.cfgWrite_gateway s core v (by omega) (by omega)]
    exact h.write (by rw [State.openReg_gwroute _ _ v hn, Option.getD_some])
  | gwrmt n v hn =>
    rw [configWrite_eq (by omega), State.cfgWrite_gateway s core v (by omega) (by omega)]
    exact h.write (by rw [State.openReg_gwrmt _ _ v hn, Option.getD_some])
  | gwmask n v hn =>
    rw [configWrite_eq (by omega), State.cfgWrite_gateway s core v (by omega) (by omega)]
    exact h.write (by rw [State.openReg_gwmask _ _ v hn, Option.getD_some])
  | gwval n v hn =>
    rw [configWrite_eq (by omega), State.cfgWrite_gateway s core v (by omega) (by omega)]
    exact h.write (by rw [State.openReg_gwval _ _ v hn, Option.getD_some])
  | bkbaseNot d v hd hv =>
    rw [configWrite_eq (by omega), State.cfgWrite_bkbase s core v hd]
    refine h.write ?_
    rw [State.writeBkbase_misaligned s core d hv, bkbaseOff]
  | bkbaseRuns d v hd hr hn hf hb hl =>
    rw [configWrite_eq (by omega), State.cfgWrite_bkbase s core v hd]
    refine h.write ?_
    rw [State.writeBkbase_short s core hr hn hf hb hl, bkbaseOff]
  | esccfg d v hd hr hm =>
    rw [configWrite_eq (by omega), State.cfgWrite_esccfg s core v hd]
    exact h.write (State.writeEsccfg_set s core hr hm)
  | esccfgNot d v hd hv =>
    rw [configWrite_eq (by omega), State.cfgWrite_esccfg s core v hd]
    exact h.write (State.writeEsccfg_bad s core hv)

/-- An entry of an access table is written by a hub core that its target permits (01 R25). -/
theorem accessTableWrite_eq {t : Nat} {m : BitVec 12} (v : BitVec 8) (ht : t < 14) (h : CoreMay s core (0x200000 + t * 4096 + m.toNat)) :
    exec (.accessTableWrite (BitVec.ofNat 12 (0xA00 + core)) t m v) s =
      .next { s with access := SMap.set s.access (t * 4096 + m.toNat) (v.setWidth 4) } := by
  obtain ⟨hc, _, _, hm⟩ := id h
  have hw : (BitVec.ofNat 12 (0xA00 + core)).toNat = 0xA00 + core := by
    rw [BitVec.toNat_ofNat]
    omega
  have hidle : ¬(isCore (0xA00 + core) && !s.coreActs (0xA00 + core - 0xA00)) = true := by
    rw [Nat.add_sub_cancel_left, h.acts, Bool.not_true, Bool.and_false]
    exact Bool.false_ne_true
  change execAccessTableWrite _ t m v s = _
  simp only [execAccessTableWrite, hw]
  rw [if_neg (by omega), if_neg hidle, if_pos hm]

/-- A core that may not write configuration space changes no register, and is frozen (01 R26). -/
theorem hostwin_refused (v : BitVec 64) (h : CoreOn s core) (hm : s.mayAccess (0xA00 + core) bitW (s.cfgPa 0x14010) = false) :
    ∃ u, exec (.hostwin core v) s = .next u ∧ u.hub = s.hub ∧ (u.sup 12).frz.getLsbD core = true :=
  ⟨_, congrArg Host.Outcome.next (State.coreWrite_of_refused _ h.acts hm), State.hub_agentRefused .., State.frz_agentRefused_core s _ h.1⟩

end

/-- Settles O45, a case for each rule of a register's write. -/
theorem registerWrites : Obligations.RegisterWrites := by
  unfold Obligations.RegisterWrites
  refine ⟨fun i core off s u h hw => exec_of_regWrite h hw, fun core t m v s ht h => accessTableWrite_eq v ht h, fun core v s h hm => ?_,
    fun core v s h hh => ?_, fun s d hn hf hb => ?_⟩
  · obtain ⟨u, hu, hhub, hfrz⟩ := hostwin_refused v h hm
    exact ⟨u, hu, by rw [hhub], by rw [hhub], hfrz⟩
  · exact congrArg Host.Outcome.next (State.coreWrite_of_idle _ (not_acts_of_not_coreOn h hh))
  · rw [State.flenMin_lookLen hn hf hb, State.ring_modRing_same]
    rfl

end Sys2Proof.Claims
end

section
/-! PROOFS. Requests of hub cores, the host and other modules (01 R26, 21 R293, 27 R351, R365, 31 R385): O46. -/

namespace Sys2Proof.Machine

section
variable {s : State}

/-! ### A request at its home -/

@[simp] theorem State.clusters_agentRefused (s : State) (m pa : Nat) : (s.agentRefused m pa).clusters = s.clusters := by
  unfold State.agentRefused
  dsimp only
  split <;> rfl

theorem State.serve_read (m key : Nat) (core : Option Nat) (pa len v : Nat) (deny : Nat → State) (far : FarMap) (hb : s.badAt pa len = false) :
    s.serve m key core .read pa len v deny far = s.answer (.done (s.bytes pa len)) := by
  simp [State.serve, reqWrites, reqWidth, hb]

theorem State.serve_write (m key : Nat) (core : Option Nat) {pa len : Nat} (v : Nat) (deny : Nat → State) (far : FarMap)
    (hr : ∀ b ∈ reqBytes .write pa len, s.isRo b = false) (hc : isCfg pa = false) :
    s.serve m key core .write pa len v deny far = (s.storeNat pa len v).answer (.done []) := by
  have hro : (reqBytes .write pa len).any s.isRo = false := List.any_eq_false.2 (by simpa using hr)
  simp [State.serve, reqWidth, hro, hc]

theorem State.serve_atomicAdd (m key : Nat) (core : Option Nat) {pa len : Nat} (v : Nat) (deny : Nat → State) (far : FarMap)
    (hr : ∀ b ∈ reqBytes .atomicAdd pa len, s.isRo b = false) (hb : s.badAt pa len = false) (hc : isCfg pa = false) :
    s.serve m key core .atomicAdd pa len v deny far =
      (s.storeNat pa len ((bytesNat (s.bytes pa len) + v) % 2 ^ (8 * len))).answer (.done (s.bytes pa len)) := by
  have hro : (reqBytes .atomicAdd pa len).any s.isRo = false := List.any_eq_false.2 (by simpa using hr)
  simp [State.serve, reqWidth, hro, hb, hc]

/-! ### A hub core's request (01 R26, 21 R293, 27 R351) -/

/-- A request whose every byte has a target passes the check for unbacked ones. -/
theorem State.any_unbacked_eq_false {bs : List Nat} (h : ∀ b ∈ bs, b < 2 ^ 52 ∧ s.noTarget b = false) :
    bs.any (fun b => decide (2 ^ 52 ≤ b) || s.noTarget b) = false := by
  refine List.any_eq_false.2 fun b hb => ?_
  obtain ⟨hlt, ht⟩ := h b hb
  rw [ht, Bool.or_false, decide_eq_true_eq]
  omega

theorem State.any_dead_eq_false {ls : List Nat} (h : ∀ i ∈ ls, (s.link i).dead = false) : ls.any (fun i => (s.link i).dead) = false :=
  List.any_eq_false.2 (by simpa using h)

theorem State.readsHeld_eq_false {kind : ReqKind} {u : Nat} (h : reqReads kind = true → s.dieHeld u = false) :
    (reqReads kind && s.dieHeld u) = false := by
  cases hk : reqReads kind with
  | false => rfl
  | true => exact h hk

section
variable {kind : ReqKind} {pa len : Nat} (core v : Nat) (far : FarMap) (hk : kind ≠ .fence)
  (hp : ∀ i ∈ s.path 12 pa, (s.link i).dead = false) (hd : reqReads kind = true → s.dieHeld 12 = false)
include hk hp hd

/-- A request on this module is refused at its first byte that the master may not touch, and served when there is none. -/
theorem State.coreRequest_here (hf : s.isFar pa = false) (hb : ∀ b ∈ reqBytes kind pa (reqWidth len kind), b < 2 ^ 52 ∧ s.noTarget b = false) :
    s.coreRequest core kind pa len v far =
      ((reqBytes kind pa (reqWidth len kind)).find? fun b => !s.mayAccess (0xA00 + core) (reqBit kind) b).elim
        (s.serve (0xA00 + core) core (some core) kind pa len v fun pa => s.agentRefused (0xA00 + core) pa)
        fun b => (s.agentRefused (0xA00 + core) b).answer .refused := by
  simp only [State.coreRequest, if_neg hk, State.any_unbacked_eq_false hb, State.any_dead_eq_false hp, State.readsHeld_eq_false hd, hf,
    Bool.false_eq_true, if_false]
  split <;> next h => rw [h]; rfl

theorem State.coreRequest_served (hf : s.isFar pa = false) (hb : ∀ b ∈ reqBytes kind pa (reqWidth len kind), b < 2 ^ 52 ∧ s.noTarget b = false)
    (hm : ∀ b ∈ reqBytes kind pa (reqWidth len kind), s.mayAccess (0xA00 + core) (reqBit kind) b = true) :
    s.coreRequest core kind pa len v far =
      s.serve (0xA00 + core) core (some core) kind pa len v fun pa => s.agentRefused (0xA00 + core) pa := by
  rw [State.coreRequest_here core v far hk hp hd hf hb, List.find?_eq_none.2 (by simpa using hm), Option.elim_none]

theorem State.coreRequest_refused (hf : s.isFar pa = false) (hb : ∀ b ∈ reqBytes kind pa (reqWidth len kind), b < 2 ^ 52 ∧ s.noTarget b = false)
    (hm : ∃ b ∈ reqBytes kind pa (reqWidth len kind), s.mayAccess (0xA00 + core) (reqBit kind) b = false) :
    ∃ b, s.coreRequest core kind pa len v far = (s.agentRefused (0xA00 + core) b).answer .refused := by
  have hsome : ((reqBytes kind pa (reqWidth len kind)).find? fun b => !s.mayAccess (0xA00 + core) (reqBit kind) b).isSome :=
    List.find?_isSome.2 (by simpa using hm)
  obtain ⟨b, hfind⟩ := Option.isSome_iff_exists.1 hsome
  exact ⟨b, by rw [State.coreRequest_here core v far hk hp hd hf hb, hfind, Option.elim_some]⟩

theorem State.coreRequest_unrouted (hf : s.isFar pa = true) (hg : (SMap.get 0 s.hub.gwroute (pa / 2 ^ 46)).getLsbD 3 = false) :
    s.coreRequest core kind pa len v far = s.answer .failed := by
  have hfar : s.farRequest core kind pa len v far = s.answer .failed := by
    simp only [State.farRequest, hg, Bool.not_false, if_true]
  simp only [State.coreRequest, if_neg hk, State.any_dead_eq_false hp, State.readsHeld_eq_false hd, hf, hfar,
    Bool.false_eq_true, if_false, if_true, ite_self]

end

theorem State.coreRequest_fence (core pa len v : Nat) (far : FarMap) : s.coreRequest core .fence pa len v far = s.coreFence core := by
  rw [State.coreRequest, if_pos rfl]

theorem State.coreFence_starts {core : Nat} (h : SMap.get? s.hub.fences core = none) : s.coreFence core =
    (s.modHub fun h => { h with fences := SMap.set h.fences core s.cycle.toNat }).answer .busy := by
  simp only [State.coreFence, h]

theorem State.coreFence_busy {core t : Nat} (h : SMap.get? s.hub.fences core = some t) (ht : s.cycle.toNat ≤ t) :
    s.coreFence core = s.answer .busy := by
  simp only [State.coreFence, h, decide_eq_true ht, Bool.true_or, if_true]

/-- No engine of a cluster has an access, a nest or a waiting append of cycle t or before. -/
def Cluster.performed (k : Cluster) (t : Nat) : Prop :=
  (∀ a ∈ k.mq ++ k.accepting, a.isOpen = false ∨ t < a.cyc) ∧ (∀ n ∈ k.m.nests, t < n.cyc) ∧ ∀ r, (k.cx 2).phase = .kvapp r → t < r.cyc

theorem State.coreFence_done {core t : Nat} (h : SMap.get? s.hub.fences core = some t) (ht : t < s.cycle.toNat)
    (hk : ∀ k ∈ s.clusters, k.2.performed t) (hr : ∀ r ∈ s.rings, r.2.onWay = []) (ha : ∀ a ∈ s.adies, a.2.moves = []) :
    s.coreFence core = (s.modHub fun h => { h with fences := SMap.del h.fences core }).answer (.done []) := by
  simp only [State.coreFence, h]
  refine if_neg ?_
  simp only [Bool.or_eq_true, Bool.and_eq_true, decide_eq_true_eq, List.any_eq_true, not_or]
  refine ⟨⟨by omega, ?_⟩, ?_⟩
  · rintro ⟨k, hmem, hlate⟩
    obtain ⟨hacc, hnest, happ⟩ := hk k hmem
    rcases hlate with (⟨a, hin, ⟨hopen, -⟩, hle⟩ | ⟨n, hin, hle⟩) | hle
    · rcases hacc a hin with hc | hlt
      · rw [hc] at hopen
        exact Bool.false_ne_true hopen
      · omega
    · exact absurd (hnest n hin) (Nat.not_lt.2 hle)
    · split at hle
      · next r hph => exact absurd (happ r hph) (Nat.not_lt.2 (of_decide_eq_true hle))
      · exact Bool.false_ne_true hle
  · rintro ⟨-, ⟨r, hmem, w, hin, -⟩ | ⟨a, hmem, m, hin, -⟩⟩
    · rw [hr r hmem] at hin
      exact List.not_mem_nil hin
    · rw [ha a hmem] at hin
      exact List.not_mem_nil hin

/-- A core that acts makes its request. -/
theorem hubCoreAccess_acts {core : Nat} (req : BusReq) (h : s.coreActs core = true) :
    exec (.hubCoreAccess core req) s = .next (s.coreRequest core req.kind req.addr req.len req.data.toNat req.far) :=
  congrArg Host.Outcome.next (if_pos (by rw [h, Bool.true_or]))

/-- A core that does not act asks for nothing, unless it has a fence in progress. -/
theorem hubCoreAccess_idle {core : Nat} {req : BusReq} (h : s.coreActs core = false)
    (hf : req.kind ≠ .fence ∨ SMap.get? s.hub.fences core = none) : exec (.hubCoreAccess core req) s = .next s := by
  refine congrArg Host.Outcome.next (if_neg ?_)
  rw [h, Bool.false_or, Bool.and_eq_true, beq_iff_eq]
  rintro ⟨hk, hs⟩
  rcases hf with hf | hf
  · exact hf hk
  · simp [hf] at hs

theorem hubCoreAccess_fenceInProgress {core t : Nat} {req : BusReq} (hk : req.kind = .fence) (h : SMap.get? s.hub.fences core = some t) :
    exec (.hubCoreAccess core req) s = .next (s.coreFence core) := by
  refine congrArg Host.Outcome.next ((if_pos ?_).trans ?_)
  · simp [hk, h]
  · rw [hk, State.coreRequest_fence]

/-! ### A request of the host (31 R385) -/

section
variable {bar2 : Bool} {req : BusReq} (hp : s.hub.power ≠ .off)

theorem hostBarAccess_off (h : s.hub.power = .off) : exec (.hostBarAccess bar2 req) s = .next s := if_pos h

include hp

theorem hostBarAccess_notOfHost (hk : reqOfHost req.kind = false) : exec (.hostBarAccess bar2 req) s = .next (s.answer .unsupported) :=
  (if_neg hp).trans (if_pos (by rw [hk]; rfl))

theorem hostBarAccess_windowShut (hk : reqOfHost req.kind = true) (he : s.hub.hostEn = false) :
    exec (.hostBarAccess true req) s = .next (s.answer (if req.kind = .write then .none else .unsupported)) := by
  change execHostBarAccess true req s = _
  simp only [execHostBarAccess, if_neg hp, hk, he, Bool.not_true, Bool.not_false, Bool.false_eq_true, if_false, if_true]

theorem hostBarAccess_window (hk : reqOfHost req.kind = true) (he : s.hub.hostEn = true) (ha : req.addr < 2 ^ 36) :
    exec (.hostBarAccess true req) s = .next (s.hostRequest req (s.here (s.hub.hostBase.toNat * 2 ^ 30 + req.addr))) := by
  change execHostBarAccess true req s = _
  simp only [execHostBarAccess, if_neg hp, hk, he, Nat.not_le.2 ha, Bool.not_true, Bool.false_eq_true, if_false, if_true]

theorem hostBarAccess_config (hk : reqOfHost req.kind = true) (ha : req.addr < 2 ^ 24) :
    exec (.hostBarAccess false req) s = .next (s.hostRequest req (s.cfgPa req.addr)) := by
  change execHostBarAccess false req s = _
  simp only [execHostBarAccess, if_neg hp, hk, Nat.not_le.2 ha, Bool.not_true, Bool.false_eq_true, if_false]

theorem hostBarAccess_pastConfig (ha : 2 ^ 24 ≤ req.addr) : exec (.hostBarAccess false req) s = .next (s.answer .unsupported) := by
  change execHostBarAccess false req s = _
  simp only [execHostBarAccess, if_neg hp, ha, Bool.false_eq_true, if_false, if_true, ite_self]

end

/-! ### A request from another module (27 R351) -/

/-- GWRMT's entry of the source module has the bits that a request needs. -/
def State.admits (s : State) (r : RemoteReq) : Prop := (SMap.get 0 s.hub.gwrmt r.srcMod.toNat) &&& reqBit r.kind = reqBit r.kind

section
variable {r : RemoteReq}

theorem remoteAccess_notAdmitted (hk : r.kind ≠ .message) (hg : ¬s.admits r) :
    exec (.remoteAccessArrival r) s = .next (s.remoteRefused r ((targetA s.cxl (r.addr % 2 ^ 46)).getD 0xFF) (s.here (r.addr % 2 ^ 46))) := by
  have hgw : (SMap.get 0 s.hub.gwrmt r.srcMod.toNat &&& reqBit r.kind == reqBit r.kind) = false := beq_eq_false_iff_ne.2 hg
  change execRemoteAccessArrival r s = _
  unfold execRemoteAccessArrival
  split
  · contradiction
  · simp only [hgw, Bool.not_false, if_true]

section
variable {t : Nat} (hk : r.kind ≠ .message) (ht : targetA s.cxl (r.addr % 2 ^ 46) = some t) (hg : s.admits r)
  (hd : reqReads r.kind = true → s.dieHeld 13 = false)
  (hb : ∀ b ∈ reqBytes r.kind (s.here (r.addr % 2 ^ 46)) (reqWidth r.bytes.length r.kind), s.noTarget b = false)
include hk ht hg hd hb

/-- A request that GWRMT admits is refused at its first byte that the Gateway may not touch, and served when there is none. -/
theorem remoteAccess_admitted : exec (.remoteAccessArrival r) s = .next
    (((reqBytes r.kind (s.here (r.addr % 2 ^ 46)) (reqWidth r.bytes.length r.kind)).find? fun b => !s.mayAccess 0xA21 (reqBit r.kind) b).elim
      (s.serve 0xA21 (16 + r.srcMod.toNat * 4096 + r.srcMaster.toNat) none r.kind (s.here (r.addr % 2 ^ 46)) r.bytes.length (bytesNat r.bytes)
        fun pa => s.remoteRefused r ((s.target pa).getD 12) pa)
      fun b => s.remoteRefused r ((s.target b).getD t) b) := by
  have hgw : (SMap.get 0 s.hub.gwrmt r.srcMod.toNat &&& reqBit r.kind == reqBit r.kind) = true := beq_iff_eq.2 hg
  have hany : (reqBytes r.kind (s.here (r.addr % 2 ^ 46)) (reqWidth r.bytes.length r.kind)).any s.noTarget = false :=
    List.any_eq_false.2 (by simpa using hb)
  change execRemoteAccessArrival r s = _
  unfold execRemoteAccessArrival
  split
  · contradiction
  · simp only [hgw, ht, hany, State.readsHeld_eq_false hd, Bool.not_true, Bool.false_eq_true, if_false]
    split <;> next h => rw [h]; rfl

theorem remoteAccess_served
    (hm : ∀ b ∈ reqBytes r.kind (s.here (r.addr % 2 ^ 46)) (reqWidth r.bytes.length r.kind), s.mayAccess 0xA21 (reqBit r.kind) b = true) :
    exec (.remoteAccessArrival r) s = .next (s.serve 0xA21 (16 + r.srcMod.toNat * 4096 + r.srcMaster.toNat) none r.kind
      (s.here (r.addr % 2 ^ 46)) r.bytes.length (bytesNat r.bytes) fun pa => s.remoteRefused r ((s.target pa).getD 12) pa) := by
  rw [remoteAccess_admitted hk ht hg hd hb, List.find?_eq_none.2 (by simpa using hm), Option.elim_none]

theorem remoteAccess_refused {u b : Nat} (hm : (reqBytes r.kind (s.here (r.addr % 2 ^ 46)) (reqWidth r.bytes.length r.kind)).find?
      (fun b => !s.mayAccess 0xA21 (reqBit r.kind) b) = some b) (hu : s.target b = some u) :
    exec (.remoteAccessArrival r) s = .next (s.remoteRefused r u b) := by
  rw [remoteAccess_admitted hk ht hg hd hb, hm, Option.elim_some, hu, Option.getD_some]

end

/-- The record of a request refused by die t is in that die's log. -/
theorem State.remoteRefused_die {t : Nat} (ht : t < 12) (pa : Nat) : s.remoteRefused r t pa = (s.logFault t { Fault.Rec.plain .refused 0xA21 with
    addr := pa, target := s.hub.modNo.toNat * 256 + t, flg := 4, info := r.srcMod.toNat * 2 ^ 16 + r.srcMaster.toNat }).answer .refused := by
  rw [State.remoteRefused, if_pos ht]

section
variable (hk : r.kind = .message) (hg : SMap.get 0 s.hub.gwrmt r.srcMod.toNat &&& bitM = bitM)
  (hp : s.permits (dieOf (r.addr % 512)) 0xA21 &&& bitM ≠ 0)
include hk hg hp

/-- Neither GWRMT nor the target's entry refuses the message. -/
theorem messageAdmitted : (!(SMap.get 0 s.hub.gwrmt r.srcMod.toNat &&& reqBit r.kind == reqBit r.kind) ||
    s.permits (dieOf (r.addr % 512)) 0xA21 &&& bitM == 0) = false := by
  have hbit : reqBit r.kind = bitM := by rw [hk]; rfl
  rw [hbit, beq_iff_eq.2 hg, beq_eq_false_iff_ne.2 hp]
  rfl

theorem remoteMessage_readOnly (hc : r.addr % 512 < 320) (hro : s.slotRo (r.addr % 512) = true) :
    exec (.remoteAccessArrival r) s = .next (s.answer .readOnly) := by
  have hadm := messageAdmitted hk hg hp
  rw [hk] at hadm
  change execRemoteAccessArrival r s = _
  simp only [execRemoteAccessArrival, hk, if_neg (Nat.not_le.2 hc), hadm, hro, Bool.false_eq_true, if_false, if_true]

theorem remoteMessage_delivered {t : State} (hc : r.addr % 512 < 320) (hro : s.slotRo (r.addr % 512) = false)
    (hw : s.slotWhole (r.addr % 512) r.bytes = true)
    (hd : s.deliver (r.addr % 512) r.bytes (BitVec.ofNat 22 (r.srcMod.toNat * 2 ^ 16 + r.srcMaster.toNat)) r.asid r.hnd = some t) :
    exec (.remoteAccessArrival r) s = .next (t.answer (.done [1])) := by
  have hadm := messageAdmitted hk hg hp
  rw [hk] at hadm
  change execRemoteAccessArrival r s = _
  simp only [execRemoteAccessArrival, hk, if_neg (Nat.not_le.2 hc), hadm, hro, hw, hd, Bool.false_eq_true, if_false, if_true]

end

end
end

end Sys2Proof.Machine

namespace Sys2Proof.Claims
open Sys2Proof.Machine

/-- A permitted request of a hub core is served at its home. -/
theorem Permitted.served {s : State} {core : Nat} {req : BusReq} (h : Permitted s core req) (hk : req.kind ≠ .fence) :
    exec (.hubCoreAccess core req) s = .next (s.serve (0xA00 + core) core (some core) req.kind req.addr req.len req.data.toNat
      fun pa => s.agentRefused (0xA00 + core) pa) := by
  obtain ⟨hon, hfar, hlive, hheld, hbytes⟩ := h
  have hback : ∀ b ∈ reqBytes req.kind req.addr (reqWidth req.len req.kind), b < 2 ^ 52 ∧ s.noTarget b = false :=
    fun b hb => (hbytes b hb).imp_right And.left
  have hmay : ∀ b ∈ reqBytes req.kind req.addr (reqWidth req.len req.kind), s.mayAccess (0xA00 + core) (reqBit req.kind) b = true :=
    fun b hb => (hbytes b hb).right.right
  rw [hubCoreAccess_acts req hon.acts, State.coreRequest_served core _ _ hk hlive hheld hfar hback hmay]

/-- A hub core whose request its target refuses is frozen, and no cluster changes (01 R26). -/
theorem hubCoreAccess_refused {s : State} {core : Nat} {req : BusReq} (hon : CoreOn s core) (hfar : s.isFar req.addr = false)
    (hk : req.kind ≠ .fence) (hlive : ∀ i ∈ s.path 12 req.addr, (s.link i).dead = false) (hheld : reqReads req.kind = true → s.dieHeld 12 = false)
    (hb : ∀ b ∈ reqBytes req.kind req.addr (reqWidth req.len req.kind), b < 2 ^ 52 ∧ s.noTarget b = false)
    (hm : ∃ b ∈ reqBytes req.kind req.addr (reqWidth req.len req.kind), s.mayAccess (0xA00 + core) (reqBit req.kind) b = false) :
    ∃ u, exec (.hubCoreAccess core req) s = .next u ∧ u.bus = .refused ∧ (u.sup 12).frz.getLsbD core = true ∧ u.clusters = s.clusters := by
  obtain ⟨b, hreq⟩ := State.coreRequest_refused core req.data.toNat req.far hk hlive hheld hfar hb hm
  exact ⟨_, (hubCoreAccess_acts req hon.acts).trans (congrArg Host.Outcome.next hreq), rfl, State.frz_agentRefused_core s b hon.1,
    State.clusters_agentRefused ..⟩

/-- Settles O46, a lemma for each course of a request. -/
theorem outsideRequests : Obligations.OutsideRequests := by
  unfold Obligations.OutsideRequests
  refine ⟨?served, ?refused, ?idle, ?fence, ?fenceBusy, ?fenceDone, ?unrouted, ?hostOff, ?hostKind, ?windowShut, ?window, ?config, ?pastConfig,
    ?remote, ?notAdmittedUnbacked, ?notAdmitted, ?remoteRefused, ?message, ?messageReadOnly⟩
  case served =>
    intro s core req hper hro hbad hcfg
    have hserve : req.kind ≠ .fence → _ := hper.served
    obtain ⟨kind, addr, len, data, far⟩ := req
    refine ⟨?_, ?_, ?_⟩ <;> rintro rfl <;> refine (hserve nofun).trans (congrArg Host.Outcome.next ?_)
    · exact State.serve_read _ _ _ _ _ _ _ _ hbad
    · exact State.serve_write _ _ _ _ _ _ (hro.resolve_left nofun) hcfg
    · exact State.serve_atomicAdd _ _ _ _ _ _ (hro.resolve_left nofun) hbad hcfg
  case refused => exact fun s core req hon hfar hk hlive hheld hb hm => hubCoreAccess_refused hon hfar hk hlive hheld hb hm
  case idle => exact fun s core req hon hhost hf => hubCoreAccess_idle (not_acts_of_not_coreOn hon hhost) hf
  case fence =>
    intro s core req hon hk hnone
    rw [hubCoreAccess_acts req hon.acts, hk, State.coreRequest_fence, State.coreFence_starts hnone]
    rfl
  case fenceBusy =>
    intro s core t req hk hsome ht
    rw [hubCoreAccess_fenceInProgress hk hsome, State.coreFence_busy hsome ht]
    rfl
  case fenceDone =>
    intro s core t req hk hsome ht hclusters hrings hadies
    rw [hubCoreAccess_fenceInProgress hk hsome, State.coreFence_done hsome ht hclusters hrings hadies]
    rfl
  case unrouted =>
    intro s core req hon hfar hk hlive hheld hroute
    rw [hubCoreAccess_acts req hon.acts, State.coreRequest_unrouted core _ _ hk hlive hheld hfar hroute]
    rfl
  case hostOff => exact fun s bar2 req hp => hostBarAccess_off hp
  case hostKind =>
    intro s bar2 req hp hk
    refine hostBarAccess_notOfHost hp ?_
    rcases hk with hk | hk | hk <;> rw [hk] <;> rfl
  case windowShut => exact fun s req hp hk he => hostBarAccess_windowShut hp hk he
  case window => exact fun s req hp hk he ha => hostBarAccess_window hp hk he ha
  case config => exact fun s req hp hk ha => hostBarAccess_config hp hk ha
  case pastConfig => exact fun s req hp ha => hostBarAccess_pastConfig hp ha
  case remote =>
    exact fun s r t hk ht hg hd hb => remoteAccess_served hk ht hg hd (fun b h => (hb b h).1) fun b h => (hb b h).2
  case notAdmittedUnbacked =>
    intro s r hk ht hg
    rw [remoteAccess_notAdmitted hk hg, ht]
    rfl
  case notAdmitted =>
    intro s r t hk ht hlt hg
    rw [remoteAccess_notAdmitted hk hg, ht, Option.getD_some, State.remoteRefused_die hlt]
    rfl
  case remoteRefused =>
    intro s r t u b hk ht hg hd hb hfind hu hlt
    rw [remoteAccess_refused hk ht hg hd hb hfind hu, State.remoteRefused_die hlt]
    rfl
  case message => exact fun s t r hk hc hg hp hro hw hd => remoteMessage_delivered hk hg hp hc hro hw hd
  case messageReadOnly => exact fun s r hk hc hg hp hro => remoteMessage_readOnly hk hg hp hc hro

end Sys2Proof.Claims
end

section
/-! PROOFS. Results that are due land in issue order (03 R60, R61, 05 R79): O58. -/

namespace Sys2Proof.Machine

/-! ### One landing -/

@[simp] theorem Cluster.land_popQ (k : Cluster) (o : Opnd) : (k.popQ o).land = k.land := by
  unfold Cluster.popQ; split <;> rfl
@[simp] theorem Cluster.v_popQ (k : Cluster) (o : Opnd) : (k.popQ o).v = k.v := by
  unfold Cluster.popQ; split <;> rfl
@[simp] theorem Cluster.bind_popQ (k : Cluster) (o : Opnd) : (k.popQ o).bind = k.bind := by
  unfold Cluster.popQ; split <;> rfl

/-- A landing takes nothing into flight and nothing out of it. -/
@[simp] theorem Cluster.land_land1 (k : Cluster) (l : Land) : (k.land1 l).land = k.land := by
  obtain ⟨due, x, sec, dst, kind, flags⟩ := l
  cases kind with
  | pop => exact Cluster.land_popQ ..
  | _ => cases dst <;> rfl

/-- A change of a v register's binding leaves those of the others. -/
theorem Cluster.bind_rebind_ne (k : Cluster) (b : Option Bind) {n j : Nat} (h : j ≠ n) :
    SMap.get? (k.rebind n b).bind j = SMap.get? k.bind j := by
  cases b
  · exact SMap.get?_del_ne _ h
  · exact SMap.get?_set_ne _ _ h

theorem Cluster.getV_putV_ne (k : Cluster) {n j : Nat} (v m : VWord) (b : Option Bind) (h : j ≠ n) : (k.putV n v m b).getV j = k.getV j :=
  SMap.get_put_ne 0 _ _ h

theorem Cluster.bind_putV_ne (k : Cluster) {n j : Nat} (v m : VWord) (b : Option Bind) (h : j ≠ n) :
    SMap.get? (k.putV n v m b).bind j = SMap.get? k.bind j := k.bind_rebind_ne b h

/-- A landing on another register, or on none, leaves a v register's value and its binding. -/
theorem Cluster.land1_of_dst_ne (k : Cluster) (l : Land) {n : Nat} (h : ∀ i, l.dst = .v i → i.toNat ≠ n) :
    (k.land1 l).getV n = k.getV n ∧ SMap.get? (k.land1 l).bind n = SMap.get? k.bind n := by
  obtain ⟨due, x, sec, dst, kind, flags⟩ := l
  cases kind with
  | pop => exact ⟨congrArg (SMap.get 0 · n) (Cluster.v_popQ ..), congrArg (SMap.get? · n) (Cluster.bind_popQ ..)⟩
  | write v m b =>
    cases dst with
    | v i => exact ⟨Cluster.getV_putV_ne _ v m b (h i rfl).symm, Cluster.bind_putV_ne _ v m b (h i rfl).symm⟩
    | _ => exact ⟨rfl, rfl⟩
  | rebind b =>
    cases dst with
    | v i => exact ⟨rfl, Cluster.bind_rebind_ne _ b (h i rfl).symm⟩
    | _ => exact ⟨rfl, rfl⟩
  | bindGen kx =>
    cases dst with
    | v i => exact ⟨rfl, Cluster.bind_rebind_ne _ _ (h i rfl).symm⟩
    | _ => exact ⟨rfl, rfl⟩
  | _ => cases dst <;> exact ⟨rfl, rfl⟩

/-- A result for a v register writes its bits over the old value and leaves its binding. -/
theorem Cluster.land1_write_v (k : Cluster) {l : Land} {i : BitVec 9} {v m : VWord} {b : Option Bind} (hd : l.dst = .v i)
    (hk : l.kind = .write v m b) : k.land1 l = (k.raise l.flags).putV i.toNat v m b := by
  simp only [Cluster.land1, hd, hk]

@[simp] theorem Cluster.getV_putV (k : Cluster) (n : Nat) (v m : VWord) (b : Option Bind) :
    (k.putV n v m b).getV n = mergeBits (k.getV n) v m := SMap.get_put_same ..

@[simp] theorem Cluster.bind_putV (k : Cluster) (n : Nat) (v m : VWord) (b : Option Bind) : SMap.get? (k.putV n v m b).bind n = b := by
  cases b
  · exact SMap.get?_del_same ..
  · exact SMap.get?_set_same ..

/-! ### The landings of a cycle -/

theorem landDue_append (now : Nat) (ls ms : List Land) (k : Cluster) : landDue now (ls ++ ms) k = landDue now ms (landDue now ls k) := by
  induction ls generalizing k with
  | nil => rfl
  | cons l ls ih =>
    simp only [List.cons_append, landDue]
    split <;> exact ih _

/-- What is not due stays in flight, in its order. -/
theorem land_landDue (now : Nat) (ls : List Land) (k : Cluster) :
    (landDue now ls k).land = k.land ++ ls.filter fun l => decide (now < l.due) := by
  induction ls generalizing k with
  | nil => simp [landDue]
  | cons l ls ih =>
    rw [landDue]
    split
    · next hdue => rw [ih, Cluster.land_land1, List.filter_cons_of_neg (by simpa using hdue)]
    · next hdue => rw [ih, List.filter_cons_of_pos (by simpa using hdue), List.append_assoc, List.singleton_append]

/-- A v register that no due result names keeps its value and its binding. -/
theorem landDue_of_dst_ne (now : Nat) {n : Nat} (ls : List Land) (k : Cluster)
    (h : ∀ l ∈ ls, l.due ≤ now → ∀ i, l.dst = .v i → i.toNat ≠ n) :
    (landDue now ls k).getV n = k.getV n ∧ SMap.get? (landDue now ls k).bind n = SMap.get? k.bind n := by
  induction ls generalizing k with
  | nil => exact ⟨rfl, rfl⟩
  | cons l ls ih =>
    obtain ⟨hl, hls⟩ := List.forall_mem_cons.1 h
    rw [landDue]
    split
    · next hdue =>
      obtain ⟨hv, hb⟩ := ih (k.land1 l) hls
      obtain ⟨hv1, hb1⟩ := k.land1_of_dst_ne l (hl hdue)
      exact ⟨hv.trans hv1, hb.trans hb1⟩
    · exact ih _ hls

/-- A result that is issued last and clears no flag is the last to land. -/
theorem Cluster.lands_append_last {k : Cluster} {ls : List Land} {l : Land} (now : Nat) (h : k.land = ls ++ [l]) (hc : l.clears = false)
    (hdue : l.due ≤ now) : k.lands now = ({ k with land := ls }.lands now).land1 l := by
  have hlast : landDue now [l] = fun k => k.land1 l := funext fun k => by simp only [landDue, if_pos hdue]
  have horder : (k.land.filter (·.clears) ++ k.land.filter fun l => !l.clears) =
      (ls.filter (·.clears) ++ ls.filter fun l => !l.clears) ++ [l] := by
    simp [h, hc]
  unfold Cluster.lands
  rw [horder, landDue_append, hlast]
  rfl

end Sys2Proof.Machine

namespace Sys2Proof.Claims
open Sys2Proof.Machine

/-- Settles O58, by induction over the results in flight. -/
theorem resultsLandInOrder : Obligations.ResultsLandInOrder := by
  unfold Obligations.ResultsLandInOrder
  refine ⟨fun k now => (land_landDue now _ _).trans (List.nil_append _), fun k now ls l i v m b hland hdue hd hk => ?_,
    fun k now n h => landDue_of_dst_ne now _ _ fun l hl => h l ?_⟩
  · have hc : l.clears = false := by simp only [Land.clears, hk]
    rw [Cluster.lands_append_last now hland hc hdue, Cluster.land1_write_v _ hd hk, Cluster.getV_putV, Cluster.bind_putV]
    exact ⟨rfl, rfl⟩
  · rcases List.mem_append.1 hl with hl | hl <;> exact List.mem_of_mem_filter hl

end Sys2Proof.Claims
end

section
/-! PROOFS. TRAP, END and POST (11 R143, R151, R152, R154): O7. -/

namespace Sys2Proof.Machine

/-! ### Event counters are left by what completes or traps a word -/

theorem State.nearly.ev {s t : State} (h : State.nearly s t) (c : Nat) : (t.cl c).ev = (s.cl c).ev := by
  have hev := congrArg Cluster.ev (h.cl c).rest
  exact hev

theorem State.ev_modCl (s : State) (c d : Nat) {f : Cluster → Cluster} (hf : ∀ k, (f k).ev = k.ev) : ((s.modCl c f).cl d).ev = (s.cl d).ev := by
  by_cases h : d = c
  · subst h; rw [State.cl_modCl_same, hf]
  · rw [State.cl_modCl_ne s f h]

@[simp] theorem State.ev_ite (p : Prop) [Decidable p] (s t : State) (d : Nat) :
    ((if p then s else t).cl d).ev = if p then (s.cl d).ev else (t.cl d).ev := apply_ite (fun s => (State.cl s d).ev) p s t

@[simp] theorem State.ev_modCx (s : State) (c x d : Nat) (f : Ctx → Ctx) : ((s.modCx c x f).cl d).ev = (s.cl d).ev := s.ev_modCl c d fun _ => rfl
@[simp] theorem State.ev_modCtx (s : State) (f : Ctx → Ctx) (d : Nat) : ((s.modCtx f).cl d).ev = (s.cl d).ev := s.ev_modCx ..
@[simp] theorem State.ev_used (s : State) (d : Nat) : (s.used.cl d).ev = (s.cl d).ev := s.ev_modCl _ d fun _ => rfl
@[simp] theorem State.ev_issuedWord (s : State) (d : Nat) : (s.issuedWord.cl d).ev = (s.cl d).ev := by simp [State.issuedWord]
@[simp] theorem State.ev_leaveTo (s : State) (a : Parcel) (d : Nat) : ((s.leaveTo a).cl d).ev = (s.cl d).ev := s.ev_modCtx ..
@[simp] theorem State.ev_preemptPoint (s : State) (d : Nat) : (s.preemptPoint.cl d).ev = (s.cl d).ev := by simp [State.preemptPoint]
@[simp] theorem State.ev_refuse (s : State) (c x tgt va pc d : Nat) : ((s.refuse c x tgt va pc).cl d).ev = (s.cl d).ev :=
  (s.nearly_refuse ..).ev d
@[simp] theorem State.ev_refuseCopy (s : State) (c x m tgt va pc d : Nat) : ((s.refuseCopy c x m tgt va pc).cl d).ev = (s.cl d).ev := by
  unfold State.refuseCopy
  dsimp only
  split <;> rfl
@[simp] theorem State.ev_tvecRefused (s : State) (c d : Nat) : ((s.tvecRefused c).cl d).ev = (s.cl d).ev := (s.nearly_tvecRefused c).ev d
@[simp] theorem State.ev_escalate (s : State) (c x : Nat) (t : Trap) (d : Nat) : ((s.escalate c x t).cl d).ev = (s.cl d).ev :=
  (s.nearly_escalate ..).ev d
@[simp] theorem State.ev_takeTrap (s : State) (c x : Nat) (pc : Parcel) (t : Trap) (d : Nat) : ((s.takeTrap c x pc t).cl d).ev = (s.cl d).ev := by
  have htraps (u : State) : ((u.modCl c fun k => { k with traps := k.traps ++ [x] }).cl d).ev = (u.cl d).ev := u.ev_modCl c d fun _ => rfl
  have hfree (u : State) (n : Nat) : (({ u with free := n } : State).cl d).ev = (u.cl d).ev := rfl
  unfold State.takeTrap
  cases t.info <;> cases t.agent <;> simp [htraps, hfree]

theorem State.ev_goto {s t : State} {a : Parcel} (h : s.goto a = .ok t) (d : Nat) : (t.cl d).ev = (s.cl d).ev := by
  unfold State.goto at h
  split at h
  · cases h; simp
  · split at h <;> cases h <;> simp
theorem State.ev_arrive {s t : State} {a : Parcel} (h : s.arrive a = .ok t) (d : Nat) : (t.cl d).ev = (s.cl d).ev := by
  unfold State.arrive at h
  split at h
  · cases h; simp
  · exact State.ev_goto h d
theorem State.ev_transfer {s t : State} {back : Prop} [Decidable back] {a : Parcel}
    (h : (if back then s.goto a else s.arrive a) = .ok t) (d : Nat) : (t.cl d).ev = (s.cl d).ev := by
  split at h
  · exact State.ev_goto h d
  · exact State.ev_arrive h d
@[simp] theorem State.ev_succeed (s : State) (nx : Parcel) (d : Nat) : ((s.succeed nx).cl d).ev = (s.cl d).ev := by
  simp only [State.succeed]
  split
  next t ht =>
    have hev := State.ev_transfer ht d
    rw [State.ev_modCtx] at hev
    simp [hev]
  next => simp
  next => rfl
@[simp] theorem State.ev_complete (s : State) (len d : Nat) : ((s.complete len).cl d).ev = (s.cl d).ev := by simp [State.complete]

/-! ### A word whose successor is in its section and ends no loop -/

theorem loopStep_of_not_stepsAt {e : Ctx} {nx : Parcel} (v : BitVec 32) (h : e.stepsAt nx = false) :
    loopStep e.loops v nx = (e.loops, v, nx, false) := by
  cases hl : e.loops with
  | nil => rfl
  | cons l ls =>
    have hstop : l.stop ≠ nx := by simpa [Ctx.stepsAt, hl] using h
    rw [loopStep, if_neg hstop]

theorem State.succeed_inside {s : State} {nx : Parcel} (hin : s.ctx.inside nx = true) (hstep : s.ctx.stepsAt nx = false) :
    s.succeed nx = (s.modCtx fun e => { e with loops := s.ctx.loops, vrb := s.ctx.vrb }).modCtx fun e => { e with pc := nx, phase := .body } := by
  have hne : ¬(s.ctx.inSec = true ∧ nx.toNat = s.ctx.secE) := by
    rintro ⟨_, he⟩
    simp only [Ctx.inside, Bool.and_eq_true, decide_eq_true_eq] at hin
    omega
  have harr : (s.modCtx fun e => { e with loops := s.ctx.loops, vrb := s.ctx.vrb }).arrive nx =
      .ok ((s.modCtx fun e => { e with loops := s.ctx.loops, vrb := s.ctx.vrb }).modCtx fun e => { e with pc := nx, phase := .body }) := by
    rw [State.arrive, if_neg (by simpa using hne), State.goto_inside (by simpa [Ctx.inside] using hin)]
  simp [State.succeed, loopStep_of_not_stepsAt _ hstep, harr, hstep]

@[simp] theorem State.ctx_issuedWord (s : State) :
    s.issuedWord.ctx = { s.ctx with bAge := s.ctx.bAge.map fun a => (a.1, min 4 (a.2 + 1)) } := by
  rw [State.issuedWord, State.ctx_used, State.ctx_modCtx]

theorem State.complete_inside {s : State} {len : Nat} (hin : s.ctx.inside (s.ctx.pc + BitVec.ofNat 32 len) = true)
    (hstep : s.ctx.stepsAt (s.ctx.pc + BitVec.ofNat 32 len) = false) :
    (s.complete len).cur = s.cur ∧ (s.complete len).ctx.pc = s.ctx.pc + BitVec.ofNat 32 len ∧ (s.complete len).ctx.phase = .body := by
  rw [State.complete, State.succeed_inside hin hstep, State.ctx_issuedWord, State.ctx_modCtx]
  exact ⟨rfl, rfl, rfl⟩

/-! ### POST at the end of its cycle -/

/-- A POST that does not overflow adds its count and completes. -/
theorem State.postOne_adds {s : State} {c : Nat} {p : Post} (hp : p.nest = false) (h : ((s.cl c).event p.n).toNat + p.count ≤ 65535) :
    s.postOne c p = ((({ s with cur := (c, p.x) } : State).modCtx fun e => { e with phase := .body }).modCl c fun k =>
      { k with ev := SMap.put 0 k.ev p.n (BitVec.ofNat 16 (((s.cl c).event p.n).toNat + p.count)) }).complete 3 := by
  have hv : ¬65535 < (SMap.get 0 (s.cl c).ev p.n).toNat + p.count := Nat.not_lt.2 h
  simp only [State.postOne, hp, if_neg hv, Bool.false_eq_true, if_false]
  rfl

/-- A POST that overflows traps EVOVER. -/
theorem State.postOne_traps {s : State} {c : Nat} {p : Post} (hp : p.nest = false) (h : 65535 < ((s.cl c).event p.n).toNat + p.count) :
    s.postOne c p = (({ s with cur := (c, p.x) } : State).modCtx fun e => { e with phase := .body }).takeTrap c p.x ((s.cl c).cx p.x).pc
      { cause := .evOver, info := some (BitVec.ofNat 64 (evOverInfo p.n p.count)) } := by
  have hv : 65535 < (SMap.get 0 (s.cl c).ev p.n).toNat + p.count := h
  simp only [State.postOne, hp, if_pos hv, Bool.false_eq_true, if_false]

end Sys2Proof.Machine

namespace Sys2Proof.Claims
open Sys2Proof.Machine

/-! ### Traps -/

/-- A trap other than a refusal, with its detail stated, stops the context with its registers written (29 R366). -/
theorem trapped_takeTrap (s : State) (c x : Nat) (pc : Parcel) {t : Trap} {i : BitVec 64} (hi : t.info = some i) (hr : t.cause ≠ .refused) :
    Trapped (s.takeTrap c x pc t) c x t.cause t.opnd pc i := by
  obtain ⟨b, hb⟩ := s.takeTrap_cx c x pc t i hi hr
  simp only [Trapped, hb, and_self]

theorem cx_used (s : State) (c x : Nat) : (s.used.cl c).cx x = (s.cl c).cx x := by
  by_cases h : c = s.cur.1
  · subst h
    rw [State.used, State.modMe, State.cl_modCl_same]
    rfl
  · rw [State.used, State.cl_modMe_ne s _ h]

theorem trapped_used {s : State} {c x : Nat} {cause : Cause} {opnd : Nat} {pc : Parcel} {i : BitVec 64} (h : Trapped s c x cause opnd pc i) :
    Trapped s.used c x cause opnd pc i := by
  simpa only [Trapped, cx_used] using h

theorem trapped_trapHere (s : State) {t : Trap} {i : BitVec 64} (hi : t.info = some i) (hr : t.cause ≠ .refused) :
    Trapped (s.trapHere t) s.cur.1 s.cur.2 t.cause t.opnd s.ctx.pc i := trapped_used (trapped_takeTrap s _ _ _ hi hr)

/-- TRAP (11 R154). -/
theorem trapWord : TrapWord := fun _ s => ⟨_, rfl, trapped_trapHere s rfl nofun⟩

/-! ### END (11 R143, 03 R32, R33) -/

/-- A context that END ends. -/
def quit (r : Run) (e : Ctx) : Ctx := { e with run := r, inSec := false, phase := .header }

/-- With no dropped nest to report, END is the context's last word. -/
theorem actEnd_of_no_drop {s : State} (h : s.me.m.drop = []) : s.actEnd = s.endHere := by
  have hr : (s.reportDrop fun _ => true) = none := by simp [State.reportDrop, h]
  simp only [State.actEnd, hr, ite_self]

/-- END of an engine that need not wait: it arrives. -/
theorem doEnd_arrives {s : State} (h : s.cur.2 ∈ [1, 3, 4] ∨ (s.cur.2 = 2 ∧ s.me.m.busy = false) ∨ (s.cur.2 = 0 ∧ s.me.allArrived = true)) :
    s.doEnd = .ok (s.modCtx (quit .arrived)) := by
  unfold State.doEnd
  dsimp only
  rcases h with h | ⟨h, hb⟩ | ⟨h, ha⟩
  · have hx : ¬5 ≤ s.cur.2 ∧ s.cur.2 ≠ 0 ∧ s.cur.2 ≠ 2 := by
      simp only [List.mem_cons, List.not_mem_nil, or_false] at h
      omega
    obtain ⟨h5, h0, h2⟩ := hx
    rw [if_neg h5, if_neg h0, if_neg fun hm => h2 hm.1]
    rfl
  · rw [if_neg (by omega), if_neg (by omega), if_neg (by simp [hb])]
    rfl
  · rw [if_neg (by omega), if_pos h, if_pos ha]
    rfl

/-- END of a handler context that serves a message: it is dormant, and the slot is free. -/
theorem doEnd_dormant {s : State} {n : Nat} {g : Option Nat} {a : BitVec 8} {b : Bool} (hx : 5 ≤ s.cur.2)
    (hh : s.ctx.hnd = some { slot := some n, eng := g, asid := a, still := b }) :
    s.doEnd = .ok (((s.modCtx (quit .dormant)).modCtx fun e => { e with hnd := none }).modMe fun k => { k with slots := SMap.del k.slots n }) := by
  unfold State.doEnd
  dsimp only
  rw [if_pos hx, hh]
  rfl

theorem endHere_of_ok {s u : State} (h : s.doEnd = .ok u) : s.endHere = .next u.issuedWord := by
  simp only [State.endHere, h, finishAt]

theorem endWord : EndWord := by
  intro w s hdrop
  have hexec {u : State} (h : s.doEnd = .ok u) : exec (.endI w) s = .next u.issuedWord :=
    (actEnd_of_no_drop hdrop).trans (endHere_of_ok h)
  refine ⟨fun hx => ?_, fun n g a b hx hh => ?_⟩
  · have hseq : OnlySequencing (s.modCtx (quit .arrived)) (s.modCtx (quit .arrived)).issuedWord := OnlySequencing.issuedWord _
    obtain ⟨hmod, hcl, hme, hcx, hown⟩ := hseq
    refine ⟨_, hexec (doEnd_arrives hx), ?_, hmod, ?_, fun c hc => ?_, fun x hx => ?_⟩
    · simp only [State.ctx_issuedWord, State.ctx_modCtx, quit]
    · rw [hme, State.me_modCtx, Cluster.rest_modCx]
    · rw [hcl c hc, State.cl_modCtx_ne _ _ hc]
    · rw [hcx x hx, State.me_modCtx, Cluster.cx_modCx_ne _ _ hx]
  · have h5 : 5 ≤ s.cur.2 := by
      simp only [List.mem_cons, List.not_mem_nil, or_false] at hx
      omega
    refine ⟨_, hexec (doEnd_dormant h5 hh), ?_⟩
    obtain ⟨hmod, -, hme, hcx, -⟩ := OnlySequencing.issuedWord
      (((s.modCtx (quit .dormant)).modCtx fun e => { e with hnd := none }).modMe fun k => { k with slots := SMap.del k.slots n })
    have hctx := State.ctx_modMe ((s.modCtx (quit .dormant)).modCtx fun e => { e with hnd := none })
      (fun k => { k with slots := SMap.del k.slots n }) rfl
    refine ⟨?_, ?_, hmod, ?_, fun x hx => ?_⟩
    · simp only [State.ctx_issuedWord, hctx, State.ctx_modCtx, quit]
    · simp only [State.ctx_issuedWord, hctx, State.ctx_modCtx]
    · refine (congrArg (fun k => SMap.get? (Cluster.slots k) n) hme).trans ?_
      rw [State.me_modMe]
      exact SMap.get?_del_same ..
    · refine (hcx x hx).trans ?_
      rw [State.me_modMe]
      change (State.me _).cx x = _
      rw [State.me_modCtx, State.cur_modCtx, Cluster.cx_modCx_ne _ _ hx, State.me_modCtx, Cluster.cx_modCx_ne _ _ hx]

/-! ### POST (11 R151, R152) -/

theorem posts : Posts := by
  refine ⟨fun w s n hn => ?_, fun s c p hp hle => ?_, fun s c p hp hlt => ?_⟩
  · change finishWait s (s.countOf w >>= _) = _
    rw [hn]
    rfl
  · rw [State.postOne_adds hp hle]
    generalize hu : (({ s with cur := (c, p.x) } : State).modCtx fun e => { e with phase := .body }).modCl c
      (fun k => { k with ev := SMap.put 0 k.ev p.n (BitVec.ofNat 16 (((s.cl c).event p.n).toNat + p.count)) }) = u
    have hcur : u.cur = (c, p.x) := by rw [← hu]; rfl
    have hctx : u.ctx = { (s.cl c).cx p.x with phase := .body } := by
      rw [State.ctx, State.me, hcur, ← hu, State.cl_modCl_same]
      exact State.ctx_modCtx ({ s with cur := (c, p.x) } : State) _
    refine ⟨?_, fun hin hstep => ?_⟩
    · simp only [Cluster.event, State.ev_complete, ← hu, State.cl_modCl_same, SMap.get_put_same]
      exact Nat.mod_eq_of_lt (by simp only [Cluster.event] at hle; omega)
    · obtain ⟨hc, hpc, hph⟩ := State.complete_inside (s := u) (len := 3) (by rw [hctx]; exact hin) (by rw [hctx]; exact hstep)
      rw [State.ctx, State.me, hc, hcur] at hpc hph
      exact ⟨by rw [hpc, hctx]; rfl, hph⟩
  · rw [State.postOne_traps hp hlt]
    refine ⟨by simp only [Cluster.event, State.ev_takeTrap, State.ev_modCtx]; rfl, fun hn hcnt => ?_⟩
    have hinfo : evOverInfo p.n p.count = p.n + p.count * 2 ^ 16 := by
      unfold evOverInfo
      omega
    rw [hinfo]
    exact trapped_takeTrap _ _ _ _ rfl nofun

/-- Settles O7: TRAP is taken at the word, END has a lemma for each way to end, POST one for each outcome at the end of its cycle. -/
theorem trapEndAndPost : Obligations.TrapEndAndPost := by
  unfold Obligations.TrapEndAndPost
  exact ⟨trapWord, endWord, posts⟩

end Sys2Proof.Claims
end

section
/-! PROOFS. The supervisor's commands and registers (29 R370 to R372, R382, 03 R48): O40. -/

namespace Sys2Proof.Machine

/-! ### A write of a supervisor block (29 R370, R371) -/

/-- A write of a block's register comes to its change where configuration space lets it through and the core is the partition's supervisor. -/
theorem State.supWrite_super {s : State} {core t o : Nat} (f : State → State) (ha : s.coreActs core = true)
    (hm : s.mayAccess (0xA00 + core) bitW (s.cfgPa (supOff t o)) = true) (ht : t < 12) (hs : s.superOfDie t = some core) :
    s.supWrite core t o f = f s := by
  rw [State.supWrite, State.coreWrite_of_acts _ ha hm, if_pos (by simp [ht, hs])]

theorem State.supWrite_other {s : State} {core t o : Nat} (f : State → State) (ha : s.coreActs core = true)
    (hm : s.mayAccess (0xA00 + core) bitW (s.cfgPa (supOff t o)) = true) (hs : s.superOfDie t ≠ some core) :
    s.supWrite core t o f = s.cfgIgnored core (supOff t o) := by
  rw [State.supWrite, State.coreWrite_of_acts _ ha hm, if_neg (by simp [hs])]

/-! ### What commands do (29 R372) -/

theorem State.resumeAll_refused {s : State} {t : Nat} {cl : BitVec 5} (skip : Bool)
    (h : (s.sup t).esc.getLsbD cl.toNat = false ∨ (s.sup t).frz.getLsbD cl.toNat = true) : s.resumeAll t cl skip = s.supDone t false :=
  if_pos (by rcases h with h | h <;> simp [h])

/-- A pre-emption by Save is not over while the team has a task on a cluster. -/
theorem State.saveDone_of_teamRuns {s : State} {t : Nat} {p : Preempt} (hp : (s.dist t).pre = some p) (hr : s.teamRuns t p.team = true) :
    s.saveDone t = s := by
  simp only [State.saveDone, hp, hr, Bool.true_eq_false, and_false, if_false]

theorem State.teamRuns_of_mem {s : State} {t c : Nat} {team : BitVec 16} (hc : c ∈ dieClusters t) (hk : (s.cl c).ofTeam team = true) :
    s.teamRuns t team = true := List.any_eq_true.2 ⟨c, hc, hk⟩

theorem State.releaseAgent_ring (s : State) {t : Nat} (h : t < 8) : s.releaseAgent t = s.modSup t fun b => { b with agfrz := false } :=
  if_neg (by omega)

theorem State.releaseAgent_copyEngine (s : State) {t : Nat} (h : 8 ≤ t) (h' : t < 12) :
    s.releaseAgent t = (s.modSup t fun b => { b with agfrz := false }).modADie (t - 8) fun a => a.goOn false := if_pos ⟨h, h'⟩

end Sys2Proof.Machine

namespace Sys2Proof.Claims
open Sys2Proof.Machine

section
variable {s u : State} {core t o : Nat}

/-- The supervisor's write of its block comes to its change. -/
theorem SuperMay.supWrite (h : SuperMay s core t o) (f : State → State) : s.supWrite core t o f = f s := by
  obtain ⟨hmay, ht, hs⟩ := h
  obtain ⟨_, _, _, hm⟩ := id hmay
  exact State.supWrite_super f hmay.acts hm ht hs

theorem SuperMay.supCommand_idle (h : SuperMay s core t 0x18) (hd : (s.sup t).rspDone = true) (f : State → State) :
    s.supCommand core t f = f s := by
  rw [State.supCommand, h.supWrite, if_pos hd]

theorem SuperMay.supCommand_busy (h : SuperMay s core t 0x18) (hd : (s.sup t).rspDone = false) (f : State → State) :
    s.supCommand core t f = s.cfgIgnored core (supOff t 0x18) := by
  rw [State.supCommand, h.supWrite, if_neg (by simp [hd])]

/-- A command given while none is in progress leaves what its rule states. -/
theorem SuperMay.command (h : SuperMay s core t 0x18) (hd : (s.sup t).rspDone = true) {f : State → State} (hf : f s = u) :
    (.next (s.supCommand core t f) : Out) = .next u := by
  rw [h.supCommand_idle hd, hf]

theorem SuperMay.register (h : SuperMay s core t o) {f : State → State} (hf : f s = u) : (.next (s.supWrite core t o f) : Out) = .next u := by
  rw [h.supWrite, hf]

/-! ### The commands and registers -/

/-- A supervisor's SAVE of a team has begun, and its pre-emption with it (29 R372). -/
def saveBegun (s : State) (t : Nat) (team : BitVec 16) : State :=
  (begun s t (.save team)).modDist t fun q => { q with pre := some { team := team, act := .save, noDrain := true, since := s.ticksOf t } }

theorem saveTeam_begins {team : BitVec 16} {c : Nat} (hteam : ∃ x ∈ (s.dist t).tasks, recTeam x.rcd = team) (hpre : (s.dist t).pre = none)
    (hc : c ∈ dieClusters t) (hk : (s.cl c).ofTeam team = true) (h : SuperMay s core t 0x18) (hd : (s.sup t).rspDone = true) :
    exec (.saveTeam core t team) s = .next (saveBegun s t team) := by
  have hany : ¬(!((s.dist t).tasks.any fun x => recTeam x.rcd == team)) = true := by simpa using hteam
  have hnone : ((s.supBegin t (.save team)).dist t).pre.isNone = true := by
    rw [Option.isNone_iff_eq_none]
    exact hpre
  have hruns : (saveBegun s t team).teamRuns t team = true := State.teamRuns_of_mem hc hk
  have hp : ((saveBegun s t team).dist t).pre = some { team := team, act := .save, noDrain := true, since := s.ticksOf t } := by
    rw [saveBegun, State.dist_modDist_same]
  exact h.command hd ((if_neg hany).trans ((if_pos hnone).trans (State.saveDone_of_teamRuns hp hruns)))

/-- A command or a write of the partition's supervisor is as its rule leaves it. -/
theorem exec_of_supWord {i : Instr} (h : SuperMay s core t o) (hw : SupWord s core t i o u) : exec i s = .next u := by
  obtain ⟨hmay, ht, hsup⟩ := id h
  cases hw with
  | busy i cl team hd hi =>
    have hbusy (f : State → State) : (.next (s.supCommand core t f) : Out) = .next (s.cfgIgnored core (supOff t 0x18)) :=
      congrArg Host.Outcome.next (h.supCommand_busy hd f)
    rcases hi with rfl | rfl | rfl | rfl | rfl | rfl <;> exact hbusy _
  | retry cl hd he hf => exact h.command hd (if_neg (by simp [he, hf]))
  | retryNot cl hd hn => exact h.command hd (State.resumeAll_refused _ hn)
  | skip cl hd he hf => exact h.command hd (if_neg (by simp [he, hf]))
  | skipNot cl hd hn => exact h.command hd (State.resumeAll_refused _ hn)
  | kill cl r hd hlt hr => exact h.command hd (if_neg (by simp [hr, hlt]))
  | killNot cl hd hn => exact h.command hd (if_pos hn)
  | save team c hd hteam hpre hc hk => exact saveTeam_begins hteam hpre hc hk h hd
  | saveLater team p hd hteam hp =>
    refine h.command hd ((if_neg (by simpa using hteam)).trans (if_neg ?_))
    have hsome : ((s.supBegin t (.save team)).dist t).pre = some p := hp
    simp [hsome]
  | saveNot team hd hn => exact h.command hd (if_pos (by simpa using hn))
  | swapout hd hfree hesc hswap hpre hth =>
    have hno : ¬(s.slotsFree t < 32 ∨ (s.sup t).esc ≠ 0 ∨
        (dieClusters t).any (fun c => ((s.cl c).cx 5).trapHandler || ((s.cl c).cx 6).trapHandler) = true ∨ (s.sup t).swap ≠ []) := by
      rintro (hs | hs | hs | hs)
      · omega
      · exact hs hesc
      · obtain ⟨c, hc, hr⟩ := List.any_eq_true.1 hs
        obtain ⟨h5, h6⟩ := hth c hc
        simp [h5, h6] at hr
      · exact hs hswap
    refine h.command hd ((if_neg hno).trans ?_)
    simp only [hpre]
    rfl
  | swapoutNot hd hn =>
    exact h.command hd (if_pos (hn.imp_right fun hn => hn.imp_right Or.inr))
  | swapin hd hs => exact h.command hd (if_neg (by simpa using hs))
  | swapinNot hd hs => exact h.command hd (if_pos (by simp [hs]))
  | frz v => exact (if_neg (by omega)).trans (h.register rfl)
  | agfrz ht8 => exact h.register ((if_pos rfl).trans (s.releaseAgent_ring ht8))
  | agfrzCopy ht8 => exact h.register ((if_pos rfl).trans (s.releaseAgent_copyEngine ht8 ht))
  | agfrzKeep => exact h.register (if_neg (by decide))
  | estclr tid => exact h.register rfl
  | estclrAll tid => exact h.register rfl

/-- A core that is not the supervisor of the die's partition writes no register of its block. -/
theorem exec_of_supTouch {i : Instr} (hi : SupTouch core t i o) (ht : t < 12) (h : CoreMay s core (0x13000 + t * 0x100 + o))
    (hs : s.superOfDie t ≠ some core) : exec i s = .next (s.cfgIgnored core (0x13000 + t * 0x100 + o)) := by
  obtain ⟨_, _, _, hm⟩ := id h
  have hno (f : State → State) : (.next (s.supWrite core t o f) : Out) = .next (s.cfgIgnored core (supOff t o)) :=
    congrArg Host.Outcome.next (State.supWrite_other f h.acts hm hs)
  cases hi with
  | frz v => exact (if_neg (by omega)).trans (hno _)
  | _ => exact hno _

/-- FRZ of the hub's own block: a core of SUPV releases the other cores, never itself. -/
theorem frz_hub {v : BitVec 32} (h : CoreMay s core 0x13C00) (hv : s.hub.supv.getLsbD core = true) :
    exec (.frz core 12 v) s = .next (s.modSup 12 fun b => { b with frz := b.frz &&& ~~~(v &&& ~~~(BitVec.ofNat 32 (2 ^ core))) }) := by
  refine h.write (f := fun s => if s.hub.supv.getLsbD core then _ else s.cfgIgnored core (supOff 12 0)) ?_
  exact if_pos hv

end

/-- Settles O40: a case for each command and register, the writes of other cores, and the hub's own FRZ. -/
theorem supervisorWords : Obligations.SupervisorWords := by
  unfold Obligations.SupervisorWords
  refine ⟨fun i core t o s u h hw => exec_of_supWord h hw, fun i core t o s hi ht h hs => exec_of_supTouch hi ht h hs,
    fun core v s h hv => ⟨_, frz_hub h hv, fun j hj => ?_⟩⟩
  have hbit : (BitVec.ofNat 32 (2 ^ core)).getLsbD j = decide (core = j) := by
    rw [BitVec.getLsbD_ofNat, Nat.testBit_two_pow, decide_eq_true hj, Bool.true_and]
  rw [State.sup_modSup_same]
  simp only [BitVec.getLsbD_and, BitVec.getLsbD_not, hbit, hj, decide_true, Bool.true_and, Bool.not_and, Bool.not_not, eq_comm (a := core)]

end Sys2Proof.Claims
end

section
/-! PROOFS. Publication and the events of a Distributor (03 R40, R44 to R49, R52, R53): O35. -/

namespace Sys2Proof.Claims
open Sys2Proof.Machine

section
variable {s u : State} {core t : Nat} {r : BitVec 1024}

/-! ### Publication (03 R40, R44, R49) -/

theorem publish_full (src tid : Nat) (h : 512 ≤ (s.dist t).tasks.length) : s.publish t r src tid = (s, .busy) := if_pos h

theorem publish_bad (src tid : Nat) (h : (s.dist t).tasks.length < 512) (hr : s.recOk t r = false) :
    s.publish t r src tid = (s.logFault t { Fault.Rec.plain .taskRef src with tid := tid }, .refused) :=
  (if_neg (Nat.not_le.2 h)).trans (if_pos (by simp [hr]))

/-- The range that the master keeps of a reissue-safe task (03 R49). -/
def keptOf (s : State) (t : Nat) (r : BitVec 1024) (src : Nat) : Kept :=
  { die := t, tid := recTid r, rcd := r, first := (s.paramRange t r).1, count := (s.paramRange t r).2, src := src }

/-- A record that passes the checks of a Distributor with room enters it; the master keeps the range of a reissue-safe one. -/
theorem publish_accepted (src tid : Nat) (h : (s.dist t).tasks.length < 512) (hr : s.recOk t r = true) :
    s.publish t r src tid = (if recSafe r && decide ((s.dist t).master < 8) then
      (s.modDist t fun q => withTask q r).modDist (s.dist t).master fun m => { m with kept := m.kept ++ [keptOf s t r src] }
      else s.modDist t fun q => withTask q r, .accepted) :=
  (if_neg (Nat.not_le.2 h)).trans (if_neg (by simp [hr]))

theorem publish_unkept (src tid : Nat) (h : (s.dist t).tasks.length < 512) (hr : s.recOk t r = true)
    (hk : recSafe r = false ∨ 8 ≤ (s.dist t).master) : (s.publish t r src tid).1 = s.modDist t fun q => withTask q r := by
  rw [publish_accepted src tid h hr]
  exact if_neg (by rcases hk with hk | hk <;> simp [hk])

theorem publish_kept (src tid : Nat) (h : (s.dist t).tasks.length < 512) (hr : s.recOk t r = true) (hs : recSafe r = true)
    (hm : (s.dist t).master < 8) : (s.publish t r src tid).1 =
      (s.modDist t fun q => withTask q r).modDist (s.dist t).master fun m => { m with kept := m.kept ++ [keptOf s t r src] } := by
  rw [publish_accepted src tid h hr]
  exact if_pos (by simp [hs, hm])

/-- A launch by a hub core that acts, at a die that is up and whose Distributor has room. -/
theorem hubSubmission_launch (f n : BitVec 64) (hon : CoreOn s core) (ht : t < 12) (hup : s.hub.dieUp t = true)
    (hroom : (s.dist t).tasks.length < 512) : exec (.hubSubmission core t ⟨r, some (f, n)⟩) s =
      .next { (if (s.masterHere (s.partOf t)).isSome then
        s.launchOver (s.liveDies (s.partOf t)) (s.farLive (s.partOf t)) r f.toNat n.toNat (0xA00 + core) else s) with
          bus := .done [], free := s.free + 1 } :=
  (if_pos (by simp [hon.acts, ht])).trans ((if_neg (by simp [hup])).trans (if_neg (Nat.not_le.2 hroom)))

theorem hubSubmission_full (sub : Submission) (hon : CoreOn s core) (ht : t < 12) (hup : s.hub.dieUp t = true)
    (hfull : 512 ≤ (s.dist t).tasks.length) : exec (.hubSubmission core t sub) s = .next { s with bus := .busy } :=
  (if_pos (by simp [hon.acts, ht])).trans ((if_neg (by simp [hup])).trans (if_pos hfull))

theorem hubSubmission_published (hon : CoreOn s core) (ht : t < 12) (hup : s.hub.dieUp t = true) (hroom : (s.dist t).tasks.length < 512)
    (hu : (s.publish t r (0xA00 + core) 0).1 = u) : exec (.hubSubmission core t ⟨r, none⟩) s = .next { u with bus := .done [] } := by
  subst hu
  exact (if_pos (by simp [hon.acts, ht])).trans ((if_neg (by simp [hup])).trans (if_neg (Nat.not_le.2 hroom)))

/-! ### Release (03 R46, R53) -/

theorem free_iff (x : Task) : x.free = true ↔ awaitsRelease x := by
  simp only [Task.free, awaitsRelease, Bool.and_eq_true, List.isEmpty_iff, beq_iff_eq, Bool.not_eq_true', decide_eq_true_eq, and_assoc]

/-- The condition of R53 on a task's key: the window holds its tag and no stall is on. -/
def keyReady (s : State) (t : Nat) (x : Task) : Bool :=
  !recKeyed x.rcd || (((s.genNow t).map fun g => g.tag == recKey x.rcd).getD false && !(s.ring t).stall)

theorem keyReady_iff (x : Task) : keyReady s t x = true ↔
    recKeyed x.rcd = false ∨ ((s.ring t).stall = false ∧ ∃ g, s.genNow t = some g ∧ g.tag = recKey x.rcd) := by
  cases hg : s.genNow t <;> simp [keyReady, hg, and_comm]

theorem taskRelease_found {tid : BitVec 32} {x : Task} (h : (s.dist t).tasks.find? (fun x => x.tid == tid) = some x) :
    exec (.taskRelease t tid) s =
      if x.free && decide (recRelt x.rcd ≤ (s.tickOf t).toNat) && keyReady s t x then .next (releasedAt s t tid) else .next s := by
  change execTaskRelease t tid s = _
  simp only [execTaskRelease, h]
  rfl

/-! ### The events -/

/-- An event of a Distributor leaves what its rule states. -/
theorem exec_of_distEvent {i : Instr} (h : DistEvent s i u) : exec i s = .next u := by
  cases h with
  | notUp core t sub hon ht hup => exact (if_pos (by simp [hon.acts, ht])).trans (if_pos (by simp [hup]))
  | full core t r hon ht hup hfull => exact hubSubmission_full _ hon ht hup hfull
  | fullRange core t r f n hon ht hup hfull => exact hubSubmission_full _ hon ht hup hfull
  | launched core t r f n m hon ht hup hroom hm =>
    rw [hubSubmission_launch f n hon ht hup hroom, if_pos (by simp [hm])]
  | launchedFar core t r f n hon ht hup hroom hm =>
    rw [hubSubmission_launch f n hon ht hup hroom, if_neg (by simp [hm])]
  | bad core t r hon ht hup hroom hok =>
    exact hubSubmission_published hon ht hup hroom (congrArg Prod.fst (publish_bad _ _ hroom hok))
  | submit core t r hon ht hup hroom hok hk => exact hubSubmission_published hon ht hup hroom (publish_unkept _ _ hroom hok hk)
  | submitSafe core t r hon ht hup hroom hok hs hm => exact hubSubmission_published hon ht hup hroom (publish_kept _ _ hroom hok hs hm)
  | expired t tid e he hold =>
    change execEarlySignalExpiry t tid s = _
    simp only [execEarlySignalExpiry, he]
    exact if_pos hold
  | early t tid e he hnew =>
    change execEarlySignalExpiry t tid s = _
    simp only [execEarlySignalExpiry, he]
    exact if_neg (Nat.not_le.2 hnew)
  | release t tid x hx hw hrel hkey =>
    rw [taskRelease_found hx, (free_iff x).2 hw, decide_eq_true hrel, (keyReady_iff x).2 hkey]
    rfl
  | heldBack t tid x hx hno =>
    rw [taskRelease_found hx]
    refine if_neg fun hall => ?_
    simp only [Bool.and_eq_true, decide_eq_true_eq, free_iff, keyReady_iff] at hall
    obtain ⟨⟨hw, hrel⟩, hkey⟩ := hall
    rcases hno with hno | hno | ⟨hkd, hno⟩
    · exact hno hw
    · omega
    · rcases hkey with hkey | ⟨hst, g, hg, htag⟩
      · simp [hkd] at hkey
      · rcases hno with hno | hno
        · simp [hst] at hno
        · exact hno g hg htag
  | source a d ha hc hsrc hne =>
    have hchange : ¬(d = (s.dist (8 + a)).srcDie (8 + a) ∧ (s.dist (8 + a)).held = false) := by
      rintro ⟨hd, hh⟩
      rcases hne with hne | hne
      · exact hne hd
      · simp [hh] at hne
    refine (if_neg (by simpa [Config.cyclesPerTick, ha] using hc)).trans ?_
    simp only [hsrc]
    exact if_neg hchange
  | midTick a hc => exact if_pos (.inr hc)
  | noSource a ha hc hsrc hh =>
    refine (if_neg (by simpa [Config.cyclesPerTick, ha] using hc)).trans ?_
    simp only [hsrc]
    exact if_neg (by simp [hh])
  | election t m ht => exact congrArg Host.Outcome.next (if_pos ht)
  | launch t r m f n ht hup => exact congrArg Host.Outcome.next (if_pos ⟨ht, hup⟩)
  | reissue t r f n ht hup => exact congrArg Host.Outcome.next (if_pos ⟨ht, hup⟩)
  | notTaken t r m f n hup => exact congrArg Host.Outcome.next (if_neg (by simp [hup]))
  | ringRun on => rfl

end

/-- Settles O35, a case for each event. -/
theorem distributorEvents : Obligations.DistributorEvents := by
  unfold Obligations.DistributorEvents
  exact fun i s u h => exec_of_distEvent h

end Sys2Proof.Claims
end

section
/-! PROOFS. A task starts on its cluster (03 R31, R56, 07 R92): O36. -/

namespace Sys2Proof.Machine

/-- A key that no entry of a table has reads the default. -/
theorem SMap.get_of_not_mem {α : Type} (d : α) (m : SMap α) {k : Nat} (h : ∀ e ∈ m, e.1 ≠ k) : SMap.get d m k = d := by
  induction m with
  | nil => rfl
  | cons e m ih =>
    obtain ⟨he, hm⟩ := List.forall_mem_cons.1 h
    rw [SMap.get, if_neg (Ne.symm he), ih hm]

/-- A table reads the same without the entries that hold the default. -/
theorem SMap.get_filter_ne_default {α : Type} [BEq α] [LawfulBEq α] (d : α) (m : SMap α) (k : Nat) (h : m.Pairwise fun a b => a.1 < b.1) :
    SMap.get d (m.filter fun e => e.2 != d) k = SMap.get d m k := by
  induction m with
  | nil => rfl
  | cons e m ih =>
    obtain ⟨j, v⟩ := e
    obtain ⟨hlt, hm⟩ := List.pairwise_cons.1 h
    by_cases hv : v = d
    · rw [List.filter_cons_of_neg (by simpa using hv), ih hm, SMap.get]
      split
      · next hk => exact (SMap.get_of_not_mem d m fun f hf => by have := hlt f hf; omega).trans hv.symm
      · rfl
    · rw [List.filter_cons_of_pos (by simpa using hv), SMap.get, SMap.get, ih hm]

/-! ### The registers of a task's first engine -/

theorem startC_getS (r : BitVec 1024) (n : Nat) :
    (startC r).getS n = if n = 0 then recParam r else if n = 1 then (recTid r).setWidth 64 else 0 :=
  SMap.get_filter_ne_default 0 [(0, recParam r), (1, (recTid r).setWidth 64)] n (by simp)

/-! ### The cluster as the task starts (07 R92) -/

theorem Cluster.cx_setUp_zero (k : Cluster) (r : BitVec 1024) : (k.setUp r).cx 0 = startC r := rfl

theorem Cluster.cx_setUp_engine (k : Cluster) (r : BitVec 1024) {e : Nat} (h1 : 1 ≤ e) (h4 : e ≤ 4) : (k.setUp r).cx e = Ctx.reset := by
  refine SMap.get_of_not_mem Ctx.reset _ fun f hf => ?_
  rcases List.mem_cons.1 hf with rfl | hf
  · exact Nat.ne_of_lt h1
  · have h5 : 5 ≤ f.1 := by simpa using (List.mem_filter.1 hf).2
    omega

/-! ### The Distributor as the task starts (03 R56) -/

theorem State.tasks_modTask (s : State) (t : Nat) (tid : BitVec 32) (f : Task → Task) :
    ((s.modTask t tid f).dist t).tasks = (s.dist t).tasks.map fun x => if x.tid == tid then f x else x := by
  rw [State.modTask, State.dist_modDist_same]

/-- A task that takes a cluster runs there, and is ready no more. -/
theorem State.mem_tasks_placeTask {s : State} {t c : Nat} {x y : Task} (hy : y ∈ ((s.placeTask t c x).dist t).tasks) (ht : y.tid = x.tid) :
    y.place = .running c ∧ y.ready = none := by
  rw [State.placeTask, State.dist_modDist_same, State.tasks_modTask] at hy
  obtain ⟨z, -, rfl⟩ := List.mem_map.1 hy
  by_cases hz : (z.tid == x.tid) = true
  · rw [if_pos hz]
    exact ⟨rfl, rfl⟩
  · rw [if_neg hz] at ht
    exact absurd (by simpa using ht) hz

theorem State.mem_tasks_modTask {s : State} {t : Nat} {tid : BitVec 32} {f : Task → Task} {y : Task}
    (hy : y ∈ ((s.modTask t tid f).dist t).tasks) : ∃ z ∈ (s.dist t).tasks, y = if z.tid == tid then f z else z := by
  rw [State.tasks_modTask] at hy
  obtain ⟨z, hz, rfl⟩ := List.mem_map.1 hy
  exact ⟨z, hz, rfl⟩

/-- The module once task x has started on cluster c. -/
def State.issued (s : State) (t c : Nat) (x : Task) : State :=
  ((s.placeTask t c x).modTask t x.tid fun y => { y with xst := false }).modCl c fun k => k.setUp x.rcd

theorem taskIssue_eq {s : State} {t c : Nat} {x : Task} (hd : dieOf c = t) (hc : c < 320) (ho : s.openCluster c = true)
    (hx : firstReady (s.readyFor t c) = some x) (hp : x.place = .waiting) : exec (.taskIssue t c) s = .next (s.issued t c x) := by
  refine (if_pos (by simp [hd, hc, ho])).trans ?_
  simp only [hx, hp]
  rfl

theorem State.cl_issued_same (s : State) (t c : Nat) (x : Task) : (s.issued t c x).cl c = (s.cl c).setUp x.rcd := by
  rw [State.issued, State.cl_modCl_same]
  rfl

theorem State.cl_issued_ne (s : State) (t : Nat) {c d : Nat} (x : Task) (h : d ≠ c) : (s.issued t c x).cl d = s.cl d := by
  rw [State.issued, State.cl_modCl_ne _ _ h]
  rfl

@[simp] theorem State.mem_issued (s : State) (t c : Nat) (x : Task) : (s.issued t c x).mem = s.mem := by
  simp only [State.issued, State.mem_modCl, State.mem_modTask, State.mem_placeTask]

theorem State.mem_tasks_issued {s : State} {t c : Nat} {x y : Task} (hy : y ∈ ((s.issued t c x).dist t).tasks) (ht : y.tid = x.tid) :
    y.place = .running c ∧ y.ready = none := by
  obtain ⟨z, hz, rfl⟩ := State.mem_tasks_modTask (s := s.placeTask t c x) hy
  have hzt : z.tid = x.tid := by
    split at ht <;> exact ht
  obtain ⟨hplace, hready⟩ := State.mem_tasks_placeTask hz hzt
  split <;> exact ⟨hplace, hready⟩

end Sys2Proof.Machine

namespace Sys2Proof.Claims
open Sys2Proof.Machine

/-- Settles O36: the cluster is set up for the task (Cluster.setUp), and the Distributor has it running there. -/
theorem taskStarts : Obligations.TaskStarts := by
  unfold Obligations.TaskStarts
  intro s t c x hd hc ho hx hp
  refine ⟨s.issued t c x, taskIssue_eq hd hc ho hx hp, ?_⟩
  rw [State.cl_issued_same, Cluster.cx_setUp_zero]
  refine ⟨rfl, rfl, rfl, rfl, startC_getS _ 0, startC_getS _ 1, fun n hn => ?_, fun e h1 h4 => Cluster.cx_setUp_engine _ _ h1 h4,
    fun _ => rfl, fun _ => rfl, fun _ => rfl, rfl, rfl, rfl, rfl, rfl, rfl, rfl, rfl, fun y hy ht => State.mem_tasks_issued hy ht,
    State.mem_issued .., fun d hne => State.cl_issued_ne s t x hne⟩
  rw [startC_getS, if_neg (by omega), if_neg (by omega)]

end Sys2Proof.Claims
end

section
/-! PROOFS. FORK, TSPAWN, TYIELD and publication (03 R31, R40, R46, 11 R163 to R168): O12. -/

namespace Sys2Proof.Machine

/-! ### Tables that are mapped entry by entry -/

theorem SMap.get_of_get? {α : Type} (d : α) {m : SMap α} {k : Nat} {v : α} (h : SMap.get? m k = some v) : SMap.get d m k = v := by
  induction m with
  | nil => simp at h
  | cons e m ih =>
    obtain ⟨j, w⟩ := e
    rw [SMap.get?] at h
    rw [SMap.get]
    split
    · next hk => simpa [hk] using h
    · next hk => exact ih (by simpa [hk] using h)

/-- A map that keeps the keys maps what a listed key holds. -/
theorem SMap.get?_map_of_key {α : Type} {f : Nat × α → Nat × α} (hf : ∀ e, (f e).1 = e.1) (m : SMap α) (k : Nat) :
    SMap.get? (m.map f) k = (SMap.get? m k).map fun v => (f (k, v)).2 := by
  induction m with
  | nil => rfl
  | cons e m ih =>
    obtain ⟨j, w⟩ := e
    have hj : (f (j, w)).1 = j := hf _
    rw [List.map_cons, ← Prod.mk.eta (p := f (j, w)), SMap.get?, SMap.get?, hj, ih]
    split
    · next hk => subst hk; rfl
    · rfl

/-! ### Predicates -/

@[simp] theorem Ctx.getP_putP_same (e : Ctx) (i : BitVec 3) : (e.putP i.toNat true).getP i.toNat = true := by
  by_cases hi : i.toNat = 0
  · simp [Ctx.getP, hi]
  · have hbit : (BitVec.ofNat 8 (2 ^ i.toNat)).getLsbD i.toNat = true := by
      rw [BitVec.getLsbD_ofNat, Nat.testBit_two_pow_self, Bool.and_true, decide_eq_true_eq]
      omega
    rw [Ctx.putP, if_neg hi, if_pos rfl]
    simp only [Ctx.getP, BitVec.getLsbD_or, hbit, Bool.or_true]

/-! ### FORK (11 R164) -/

theorem forkCtx_getS (old : Ctx) (pc : Parcel) (param : Word) (n : Nat) : (forkCtx old pc param).getS n = if n = 0 then param else 0 :=
  SMap.get_filter_ne_default 0 [(0, param)] n (by simp)

theorem forkCtx_getP (old : Ctx) (pc : Parcel) (param : Word) {n : Nat} (h : 0 < n) : (forkCtx old pc param).getP n = false := by
  have hn : (n == 0) = false := by simpa using Nat.ne_of_gt h
  simp [forkCtx, Ctx.getP, hn]

/-- The cluster with an engine that FORK has started. -/
def State.withForked (s : State) (w : CForm) : State :=
  s.modMe fun k => k.setCx (w.cf.toNat % 8)
    (forkCtx (s.me.cx (w.cf.toNat % 8)) (recEntry k.rec0 (w.cf.toNat % 8) + w.off.setWidth 32) (recParam k.rec0))

theorem execFork_eq {s : State} {w : CForm} (ha : s.inArrival = false) (ho : w.off.toNat < 2 ^ 32)
    (he : (s.me.cx (w.cf.toNat % 8)).run = .idle ∨ (s.me.cx (w.cf.toNat % 8)).run = .arrived) :
    exec (.fork w) s = finish s 3 (.ok (s.withForked w)) := by
  have hrun : ((s.me.cx (w.cf.toNat % 8)).run == .idle || (s.me.cx (w.cf.toNat % 8)).run == .arrived) = true := by
    rcases he with he | he <;> rw [he] <;> rfl
  change finish s 3 (s.notArrival >>= _) = _
  simp only [State.notArrival, trapIf, ha, hrun, Bool.false_eq_true, if_false, ok_bind, decide_eq_false (Nat.not_le.2 ho), Bool.not_true,
    pure_eq_ok]
  rfl

/-! ### TYIELD (11 R168) -/

/-- The issuing context is listed once a word has issued. -/
theorem State.get?_ctx_issuedWord (s : State) : SMap.get? s.issuedWord.me.ctx s.cur.2 = some s.issuedWord.ctx := by
  have hl : SMap.get? s.issuedWord.me.ctx s.cur.2 = some { s.ctx with bAge := s.ctx.bAge.map fun a => (a.1, min 4 (a.2 + 1)) } := by
    rw [State.issuedWord, State.used, State.me_modMe, State.me_modCtx]
    exact SMap.get?_set_same ..
  rw [hl, State.ctx_issuedWord]

theorem State.get?_ctx_complete (s : State) (len : Nat) :
    SMap.get? (s.complete len).me.ctx (s.complete len).cur.2 = some (s.complete len).ctx := State.get?_ctx_issuedWord _

/-- The cluster as TYIELD leaves it: to be saved, its engines stopped. -/
def Cluster.yielded (k : Cluster) : Cluster :=
  { k with saving := true, ctx := k.ctx.map fun e => if e.1 < 5 then (e.1, { e.2 with stopped := true }) else e }

theorem Cluster.cx_yielded {k : Cluster} {x : Nat} {e : Ctx} (hx : x < 5) (h : SMap.get? k.ctx x = some e) :
    k.yielded.cx x = { e with stopped := true } := by
  refine SMap.get_of_get? _ ((SMap.get?_map_of_key (fun f => ?_) k.ctx x).trans ?_)
  · split <;> rfl
  · rw [h, Option.map_some, if_pos hx]

theorem execTyield_no {s : State} {w : AForm} {x : Task} (ha : s.inArrival = false) (hall : s.me.allArrived = true)
    (hx : s.taskOn s.cur.1 = some x) (hno : s.yieldsTo s.cur.1 x = false ∨ s.freeShadow (dieOf s.cur.1) = none) :
    exec (.tyield w) s = finish s 3 (.ok (s.putOpnd w.dst 0)) := by
  refine (if_neg (by simp [ha, hall])).trans ?_
  simp only [hx]
  exact if_neg fun h => by rcases hno with hno | hno <;> simp [hno] at h

/-- The module once TYIELD has given up a cluster whose word has completed. -/
def State.yielded (s : State) (t : Nat) (tid : BitVec 32) (c : Nat) : State :=
  (s.modMe Cluster.yielded).modTask t tid fun y => { y with place := .saving c true }

theorem execTyield_yes {s : State} {w : AForm} {x : Task} (ha : s.inArrival = false) (hall : s.me.allArrived = true)
    (hc : s.cur.2 = 0) (hx : s.taskOn s.cur.1 = some x) (hy : s.yieldsTo s.cur.1 x = true)
    (hf : (s.freeShadow (dieOf s.cur.1)).isSome = true) :
    exec (.tyield w) s = .next (((s.putPred w.dst true).complete 3).yielded (dieOf s.cur.1) x.tid s.cur.1) := by
  refine (if_neg (by simp [ha, hall])).trans ?_
  simp only [hx]
  exact if_pos ⟨hc, hy, hf⟩

end Sys2Proof.Machine

namespace Sys2Proof.Claims
open Sys2Proof.Machine

theorem forkStarts : ForkStarts := by
  intro w s ha ho hg he hst
  have hctx : (s.withForked w).ctx = s.ctx := by
    rw [State.ctx, State.withForked, State.me_modMe]
    exact Cluster.cx_setCx_ne _ _ hg.symm
  obtain ⟨t, ht, -, -, -, hcx, -⟩ := finish_next (u := s.withForked w) rfl hst (by rw [hctx]; exact Ctx.sameCourse_refl _)
  have hcxs (x : Nat) (hx : x ≠ s.cur.2) : t.me.cx x = (s.withForked w).me.cx x := hcx x hx
  refine ⟨t, (execFork_eq ha ho he).trans ht, ?_⟩
  dsimp only
  rw [hcxs _ hg, State.withForked, State.me_modMe, Cluster.cx_setCx_same]
  refine ⟨rfl, rfl, rfl, forkCtx_getS _ _ _ 0, fun n hn => (forkCtx_getS _ _ _ n).trans (if_neg (Nat.ne_of_gt hn)), fun n hn => forkCtx_getP _ _ _ hn,
    fun _ => rfl, rfl, rfl, rfl, fun x hx hxg => ?_⟩
  rw [hcxs x hx, State.withForked, State.me_modMe, Cluster.cx_setCx_ne _ _ hxg]

theorem asid_modCx_phase (k : Cluster) (x : Nat) (p : Phase) : (k.modCx x fun e => { e with phase := p }).asid x = k.asid x := by
  simp only [Cluster.asid, Cluster.cx_modCx_same]
  rfl

/-- A TSPAWN that waits no more publishes the record it reads, unless the record names another ASID than the task's. -/
theorem execTspawn_reads {w : AForm} {s s0 : State} {a : Word} {f : FenceRec} {bs : List Byte} (ha : s.srcS w.sa 2 (ftBit w 2) = .ok a)
    (hal : a.toNat % 64 = 0) (hf : s.ctx.phase = .fence f) (hopen : s.fenceOpen s.cur.1 3 f = false)
    (hheld : s.vaHeld s.cur.1 s.cur.2 a.toNat 128 = false) (h0 : s0 = s.modCtx fun e => { e with phase := .body })
    (hbs : s0.readNow s.cur.1 s.cur.2 a.toNat 128 = .ok bs) : exec (.tspawn w) s =
      let r := BitVec.ofNat 1024 (bytesNat bs)
      let p := s0.publish (dieOf s.cur.1) r (masterOf s.cur.1 0) s.me.tid.toNat
      if s.me.asid s.cur.2 ≠ 0 ∧ recAsid r ≠ s.me.asid s.cur.2 then .next ((s0.putPred w.dst false).complete 3)
      else .next ((p.1.putPred w.dst (p.2 == .accepted)).complete 3) := by
  have hasid : s0.me.asid s0.cur.2 = s.me.asid s.cur.2 := by
    rw [h0, State.me_modCtx]
    exact asid_modCx_phase ..
  have htid : s0.me.tid = s.me.tid := by
    rw [h0, State.me_modCtx]
    rfl
  rw [← hasid, ← htid]
  subst h0
  change execTspawn w s = _
  simp only [execTspawn, ha, hal, hf, hopen, hheld, State.cur_modCtx, hbs, ne_eq, not_true_eq_false, if_false, Bool.or_false, Bool.false_eq_true]
  rfl

theorem taskSpawn : TaskSpawn := by
  intro w s s0 a f bs r ha hal hf hopen hheld h0 hbs hr
  have hexec := execTspawn_reads ha hal hf hopen hheld h0 hbs
  dsimp only at hexec
  rw [← hr] at hexec
  refine ⟨fun hsame => ?_, fun hne hother => hexec.trans (if_pos ⟨hne, hother⟩)⟩
  rw [hexec, if_neg (by tauto), State.putPred]
  simp only [beq_iff_eq]

/-- What a Distributor holds after it has taken a record, but for the ranges it keeps as a master (03 R46). -/
theorem dist_publish_accepted {s : State} {t : Nat} {r : BitVec 1024} (src tid : Nat) (h : (s.dist t).tasks.length < 512)
    (hr : s.recOk t r = true) : ∃ ks, (s.publish t r src tid).1.dist t = { withTask (s.dist t) r with kept := ks } := by
  rw [publish_accepted src tid h hr]
  split
  · by_cases hm : t = (s.dist t).master
    · refine ⟨(s.dist t).kept ++ [keptOf s t r src], ?_⟩
      rw [← hm, State.dist_modDist_same, State.dist_modDist_same]
      rfl
    · exact ⟨_, by rw [State.dist_modDist_ne _ _ hm, State.dist_modDist_same]⟩
  · exact ⟨_, by rw [State.dist_modDist_same]⟩

theorem publishRecord : PublishRecord := by
  refine fun s t r src tid => ⟨fun hroom hok => ?_, fun hfull => publish_full src tid hfull⟩
  obtain ⟨ks, hd⟩ := dist_publish_accepted src tid hroom hok
  rw [hd]
  refine ⟨?_, ⟨taskOf (s.dist t) r, rfl, rfl, rfl⟩, SMap.get?_del_same ..⟩
  rw [publish_accepted src tid hroom hok]

theorem taskYield : TaskYield := by
  refine fun w s ha hall => ⟨fun x hc hx hy hf hst => ?_, fun x hx hno hst =>
    gives_of_finish (execTyield_no ha hall hx hno) rfl hst (sameCourse_putOpnd s w.dst 0)⟩
  refine ⟨_, execTyield_yes ha hall hc hx hy hf, ?_⟩
  obtain ⟨hmod, -, -, -, hown⟩ : OnlySequencing (s.putPred w.dst true) ((s.putPred w.dst true).complete 3) :=
    OnlySequencing.complete (hst.of_same (sameCourse_putOpnd s w.dst 1))
  have hdone := (s.putPred w.dst true).get?_ctx_complete 3
  have hmem : ((s.putPred w.dst true).complete 3).mem = s.mem := by rw [State.mem_complete, State.mem_putPred]
  generalize (s.putPred w.dst true).complete 3 = v at *
  have hrest : v.rest = s.rest := hmod.trans (by cases w.dst <;> rfl)
  have hcur : v.cur.2 = 0 := (congrArg (fun u : State => u.cur.2) hrest).trans hc
  have hctx : (v.yielded (dieOf s.cur.1) x.tid s.cur.1).ctx = { v.ctx with stopped := true } := by
    have hme : (v.modMe Cluster.yielded).me = v.me.yielded := State.me_modMe ..
    exact (congrArg (Cluster.cx · v.cur.2) hme).trans (Cluster.cx_yielded (by omega) hdone)
  refine ⟨?_, by rw [hctx], hmem, fun i hi => ?_, ?_⟩
  · exact congrArg Cluster.saving (State.me_modMe v Cluster.yielded)
  · have hp := congrArg (fun e : Ctx => e.getP i.toNat) hown
    rw [hi] at hp
    rw [hctx]
    exact hp.trans ((congrArg (Ctx.getP · i.toNat) (State.ctx_modCtx ..)).trans (Ctx.getP_putP_same ..))
  · have hdist : (v.modMe Cluster.yielded).dist (dieOf s.cur.1) = s.dist (dieOf s.cur.1) := by
      have hd := congrArg (fun u : State => u.dist (dieOf s.cur.1)) hrest
      exact hd
    rw [State.yielded, State.tasks_modTask, hdist]
    simp only [beq_iff_eq]

/-- Settles O12. -/
theorem enginesAndTasks : Obligations.EnginesAndTasks := by
  unfold Obligations.EnginesAndTasks
  exact ⟨forkStarts, taskSpawn, publishRecord, taskYield⟩

end Sys2Proof.Claims
end

section
/-! PROOFS. Headers, keys, waits and the course of a section (03 R34, R35, 09 R116 to R118, 23 R324): O23. -/

namespace Sys2Proof.Machine

/-! ### Tables -/

theorem SMap.set_set {α : Type} (m : SMap α) (k : Nat) (v w : α) : SMap.set (SMap.set m k v) k w = SMap.set m k w := by
  induction m with
  | nil => simp [SMap.set]
  | cons e m ih =>
    obtain ⟨j, u⟩ := e
    by_cases hlt : k < j
    · simp [SMap.set, hlt]
    · by_cases heq : k = j
      · simp [SMap.set, heq]
      · simp [SMap.set, hlt, heq, ih]

/-- An entry that a property does not hold of, written over another such, leaves whether it holds of any. -/
theorem SMap.any_set {α : Type} {p : Nat × α → Bool} {k : Nat} {v : α} (hv : p (k, v) = false) (m : SMap α)
    (hm : ∀ w, SMap.get? m k = some w → p (k, w) = false) : (SMap.set m k v).any p = m.any p := by
  induction m with
  | nil => simp [SMap.set, hv]
  | cons e m ih =>
    obtain ⟨j, u⟩ := e
    rw [SMap.set]
    split
    · rw [List.any_cons, hv, Bool.false_or]
    · split
      · next heq =>
        subst heq
        rw [List.any_cons, List.any_cons, hv, hm u (by simp [SMap.get?])]
      · next hne => rw [List.any_cons, List.any_cons, ih fun w hw => hm w (by rw [SMap.get?, if_neg hne, hw])]

theorem Cluster.modCx_modCx (k : Cluster) (x : Nat) (f g : Ctx → Ctx) : (k.modCx x f).modCx x g = k.modCx x fun e => g (f e) := by
  rw [Cluster.modCx, Cluster.cx_modCx_same]
  simp only [Cluster.modCx, Cluster.setCx, SMap.set_set]

theorem State.modCl_modCl (s : State) (c : Nat) (f g : Cluster → Cluster) : (s.modCl c f).modCl c g = s.modCl c fun k => g (f k) := by
  rw [State.modCl, State.cl_modCl_same]
  simp only [State.modCl, State.setCl, SMap.set_set]

theorem State.modCx_modCx (s : State) (c x : Nat) (f g : Ctx → Ctx) : (s.modCx c x f).modCx c x g = s.modCx c x fun e => g (f e) := by
  simp only [State.modCx, State.modCl_modCl, Cluster.modCx_modCx]

@[simp] theorem State.cx_modCx_same (s : State) (c x : Nat) (f : Ctx → Ctx) : ((s.modCx c x f).cl c).cx x = f ((s.cl c).cx x) := by
  rw [State.modCx, State.cl_modCl_same, Cluster.cx_modCx_same]

/-! ### A key is judged (23 R324) -/

section
variable {s : State} {h : Header} {f : Parcel} {key : BitVec 24 × BitVec 32 × Nat} (rot : Bool)

/-- The header's section goes on to stand so to its key. -/
def State.keyStands (s : State) (h : Header) (f : Parcel) (k : KeyState) : State := s.modCtx fun e => { e with phase := .start h f k }

/-- A section whose key is missed traps at its header. -/
def State.segMiss (s : State) (tag : BitVec 24) : State :=
  (s.modCtx fun e => { e with phase := .header }).takeTrap s.cur.1 s.cur.2 s.ctx.pc { cause := .segMiss, info := some (tag.setWidth 64) }

theorem State.judgeKey_hit (hk : s.keyCheck s.cur.1 key.1 key.2.1 = .hit) : s.judgeKey h f key rot = s.keyStands h f (.judged true) := by
  simp only [State.judgeKey, hk]
  rfl

theorem State.judgeKey_waits (hk : s.keyCheck s.cur.1 key.1 key.2.1 = .waits) : s.judgeKey h f key rot = s.keyStands h f .waits := by
  simp only [State.judgeKey, hk]
  rfl

@[simp] theorem State.cl_rotateWait (s : State) (d c : Nat) : (s.rotateWait d).cl c = s.cl c := by
  unfold State.rotateWait State.modTaskOn
  split <;> rfl

/-- The key is missed (23 R324). -/
def State.keyMissed (s : State) (tag : BitVec 24) (sel : BitVec 32) : Prop :=
  s.keyCheck s.cur.1 tag sel = .missOwn ∨ s.keyCheck s.cur.1 tag sel = .missOther

theorem State.judgeKey_rotates (hk : s.keyCheck s.cur.1 key.1 key.2.1 = .missOwn) (hm : key.2.2 = 0) :
    s.judgeKey h f key false = (s.keyStands h f .rotate).rotateWait s.cur.1 := by
  simp only [State.judgeKey, hk, hm]
  rfl

theorem State.judgeKey_otherMissed (hk : s.keyCheck s.cur.1 key.1 key.2.1 = .missOther) (hm : key.2.2 = 0) :
    s.judgeKey h f key rot = s.segMiss key.1 := by
  simp only [State.judgeKey, hk, hm]
  rfl

theorem State.judgeKey_skips (hk : s.keyMissed key.1 key.2.1) (hm : key.2.2 = 1) :
    s.judgeKey h f key rot = s.leaveTo (f + BitVec.ofNat 32 (3 * h.len)) := by
  rcases hk with hk | hk <;> simp only [State.judgeKey, hk, hm]

theorem State.judgeKey_traps (hk : s.keyMissed key.1 key.2.1) (hm : key.2.2 = 2) : s.judgeKey h f key rot = s.segMiss key.1 := by
  rcases hk with hk | hk <;> simp only [State.judgeKey, hk, hm] <;> rfl

theorem State.judgeKey_starts (hk : s.keyMissed key.1 key.2.1) (hm : key.2.2 = 3) :
    s.judgeKey h f key rot = s.keyStands h f (.judged false) := by
  rcases hk with hk | hk <;> simp only [State.judgeKey, hk, hm] <;> rfl

end

/-! ### The waits of a section (03 R35, R63) -/

/-- Whether a section may start is left by where its context stands to its key. -/
theorem State.mayStart_setPhase {s : State} {c x : Nat} {p : Phase} (h : Header) (hp : ({ (s.cl c).cx x with phase := p } : Ctx).midWord = false)
    (hold : ((s.cl c).cx x).midWord = false) : (s.modCx c x fun e => { e with phase := p }).mayStart c x h = s.mayStart c x h := by
  have hcx (g : Nat) : ∃ q, (((s.modCx c x fun e => { e with phase := p }).cl c).cx g) = { (s.cl c).cx g with phase := q } := by
    by_cases hg : g = x
    · subst hg
      exact ⟨p, State.cx_modCx_same ..⟩
    · refine ⟨((s.cl c).cx g).phase, ?_⟩
      rw [State.modCx, State.cl_modCl_same, Cluster.cx_modCx_ne _ _ hg]
  have haft (g : Nat) (a : BitVec 10) : ((s.modCx c x fun e => { e with phase := p }).cl c).aftOk g a = (s.cl c).aftOk g a := by
    obtain ⟨q, hq⟩ := hcx g
    simp only [Cluster.aftOk, hq]
  have hmid : ((s.modCx c x fun e => { e with phase := p }).cl c).ctx.any (fun e => e.2.midWord) = (s.cl c).ctx.any fun e => e.2.midWord := by
    rw [State.modCx, State.cl_modCl_same]
    refine SMap.any_set (p := fun e : Nat × Ctx => e.2.midWord) hp _ fun w hw => ?_
    rw [← SMap.get_of_get? Ctx.reset hw]
    exact hold
  have hdrain : ((s.modCx c x fun e => { e with phase := p }).cl c).drained = (s.cl c).drained := by
    unfold Cluster.drained
    rw [hmid, State.modCx, State.cl_modCl_same]
    rfl
  obtain ⟨q, hq⟩ := hcx x
  unfold State.mayStart
  dsimp only
  rw [hdrain, hq]
  simp only [haft]

end Sys2Proof.Machine
end

section
namespace Sys2Proof.Claims
open Sys2Proof.Machine

/-! ### Waits (03 R35) -/

theorem aftOk_iff (k : Cluster) (g : Nat) (a : BitVec 10) : k.aftOk g a = true ↔ WaitMet k g a := by
  have ha : a.toNat < 2 ^ 10 := a.isLt
  cases hl : (k.cx g).last with
  | none => simp [Cluster.aftOk, WaitMet, hl]
  | some l =>
    have hmod : (l % 1023 + 1023 - a.toNat) % 1023 ≤ 510 ↔ ((l : Int) - a.toNat) % 1023 ≤ 510 := by omega
    simp [Cluster.aftOk, WaitMet, hl, hmod, or_assoc]

theorem othersOf_engOf {x : Nat} (h : x < 7) : othersOf (engOf x) = waitedOn x := by
  interval_cases x <;> rfl

theorem mayStart_iff {s : State} {c x : Nat} {h : Header} (hx : x < 7) (hm : ((s.cl c).cx x).lastMode.getD false = h.exposed) :
    s.mayStart c x h = true ↔ ∀ p ∈ (waitedOn x).zip h.aft, WaitMet (s.cl c) p.1 p.2 := by
  have hmode : (((s.cl c).cx x).lastMode.getD false == h.exposed) = true := beq_iff_eq.2 hm
  simp only [State.mayStart, othersOf_engOf hx, hmode, Bool.true_or, Bool.and_true, List.all_eq_true, aftOk_iff]

/-- SECTION_START of a context that may issue. -/
theorem sectionStart_eq {s : State} {c x : Nat} (h : s.mayIssue c x = true) : exec (.sectionStart c x) s = .next (s.startIfFree c x) :=
  if_pos h

theorem startIfFree_free {s : State} {c x : Nat} {h : Header} {f : Parcel} (hp : ((s.cl c).cx x).phase = .start h f .free) :
    s.startIfFree c x = if s.mayStart c x h then s.modCx c x fun e => e.startSection h f none else s := by
  simp only [State.startIfFree, hp]

theorem startIfFree_judged {s : State} {c x : Nat} {h : Header} {f : Parcel} {b : Bool}
    (hp : ((s.cl c).cx x).phase = .start h f (.judged b)) :
    s.startIfFree c x = if s.mayStart c x h then s.modCx c x fun e => e.startSection h f (some b) else s := by
  simp only [State.startIfFree, hp]

theorem startIfFree_header {s : State} {c x : Nat} (hp : ((s.cl c).cx x).phase = .header) : s.startIfFree c x = s := by
  simp only [State.startIfFree, hp]

theorem sectionWaits : SectionWaits := by
  refine ⟨fun h key => ?_, fun c x s h f hx hi hp _ hm => ?_⟩
  · have hfield (lo hi : Nat) (hw : hi + 1 - lo = 10) : BitVec.ofNat 10 (bitsNat h hi lo) = BitVec.ofNat 10 (h / 2 ^ lo) := by
      rw [bitsNat, hw, Nat.shiftRight_eq_div_pow]
      exact BitVec.eq_of_toNat_eq (by simp)
    simp only [headerOf, List.map_cons, List.map_nil, hfield 38 47 rfl, hfield 28 37 rfl, hfield 18 27 rfl, hfield 8 17 rfl]
  · rw [sectionStart_eq hi, startIfFree_free hp]
    refine ⟨fun hall => by rw [if_pos ((mayStart_iff hx hm).2 hall)], fun ⟨p, hp, hno⟩ => ?_⟩
    rw [if_neg fun hs => hno ((mayStart_iff hx hm).1 hs p hp)]

/-! ### Headers (09 R114 to R118) -/

theorem trapped_segMiss (s : State) (tag : BitVec 24) :
    Trapped (s.segMiss tag) s.cur.1 s.cur.2 .segMiss 0 s.ctx.pc (tag.setWidth 64) := trapped_takeTrap _ _ _ _ rfl nofun

/-- A trap other than a refusal stops the context, whatever its detail is. -/
theorem trapped_takeTrap_some (s : State) (c x : Nat) (pc : Parcel) {t : Trap} (hr : t.cause ≠ .refused) :
    ∃ i, Trapped (s.takeTrap c x pc t) c x t.cause t.opnd pc i := by
  cases hi : t.info with
  | some i => exact ⟨i, trapped_takeTrap s c x pc hi hr⟩
  | none =>
    obtain ⟨i, b, hb⟩ := s.takeTrap_cx_free c x pc t hi hr
    exact ⟨i, by simp only [Trapped, hb, and_self]⟩

section
variable {s : State} {c x : Nat} {h : Header} {f : Parcel}

theorem headerReached_free (hi : s.mayIssue c x = true) (hp : ((s.cl c).cx x).phase = .header)
    (hr : ({ s with cur := (c, x) } : State).readHeader c x ((s.cl c).cx x).pc = .sect h f) (hk : h.key = none) :
    exec (.headerReached c x) s = .next (({ s with cur := (c, x) } : State).keyStands h f .free).used := by
  have hp' : ({ s with cur := (c, x) } : State).ctx.phase = .header := hp
  have hr' : ({ s with cur := (c, x) } : State).readHeader c x ({ s with cur := (c, x) } : State).ctx.pc = .sect h f := hr
  change execHeaderReached c x s = _
  simp only [execHeaderReached, hi, hp', hr', hk, Bool.not_true, Bool.false_eq_true, if_false]
  rfl

theorem headerReached_keyed {key : BitVec 24 × BitVec 32 × Nat} (hi : s.mayIssue c x = true) (hp : ((s.cl c).cx x).phase = .header)
    (hr : ({ s with cur := (c, x) } : State).readHeader c x ((s.cl c).cx x).pc = .sect h f) (hk : h.key = some key) :
    exec (.headerReached c x) s = .next (({ s with cur := (c, x) } : State).judgeKey h f key false).used := by
  have hp' : ({ s with cur := (c, x) } : State).ctx.phase = .header := hp
  have hr' : ({ s with cur := (c, x) } : State).readHeader c x ({ s with cur := (c, x) } : State).ctx.pc = .sect h f := hr
  change execHeaderReached c x s = _
  simp only [execHeaderReached, hi, hp', hr', hk, Bool.not_true, Bool.false_eq_true, if_false]

theorem headerReached_eos (hi : s.mayIssue c x = true) (hp : ((s.cl c).cx x).phase = .header)
    (hr : ({ s with cur := (c, x) } : State).readHeader c x ((s.cl c).cx x).pc = .eos) :
    exec (.headerReached c x) s = ({ s with cur := (c, x) } : State).actEnd := by
  have hp' : ({ s with cur := (c, x) } : State).ctx.phase = .header := hp
  have hr' : ({ s with cur := (c, x) } : State).readHeader c x ({ s with cur := (c, x) } : State).ctx.pc = .eos := hr
  change execHeaderReached c x s = _
  simp only [execHeaderReached, hi, hp', hr', Bool.not_true, Bool.false_eq_true, if_false]

theorem headerReached_bad {p : Parcel} {t : Trap} (hi : s.mayIssue c x = true) (hp : ((s.cl c).cx x).phase = .header)
    (hr : ({ s with cur := (c, x) } : State).readHeader c x ((s.cl c).cx x).pc = .bad p t) :
    exec (.headerReached c x) s = .next (({ s with cur := (c, x) } : State).takeTrap c x p t).used := by
  have hp' : ({ s with cur := (c, x) } : State).ctx.phase = .header := hp
  have hr' : ({ s with cur := (c, x) } : State).readHeader c x ({ s with cur := (c, x) } : State).ctx.pc = .bad p t := hr
  change execHeaderReached c x s = _
  simp only [execHeaderReached, hi, hp', hr', Bool.not_true, Bool.false_eq_true, if_false]

/-- SEGMENT_KEY_HIT of a header whose key waits. -/
theorem segmentKeyHit_eq {r : KeyState} {key : BitVec 24 × BitVec 32 × Nat} (hp : ((s.cl c).cx x).phase = .start h f r)
    (hr : r = .waits ∨ r = .rotate) (hi : s.mayIssue c x = true) (hk : h.key = some key) :
    exec (.segmentKeyHit c x) s = .next ((({ s with cur := (c, x) } : State).judgeKey h f key (r == .rotate)).startIfFree c x) := by
  have hp' : ({ s with cur := (c, x) } : State).ctx.phase = .start h f r := hp
  change execSegmentKeyHit c x s = _
  simp only [execSegmentKeyHit, hi, hp', hk, Bool.not_true, Bool.false_eq_true, if_false]
  exact if_pos hr

end

theorem headers : Headers := by
  intro c x s hi hp
  refine ⟨fun h f hr hk => headerReached_free hi hp hr hk, fun h f tag rot miss hr hk => ?_, fun hr => headerReached_eos hi hp hr,
    fun p t hr ht => ?_⟩
  · rw [headerReached_keyed hi hp hr hk]
    refine ⟨fun hc => by rw [State.judgeKey_hit _ hc]; rfl, fun hc => by rw [State.judgeKey_waits _ hc]; rfl, fun hc hm => ?_, fun hc => ?_,
      fun (hc : State.keyMissed { s with cur := (c, x) } tag rot) => ⟨fun hm => ?_, fun hm => ?_⟩⟩
    · rw [State.judgeKey_rotates hc hm]
      refine ⟨_, rfl, ?_⟩
      rw [cx_used, State.cl_rotateWait]
      exact congrArg Ctx.phase (State.cx_modCx_same ..)
    · have htrap : ({ s with cur := (c, x) } : State).judgeKey h f (tag, rot, miss) false = ({ s with cur := (c, x) } : State).segMiss tag := by
        rcases hc with ⟨hc, hm⟩ | ⟨hc, hm⟩
        · exact State.judgeKey_otherMissed _ hc hm
        · exact State.judgeKey_traps _ hc hm
      rw [htrap]
      exact ⟨_, rfl, trapped_used (trapped_segMiss { s with cur := (c, x) } tag)⟩
    · rw [State.judgeKey_skips (key := (tag, rot, miss)) _ hc hm]
    · rw [State.judgeKey_starts (key := (tag, rot, miss)) _ hc hm]
      rfl
  · rw [headerReached_bad hi hp hr]
    obtain ⟨i, ht⟩ := trapped_takeTrap_some { s with cur := (c, x) } c x p ht
    exact ⟨_, i, rfl, trapped_used ht⟩

/-! ### The course of a section (03 R34, 23 R324) -/

/-- A section whose key has been judged starts, with p7 as it was judged. -/
theorem startIfFree_keyStands {s : State} {h : Header} {f : Parcel} {b : Bool} (hw : s.ctx.midWord = false)
    (hs : s.mayStart s.cur.1 s.cur.2 h = true) :
    (s.keyStands h f (.judged b)).startIfFree s.cur.1 s.cur.2 = s.modCtx fun e => e.startSection h f (some b) := by
  have hp : (((s.keyStands h f (.judged b)).cl s.cur.1).cx s.cur.2).phase = .start h f (.judged b) :=
    congrArg Ctx.phase (State.cx_modCx_same ..)
  rw [startIfFree_judged hp, State.keyStands, State.modCtx, State.mayStart_setPhase h rfl hw, if_pos hs, State.modCx_modCx]
  rfl

theorem startIfFree_segMiss (s : State) (tag : BitVec 24) : (s.segMiss tag).startIfFree s.cur.1 s.cur.2 = s.segMiss tag := by
  refine startIfFree_header ?_
  obtain ⟨b, hb⟩ := (s.modCtx fun e => { e with phase := .header }).takeTrap_cx s.cur.1 s.cur.2 s.ctx.pc
    { cause := .segMiss, info := some (tag.setWidth 64) } _ rfl nofun
  rw [State.segMiss, hb]
  exact congrArg Ctx.phase (State.cx_modCx_same ..)

theorem startIfFree_leaveTo (s : State) (a : Parcel) : (s.leaveTo a).startIfFree s.cur.1 s.cur.2 = s.leaveTo a :=
  startIfFree_header (congrArg Ctx.phase (State.cx_modCx_same ..))

theorem sectionsRun : SectionsRun := by
  refine ⟨fun c x s h f hi hs => ⟨fun hp => ?_, fun b hp => ?_⟩, fun c x s h f r tag rot miss hp hr hi hk hs => ?_, fun c x n ns s ho hn => ?_⟩
  · rw [sectionStart_eq hi, startIfFree_free hp, if_pos hs]
  · rw [sectionStart_eq hi, startIfFree_judged hp, if_pos hs]
  · have hw : ({ s with cur := (c, x) } : State).ctx.midWord = false := by
      change ((s.cl c).cx x).midWord = false
      simp only [Ctx.midWord, hp]
    rw [segmentKeyHit_eq hp hr hi hk]
    refine ⟨fun hc => ?_, fun (hc : State.keyMissed { s with cur := (c, x) } tag rot) => ⟨fun hm => ?_, fun hm => ?_, fun hm => ?_⟩⟩
    · rw [State.judgeKey_hit _ hc]
      exact congrArg Host.Outcome.next (startIfFree_keyStands hw hs)
    · rw [State.judgeKey_skips (key := (tag, rot, miss)) _ hc hm]
      exact congrArg Host.Outcome.next (startIfFree_leaveTo ..)
    · rw [State.judgeKey_traps (key := (tag, rot, miss)) _ hc hm]
      refine ⟨_, congrArg Host.Outcome.next (startIfFree_segMiss ..), trapped_segMiss { s with cur := (c, x) } tag⟩
    · rw [State.judgeKey_starts (key := (tag, rot, miss)) _ hc hm]
      exact congrArg Host.Outcome.next (startIfFree_keyStands hw hs)
  · change execSectionRetire c x s = _
    simp only [execSectionRetire, ho, hn, Bool.false_eq_true, if_false]

/-- Settles O23. -/
theorem sections : Obligations.Sections := by
  unfold Obligations.Sections
  exact ⟨headers, sectionWaits, sectionsRun⟩

end Sys2Proof.Claims
end

section
/-! PROOFS. A task retires, or is killed (03 R33, 29 R372): O37. -/

namespace Sys2Proof.Machine

/-! ### Tables -/

/-- What the default and every entry at a key have, what is read there has. -/
theorem SMap.get_of_forall {α : Type} {P : α → Prop} {d : α} {k : Nat} (hd : P d) (m : SMap α) (h : ∀ v, (k, v) ∈ m → P v) :
    P (SMap.get d m k) := by
  induction m with
  | nil => exact hd
  | cons e m ih =>
    obtain ⟨j, u⟩ := e
    rw [SMap.get]
    split
    · next hk => exact h u (hk ▸ List.mem_cons_self)
    · exact ih fun v hv => h v (List.mem_cons_of_mem _ hv)

/-- A map of a table's values that looks at their keys and keeps the default. -/
theorem SMap.get_map_keyed {α : Type} {d : α} {g : Nat → α → α} (hd : ∀ k, g k d = d) (m : SMap α) (k : Nat) :
    SMap.get d (m.map fun e => (e.1, g e.1 e.2)) k = g k (SMap.get d m k) := by
  induction m with
  | nil => exact (hd k).symm
  | cons e m ih =>
    obtain ⟨j, u⟩ := e
    rw [List.map_cons, SMap.get, SMap.get]
    split
    · next hk => rw [hk]
    · exact ih

/-- A change of one Distributor leaves every part of a Distributor that it leaves there. -/
theorem State.dist_modDist_keeps {α : Type} (p : Dist → α) (s : State) {t : Nat} {f : Dist → Dist} (j : Nat)
    (hf : ∀ q, p (f q) = p q) : p ((s.modDist t f).dist j) = p (s.dist j) := by
  by_cases hj : j = t
  · rw [hj, State.dist_modDist_same, hf]
  · rw [State.dist_modDist_ne _ _ hj]

/-! ### What a task has seen is noted (21 R307) -/

/-- A cluster with the records of its shown stores changed. -/
def Cluster.mapShown (k : Cluster) (f : Access → Shown → Shown) : Cluster :=
  { k with mq := k.mq.map fun b => match b.vis with
    | some v => { b with vis := some (f b v) }
    | none => b }

theorem Cluster.mapShown_none {k : Cluster} (f : Access → Shown → Shown) (h : ∀ a ∈ k.mq, a.vis = none) : k.mapShown f = k := by
  have hmq : (k.mapShown f).mq = k.mq := by
    refine (List.map_congr_left fun a ha => ?_).trans (List.map_id k.mq)
    simp only [h a ha, id]
  calc k.mapShown f = { k with mq := (k.mapShown f).mq } := rfl
    _ = k := by rw [hmq]

theorem State.cl_mapShown (s : State) (f : Nat → Access → Shown → Shown) (c : Nat) : (s.mapShown f).cl c = (s.cl c).mapShown (f c) :=
  SMap.get_map_keyed (g := fun j (k : Cluster) => k.mapShown (f j)) (fun _ => rfl) s.clusters c

/-- What taskSync of cluster c does to the record of a shown store. -/
def State.syncShown (s : State) (c : Nat) (v : Shown) : Shown :=
  if v.seen.any fun y => y.covers c s.seq then { v with seen := v.seen ++ [.die (dieOf c) s.seq] } else v

theorem State.cl_taskSync (s : State) (c d : Nat) : (s.taskSync c).cl d = (s.cl d).mapShown fun _ => s.syncShown c := s.cl_mapShown _ d

theorem State.taskOn_taskSync (s : State) (c : Nat) : (s.taskSync c).taskOn c = s.taskOn c := by
  unfold State.taskOn
  rw [State.cl_taskSync]
  rfl

/-! ### The parts of a retirement (R33) -/

theorem State.markRecords_none {s : State} {c : Nat} (h : (s.cl c).marks = []) : s.markRecords c = s := by
  simp only [State.markRecords, h, List.filter_nil, List.flatMap_cons, List.flatMap_nil, List.append_nil, List.foldl_nil]

theorem State.dropRecords_none {s : State} {c : Nat} (h : (s.cl c).m.drop = []) : s.dropRecords c = s := by
  rw [State.dropRecords, h, List.foldl_nil]

/-- The engines of a cluster that its task has left are idle. -/
theorem Cluster.vacate_idle (k : Cluster) {e : Nat} (he : e < 5) : (k.vacate.cx e).run = .idle := by
  refine SMap.get_of_forall (P := fun x : Ctx => x.run = .idle) rfl _ fun v hv => ?_
  obtain ⟨a, -, ha⟩ := List.mem_filterMap.1 hv
  split at ha
  · cases ha
    rfl
  · next hge =>
    split at ha
    · exact nomatch ha
    · cases ha
      exact absurd he hge

theorem State.retireTask_task (s : State) (c : Nat) : ((s.retireTask c).cl c).task = none :=
  congrArg Cluster.task (State.cl_modCl_same ..)

/-- A Distributor's tasks once task x has left. -/
def Dist.without (q : Dist) (x : Task) : List Task :=
  (q.tasks.filter fun y => y.tid != x.tid).map fun y => { y with waits := y.waits.filter (· != x.seq) }

theorem Dist.mem_without {q : Dist} {x z : Task} (h : z ∈ q.without x) : z.tid ≠ x.tid ∧ x.seq ∉ z.waits := by
  obtain ⟨y, hy, rfl⟩ := List.mem_map.1 h
  exact ⟨by simpa using (List.mem_filter.1 hy).2, by simp⟩

theorem Dist.without_keeps {q : Dist} {x y : Task} (hy : y ∈ q.tasks) (h : y.tid ≠ x.tid) :
    ∃ z ∈ q.without x, z.tid = y.tid ∧ z.rcd = y.rcd ∧ z.place = y.place :=
  ⟨_, List.mem_map.2 ⟨y, List.mem_filter.2 ⟨hy, by simpa using h⟩, rfl⟩, rfl, rfl, rfl⟩

/-- Task x leaves the Distributor of die t, and its master keeps no part of a launch in its place. -/
def State.leaves (s : State) (t : Nat) (x : Task) : State :=
  (s.modDist t fun q => { q with tasks := q.without x }).modDist ((s.modDist t fun q => { q with tasks := q.without x }).dist t).master
    fun m => { m with kept := m.kept.filter fun e => !(e.die == t && e.tid == x.tid) }

theorem State.forget_eq (s : State) (t : Nat) (x : Task) : s.forget t x = (s.leaves t x).launchTodo t := rfl

theorem State.tasks_leaves (s : State) (t : Nat) (x : Task) : ((s.leaves t x).dist t).tasks = (s.dist t).without x := by
  rw [State.leaves, State.dist_modDist_keeps Dist.tasks]
  · rw [State.dist_modDist_same]
  · exact fun _ => rfl

theorem State.todo_leaves (s : State) (t : Nat) (x : Task) : ((s.leaves t x).dist t).todo = (s.dist t).todo := by
  rw [State.leaves, State.dist_modDist_keeps Dist.todo]
  · rw [State.dist_modDist_same]
  · exact fun _ => rfl

/-- Without parts of a launch that wait, none is tried. -/
theorem State.launchTodo_none {s : State} {t : Nat} (h : (s.dist t).todo = []) :
    s.launchTodo t = s.modDist t fun q => { q with todo := [] } := by
  rw [State.launchTodo, h, List.foldl_nil]

section
variable {s : State} {t : Nat} (x : Task) (h : (s.dist t).todo = [])
include h

theorem State.forget_of_todo_nil : s.forget t x = (s.leaves t x).modDist t fun q => { q with todo := [] } :=
  State.launchTodo_none ((s.todo_leaves t x).trans h)

theorem State.tasks_forget : ((s.forget t x).dist t).tasks = (s.dist t).without x := by
  rw [State.forget_of_todo_nil x h, State.dist_modDist_same]
  exact s.tasks_leaves t x

theorem State.cl_forget (d : Nat) : (s.forget t x).cl d = s.cl d := by
  rw [State.forget_of_todo_nil x h]
  rfl

theorem State.mem_forget : (s.forget t x).mem = s.mem := by
  rw [State.forget_of_todo_nil x h]
  rfl

end

theorem State.retireTask_of_taskOn {s : State} {c : Nat} {x : Task} (h : s.taskOn c = some x) :
    s.retireTask c = ((s.taskSync c).forget (dieOf c) x).modCl c Cluster.vacate := by
  rw [← State.taskOn_taskSync] at h
  simp only [State.retireTask, h]

theorem State.task_of_taskOn {s : State} {c : Nat} {x : Task} (h : s.taskOn c = some x) : (s.cl c).task.isSome = true := by
  unfold State.taskOn at h
  split at h
  · exact nomatch h
  · next hr => rw [hr]; rfl

/-! ### A kill (29 R372) -/

/-- The mask that clears one bit of a word clears that bit. -/
theorem getLsbD_and_clear (b : BitVec 32) (i : Nat) : (b &&& BitVec.ofNat 32 (2 ^ 32 - 1 - 2 ^ i)).getLsbD i = false := by
  by_cases hi : i < 32
  · have hbit : (2 ^ 32 - (2 ^ i + 1)).testBit i = false := by
      rw [Nat.testBit_two_pow_sub_succ (Nat.pow_lt_pow_right (by decide) hi), Nat.testBit_two_pow_self, Bool.not_true, Bool.and_false]
    rw [BitVec.getLsbD_and, BitVec.getLsbD_ofNat, Nat.sub_sub, Nat.add_comm 1, hbit, Bool.and_false, Bool.and_false]
  · exact BitVec.getLsbD_of_ge _ _ (Nat.le_of_not_lt hi)

end Sys2Proof.Machine
end

section
namespace Sys2Proof.Claims
open Sys2Proof.Machine

section
variable {s : State} {c : Nat}

/-- TASK_RETIREMENT of a task that has arrived with nothing of it left. -/
theorem taskRetirement_retires {x : Task} (hx : s.taskOn c = some x) (hk : (s.sup (dieOf c)).cmd ≠ some (.kill c))
    (hd : s.beingDropped c = false) (hr : ((s.cl c).cx 0).run = .arrived) (hq : s.quiet c = true) (hp : (s.cl c).pend = [])
    (hl : (s.cl c).land = []) (h5 : ((s.cl c).cx 5).trapHandler = false) (h6 : ((s.cl c).cx 6).trapHandler = false)
    (hm : (s.cl c).marks = []) (hdrop : (s.cl c).m.drop = []) :
    exec (.taskRetirement c) s = .next (((s.taskSync c).forget (dieOf c) x).modCl c Cluster.vacate) := by
  change execTaskRetirement c s = _
  simp only [execTaskRetirement, if_neg hk, State.task_of_taskOn hx, hd, hr, hq, hp, hl, h5, h6, State.markRecords_none hm,
    State.dropRecords_none hdrop, State.retireTask_of_taskOn hx]
  rfl

theorem taskRetirement_kills (hk : (s.sup (dieOf c)).cmd = some (.kill c)) (hq : s.quiet c = true) :
    exec (.taskRetirement c) s = .next (s.killed c) := by
  change execTaskRetirement c s = _
  simp only [execTaskRetirement, if_pos hk, if_pos hq]

/-- The cluster of a killed task is free, and no longer halted. -/
theorem killed_cluster (s : State) (c : Nat) : ((s.killed c).cl c).task = none ∧ ((s.killed c).cl c).halted = false := by
  simp only [State.killed, State.cl_congr (State.clusters_modSup _ _ _), State.cl_modCl_same, State.retireTask_task, and_self]

/-- A kill is done with OK, and the cluster is neither escalated nor frozen. -/
theorem killed_sup (s : State) (c : Nat) : ((s.killed c).sup (dieOf c)).rspDone = true ∧ ((s.killed c).sup (dieOf c)).rspOk = true ∧
    ((s.killed c).sup (dieOf c)).cmd = none ∧ ((s.killed c).sup (dieOf c)).esc.getLsbD (localOf c) = false ∧
    ((s.killed c).sup (dieOf c)).frz.getLsbD (localOf c) = false := by
  rw [State.killed, State.sup_modSup_same]
  exact ⟨rfl, rfl, rfl, getLsbD_and_clear .., getLsbD_and_clear ..⟩

end

/-- Settles O37. -/
theorem taskRetires : Obligations.TaskRetires := by
  unfold Obligations.TaskRetires
  intro s c
  refine ⟨fun x hx hk hd hr hq hp hl h5 h6 hm hdrop => ?_, fun hk hq => ?_⟩
  · refine ⟨_, taskRetirement_retires hx hk hd hr hq hp hl h5 h6 hm hdrop, ?_⟩
    rw [State.cl_modCl_same]
    refine ⟨rfl, rfl, fun e he => Cluster.vacate_idle _ he, fun htodo => ?_⟩
    have htodo' : ((s.taskSync c).dist (dieOf c)).todo = [] := htodo
    have htasks : ((((s.taskSync c).forget (dieOf c) x).modCl c Cluster.vacate).dist (dieOf c)).tasks = (s.dist (dieOf c)).without x :=
      State.tasks_forget x htodo'
    rw [htasks]
    refine ⟨fun y hy => Dist.mem_without hy, fun y hy hne => Dist.without_keeps hy hne, State.mem_forget x htodo', fun d hd => ?_⟩
    rw [State.cl_modCl_ne _ _ hd, State.cl_forget x htodo', State.cl_taskSync]
    exact ⟨rfl, Cluster.mapShown_none _⟩
  · obtain ⟨htask, hhalt⟩ := killed_cluster s c
    exact ⟨_, taskRetirement_kills hk hq, htask, hhalt, killed_sup s c⟩

end Sys2Proof.Claims
end

section
/-! PROOFS. p0 reads 1 and registers read back what was written (07 R90): O56. -/

namespace Sys2Proof.Machine

/-- A predicate but p0 reads back what was written, and the others stay. -/
theorem Ctx.getP_putP (e : Ctx) {i : BitVec 3} (v : Bool) {j : Nat} (hi : i ≠ 0) (hj : j < 8) :
    (e.putP i.toNat v).getP j = if j = i.toNat then v else e.getP j := by
  have hi0 : i.toNat ≠ 0 := fun h => hi (BitVec.eq_of_toNat_eq h)
  have hbit : (BitVec.ofNat 8 (2 ^ i.toNat)).getLsbD j = decide (i.toNat = j) := by
    rw [BitVec.getLsbD_ofNat, Nat.testBit_two_pow, decide_eq_true hj, Bool.true_and]
  have hnot : (~~~BitVec.ofNat 8 (2 ^ i.toNat)).getLsbD j = !decide (i.toNat = j) := by
    rw [BitVec.getLsbD_not, decide_eq_true hj, Bool.true_and, hbit]
  rw [Ctx.putP, if_neg hi0]
  by_cases hji : j = i.toNat
  · subst hji
    cases v
    · simp only [Ctx.getP, Bool.false_eq_true, if_false, BitVec.getLsbD_and, hnot]
      simp [hi0]
    · simp only [Ctx.getP, if_true, BitVec.getLsbD_or, hbit]
      simp
  · cases v
    · simp only [Ctx.getP, Bool.false_eq_true, if_false, BitVec.getLsbD_and, hnot]
      simp [hji, Ne.symm hji]
    · simp only [Ctx.getP, if_true, BitVec.getLsbD_or, hbit]
      simp [hji, Ne.symm hji]

theorem Ctx.getS_putS_same (e : Ctx) (n : Nat) (v : Word) : (e.putS n v).getS n = v := SMap.get_put_same _ _ _ _
theorem Ctx.getS_putS_ne (e : Ctx) {n j : Nat} (v : Word) (h : j ≠ n) : (e.putS n v).getS j = e.getS j := SMap.get_put_ne _ _ _ h
theorem Ctx.getB_putB_same (e : Ctx) (n : Nat) (v : Parcel) : (e.putB n v).getB n = v := SMap.get_put_same _ _ _ _
theorem Ctx.getB_putB_ne (e : Ctx) {n j : Nat} (v : Parcel) (h : j ≠ n) : (e.putB n v).getB j = e.getB j := SMap.get_put_ne _ _ _ h

/-- A change that leaves the issuing context as it is leaves every context as it is. -/
theorem State.cx_modCtx_self (s : State) {f : Ctx → Ctx} (hf : f s.ctx = s.ctx) (c x : Nat) : ((s.modCtx f).cl c).cx x = (s.cl c).cx x := by
  by_cases hc : c = s.cur.1
  · subst hc
    change (s.modCtx f).me.cx x = s.me.cx x
    rw [State.me_modCtx]
    by_cases hx : x = s.cur.2
    · subst hx
      exact (Cluster.cx_modCx_same ..).trans hf
    · exact Cluster.cx_modCx_ne _ _ hx
  · rw [State.cl_modCtx_ne _ _ hc]

theorem State.ctx_putOpnd_s (s : State) (i : BitVec 6) (v : Word) : (s.putOpnd (.s i) v).ctx = s.ctx.putS i.toNat v := by
  rw [State.putOpnd, State.ctx_modCtx, State.ctx_modMe _ _ rfl]

theorem State.ctx_putOpnd_b (s : State) (i : BitVec 3) (v : Word) : (s.putOpnd (.b i) v).ctx = s.ctx.putB i.toNat (v.setWidth 32) := by
  rw [State.putOpnd, State.ctx_modCtx]

theorem State.ctx_putPred_p (s : State) (i : BitVec 3) (v : Bool) : (s.putPred (.p i) v).ctx = s.ctx.putP i.toNat v := by
  rw [State.putPred, State.putOpnd, State.ctx_modCtx]
  cases v <;> rfl

end Sys2Proof.Machine

namespace Sys2Proof.Claims
open Sys2Proof.Machine

/-- Settles O56. -/
theorem registersReadBack : Obligations.RegistersReadBack := by
  unfold Obligations.RegistersReadBack
  refine ⟨fun _ => rfl, fun s v c x => s.cx_modCtx_self rfl c x, fun s i v hi => ?_, fun s i v => ?_, fun s i v => ?_⟩
  · have hget {j : Nat} (hj : j < 8) : (s.putPred (.p i) v).ctx.getP j = if j = i.toNat then v else s.ctx.getP j := by
      rw [s.ctx_putPred_p, Ctx.getP_putP _ _ hi hj]
    exact ⟨by rw [hget i.isLt, if_pos rfl], fun j hj hji => by rw [hget hj, if_neg hji]⟩
  · rw [s.ctx_putOpnd_s]
    exact ⟨Ctx.getS_putS_same .., fun j hj => Ctx.getS_putS_ne _ _ hj⟩
  · have hv : (v.setWidth 64).setWidth 32 = v := BitVec.setWidth_setWidth_of_le v (by decide)
    rw [s.ctx_putOpnd_b, hv]
    exact ⟨Ctx.getB_putB_same .., fun j hj => Ctx.getB_putB_ne _ _ hj⟩

end Sys2Proof.Claims
end

section
/-! PROOFS. GETC and SETC of the control registers (07 R109, 11 R161): O8. -/

namespace Sys2Proof.Machine

/-! ### States that read alike -/

theorem State.cur_of_rest {s t : State} (h : t.rest = s.rest) : t.cur = s.cur := by
  have hcur := congrArg State.cur h
  exact hcur

theorem State.cycle_of_rest {s t : State} (h : t.rest = s.rest) : t.cycle = s.cycle := by
  have hcyc := congrArg State.cycle h
  exact hcyc

/-- A state that reads as another does is that state but for sequencing. -/
theorem OnlySequencing.of_cl {u t : State} (hrest : t.rest = u.rest) (hcl : ∀ c, t.cl c = u.cl c) : OnlySequencing u t := by
  have hcur := State.cur_of_rest hrest
  have hme : t.me = u.me := by rw [State.me, State.me, hcur, hcl]
  exact ⟨hrest, fun c _ => hcl c, by rw [hme], fun _ _ => by rw [hme], by rw [State.ctx, State.ctx, hcur, hme]⟩

theorem State.cl_modMe_self (s : State) {f : Cluster → Cluster} (hf : f s.me = s.me) (c : Nat) : (s.modMe f).cl c = s.cl c := by
  by_cases hc : c = s.cur.1
  · subst hc
    exact (State.cl_modCl_same ..).trans hf
  · exact State.cl_modMe_ne s f hc

theorem State.cl_modMe_congr {s t : State} (hcur : t.cur = s.cur) (hcl : ∀ c, t.cl c = s.cl c) (f : Cluster → Cluster) (c : Nat) :
    (t.modMe f).cl c = (s.modMe f).cl c := by
  by_cases hc : c = s.cur.1
  · have hc' : c = t.cur.1 := by rw [hcur, hc]
    rw [State.modMe, State.modMe, ← hc, ← hc', State.cl_modCl_same, State.cl_modCl_same, hcl]
  · rw [State.cl_modMe_ne s f hc, State.cl_modMe_ne t f (by rwa [hcur]), hcl]

theorem State.cl_modCtx_congr {s t : State} (hcur : t.cur = s.cur) (hcl : ∀ c, t.cl c = s.cl c) (g : Ctx → Ctx) (c : Nat) :
    (t.modCtx g).cl c = (s.modCtx g).cl c := by
  change (t.modMe fun k => k.modCx t.cur.2 g).cl c = (s.modMe fun k => k.modCx s.cur.2 g).cl c
  rw [hcur]
  exact State.cl_modMe_congr hcur hcl _ c

theorem State.cl_putOpnd_congr {s t : State} (hrest : t.rest = s.rest) (hcl : ∀ c, t.cl c = s.cl c) (o : Opnd) (v : Word) (c : Nat) :
    (t.putOpnd o v).cl c = (s.putOpnd o v).cl c := by
  have hcur := State.cur_of_rest hrest
  cases o
  case s i =>
    simp only [State.putOpnd, hcur, State.cycle_of_rest hrest]
    exact State.cl_modCtx_congr (s := s.modMe _) (t := t.modMe _) hcur (State.cl_modMe_congr hcur hcl _) _ c
  case p i => exact State.cl_modCtx_congr hcur hcl _ c
  case b i => exact State.cl_modCtx_congr hcur hcl _ c
  all_goals exact hcl c

theorem State.rest_putOpnd (s : State) (o : Opnd) (v : Word) : (s.putOpnd o v).rest = s.rest := by cases o <;> rfl

/-! ### The answers of GETC and SETC -/

section
variable {w : AForm} {s : State}

theorem execGetc_value {v : Nat} (hd : s.dstS w.dst = .ok ()) (hn : w.imm.toNat ≠ 0x011) (hv : s.control w.imm.toNat = some v) :
    execGetc w s = finish s 3 (.ok (s.putOpnd w.dst (BitVec.ofNat 64 v))) := by
  simp only [execGetc, hd, ok_bind, if_neg hn, hv, pure_eq_ok]

theorem execGetc_illegal (hd : s.dstS w.dst = .ok ()) (hn : w.imm.toNat ≠ 0x011) (hv : s.control w.imm.toNat = none) :
    execGetc w s = .next (s.trapHere { cause := .illegal }) := by
  simp only [execGetc, hd, ok_bind, if_neg hn, hv]
  rfl

/-- A state whose cluster has its ECNTW read. -/
def State.ecntwRead (s : State) (v : BitVec 64) : State :=
  { s with free := s.free + 1 }.modMe fun k => { k with ecntw := v, vAcc := false }

theorem execGetc_ecntw (hd : s.dstS w.dst = .ok ()) (hn : w.imm = 0x011) : execGetc w s = finish s 3 (.ok
    ((s.ecntwRead (if s.me.vAcc then s.me.ecntw + Config.freeCount s.free else s.me.ecntw)).putOpnd w.dst
      (if s.me.vAcc then s.me.ecntw + Config.freeCount s.free else s.me.ecntw))) := by
  have hn' : w.imm.toNat = 0x011 := congrArg BitVec.toNat hn
  simp only [execGetc, hd, ok_bind, if_pos hn', pure_eq_ok]
  rfl

/-- Reading ECNTW where no v register was named since leaves every cluster as it is. -/
theorem State.cl_ecntwRead_kept (h : s.me.vAcc = false) (c : Nat) :
    (s.ecntwRead s.me.ecntw).cl c = ({ s with free := s.free + 1 } : State).cl c := by
  refine State.cl_modMe_self _ ?_ c
  change { s.me with ecntw := s.me.ecntw, vAcc := false } = s.me
  rw [← h]

theorem execSetc_unknown (hn : w.imm.toNat ∉ [0x000, 0x003, 0x004, 0x006, 0x011]) :
    execSetc w s = .next (s.trapHere { cause := .illegal }) := by
  have hne : w.imm.toNat ≠ 0x004 := fun h => hn (by rw [h]; decide)
  have hc : ([0x000, 0x003, 0x004, 0x006, 0x011] : List Nat).contains w.imm.toNat = false := by simpa using hn
  simp only [execSetc, if_neg hne, hc]
  rfl

theorem execSetc_priv (hn : w.imm = 0x004) (hx : engOf s.cur.2 ≠ 0) : execSetc w s = .next (s.trapHere { cause := .priv }) := by
  have hx' : (engOf s.cur.2 != 0) = true := bne_iff_ne.2 hx
  have hn' : w.imm.toNat = 0x004 := congrArg BitVec.toNat hn
  simp only [execSetc, hn', if_true, hx']
  rfl

theorem execSetc_bank {v : Word} (hn : w.imm = 0x004) (hx : engOf s.cur.2 = 0) (hv : s.srcS w.sa 2 (ftBit w 2) = .ok v) :
    execSetc w s = finishWait s (s.writeBank v (BitVec.allOnes 64)) := by
  have hn' : w.imm.toNat = 0x004 := congrArg BitVec.toNat hn
  simp only [execSetc, hn', if_true, hx, hv]
  rfl

theorem execSetc_vflags {v : Word} (hn : w.imm = 0x000) (hv : s.srcS w.sa 2 (ftBit w 2) = .ok v) :
    execSetc w s = finish s 3 (.ok (s.lands 1 .null (.clrFlags (v.setWidth 32)) 0)) := by
  have hn' : w.imm.toNat = 0x000 := congrArg BitVec.toNat hn
  simp only [execSetc, hn', hv]
  rfl

theorem execSetc_vrb {v : Word} (hn : w.imm = 0x003) (hv : s.srcS w.sa 2 (ftBit w 2) = .ok v) (hok : vrbOk v.toNat = true) :
    execSetc w s = finish s 3 (.ok (s.modCtx fun e => { e with vrb := v.setWidth 32 &&& 0x0FFFFFFF })) := by
  have hn' : w.imm.toNat = 0x003 := congrArg BitVec.toNat hn
  simp only [execSetc, hn', hv]
  change finish s 3 (if vrbOk v.toNat = true then _ else _) = _
  rw [if_pos hok]
  rfl

theorem execSetc_vrbBad {v : Word} (hn : w.imm = 0x003) (hv : s.srcS w.sa 2 (ftBit w 2) = .ok v) (hbad : vrbOk v.toNat = false) :
    execSetc w s = .next (s.trapHere { cause := .illegal, opnd := 2 }) := by
  have hn' : w.imm.toNat = 0x003 := congrArg BitVec.toNat hn
  simp only [execSetc, hn', hv]
  change finish s 3 (if vrbOk v.toNat = true then _ else _) = _
  rw [if_neg (by rw [hbad]; exact Bool.false_ne_true)]
  rfl

theorem execSetc_cause {v : Word} (hn : w.imm = 0x006) (hv : s.srcS w.sa 2 (ftBit w 2) = .ok v) :
    execSetc w s = finish s 3 (.ok (s.modCtx fun e => { e with cause := v.setWidth 32 &&& 0x000F00FF })) := by
  have hn' : w.imm.toNat = 0x006 := congrArg BitVec.toNat hn
  simp only [execSetc, hn', hv]
  rfl

theorem execSetc_ecntw {v : Word} (hn : w.imm = 0x011) (hv : s.srcS w.sa 2 (ftBit w 2) = .ok v) :
    execSetc w s = finish s 3 (.ok (s.lands 1 .null (.ecnt v) 0)) := by
  have hn' : w.imm.toNat = 0x011 := congrArg BitVec.toNat hn
  simp only [execSetc, hn', hv]
  rfl

end

/-! ### VRB (07 R106) -/

theorem bitsNat_eq_div (v : Nat) {hi lo n : Nat} (h : 2 ^ (hi + 1 - lo) = n := by rfl) : bitsNat v hi lo = v / 2 ^ lo % n := by
  rw [bitsNat, Nat.shiftRight_eq_div_pow, h]

/-- The values that VRB may take: the window lies in the register file, and BASE in the window. -/
theorem vrbOk_iff (v : Nat) : vrbOk v = true ↔ v / 2 ^ 9 % 512 + v / 2 ^ 18 % 1024 ≤ 512 ∧
    (v / 2 ^ 18 % 1024 = 0 → v % 512 = 0) ∧ (0 < v / 2 ^ 18 % 1024 → v % 512 < v / 2 ^ 18 % 1024) := by
  have hsize : bitsNat v 27 18 = v / 2 ^ 18 % 1024 := bitsNat_eq_div v
  have hws : bitsNat v 17 9 = v / 2 ^ 9 % 512 := bitsNat_eq_div v
  have hbase : bitsNat v 8 0 = v % 512 := rfl
  generalize v / 2 ^ 18 % 1024 = size at hsize ⊢
  simp only [vrbOk, hsize, hws, hbase, Bool.and_eq_true, decide_eq_true_eq]
  refine and_congr_right fun _ => ?_
  split
  next h => simp [h]
  next h => simp [h, Nat.pos_of_ne_zero h]

theorem toNat_vrbMask (v : Word) : (v.setWidth 32 &&& 0x0FFFFFFF).toNat = v.toNat % 2 ^ 28 := by
  have hmask : (0x0FFFFFFF : BitVec 32).toNat = 2 ^ 28 - 1 := rfl
  rw [BitVec.toNat_and, hmask, Nat.and_two_pow_sub_one_eq_mod, BitVec.toNat_setWidth, Nat.mod_mod_of_dvd]
  exact Nat.pow_dvd_pow 2 (by decide)

/-- Completing a word with no loop open leaves VRB. -/
theorem State.vrb_complete {s : State} {len : Nat} (hs : Straight s len) (hl : s.ctx.loops = []) : (s.complete len).ctx.vrb = s.ctx.vrb := by
  obtain ⟨hin, hlo, hhi, -⟩ := hs
  have hstep : s.ctx.stepsAt (s.ctx.pc + BitVec.ofNat 32 len) = false := by rw [Ctx.stepsAt, hl]
  rw [State.complete, State.ctx_issuedWord]
  by_cases hend : (s.ctx.pc + BitVec.ofNat 32 len).toNat = s.ctx.secE
  · have harr : (s.modCtx fun e => { e with loops := s.ctx.loops, vrb := s.ctx.vrb }).arrive (s.ctx.pc + BitVec.ofNat 32 len) =
        .ok ((s.modCtx fun e => { e with loops := s.ctx.loops, vrb := s.ctx.vrb }).leaveTo (s.ctx.pc + BitVec.ofNat 32 len)) := by
      rw [State.arrive, if_pos (by rw [State.ctx_modCtx]; exact ⟨hin, hend⟩)]
    simp [State.succeed, loopStep_of_not_stepsAt _ hstep, harr, hstep, State.leaveTo]
  · have hinside : s.ctx.inside (s.ctx.pc + BitVec.ofNat 32 len) = true := by
      simp only [Ctx.inside, hin, Bool.true_and, Bool.and_eq_true, decide_eq_true_eq]
      exact ⟨hlo, Nat.lt_of_le_of_ne hhi hend⟩
    rw [State.succeed_inside hinside hstep, State.ctx_modCtx, State.ctx_modCtx]

/-! ### BANKCTL -/

theorem bankState_eq (v : BitVec 64) (b : Nat) : bankState v b = v.toNat / 4 ^ b % 4 := by
  have hw : 2 * b + 1 + 1 - 2 * b = 2 := by omega
  rw [bankState, bitsNat, hw, Nat.shiftRight_eq_div_pow, Nat.pow_mul]
  rfl

/-- A BANKCTL write that names no state 3 waits for the end of the cycle. -/
theorem State.writeBank_of_known {s : State} {v : BitVec 64} (mask : BitVec 64) (h : ∀ b, b < 32 → bankState v b ≠ 3) :
    s.writeBank v mask = .ok (s.modCtx fun e => { e with phase := .bank v mask }) := by
  have hany : ((List.range 32).any fun b => bankState v b == 3) = false :=
    List.any_eq_false.2 fun b hb => by simpa using h b (List.mem_range.1 hb)
  rw [State.writeBank, hany]
  rfl

end Sys2Proof.Machine

namespace Sys2Proof.Claims
open Sys2Proof.Machine

/-- A trap on the current word, other than a refusal, whatever its detail is. -/
theorem trapped_trapHere_some (s : State) {t : Trap} (hr : t.cause ≠ .refused) :
    ∃ i, Trapped (s.trapHere t) s.cur.1 s.cur.2 t.cause t.opnd s.ctx.pc i := by
  obtain ⟨i, hi⟩ := trapped_takeTrap_some s s.cur.1 s.cur.2 s.ctx.pc hr
  exact ⟨i, trapped_used hi⟩

/-- Reading ECNTW leaves the course of its context. -/
theorem sameCourse_ecntwRead (s : State) (v x : BitVec 64) (o : Opnd) : Ctx.sameCourse s.ctx ((s.ecntwRead v).putOpnd o x).ctx :=
  Ctx.sameCourse.trans (sameCourse_modMe { s with free := s.free + 1 } _ rfl) (sameCourse_putOpnd ..)

theorem gives_of_controlReg {i : Instr} {s u : State} (h : ControlReg s i u) (hs : Straight s 3) : Gives i s u := by
  cases h with
  | ecntwKept w hd hn hv =>
    have he := execGetc_ecntw hd hn
    simp only [hv, Bool.false_eq_true, if_false] at he
    obtain ⟨t, ht, ho⟩ := gives_of_finish (i := .getc w) he rfl hs (sameCourse_ecntwRead ..)
    refine ⟨t, ht, (OnlySequencing.of_cl ?_ ?_).trans ho⟩
    · rw [State.rest_putOpnd, State.rest_putOpnd]
      rfl
    · exact State.cl_putOpnd_congr (s := { s with free := s.free + 1 }) (t := s.ecntwRead s.me.ecntw) rfl (State.cl_ecntwRead_kept hv) _ _
  | ecntwCounts w hd hn hv =>
    have he := execGetc_ecntw hd hn
    simp only [hv, if_true] at he
    exact gives_of_finish (i := .getc w) he rfl hs (sameCourse_ecntwRead ..)
  | get w v hd hn hv => exact gives_of_finish (i := .getc w) (execGetc_value hd hn hv) rfl hs (sameCourse_putOpnd ..)
  | vflags w v hn hv => exact gives_of_finish (i := .setc w) (execSetc_vflags hn hv) rfl hs (sameCourse_lands ..)
  | vrb w v hn hv hok =>
    refine gives_of_finish (i := .setc w) (execSetc_vrb hn hv hok) rfl hs ?_
    rw [State.ctx_modCtx]
    exact Ctx.sameCourse_refl _
  | cause w v hn hv =>
    refine gives_of_finish (i := .setc w) (execSetc_cause hn hv) rfl hs ?_
    rw [State.ctx_modCtx]
    exact Ctx.sameCourse_refl _
  | ecntw w v hn hv => exact gives_of_finish (i := .setc w) (execSetc_ecntw hn hv) rfl hs (sameCourse_lands ..)

/-- Settles O8: a lemma for each answer of GETC and SETC; the landings are those of Cluster.land1. -/
theorem controlRegisters : Obligations.ControlRegisters := by
  unfold Obligations.ControlRegisters
  refine ⟨fun i s u h hs => gives_of_controlReg h hs, fun w s hn hv hd => ?_, fun w s h0 h3 h4 h6 h11 => ?_, fun w s hn hx => ?_,
    fun w s v hn hx hv hb => ?_, fun k l m hf hk => ?_, fun k l v hk => ?_,
    fun w s v hn hv hl hs => ⟨fun hsum h0 hpos => ?_, fun hsum => ?_⟩⟩
  · obtain ⟨i, hi⟩ := trapped_trapHere_some s (t := { cause := .illegal }) nofun
    exact ⟨_, i, execGetc_illegal hd hn hv, hi⟩
  · have hne {n : BitVec 24} (h : w.imm ≠ n) : w.imm.toNat ≠ n.toNat := fun h' => h (BitVec.eq_of_toNat_eq h')
    have hmem : w.imm.toNat ∉ [0x000, 0x003, 0x004, 0x006, 0x011] := by
      simp only [List.mem_cons, List.not_mem_nil, or_false, not_or]
      exact ⟨hne h0, hne h3, hne h4, hne h6, hne h11⟩
    obtain ⟨i, hi⟩ := trapped_trapHere_some s (t := { cause := .illegal }) nofun
    exact ⟨_, i, execSetc_unknown hmem, hi⟩
  · have heng : engOf s.cur.2 ≠ 0 := by
      simp only [List.mem_cons, List.not_mem_nil, or_false] at hx
      simp only [engOf]
      split <;> omega
    obtain ⟨i, hi⟩ := trapped_trapHere_some s (t := { cause := .priv }) nofun
    exact ⟨_, i, execSetc_priv hn heng, hi⟩
  · have heng : engOf s.cur.2 = 0 := by
      simp only [List.mem_cons, List.not_mem_nil, or_false] at hx
      simp only [engOf]
      split <;> omega
    change execSetc w s = _
    rw [execSetc_bank hn heng hv, State.writeBank_of_known _ fun b hlt => by rw [bankState_eq]; exact hb b hlt]
    rfl
  · simp [Cluster.land1, hk, hf, Cluster.raise, Cluster.clearFlags]
  · simp [Cluster.land1, hk]
  · have hok : vrbOk v.toNat = true := (vrbOk_iff _).2 ⟨hsum, h0, hpos⟩
    refine ⟨_, execSetc_vrb hn hv hok, ?_⟩
    have hcourse : Ctx.sameCourse s.ctx (s.modCtx fun e => { e with vrb := v.setWidth 32 &&& 0x0FFFFFFF }).ctx := by
      rw [State.ctx_modCtx]
      exact Ctx.sameCourse_refl _
    rw [State.vrb_complete (hs.of_same hcourse) (by rw [State.ctx_modCtx]; exact hl), State.ctx_modCtx, toNat_vrbMask]
  · have hbad : vrbOk v.toNat = false := Bool.eq_false_iff.2 fun h => by
      obtain ⟨hle, -⟩ := (vrbOk_iff _).1 h
      omega
    obtain ⟨i, hi⟩ := trapped_trapHere_some s (t := { cause := .illegal, opnd := 2 }) nofun
    exact ⟨_, i, execSetc_vrbBad hn hv hbad, hi⟩

end Sys2Proof.Claims
end

section
/-! PROOFS. Results land: long-latency results, reads and atomics that have been performed, the streams of an LDQ (07 R93, 13 R187 to
R191): O17. -/

namespace Sys2Proof.Machine

/-- An access that has been performed in an earlier cycle ends as it stands. -/
theorem State.endAccess_performed {s : State} {c : Nat} {a : Access} (ext : List Byte) (hp : a.pieces = []) (hf : a.fail = none)
    (hc : a.cyc < s.cycle.toNat) : s.endAccess c a ext = some (s, a) := by
  simp [State.endAccess, State.performAll, hp, hf, hc]

end Sys2Proof.Machine

namespace Sys2Proof.Claims
open Sys2Proof.Machine

/-- Settles O17: a result that no access holds lands with those of its A-engine word; the others by State.endAccess_performed. -/
theorem resultsLand : Obligations.ResultsLand := by
  unfold Obligations.ResultsLand
  refine ⟨fun c n ext s p hp => ?_, fun c n ext s a hp ha hl hpc hf hc => ?_, fun c n i v ext s a ha hop hl hpc hf he hc => ?_,
    fun c n sid d i ext s a sc ha hop hsc hin hse hpc hf he hc => ?_⟩
  · change execResultLands c n ext s = _
    unfold execResultLands
    split
    next q hq =>
      obtain rfl : q = p := Option.some.inj (hq.symm.trans hp)
      rfl
    next hnone => exact nomatch hnone.symm.trans hp
  · have hne : a.landings.isEmpty = false := by simpa using hl
    change execResultLands c n ext s = _
    simp only [execResultLands, hp, ha, hne, Bool.false_eq_true, if_false, State.endAccess_performed ext hpc hf hc]
  · change execLdqScalesLand c n ext s = _
    simp only [execLdqScalesLand, ha, hop, hl, Bool.false_eq_true, if_false, State.endAccess_performed ext hpc hf hc, he]
    rfl
  · change execLdqDataLands c n ext s = _
    simp only [execLdqDataLands, ha, hop, hsc, hin, Bool.not_true, Bool.false_eq_true, if_false,
      State.endAccess_performed ext hpc hf hc, hse, he]
    rfl

end Sys2Proof.Claims
end

section
/-! PROOFS. Packed elements, scale words and generations (07 R98, 15 R244 to R249): O29. -/

namespace Sys2Proof.Machine

/-! ### Elements of a packed number -/

theorem elemOf_lt (w i x : Nat) : elemOf w i x < 2 ^ w := Nat.mod_lt _ (Nat.two_pow_pos w)

theorem elemOf_eq_div (w i x : Nat) : elemOf w i x = x / 2 ^ (w * i) % 2 ^ w := by rw [elemOf, Nat.shiftRight_eq_div_pow]

theorem packElems_lt (w : Nat) (l : List Nat) : packElems w l < 2 ^ (w * l.length) := by
  induction l with
  | nil => simp [packElems]
  | cons e es ih =>
    have hpow : 2 ^ (w * (es.length + 1)) = 2 ^ w * 2 ^ (w * es.length) := by rw [Nat.mul_succ, Nat.add_comm, Nat.pow_add]
    have he : e % 2 ^ w < 2 ^ w := Nat.mod_lt _ (Nat.two_pow_pos w)
    have hle : 2 ^ w * (packElems w es + 1) ≤ 2 ^ w * 2 ^ (w * es.length) := Nat.mul_le_mul_left _ ih
    rw [packElems, List.length_cons, hpow]
    rw [Nat.mul_succ] at hle
    omega

/-- An element of a packed list is the list's. -/
theorem elemOf_packElems (w : Nat) (l : List Nat) (i : Nat) : elemOf w i (packElems w l) = l.getD i 0 % 2 ^ w := by
  induction l generalizing i with
  | nil => simp [packElems, elemOf]
  | cons e es ih =>
    have he : e % 2 ^ w < 2 ^ w := Nat.mod_lt _ (Nat.two_pow_pos w)
    rw [packElems]
    cases i with
    | zero => rw [elemOf, Nat.mul_zero, Nat.shiftRight_zero, Nat.add_mul_mod_self_left, Nat.mod_mod, List.getD_cons_zero]
    | succ i =>
      have hdiv : (e % 2 ^ w + 2 ^ w * packElems w es) / 2 ^ w = packElems w es := by
        rw [Nat.add_mul_div_left _ _ (Nat.two_pow_pos w), Nat.div_eq_of_lt he, Nat.zero_add]
      rw [List.getD_cons_succ, ← ih, elemOf_eq_div, elemOf_eq_div, Nat.mul_succ, Nat.add_comm (w * i), Nat.pow_add, ← Nat.div_div_eq_div_mul, hdiv]

/-- An element of a register that is packed from the values of a function. -/
theorem elemOf_ofNat_packElems {w n N : Nat} (f : Nat → Nat) (hN : w * n = N) {i : Nat} (hi : i < n) :
    elemOf w i (BitVec.ofNat N (packElems w ((List.range n).map f))).toNat = f i % 2 ^ w := by
  have hlt := packElems_lt w ((List.range n).map f)
  rw [List.length_map, List.length_range, hN] at hlt
  rw [BitVec.toNat_ofNat, Nat.mod_eq_of_lt hlt, elemOf_packElems, List.getD_eq_getElem _ _ (by simpa using hi), List.getElem_map,
    List.getElem_range]

/-- Byte j of a scale register made from its bytes. -/
theorem kByte_kPack (f : Nat → Nat) {j : Nat} (hj : j < 16) : elemOf 8 j (kPack f).toNat = f j % 256 :=
  elemOf_ofNat_packElems f rfl hj

/-- A scale register made from bytes that are bytes. -/
theorem kByte_kPack_of_lt {f : Nat → Nat} {j : Nat} (hj : j < 16) (hf : f j < 256) : elemOf 8 j (kPack f).toNat = f j := by
  rw [kByte_kPack f hj, Nat.mod_eq_of_lt hf]

theorem kByte_lt (k : KWord) (j : Nat) : kByte k j < 256 := elemOf_lt 8 j _

/-- Byte j of a byte-wise scale operation, whose results have six bits. -/
theorem kByte_kBytewise (w : AForm) (a : KWord) {f : Nat → Nat} {j : Nat} (hj : j < 16) (hf : f j < 64) :
    elemOf 8 j (kBytewise w a f).toNat = if kExcl w j then kByte a j else kByte a j / 64 * 64 + f j := by
  have ha := kByte_lt a j
  rw [kBytewise, kByte_kPack_of_lt hj]
  · rw [Nat.mod_eq_of_lt hf]
  · split <;> omega

/-- A number's halves of 64 bits, byte by byte. -/
theorem elemOf_halves (a b : Word) {j : Nat} (hj : j < 16) : elemOf 8 j (BitVec.ofNat 128 (a.toNat + b.toNat * 2 ^ 64)).toNat =
    if j < 8 then elemOf 8 j a.toNat else elemOf 8 (j - 8) b.toNat := by
  have ha := a.isLt
  have hb := b.isLt
  rw [BitVec.toNat_ofNat, Nat.mod_eq_of_lt (by omega)]
  simp only [elemOf_eq_div]
  split
  next h =>
    obtain ⟨m, hm⟩ := Nat.exists_eq_add_of_le (show 8 * j + 8 ≤ 64 by omega)
    have hpow : 2 ^ 64 = 2 ^ (8 * j) * (2 ^ 8 * 2 ^ m) := by rw [hm, Nat.pow_add, Nat.pow_add, Nat.mul_assoc]
    rw [hpow, ← Nat.mul_assoc, Nat.mul_comm b.toNat, Nat.mul_assoc, Nat.add_mul_div_left _ _ (Nat.two_pow_pos _), Nat.mul_left_comm,
      Nat.add_mul_mod_self_left]
  next h =>
    have hpow : 2 ^ (8 * j) = 2 ^ 64 * 2 ^ (8 * (j - 8)) := by
      rw [← Nat.pow_add]
      congr 1
      omega
    rw [hpow, ← Nat.div_div_eq_div_mul, Nat.mul_comm b.toNat, Nat.add_mul_div_left _ _ (Nat.two_pow_pos _), Nat.div_eq_of_lt ha, Nat.zero_add]

/-! ### Results of scale words -/

/-- A word without queue sources pops nothing. -/
theorem State.resultK_pops_nil (s : State) (d : Opnd) (k : KWord) (f : Flags) : (s.pops []).resultK d k f = s.resultK d k f := by
  have hctx : (s.pops []).ctx = s.ctx := State.ctx_modMe s _ rfl
  rw [State.resultK, State.lands, hctx]
  refine (State.modCl_modCl s s.cur.1 (fun k => { k with land := k.land ++ [] }) _).trans ?_
  simp only [List.append_nil]
  rfl

/-- The addend of KADD: an s register's low byte, or that of IMM24. -/
def kaddend (s : State) (w : AForm) (m : Nat) : Prop :=
  (∃ i x, w.sb = .s i ∧ s.srcS w.sb 3 (ftBit w 3) = .ok x ∧ m = x.toNat) ∨ (w.sb = .null ∧ m = w.imm.toNat)

/-- Byte j of KADD's result before it is clamped. -/
def kaddByte (a : KWord) (m j : Nat) : Int := ((kByte a j % 64 : Nat) : Int) + sgn 8 m

theorem execKadd_eq {s : State} {w : AForm} {a : KWord} {m : Nat} (ha : s.srcK w.sa 2 (ftBit w 2) = .ok a) (hm : kaddend s w m)
    (hd : s.dstK w.dst = .ok ()) : execKadd w s = finish s 3 (.ok (s.resultK w.dst
      (kBytewise w a fun j => (max 0 (min 63 (kaddByte a m j))).toNat)
      (if (List.range 16).any fun j => !kExcl w j && !decide (0 ≤ kaddByte a m j ∧ kaddByte a m j ≤ 63) then fSAT else 0))) := by
  have hout (e : Int) : (!decide (0 ≤ e ∧ e ≤ 63)) = (decide (e < 0) || decide (63 < e)) := by
    rw [Bool.eq_iff_iff]
    simp only [Bool.not_eq_true', decide_eq_false_iff_not, Bool.or_eq_true, decide_eq_true_eq]
    omega
  simp only [hout]
  rcases hm with ⟨i, x, hsb, hx, rfl⟩ | ⟨hsb, rfl⟩
  · rw [hsb] at hx
    simp only [execKadd, ha, hsb, hx, hd, ok_bind]
    rfl
  · simp only [execKadd, ha, hsb, hd, ok_bind]
    rfl

/-- The bytes of KFROM: those of its part are its blocks', the others stay. -/
theorem kByte_kfrom (f : Nat → Nat × Flags) (k : KWord) (nb p : Nat) {j : Nat} (hj : j < 16) :
    elemOf 8 j (kPack fun j => if nb * p ≤ j ∧ j < nb * p + nb then (((List.range nb).map f).getD (j - nb * p) (0, 0)).1
      else kByte k j).toNat = if nb * p ≤ j ∧ j < nb * p + nb then (f (j - nb * p)).1 % 256 else elemOf 8 j k.toNat := by
  rw [kByte_kPack _ hj]
  split
  next h =>
    have hlt : j - nb * p < nb := by omega
    rw [List.getD_eq_getElem _ _ (by simpa using hlt), List.getElem_map, List.getElem_range]
  next => exact Nat.mod_eq_of_lt (kByte_lt k j)

theorem sameCourse_popsResultK (s : State) (qs : List Opnd) (d : Opnd) (k : KWord) (f : Flags) :
    Ctx.sameCourse s.ctx ((s.pops qs).resultK d k f).ctx := (sameCourse_pops s qs).trans (sameCourse_lands ..)

end Sys2Proof.Machine

namespace Sys2Proof.Claims
open Sys2Proof.Machine

/-- A scale word whose checks pass, and that pops no queue register. -/
theorem gives_resultK {i : Instr} {s : State} {r : KWord} {d : Opnd} {fl : Flags} {c : Chk State} (he : exec i s = finish s 3 c)
    (hc : c = .ok (s.resultK d r fl)) (hs : Straight s 3) : Gives i s ((s.pops []).resultK d r fl) :=
  gives_of_finish he (hc.trans (by rw [State.resultK_pops_nil])) hs (sameCourse_popsResultK ..)

/-- The bytes of each scale instruction, and that it completes with them. -/
theorem gives_of_scaleBytes {i : Instr} {s : State} {d : Opnd} {qs : List Opnd} {fl : Flags} {f : Nat → Nat} (h : ScaleBytes s i d qs fl f)
    (hs : Straight s 3) : ∃ r : KWord, Gives i s ((s.pops qs).resultK d r fl) ∧ ∀ j, j < 16 → elemOf 8 j r.toNat = f j := by
  cases h with
  | kmov w k n hsa hk hd =>
    refine ⟨k, gives_of_finish (i := .kmov w) (u := (s.pops []).resultK w.dst k) rfl ?_ hs (sameCourse_popsResultK ..), fun _ _ => rfl⟩
    rw [hsa] at hk ⊢
    simp only [hk, hd, ok_bind]
    rfl
  | kmovQ w v k p n hsa hk hd =>
    refine ⟨k, gives_of_finish (i := .kmov w) (u := (s.pops [w.sa]).resultK w.dst k) rfl ?_ hs (sameCourse_popsResultK ..), fun _ _ => rfl⟩
    rw [hsa] at hk ⊢
    simp only [hk, hd, ok_bind]
    rfl
  | kset w hd =>
    refine ⟨_, gives_resultK (i := .kset w) rfl (by rw [hd]; rfl) hs, fun j hj => ?_⟩
    rw [kByte_kPack _ hj, Nat.mod_mod]
  | ksetOne w k hk =>
    refine ⟨_, gives_resultK (i := .ksetOne w) rfl (by rw [hk]; rfl) hs, fun j hj => ?_⟩
    rw [kByte_kPack_of_lt hj]
    · rfl
    · have hlt := kByte_lt k j
      split <;> omega
  | ksetS w a b ha hb hd => exact ⟨_, gives_resultK (i := .ksetS w) rfl (by rw [ha, hb, hd]; rfl) hs, fun j hj => elemOf_halves a b hj⟩
  | kadd w a n ha hn hd =>
    obtain ⟨m, hm, rfl⟩ : ∃ m, kaddend s w m ∧ n = sgn 8 m := by
      rcases hn with ⟨i, x, hsb, hx, rfl⟩ | ⟨hsb, rfl⟩
      · exact ⟨_, .inl ⟨i, x, hsb, hx, rfl⟩, rfl⟩
      · exact ⟨_, .inr ⟨hsb, rfl⟩, rfl⟩
    refine ⟨_, gives_resultK (i := .kadd w) (execKadd_eq ha hm hd) rfl hs, fun j hj => ?_⟩
    rw [kByte_kBytewise w a hj (by omega)]
    rfl
  | kmax w a b ha hb hd =>
    refine ⟨_, gives_resultK (i := .kmax w) rfl (by rw [ha, hb, hd]; rfl) hs, fun j hj => ?_⟩
    rw [kByte_kBytewise w a hj (by omega)]
    rfl
  | kmin w a b ha hb hd =>
    refine ⟨_, gives_resultK (i := .kmin w) rfl (by rw [ha, hb, hd]; rfl) hs, fun j hj => ?_⟩
    rw [kByte_kBytewise w a hj (by omega)]
    rfl
  | ktype w a ha hd =>
    refine ⟨_, gives_resultK (i := .ktype w) rfl (by rw [ha, hd]; rfl) hs, fun j hj => ?_⟩
    rw [kByte_kPack_of_lt hj]
    · rfl
    · have hlt := kByte_lt a j
      split <;> omega
  | kfrom w v k hv hk =>
    refine ⟨_, gives_resultK (i := .kfrom w) rfl (by rw [hv, hk]; rfl) hs, fun j hj => ?_⟩
    exact kByte_kfrom _ k _ _ hj

theorem gives_of_binding {i : Instr} {s u : State} (h : Binding s i u) (hs : Straight s 3) : Gives i s u := by
  cases h with
  | kbind w k d hk hd => exact gives_of_finish (i := .kbind w) rfl (by rw [hk, hd]; rfl) hs (sameCourse_lands ..)
  | kunb w d hd => exact gives_of_finish (i := .kunb w) rfl (by rw [hd]; rfl) hs (sameCourse_lands ..)
  | kgen w hg hd => exact gives_of_finish (i := .kgen w) rfl (by rw [hg, hd]; rfl) hs (sameCourse_resultS ..)
  | kgenBound w b hb hg hd hbind =>
    exact gives_of_finish (i := .kgenB w) rfl (by simp only [hb, hg, hd, hbind, ok_bind]; rfl) hs (sameCourse_resultS ..)
  | kgenFree w hb hg hd hbind =>
    exact gives_of_finish (i := .kgenB w) rfl (by simp only [hb, hg, hd, hbind, ok_bind]; rfl) hs (sameCourse_resultS ..)

theorem scaleWords : ScaleWords := ⟨fun _ _ _ _ _ _ h hs => gives_of_scaleBytes h hs, fun _ _ _ h hs => gives_of_binding h hs⟩

/-- A write of every bit leaves the value. -/
theorem mergeBits_allOnes {w : Nat} (old v : BitVec w) : mergeBits old v (BitVec.allOnes w) = v := by
  rw [mergeBits, BitVec.not_allOnes, BitVec.and_zero, BitVec.and_allOnes, BitVec.zero_or]

theorem generationsAdvance : GenerationsAdvance := by
  refine ⟨fun k n v => ⟨SMap.get_put_same _ _ _ _, SMap.get_put_same _ _ _ _, rfl, rfl, fun j hj => ?_⟩,
    fun k n v b => ⟨?_, Cluster.bind_putV .., rfl, fun j hj => ?_⟩⟩
  · exact ⟨SMap.get_put_ne _ _ _ hj, SMap.get_put_ne _ _ _ hj⟩
  · rw [Cluster.getV_putV, mergeBits_allOnes]
  · exact ⟨Cluster.getV_putV_ne k _ _ _ hj, Cluster.bind_putV_ne k _ _ _ hj⟩

/-- Settles O29. -/
theorem scales : Obligations.Scales := by
  unfold Obligations.Scales
  exact ⟨scaleWords, generationsAdvance⟩

end Sys2Proof.Claims
end

section
/-! PROOFS. Banks of the register file: the fields of BANKCTL, BANK, waking banks (07 R104, R105, 11 R176): part of O20. -/

namespace Sys2Proof.Machine

/-! ### The fields of BANKCTL -/

/-- The field of bank b in a BANKCTL value. -/
def bankField (v : BitVec 64) (b : Nat) : BitVec 2 := v.extractLsb' (2 * b) 2

theorem bankState_eq_field (v : BitVec 64) (b : Nat) : bankState v b = (bankField v b).toNat := by
  rw [bankState_eq, bankField, BitVec.extractLsb'_toNat, Nat.shiftRight_eq_div_pow, Nat.pow_mul]

theorem bankField_and (v w : BitVec 64) (b : Nat) : bankField (v &&& w) b = bankField v b &&& bankField w b := BitVec.extractLsb'_and

theorem bankField_or (v w : BitVec 64) (b : Nat) : bankField (v ||| w) b = bankField v b ||| bankField w b := BitVec.extractLsb'_or

theorem bankField_not (v : BitVec 64) {b : Nat} (hb : b < 32) : bankField (~~~v) b = ~~~bankField v b := by
  refine BitVec.eq_of_getLsbD_eq fun i hi => ?_
  have hlt : 2 * b + i < 64 := by omega
  simp only [bankField, BitVec.getLsbD_extractLsb', BitVec.getLsbD_not, hi, hlt, decide_true, Bool.true_and]

theorem bankField_bankFields (f n st : Nat) {b : Nat} (hb : b < 32) :
    bankField (bankFields f n st) b = BitVec.ofNat 2 (if f ≤ b ∧ b < f + n then st else 0) := by
  refine BitVec.eq_of_toNat_eq ?_
  rw [bankField, BitVec.extractLsb'_toNat, BitVec.toNat_ofNat]
  exact elemOf_ofNat_packElems (fun b => if f ≤ b ∧ b < f + n then st else 0) rfl hb

/-- The banks that a BANK names take the state it names, and the others keep theirs. -/
theorem Cluster.bankState_bankVal (k : Cluster) (f n : Nat) {st b : Nat} (hb : b < 32) (hst : st < 4) :
    bankState (k.bankVal (bankFields f n st) (bankFields f n 3)) b = if f ≤ b ∧ b < f + n then st else bankState k.bankctl b := by
  rw [bankState_eq_field, Cluster.bankVal, bankField_or, bankField_and, bankField_and, bankField_not _ hb, bankField_bankFields f n _ hb,
    bankField_bankFields f n _ hb]
  split
  · have h3 : BitVec.ofNat 2 3 = BitVec.allOnes 2 := rfl
    rw [h3, BitVec.not_allOnes, BitVec.and_zero, BitVec.and_allOnes, BitVec.zero_or]
    exact Nat.mod_eq_of_lt hst
  · rw [BitVec.and_zero, BitVec.or_zero, bankState_eq_field]
    have h0 : ~~~BitVec.ofNat 2 0 = BitVec.allOnes 2 := rfl
    rw [h0, BitVec.and_allOnes]

theorem bankState_bankFields (f n : Nat) {st b : Nat} (hb : b < 32) (hst : st < 4) :
    bankState (bankFields f n st) b = if f ≤ b ∧ b < f + n then st else 0 := by
  rw [bankState_eq_field, bankField_bankFields f n st hb]
  refine Nat.mod_eq_of_lt ?_
  split <;> omega

/-- The mask of one bank's field has no bit of another's. -/
theorem bankField_mask {b d : Nat} (hd : d < 32) : bankField (BitVec.ofNat 64 (3 * 4 ^ b)) d = if d = b then BitVec.allOnes 2 else 0 := by
  have hpow : 4 ^ b = 2 ^ (2 * b) := (Nat.pow_mul 2 2 b).symm
  refine BitVec.eq_of_getLsbD_eq fun i hi => ?_
  have hlt : 2 * d + i < 64 := by omega
  have hbit : (bankField (BitVec.ofNat 64 (3 * 4 ^ b)) d).getLsbD i = (decide (2 * b ≤ 2 * d + i) && Nat.testBit 3 (2 * d + i - 2 * b)) := by
    rw [bankField, BitVec.getLsbD_extractLsb', BitVec.getLsbD_ofNat, hpow, Nat.testBit_mul_two_pow, decide_eq_true hi, decide_eq_true hlt,
      Bool.true_and, Bool.true_and]
  rw [hbit]
  split
  next h =>
    subst h
    have hsub : 2 * d + i - 2 * d = i := Nat.add_sub_cancel_left ..
    have hi' : i = 0 ∨ i = 1 := by omega
    rw [hsub, decide_eq_true (Nat.le_add_right ..)]
    rcases hi' with rfl | rfl <;> rfl
  next h =>
    refine (Bool.and_eq_false_imp.2 fun hle => ?_).trans BitVec.getLsbD_zero.symm
    rw [decide_eq_true_eq] at hle
    have hfour : (2 : Nat) ^ 2 ≤ 2 ^ (2 * d + i - 2 * b) := Nat.pow_le_pow_right (by decide) (by omega)
    exact Nat.testBit_lt_two_pow (by omega)

/-- Clearing one bank's field leaves the others. -/
theorem bankState_clear (v : BitVec 64) (b : Nat) {d : Nat} (hd : d < 32) :
    bankState (v &&& ~~~BitVec.ofNat 64 (3 * 4 ^ b)) d = if d = b then 0 else bankState v d := by
  rw [bankState_eq_field, bankField_and, bankField_not _ hd, bankField_mask hd]
  split
  · rw [BitVec.not_allOnes, BitVec.and_zero]
    rfl
  · have h0 : ~~~(0 : BitVec 2) = BitVec.allOnes 2 := rfl
    rw [h0, BitVec.and_allOnes, bankState_eq_field]

/-- Clearing one bit of a word leaves the others. -/
theorem getLsbD_clearBit (w : BitVec 32) (b : Nat) {d : Nat} (hd : d < 32) :
    (w &&& ~~~BitVec.ofNat 32 (2 ^ b)).getLsbD d = (w.getLsbD d && decide (d ≠ b)) := by
  rw [BitVec.getLsbD_and, BitVec.getLsbD_not, BitVec.getLsbD_ofNat, Nat.testBit_two_pow, decide_eq_true hd, Bool.true_and, Bool.true_and,
    ← decide_not]
  simp only [ne_comm]

/-! ### BANK -/

/-- The issuing context waits with a BANKCTL write of the fields under a mask. -/
def State.bankAsked (s : State) (v mask : BitVec 64) : State := s.modCtx fun e => { e with phase := .bank v mask }

theorem execBank_waits {w : AForm} {s : State} (hst : w.imm.toNat / 1024 % 4 ≠ 3) (hn : w.imm.toNat % 32 + (w.imm.toNat / 32 % 32 + 1) ≤ 32) :
    execBank w s = .next (s.bankAsked
      (bankFields (w.imm.toNat % 32) (w.imm.toNat / 32 % 32 + 1) (w.imm.toNat / 1024 % 4))
      (bankFields (w.imm.toNat % 32) (w.imm.toNat / 32 % 32 + 1) 3)).used := by
  have hbad : (w.imm.toNat / 1024 % 4 == 3 || decide (32 < w.imm.toNat % 32 + (w.imm.toNat / 32 % 32 + 1))) = false := by
    rw [Bool.or_eq_false_iff, beq_eq_false_iff_ne, decide_eq_false_iff_not]
    exact ⟨hst, Nat.not_lt.2 hn⟩
  have hknown {b : Nat} (hb : b < 32) :
      bankState (bankFields (w.imm.toNat % 32) (w.imm.toNat / 32 % 32 + 1) (w.imm.toNat / 1024 % 4)) b ≠ 3 := by
    rw [bankState_bankFields _ _ hb (Nat.mod_lt _ (by decide))]
    split
    · exact hst
    · decide
  simp only [execBank, hbad, State.writeBank_of_known _ fun b hb => hknown hb]
  rfl

theorem execBank_illegal {w : AForm} {s : State}
    (h : w.imm.toNat / 1024 % 4 = 3 ∨ 32 < w.imm.toNat % 32 + (w.imm.toNat / 32 % 32 + 1)) :
    execBank w s = .next (s.trapHere { cause := .illegal }) := by
  have hbad : (w.imm.toNat / 1024 % 4 == 3 || decide (32 < w.imm.toNat % 32 + (w.imm.toNat / 32 % 32 + 1))) = true := by
    rw [Bool.or_eq_true, beq_iff_eq, decide_eq_true_eq]
    exact h
  simp only [execBank, hbad]
  rfl

end Sys2Proof.Machine

namespace Sys2Proof.Claims
open Sys2Proof.Machine

theorem bankWord : BankWord := by
  refine fun w s => ⟨fun hst hn => ?_, fun h => ?_⟩
  · refine ⟨_, _, execBank_waits hst (by omega), fun k b hb => ?_⟩
    rw [k.bankState_bankVal _ _ hb (Nat.mod_lt _ (by decide))]
    exact if_congr (by omega) rfl rfl
  · obtain ⟨i, hi⟩ := trapped_trapHere_some s (t := { cause := .illegal }) nofun
    exact ⟨_, i, execBank_illegal (h.imp_right (by omega)), hi⟩

theorem banksWake : BanksWake := by
  intro c b s hb hw
  have hexec : exec (.bankWake c b) s = .next (s.modCl c fun k => { k with
      waking := k.waking &&& ~~~BitVec.ofNat 32 (2 ^ b), bankctl := k.bankctl &&& ~~~BitVec.ofNat 64 (3 * 4 ^ b) }) := by
    change execBankWake c b s = _
    rw [execBankWake, hw, decide_eq_true hb]
    rfl
  refine ⟨_, hexec, ?_⟩
  rw [State.cl_modCl_same]
  refine ⟨?_, ?_, fun d hd hne => ⟨?_, ?_⟩, rfl, fun j hj => State.cl_modCl_ne _ _ hj⟩
  · rw [bankState_clear _ _ hb, if_pos rfl]
  · rw [getLsbD_clearBit _ _ hb, decide_eq_false (not_not.2 rfl), Bool.and_false]
  · rw [bankState_clear _ _ hd, if_neg hne]
  · rw [getLsbD_clearBit _ _ hd, decide_eq_true hne, Bool.and_true]

end Sys2Proof.Claims
end

section
/-! PROOFS. ATTR.clr and ATTR.set (11 R177, 27 R365): O20. -/

namespace Sys2Proof.Machine

/-! ### Runs of granules -/

/-- The granules that a run names. -/
def inRun (u : Nat × Nat × Nat) (g : Nat) : Prop := u.2.1 ≤ g ∧ g < u.2.1 + u.2.2

/-- A granule of a list before a list of runs: the list's runs are the old ones and its own, the first of which it may extend. -/
theorem granuleRuns_cons (home : Nat → Nat) (g : Nat) (gs : List Nat) :
    granuleRuns home (g :: gs) = (home g, g, 1) :: granuleRuns home gs ∨
      ∃ n rest, granuleRuns home gs = (home g, g + 1, n) :: rest ∧ granuleRuns home (g :: gs) = (home g, g, n + 1) :: rest := by
  rw [granuleRuns]
  split
  next h f n rest hr =>
    split
    next hc =>
      obtain ⟨rfl, rfl⟩ := hc
      exact .inr ⟨n, rest, hr, rfl⟩
    next => exact .inl (by rw [hr])
  next hr => exact .inl (by rw [hr])

/-- Every granule of a list is in a run of its home. -/
theorem mem_granuleRuns_of_mem {home : Nat → Nat} {gs : List Nat} {g : Nat} (hg : g ∈ gs) :
    ∃ u ∈ granuleRuns home gs, inRun u g ∧ u.1 = home g := by
  induction gs with
  | nil => exact nomatch hg
  | cons a as ih =>
    rcases granuleRuns_cons home a as with hr | ⟨n, rest, hold, hnew⟩
    · rw [hr]
      rcases List.mem_cons.1 hg with rfl | hg
      · exact ⟨_, List.mem_cons_self, ⟨Nat.le_refl _, Nat.lt_succ_self _⟩, rfl⟩
      · obtain ⟨u, hu, hin, hh⟩ := ih hg
        exact ⟨u, List.mem_cons_of_mem _ hu, hin, hh⟩
    · rw [hnew]
      rcases List.mem_cons.1 hg with rfl | hg
      · exact ⟨_, List.mem_cons_self, ⟨Nat.le_refl _, by dsimp only; omega⟩, rfl⟩
      · obtain ⟨u, hu, hin, hh⟩ := ih hg
        rw [hold] at hu
        rcases List.mem_cons.1 hu with rfl | hu
        · obtain ⟨hlo, hhi⟩ := hin
          dsimp only at hlo hhi
          exact ⟨_, List.mem_cons_self, ⟨by dsimp only; omega, by dsimp only; omega⟩, hh⟩
        · exact ⟨u, List.mem_cons_of_mem _ hu, hin, hh⟩

/-- The granules of a list's runs are the list's. -/
theorem mem_of_mem_granuleRuns {home : Nat → Nat} {gs : List Nat} {u : Nat × Nat × Nat} (hu : u ∈ granuleRuns home gs) {g : Nat}
    (hg : inRun u g) : g ∈ gs := by
  induction gs generalizing u with
  | nil => exact nomatch hu
  | cons a as ih =>
    rcases granuleRuns_cons home a as with hr | ⟨n, rest, hold, hnew⟩
    · rw [hr] at hu
      rcases List.mem_cons.1 hu with rfl | hu
      · obtain ⟨hlo, hhi⟩ := hg
        dsimp only at hlo hhi
        obtain rfl : g = a := by omega
        exact List.mem_cons_self
      · exact List.mem_cons_of_mem _ (ih hu hg)
    · rw [hnew] at hu
      rcases List.mem_cons.1 hu with rfl | hu
      · obtain ⟨hlo, hhi⟩ := hg
        dsimp only at hlo hhi
        by_cases hga : g = a
        · exact hga ▸ List.mem_cons_self
        · exact List.mem_cons_of_mem _ (ih (by rw [hold]; exact List.mem_cons_self) ⟨by dsimp only; omega, by dsimp only; omega⟩)
      · exact List.mem_cons_of_mem _ (ih (by rw [hold]; exact List.mem_cons_of_mem _ hu) hg)

/-! ### The answers that an ATTR waits for -/

section
variable {s : State} {grant : Bool} {c x : Nat} {gs : List Nat}

/-- Each answer is of a run of the range's granules, counted from now. -/
theorem State.mem_attrShoots {h : Shoot} (hh : h ∈ s.attrShoots grant c x gs) :
    ∃ u ∈ granuleRuns s.homeOf gs, h.home = u.1 ∧ h.gran = u.2.1 ∧ h.n = u.2.2 ∧ h.start = s.cycle.toNat ∧
      h.need = (if grant then [] else if h.home < 256 then s.answerers else List.range 12) ∧ h.c = c ∧ h.x = x ∧ h.grant = grant := by
  obtain ⟨u, hu, rfl⟩ := List.mem_map.1 hh
  exact ⟨u, hu, rfl, rfl, rfl, rfl, rfl, rfl, rfl, rfl⟩

/-- Every granule of the range is of an answer of its home. -/
theorem State.attrShoots_covers {g : Nat} (hg : g ∈ gs) :
    ∃ h ∈ s.attrShoots grant c x gs, h.gran ≤ g ∧ g < h.gran + h.n ∧ h.home = s.homeOf g := by
  obtain ⟨u, hu, ⟨hlo, hhi⟩, hh⟩ := mem_granuleRuns_of_mem (home := s.homeOf) hg
  exact ⟨_, List.mem_map_of_mem hu, hlo, hhi, hh⟩

/-- An answer is of no granule outside the range. -/
theorem State.mem_of_mem_attrShoots {h : Shoot} (hh : h ∈ s.attrShoots grant c x gs) {g : Nat} (hlo : h.gran ≤ g) (hhi : g < h.gran + h.n) :
    g ∈ gs := by
  obtain ⟨u, hu, -, hgran, hn, -⟩ := State.mem_attrShoots hh
  exact mem_of_mem_granuleRuns hu ⟨hgran ▸ hlo, hgran ▸ hn ▸ hhi⟩

end

/-- A wait for homes changes the engine's phase and the list of answers alone. -/
theorem State.cl_awaitHomes_ne (s : State) (d : Option (BitVec 6)) (sh : List Shoot) {c : Nat} (hc : c ≠ s.cur.1) :
    (s.awaitHomes d sh).used.cl c = s.cl c := by
  exact (State.cl_modMe_ne (s.awaitHomes d sh) _ hc).trans (State.cl_modCtx_ne { s with shoots := s.shoots ++ sh } _ hc)

/-! ### ATTR.clr and ATTR.set -/

section
variable {w : AForm} {s : State} {a n : Word} {gs : List Nat} (hsys : s.me.asid s.cur.2 = 0) (ha : s.srcS w.sa 2 (ftBit w 2) = .ok a)
  (hn : s.srcS w.sb 3 (ftBit w 3) = .ok n) (hd : s.dstS w.dst = .ok ()) (hr : s.attrRange a n = .ok gs) (hset : w.imm.getLsbD 0 = true)

include hsys in
theorem State.systemOnly_ok : s.systemOnly = .ok () := by
  rw [State.systemOnly, hsys]
  rfl

include hsys ha hn hd hr hset

theorem execAttrClr_waits (hgs : gs ≠ []) :
    execAttrClr w s = .next (s.awaitHomes (attrDst w) (s.attrShoots false s.cur.1 s.cur.2 gs)).used := by
  have hne : gs.isEmpty = false := by simpa using hgs
  simp only [execAttrClr, State.systemOnly_ok hsys, ha, hn, hd, hr, hset, hne, ok_bind]
  rfl

theorem execAttrSet_waits (hp : s.writePending gs = false) {f : Nat} (hf : f ∈ gs) (hfar : s.isFar (f * 4096) = true) :
    execAttrSet w s = .next (((s.grantRo (gs.filter fun g => !s.isFar (g * 4096))).awaitHomes (attrDst w)
      (s.attrShoots true s.cur.1 s.cur.2 (gs.filter fun g => s.isFar (g * 4096)))).used) := by
  have hne : (gs.filter fun g => s.isFar (g * 4096)).isEmpty = false :=
    List.isEmpty_eq_false_iff.2 (List.ne_nil_of_mem (List.mem_filter.2 ⟨hf, hfar⟩))
  simp only [execAttrSet, State.systemOnly_ok hsys, ha, hn, hd, hr, hset, hp, hne, ok_bind]
  rfl

end

end Sys2Proof.Machine

namespace Sys2Proof.Claims
open Sys2Proof.Machine

theorem attributeClear : AttributeClear := by
  intro w s a n gs hsys ha hn hd hr hgs hset
  refine ⟨_, s.attrShoots false s.cur.1 s.cur.2 gs, execAttrClr_waits hsys ha hn hd hr hset hgs, rfl, fun h hh => ?_,
    fun g hg => State.attrShoots_covers hg, fun h hh g hlo hhi => State.mem_of_mem_attrShoots hh hlo hhi,
    fun c hc => s.cl_awaitHomes_ne _ _ hc, rfl, rfl⟩
  obtain ⟨-, -, -, -, -, hstart, hneed, hc, hx, hgrant⟩ := State.mem_attrShoots hh
  exact ⟨hneed, hstart, hc, hx, hgrant⟩

theorem attributeGrant : AttributeGrant := by
  intro w s a n gs f hsys ha hn hd hr hset hp hf hfar
  refine ⟨_, s.attrShoots true s.cur.1 s.cur.2 (gs.filter fun g => s.isFar (g * 4096)),
    execAttrSet_waits hsys ha hn hd hr hset hp hf hfar, rfl, fun h hh => ?_, fun g hg hgf => ?_, fun h hh g hlo hhi => ?_, rfl,
    fun c hc => State.cl_awaitHomes_ne _ _ _ hc, rfl⟩
  · obtain ⟨-, -, -, -, -, -, hneed, hc, hx, hgrant⟩ := State.mem_attrShoots hh
    exact ⟨hgrant, hneed, hc, hx⟩
  · obtain ⟨h, hh, hlo, hhi, -⟩ := State.attrShoots_covers (s := s) (grant := true) (c := s.cur.1) (x := s.cur.2)
      (gs := gs.filter fun g => s.isFar (g * 4096)) (List.mem_filter.2 ⟨hg, hgf⟩)
    exact ⟨h, hh, hlo, hhi⟩
  · exact List.mem_filter.1 (State.mem_of_mem_attrShoots hh hlo hhi)

/-- Settles O20. -/
theorem banksAndAttributes : Obligations.BanksAndAttributes := by
  unfold Obligations.BanksAndAttributes
  exact ⟨bankWord, banksWake, attributeClear, attributeGrant⟩

end Sys2Proof.Claims
end

section
/-! PROOFS. What boot firmware's register writes never change: CYCLE, the measurement registers, the security counter and the flash
(31 R388 to R394). First the operations that the writes are made of. -/

namespace Sys2Proof.Machine

/-- What only a boot stage, a firmware update or the clock changes of the hub. -/
structure Standing where
  meas : List (BitVec 512)
  svn : Nat
  flash0 : Option FlashBank
  flash1 : Option FlashBank

def Hub.standing (h : Hub) : Standing := ⟨h.meas, h.svn, h.flash0, h.flash1⟩

/-- CYCLE and what stands of the hub. -/
def State.standing (s : State) : BitVec 64 × Standing := (s.cycle, s.hub.standing)

@[simp] theorem State.standing_ite (p : Prop) [Decidable p] (s t : State) :
    (if p then s else t).standing = if p then s.standing else t.standing := apply_ite State.standing p s t

@[simp] theorem State.standing_foldl {α : Type} (f : State → α → State) (l : List α) (s : State)
    (hf : ∀ s a, (f s a).standing = s.standing) : (l.foldl f s).standing = s.standing := by
  induction l generalizing s with
  | nil => rfl
  | cons a l ih => exact (ih (f s a)).trans (hf s a)

@[simp] theorem State.standing_modHub (s : State) (f : Hub → Hub) (hm : (f s.hub).meas = s.hub.meas) (hv : (f s.hub).svn = s.hub.svn)
    (h0 : (f s.hub).flash0 = s.hub.flash0) (h1 : (f s.hub).flash1 = s.hub.flash1) : (s.modHub f).standing = s.standing := by
  simp [State.standing, Hub.standing, State.modHub, hm, hv, h0, h1]
@[simp] theorem State.standing_modCl (s : State) (c : Nat) (f : Cluster → Cluster) : (s.modCl c f).standing = s.standing := rfl
@[simp] theorem State.standing_modCx (s : State) (c x : Nat) (f : Ctx → Ctx) : (s.modCx c x f).standing = s.standing := rfl
@[simp] theorem State.standing_modCtx (s : State) (f : Ctx → Ctx) : (s.modCtx f).standing = s.standing := rfl
@[simp] theorem State.standing_modRing (s : State) (d : Nat) (f : Ring → Ring) : (s.modRing d f).standing = s.standing := rfl
@[simp] theorem State.standing_modADie (s : State) (n : Nat) (f : ADie → ADie) : (s.modADie n f).standing = s.standing := rfl
@[simp] theorem State.standing_modDist (s : State) (t : Nat) (f : Dist → Dist) : (s.modDist t f).standing = s.standing := rfl
@[simp] theorem State.standing_modSup (s : State) (t : Nat) (f : Sup → Sup) : (s.modSup t f).standing = s.standing := rfl
@[simp] theorem State.standing_modLink (s : State) (l : Nat) (f : Link → Link) : (s.modLink l f).standing = s.standing := rfl

/-! ### Event logs, freezes, escalation and traps -/

@[simp] theorem State.standing_logEvent (s : State) (t : Nat) (e : List Byte) : (s.logEvent t e).standing = s.standing := rfl
@[simp] theorem State.standing_msi (s : State) (n : Nat) : (s.msi n).standing = s.standing := rfl
@[simp] theorem State.standing_logFault (s : State) (t : Nat) (r : Fault.Rec) : (s.logFault t r).standing = s.standing := rfl
@[simp] theorem State.standing_cfgIgnored (s : State) (core off : Nat) : (s.cfgIgnored core off).standing = s.standing := rfl
@[simp] theorem State.standing_refuse (s : State) (c x tgt va pc : Nat) : (s.refuse c x tgt va pc).standing = s.standing := by
  simp [State.refuse]
@[simp] theorem State.standing_agentRefused (s : State) (m pa : Nat) : (s.agentRefused m pa).standing = s.standing := by
  unfold State.agentRefused
  dsimp only
  split <;> simp
@[simp] theorem State.standing_refuseCopy (s : State) (c x m tgt va pc : Nat) : (s.refuseCopy c x m tgt va pc).standing = s.standing := by
  simp [State.refuseCopy]
@[simp] theorem State.standing_tvecRefused (s : State) (c : Nat) : (s.tvecRefused c).standing = s.standing := by
  unfold State.tvecRefused
  split <;> simp
@[simp] theorem State.standing_interrupt (s : State) (t : Nat) : (s.interrupt t).standing = s.standing := by
  unfold State.interrupt
  dsimp only
  split <;> rfl
@[simp] theorem State.standing_cancelPre (s : State) (d : Nat) (team : BitVec 16) : (s.cancelPre d team).standing = s.standing := by
  unfold State.cancelPre
  split <;> simp
@[simp] theorem State.standing_escalate (s : State) (c x : Nat) (t : Trap) : (s.escalate c x t).standing = s.standing := by
  simp [State.escalate]
/-- A fresh value for TINFO changes nothing that stands. -/
@[simp] theorem State.standing_free (s : State) (n : Nat) : ({ s with free := n } : State).standing = s.standing := rfl
@[simp] theorem State.standing_takeTrap (s : State) (c x : Nat) (pc : Parcel) (t : Trap) : (s.takeTrap c x pc t).standing = s.standing := by
  unfold State.takeTrap
  cases t.info <;> cases t.agent <;> simp
@[simp] theorem State.standing_masterRefused (s : State) (m pa : Nat) : (s.masterRefused m pa).standing = s.standing := by
  simp [State.masterRefused]

/-! ### Resuming a context (29 R371) -/

theorem State.standing_goto {s t : State} {a : Parcel} (h : s.goto a = .ok t) : t.standing = s.standing := by
  unfold State.goto at h
  split at h
  · cases h; rfl
  · split at h <;> cases h
    · rfl
    · exact State.standing_takeTrap ..
theorem State.standing_arrive {s t : State} {a : Parcel} (h : s.arrive a = .ok t) : t.standing = s.standing := by
  unfold State.arrive at h
  split at h
  · cases h; rfl
  · exact State.standing_goto h
theorem State.standing_transfer {s t : State} {back : Prop} [Decidable back] {a : Parcel}
    (h : (if back then s.goto a else s.arrive a) = .ok t) : t.standing = s.standing := by
  split at h
  · exact State.standing_goto h
  · exact State.standing_arrive h
@[simp] theorem State.standing_succeed (s : State) (nx : Parcel) : (s.succeed nx).standing = s.standing := by
  simp only [State.succeed]
  split
  next t ht =>
    have hm := State.standing_transfer ht
    rw [State.standing_modCtx] at hm
    simp [State.preemptPoint, hm]
  next => simp
  next => rfl
@[simp] theorem State.standing_resume (s : State) (c x : Nat) : (s.resume c x).standing = s.standing := rfl
theorem State.standing_resumeSkip {s t : State} {c x : Nat} (h : s.resumeSkip c x = some t) : t.standing = s.standing := by
  unfold State.resumeSkip at h
  dsimp only at h
  split at h
  iterate 2
    split at h
    · split at h <;> cases h; rfl
    · cases h
  · cases h
    exact State.standing_succeed ..
@[simp] theorem State.standing_supDone (s : State) (t : Nat) (ok : Bool) : (s.supDone t ok).standing = s.standing := rfl
@[simp] theorem State.standing_supBegin (s : State) (t : Nat) (cmd : SupCmd) : (s.supBegin t cmd).standing = s.standing := rfl
@[simp] theorem State.standing_resumeAll (s : State) (t : Nat) (cl : BitVec 5) (skip : Bool) :
    (s.resumeAll t cl skip).standing = s.standing := by
  simp only [State.resumeAll]
  split
  · rfl
  · refine State.standing_foldl _ _ _ fun s x => ?_
    have hskip : ((s.resumeSkip (clusterNo t cl.toNat) x).getD (s.resume (clusterNo t cl.toNat) x)).standing = s.standing := by
      cases hr : s.resumeSkip (clusterNo t cl.toNat) x with
      | none => rfl
      | some u => exact State.standing_resumeSkip hr
    simp [hskip]

/-! ### Saving and the supervisor (29) -/

@[simp] theorem State.standing_saveDone (s : State) (t : Nat) : (s.saveDone t).standing = s.standing := by
  unfold State.saveDone
  split <;> simp
@[simp] theorem State.standing_beginPre (s : State) (t : Nat) (team : BitVec 16) (act : PreAct) (b : Bool) :
    (s.beginPre t team act b).standing = s.standing := by simp [State.beginPre]
@[simp] theorem State.standing_releaseAgent (s : State) (t : Nat) : (s.releaseAgent t).standing = s.standing := by
  simp [State.releaseAgent]
@[simp] theorem State.standing_setMasters (s : State) : s.setMasters.standing = s.standing := by
  refine State.standing_foldl _ _ _ fun s t => ?_
  split <;> simp

/-! ### Rings, launches and repair (23, 03 R43 to R50) -/

@[simp] theorem State.standing_fill (s : State) (d : Nat) : (s.fill d).standing = s.standing := by simp [State.fill]
@[simp] theorem State.standing_lookLen (s : State) (d : Nat) : (s.lookLen d).standing = s.standing := by
  simp only [State.lookLen]
  split
  · rfl
  · split <;> simp
@[simp] theorem State.standing_lookLens (s : State) (d : Nat) : (s.lookLens d).standing = s.standing :=
  State.standing_foldl _ _ _ State.standing_lookLen
@[simp] theorem State.standing_placeShare (s : State) (d : Nat) : (s.placeShare d).standing = s.standing := by
  simp only [State.placeShare]
  split
  · rfl
  · simp only [State.standing_modRing]
    split <;> simp
@[simp] theorem State.standing_startRing (s : State) (d : Nat) : (s.startRing d).standing = s.standing := by
  unfold State.startRing
  split
  · rfl
  · exact (State.standing_fill ..).trans (State.standing_placeShare ..)
@[simp] theorem State.standing_storeNat (s : State) (pa n v : Nat) : (s.storeNat pa n v).standing = s.standing := by
  unfold State.storeNat State.store
  split <;> rfl
@[simp] theorem State.standing_publish (s : State) (t : Nat) (r : BitVec 1024) (src byTid : Nat) :
    (s.publish t r src byTid).1.standing = s.standing := by
  unfold State.publish
  dsimp only
  split
  · rfl
  · split <;> simp
@[simp] theorem State.standing_launchPart (s : State) (t : Nat) (r : BitVec 1024) (first count src : Nat) :
    (s.launchPart t r first count src).standing = s.standing := by
  have hput (u : State) (o v : Nat) :
      (match u.translate (clusterNo t 0) (recAsid r) ((recParam r).toNat + o) with
        | some (pa, _) => u.storeNat pa 8 v
        | none => u).standing = u.standing := by
    split
    · exact State.standing_storeNat ..
    · rfl
  unfold State.launchPart
  dsimp only
  split
  · exact (State.standing_publish ..).trans ((hput _ 8 count).trans (hput s 0 first))
  · split
    · exact State.standing_publish ..
    · rfl
@[simp] theorem State.standing_launchOver (s : State) (dies : List Nat) (far : Nat) (r : BitVec 1024) (first count src : Nat) :
    (s.launchOver dies far r first count src).standing = s.standing :=
  State.standing_foldl _ _ _ fun _ _ => State.standing_launchPart ..
@[simp] theorem State.standing_reissue (s : State) (p lost : Nat) : (s.reissue p lost).standing = s.standing := by
  unfold State.reissue
  split
  · rfl
  · dsimp only
    refine (State.standing_foldl _ _ _ fun _ _ => State.standing_launchOver ..).trans
      ((State.standing_foldl _ _ _ fun s x => ?_).trans ?_)
    · split <;> simp
    · rfl
@[simp] theorem State.standing_elect (s : State) (p : Nat) : (s.elect p).standing = s.standing := by
  unfold State.elect
  split <;> simp
@[simp] theorem State.standing_repairEntry (s : State) (p why lost nrei first flg : Nat) :
    (s.repairEntry p why lost nrei first flg).standing = s.standing := by
  unfold State.repairEntry
  split <;> simp
@[simp] theorem State.standing_fenceOff (s : State) (d : Nat) : (s.fenceOff d).standing = s.standing :=
  State.standing_foldl _ _ _ fun _ _ => rfl
@[simp] theorem State.standing_foldl_modRing {α : Type} (l : List α) (i : α → Nat) (f : α → Ring → Ring) (s : State) :
    (l.foldl (fun s d => s.modRing (i d) (f d)) s).standing = s.standing := State.standing_foldl _ _ _ fun _ _ => rfl
@[simp] theorem State.standing_foldl_modCl {α : Type} (l : List α) (i : α → Nat) (f : Cluster → Cluster) (s : State) :
    (l.foldl (fun s c => s.modCl (i c) f) s).standing = s.standing := State.standing_foldl _ _ _ fun _ _ => rfl
@[simp] theorem State.standing_repair (s : State) (lost why : Nat) : (s.repair lost why).standing = s.standing := by
  unfold State.repair
  split
  · rfl
  · simp only [State.standing_repairEntry, State.standing_reissue]
    generalize (List.range 8).find? _ = pred
    generalize s.succHere lost = next
    cases pred <;> cases next <;>
      simp only [State.standing_ite, State.standing_modRing, State.standing_foldl_modRing, State.standing_fenceOff, ite_self]
    all_goals exact (State.standing_elect ..).trans (State.standing_foldl_modRing ..)

end Sys2Proof.Machine
end

section
/-! PROOFS. Register writes and the bringing up of the dies never change CYCLE, the measurement registers, the security counter or the
flash (31 R385, R390, R394). -/

namespace Sys2Proof.Machine

/-! ### What a core's write comes to -/

@[simp] theorem State.standing_coreWrite (s : State) (core off : Nat) (f : State → State) (hf : ∀ u, (f u).standing = u.standing) :
    (s.coreWrite core off f).standing = s.standing := by
  rcases s.coreWrite_cases core off f with h | h | h <;> simp [h, hf]
@[simp] theorem State.standing_supWrite (s : State) (core t o : Nat) (f : State → State) (hf : ∀ u, (f u).standing = u.standing) :
    (s.supWrite core t o f).standing = s.standing := by simp [State.supWrite, hf]
@[simp] theorem State.standing_hubBlockWrite (s : State) (core o : Nat) (f : State → State) (hf : ∀ u, (f u).standing = u.standing) :
    (s.hubBlockWrite core o f).standing = s.standing := by simp [State.hubBlockWrite, hf]
@[simp] theorem State.standing_supCommand (s : State) (core t : Nat) (f : State → State) (hf : ∀ u, (f u).standing = u.standing) :
    (s.supCommand core t f).standing = s.standing := by simp [State.supCommand, hf]
@[simp] theorem State.standing_pageCommand (s : State) (core a : Nat) (f : State → State) (hf : ∀ u, (f u).standing = u.standing) :
    (s.pageCommand core a f).standing = s.standing := by simp [State.pageCommand, hf]
@[simp] theorem State.standing_onPage (s : State) (a : Nat) (page : BitVec 30) (f : State → ADie → Desc → Option ADie) :
    (s.onPage a page f).standing = s.standing := by
  simp only [State.onPage]
  split <;> rfl

theorem stateOf_next (s t : State) : stateOf s (.next t) = t := rfl

/-! ### Commands of the hub cores -/

theorem State.standing_writeSupcmd (s : State) (core t : Nat) (v : BitVec 64) : (s.writeSupcmd core t v).standing = s.standing := by
  have hcmd (f : State → State) (hf : ∀ u, (f u).standing = u.standing) :
      (stateOf s (.next (s.supCommand core t f))).standing = s.standing := State.standing_supCommand _ _ _ _ hf
  have hbad : (s.supWrite core t 0x18 fun s => s.cfgIgnored core (supOff t 0x18)).standing = s.standing :=
    State.standing_supWrite _ _ _ _ _ fun _ => rfl
  simp only [State.writeSupcmd]
  split
  · exact hbad
  · split
    case h_1 | h_2 => exact hcmd _ fun _ => State.standing_resumeAll ..
    case h_3 | h_4 | h_6 =>
      refine hcmd _ fun u => ?_
      simp
    case h_5 =>
      refine hcmd _ fun u => ?_
      dsimp only
      split
      · rfl
      · refine (State.standing_foldl_modCl _ id _ _).trans ?_
        show (match (u.dist t).pre with | some p => u.cancelPre t p.team | none => u).standing = u.standing
        split <;> simp
    case h_7 => exact hbad

theorem State.standing_writePgcmd (s : State) (core a : Nat) (v : BitVec 64) : (s.writePgcmd core a v).standing = s.standing := by
  have hpage (f : State → State) (hf : ∀ u, (f u).standing = u.standing) :
      (stateOf s (.next (s.pageCommand core a f))).standing = s.standing := State.standing_pageCommand _ _ _ _ hf
  have hbad : (s.coreWrite core (pageOff a 0x38) fun s => s.cfgIgnored core (pageOff a 0x38)).standing = s.standing :=
    State.standing_coreWrite _ _ _ _ fun _ => rfl
  simp only [State.writePgcmd]
  split
  · exact hbad
  · split
    case h_10 => exact hbad
    case h_1 | h_8 => exact hpage _ fun _ => rfl
    all_goals exact hpage _ fun _ => State.standing_onPage ..

/-! ### Registers and tables -/

theorem State.standing_writeFabcfg {s bad : State} (v : BitVec 64) (hb : bad.standing = s.standing) :
    (s.writeFabcfg bad v).standing = s.standing := by
  simp [State.writeFabcfg, hb]
theorem State.standing_writePartcfg {s bad : State} (v : Nat) (hb : bad.standing = s.standing) :
    (s.writePartcfg bad v).standing = s.standing := by
  simp [State.writePartcfg, hb]
theorem State.standing_writePartsup {s bad : State} (v : BitVec 64) (hb : bad.standing = s.standing) :
    (s.writePartsup bad v).standing = s.standing := by
  simp [State.writePartsup, hb]
theorem State.standing_openReg {s bad u : State} (o : Nat) (v : BitVec 64) (hb : bad.standing = s.standing)
    (hu : u.standing = s.standing) : ((s.openReg bad o v).getD u).standing = s.standing := by
  have hite (p : Prop) [Decidable p] (a b : Option State) : (if p then a else b).getD u = if p then a.getD u else b.getD u :=
    apply_ite (fun x : Option State => x.getD u) p a b
  simp [State.openReg, hite, State.standing_writeFabcfg _ hb, State.standing_writePartcfg _ hb, State.standing_writePartsup _ hb, hu]

@[simp] theorem State.standing_writeTables (s : State) (core o : Nat) (v : BitVec 64) : (s.writeTables core o v).standing = s.standing := by
  refine State.standing_foldl _ _ _ fun s i => ?_
  unfold execAccessTableWrite
  dsimp only
  split
  · rfl
  · split
    · rfl
    · split
      · rfl
      · exact State.standing_masterRefused ..
theorem State.standing_groupTableWrite (s : State) (core i : Nat) (mask : BitVec 320) :
    (stateOf s (execGroupTableWrite core i mask s)).standing = s.standing := by
  unfold execGroupTableWrite
  dsimp only
  split
  · rfl
  · rw [stateOf_next, State.standing_coreWrite]
    intro u
    split
    · rfl
    · split <;> rfl
theorem State.standing_writeEsccfg (s : State) (core d : Nat) (v : BitVec 64) : (s.writeEsccfg core d v).standing = s.standing := by
  simp [State.writeEsccfg]
theorem State.standing_writeRfcfg (s : State) (core d : Nat) (v : BitVec 64) : (s.writeRfcfg core d v).standing = s.standing := by
  simp [State.writeRfcfg]
theorem State.standing_writeBkbase (s : State) (core d : Nat) (v : BitVec 64) : (s.writeBkbase core d v).standing = s.standing := by
  simp [State.writeBkbase]
theorem State.standing_bypass (s : State) (core d : Nat) (v : BitVec 8) :
    (stateOf s (execBypass core d v s)).standing = s.standing := by
  simp [execBypass, stateOf]
theorem State.standing_writePgcfg (s : State) (core a : Nat) (v : BitVec 64) : (s.writePgcfg core a v).standing = s.standing := by
  simp [State.writePgcfg]
theorem State.standing_writePageReg (s : State) (core a o : Nat) (v : BitVec 64) : (s.writePageReg core a o v).standing = s.standing := by
  simp [State.writePageReg]
theorem State.standing_writeEvent (s : State) (core t o : Nat) (v : BitVec 64) : (s.writeEvent core t o v).standing = s.standing := by
  simp [State.writeEvent]
theorem State.standing_frz (s : State) (core t : Nat) (v : BitVec 32) : (stateOf s (execFrz core t v s)).standing = s.standing := by
  unfold execFrz
  split
  · exact State.standing_hubBlockWrite _ _ _ _ fun _ => rfl
  · exact State.standing_supWrite _ _ _ _ _ fun _ => rfl
theorem State.standing_agfrz (s : State) (core t : Nat) (v : BitVec 1) : (stateOf s (execAgfrz core t v s)).standing = s.standing := by
  simp [execAgfrz, stateOf]
theorem State.standing_estclr (s : State) (core t : Nat) (all : Bool) (tid : BitVec 32) :
    (stateOf s (execEstclr core t all tid s)).standing = s.standing := State.standing_supWrite _ _ _ _ _ fun _ => rfl
theorem State.standing_pwrcap (s : State) (core : Nat) (v : BitVec 64) : (stateOf s (execPwrcap core v s)).standing = s.standing := by
  simp [execPwrcap, stateOf]
theorem State.standing_hostwin (s : State) (core : Nat) (v : BitVec 64) : (stateOf s (execHostwin core v s)).standing = s.standing := by
  simp [execHostwin, stateOf]

/-- A write of any offset of configuration space (00 R7). -/
@[simp] theorem State.standing_cfgWrite (s : State) (core o : Nat) (v : BitVec 64) : (s.cfgWrite core o v).standing = s.standing := by
  have hreg (f : State → State) (hf : ∀ u, (f u).standing = u.standing) : (s.coreWrite core o f).standing = s.standing :=
    State.standing_coreWrite _ _ _ _ hf
  have hid : (s.coreWrite core o id).standing = s.standing := hreg _ fun _ => rfl
  have hrf (d : Nat) : (stateOf s (execRfcfg core d v s)).standing = s.standing := by
    simp [execRfcfg, stateOf_next, State.standing_writeRfcfg]
  have hpg (a : Nat) : (stateOf s (execPageAllocatorEnable core a v s)).standing = s.standing := by
    simp [execPageAllocatorEnable, stateOf_next, State.standing_writePgcfg]
  have hrest : (s.coreWrite core o fun s => (s.openReg (s.cfgIgnored core o) o v).getD s).standing = s.standing :=
    hreg _ fun _ => State.standing_openReg _ _ rfl rfl
  have hsup (t r : Nat) : (s.supWrite core t r id).standing = s.standing := State.standing_supWrite _ _ _ _ _ fun _ => rfl
  simp only [State.cfgWrite, State.standing_ite, State.standing_writeTables, State.standing_groupTableWrite, hid, hrf, hpg,
    hreg _ (State.standing_writeEsccfg · core _ v), hreg _ (State.standing_writeBkbase · core _ v), State.standing_bypass,
    State.standing_writePgcmd, hreg _ (State.standing_writePageReg · core _ _ v), State.standing_frz, State.standing_writeEvent,
    State.standing_agfrz, State.standing_writeSupcmd, State.standing_estclr, State.standing_pwrcap, State.standing_hostwin, hsup, hrest,
    ite_self]

/-! ### Bringing the dies up (31 R390, R394) -/

theorem State.standing_writeAll {s t : State} {ws : List (Nat × BitVec 64)} (ht : s.writeAll ws = some t) :
    t.standing = s.standing := by
  induction ws generalizing s with
  | nil => cases ht; rfl
  | cons w ws ih =>
    rw [State.writeAll] at ht
    split at ht
    · cases ht
    · exact (ih ht).trans (State.standing_cfgWrite ..)

theorem State.standing_writeRecord {s t : State} {f : FlashBank} (ht : s.writeRecord f = some t) : t.standing = s.standing := by
  unfold State.writeRecord at ht
  dsimp only at ht
  exact (State.standing_writeAll ht).trans rfl

theorem State.standing_trainLinks (s : State) (failed : List Nat) : (s.trainLinks failed).standing = s.standing :=
  State.standing_foldl _ _ _ fun _ _ => rfl
@[simp] theorem State.standing_trainPorts (s : State) (peers : List (Nat × BitVec 6)) : (s.trainPorts peers).standing = s.standing := by
  simp [State.trainPorts]
@[simp] theorem State.standing_buildCaps (s : State) (ports : List (Nat × BitVec 64)) (cs : List Cap) :
    (s.buildCaps ports cs).standing = s.standing := by simp [State.buildCaps]
@[simp] theorem State.standing_setBypass (s : State) (lost : List Nat) : (s.setBypass lost).standing = s.standing :=
  (State.standing_foldl _ _ _ fun s _ => State.standing_foldl_modCl _ id _ s).trans (State.standing_foldl _ _ s fun _ _ => rfl)
@[simp] theorem State.standing_haltShort (s : State) : s.haltShort.standing = s.standing := by simp [State.haltShort]

theorem State.standing_bringUp {s t : State} {env : ResetEnv} {f : FlashBank} (ht : s.bringUp env f = some t) :
    t.standing = s.standing := by
  unfold State.bringUp at ht
  dsimp only at ht
  split at ht
  · cases ht
  next u hu =>
    refine (State.standing_writeAll ht).trans ((State.standing_foldl _ _ _ ?_).trans ?_)
    · exact fun s n => State.standing_foldl_modCl (dieClusters (8 + n)) id _ s
    · simp [State.standing_writeRecord hu, State.standing_trainLinks]

end Sys2Proof.Machine
end

section
/-! PROOFS. Boot stages and the two banks, boot on a bank, wake (31 R388 to R396). -/

namespace Sys2Proof.Machine

/-! ### What a boot stage leaves of the hub -/

@[simp] theorem Hub.svn_measure (h : Hub) (i : Nat) (g : BitVec 512) : (h.measure i g).svn = h.svn := rfl

/-- Stages 0 and 1 record no reason. -/
theorem State.rsn0_tryBank (s : State) (b : Option FlashBank) : (s.tryBank b).1.rsn0 = s.hub.rsn0 := by
  unfold State.tryBank
  cases b with
  | none => rfl
  | some f =>
    dsimp only
    split
    · rfl
    · split
      · rfl
      · split
        · rfl
        · split <;> rfl

/-- Extending M4 with images leaves what the hub runs. -/
theorem Hub.foldl_measure_rest (gs : List (BitVec 512)) (h : Hub) :
    (gs.foldl (fun h g => h.measure 4 g) h).coresRun = h.coresRun ∧ (gs.foldl (fun h g => h.measure 4 g) h).stage = h.stage ∧
      (gs.foldl (fun h g => h.measure 4 g) h).ms = h.ms := by
  induction gs generalizing h with
  | nil => exact ⟨rfl, rfl, rfl⟩
  | cons g gs ih => exact ih (h.measure 4 g)

/-- What the measurement registers become depends on what they held alone. -/
theorem Hub.foldl_measure_meas (gs : List (BitVec 512)) {h k : Hub} (hm : h.meas = k.meas) :
    (gs.foldl (fun h g => h.measure 4 g) h).meas = (gs.foldl (fun h g => h.measure 4 g) k).meas := by
  induction gs generalizing h k with
  | nil => exact hm
  | cons g gs ih =>
    refine ih (h := h.measure 4 g) (k := k.measure 4 g) ?_
    simp [Hub.measure, hm]

/-! ### Why an image fails (31 R388, R389) -/

theorem imageFail_absent {n r : Nat} {f : FlashImage} (hp : f.present = false) : imageFail n r f = some 7 := by simp [imageFail, hp]
theorem imageFail_unreadable {n r : Nat} {f : FlashImage} (hp : f.present = true) (hr : f.readable = false) :
    imageFail n r f = some 8 := by simp [imageFail, hp, hr]
theorem imageFail_unsigned {n r : Nat} {f : FlashImage} (hp : f.present = true) (hr : f.readable = true) (hs : f.sigOk = false) :
    imageFail n r f = some r := by simp [imageFail, hp, hr, hs]
theorem imageFail_old {n r : Nat} {f : FlashImage} (hp : f.present = true) (hr : f.readable = true) (hs : f.sigOk = true)
    (hv : f.svn < n) : imageFail n r f = some 4 := by simp [imageFail, hp, hr, hs, hv]
theorem imageFail_none {n r : Nat} {f : FlashImage} (hp : f.present = true) (hr : f.readable = true) (hs : f.sigOk = true)
    (hv : n ≤ f.svn) : imageFail n r f = none := by simp [imageFail, hp, hr, hs, hv]

end Sys2Proof.Machine

namespace Sys2Proof.Claims
open Sys2Proof.Machine

theorem banksTried_start (s : State) : (resetStart s).cycle = 0 ∧ (resetStart s).mem = [] ∧
    (∀ c, (resetStart s).cl c = Cluster.reset) ∧ (∀ d, (resetStart s).ring d = Ring.reset) ∧
    (resetStart s).hub.flash0 = s.hub.flash0 ∧ (resetStart s).hub.flash1 = s.hub.flash1 ∧ (resetStart s).hub.svn = s.hub.svn :=
  ⟨rfl, rfl, fun _ => rfl, fun _ => rfl, rfl, rfl, rfl⟩

/-- The certificate is in place before bank 0 is tried. -/
theorem resetStart_eq (s : State) : (s.cleared.modHub fun h => { h with cert := Config.freeCertificate }) = resetStart s := rfl
theorem flash0_resetStart (s : State) : (resetStart s).hub.flash0 = s.hub.flash0 := rfl
theorem flash1_resetStart (s : State) : (resetStart s).hub.flash1 = s.hub.flash1 := rfl

section
variable {s : State} {env : ResetEnv} (hpuf : env.pufOk = true)
include hpuf

/-- Bank 0 boots when its images pass. -/
theorem execModuleReset_bank0 {f : FlashBank} {h : Hub} (h0 : s.hub.flash0 = some f) (hb : (resetStart s).tryBank (some f) = (h, none)) :
    execModuleReset env s = .next (((resetStart s).modHub fun _ => h).bootFrom env false f) := by
  simp only [execModuleReset, resetStart_eq, hpuf, flash0_resetStart, h0, hb, Bool.not_true, Bool.false_eq_true, if_false]

/-- Bank 1 is tried where bank 0 fails, and boots when its images pass. -/
theorem execModuleReset_bank1 {g : FlashBank} {h k : Hub} {a : Nat} (h1 : s.hub.flash1 = some g)
    (hb : (resetStart s).tryBank s.hub.flash0 = (h, some a))
    (hc : ((resetStart s).modHub fun _ => h.setReason false a).tryBank (some g) = (k, none)) :
    execModuleReset env s = .next (((resetStart s).modHub fun _ => k).bootFrom env true g) := by
  simp only [execModuleReset, resetStart_eq, hpuf, flash0_resetStart, flash1_resetStart, hb, Option.getD_some, h1, hc, Bool.not_true,
    Bool.false_eq_true, if_false]

/-- Where neither bank passes the module enters the management state. -/
theorem execModuleReset_neither {h k : Hub} {a b : Nat} (hb : (resetStart s).tryBank s.hub.flash0 = (h, some a))
    (hc : ((resetStart s).modHub fun _ => h.setReason false a).tryBank s.hub.flash1 = (k, some b)) :
    execModuleReset env s = .next ((resetStart s).modHub fun _ => (k.setReason true b).manage b) := by
  simp only [execModuleReset, resetStart_eq, hpuf, flash0_resetStart, flash1_resetStart, hb, Option.getD_some, hc, Bool.not_true,
    Bool.false_eq_true, if_false]
end

theorem banksTried : BanksTried := by
  refine ⟨banksTried_start, ?pufFails, ?bank0, ?bank1, ?neither, fun _ => rfl⟩
  case pufFails =>
    intro s env hpuf
    refine ⟨s.cleared.modHub fun h => h.manage 6, ?_, rfl, rfl, rfl, rfl, rfl, rfl, rfl, rfl, fun _ => rfl⟩
    show execModuleReset env s = _
    simp [execModuleReset, hpuf]
  case bank0 => exact fun s env f h hpuf h0 hb => execModuleReset_bank0 hpuf h0 hb
  case bank1 => exact fun s env g h k a hpuf h1 hb hc => execModuleReset_bank1 hpuf h1 hb hc
  case neither =>
    intro s env h k a b hpuf hb hc
    have hk : k.rsn0 = BitVec.ofNat 8 a := by
      have := State.rsn0_tryBank ((resetStart s).modHub fun _ => h.setReason false a) s.hub.flash1
      rw [hc] at this
      exact this
    exact ⟨_, execModuleReset_neither hpuf hb hc, rfl, rfl, rfl, hk, rfl, rfl, fun _ => rfl⟩

/-! ### A bank's images (31 R388 to R391) -/

/-- A record that names another module's ring in some die's RFCFG, and splits the module, breaks its form. -/
theorem splitJoin_of_writes {f : FlashBank} {v w : BitVec 64} {d : Nat} (hd : d < 8) (h1 : recordHas f.recordBytes 1 = true)
    (h2 : recordHas f.recordBytes 2 = true) (hw : f.writes = [⟨0x14018, v⟩, ⟨0x10020 + d * 0x100, w⟩]) (hv : v.toNat % 4 ≠ 0)
    (hm : w.extractLsb' 20 6 ≠ f.modNo) : splitJoin f = true := by
  have hshape : itemOf 0x14018 = 1 := by decide
  have hring : itemOf (0x10020 + d * 0x100) = 2 := by
    unfold itemOf
    rw [if_neg (by omega), if_pos (by omega)]
  have hwrites : recordWrites f = [(0x14018, v), (0x10020 + d * 0x100, w)] := by
    simp [recordWrites, hw, hshape, hring, h1, h2]
  have hoff : (0x10020 + d * 0x100 == 0x14018) = false := by simp; omega
  have hmod : bitsNat w.toNat 25 20 ≠ f.modNo.toNat := by
    rw [← extractLsb'_toNat_eq_bitsNat w (w := 6) rfl]
    exact fun h => hm (BitVec.eq_of_toNat_eq h)
  have hjoin : ((recordWrites f).any fun w => (List.range 8).any fun d =>
      w.1 == ringOff d 0x20 && bitsNat w.2.toNat 25 20 != f.modNo.toNat) = true := by
    refine List.any_eq_true.2 ⟨(0x10020 + d * 0x100, w), by simp [hwrites], List.any_eq_true.2 ⟨d, List.mem_range.2 hd, ?_⟩⟩
    simp [ringOff, hmod]
    omega
  have hsplit : (((recordWrites f).filter fun w => w.1 == 0x14018).getLast?.map fun w => w.2.toNat % 4 != 0).getD false = true := by
    simp [hwrites, hoff, hv]
  simp only [splitJoin, hsplit, hjoin, Bool.and_self]

theorem bankPasses : BankPasses := by
  refine ⟨?passes, ?stage1, ?record, ?firmware, ?form, ?split, ?image⟩
  case passes =>
    intro s f h1 h2 hform hok hsplit hlimit h3
    simp [State.tryBank, h1, h2, hform, hok, hsplit, hlimit, h3, Hub.measure]
  case stage1 =>
    intro s f r h1
    simp [State.tryBank, h1]
  case record =>
    intro s f r h1 h2
    simp [State.tryBank, h1, h2]
  case firmware =>
    intro s f r h1 h2 hform hok hsplit hlimit h3
    simp [State.tryBank, h1, h2, hform, hok, hsplit, hlimit, h3]
  case form =>
    intro s f h1 h2 hbad
    have hbreak : (!recordFormOk f.recordBytes || !f.recordOk || splitJoin f || s.breaksLimit f) = true := by
      rcases hbad with h | h | h | h <;> simp [h]
    simp only [State.tryBank, h1, Hub.svn_measure, h2, hbreak, if_true]
  case split => exact fun f v w d hd h1 h2 hw hv hm => splitJoin_of_writes hd h1 h2 hw hv hm
  case image => exact fun n r f => ⟨imageFail_absent, imageFail_unreadable, imageFail_unsigned, imageFail_old, imageFail_none⟩

/-! ### Boot on a bank, and the wake (31 R388, R392 to R396) -/

section
variable {s : State} {env : ResetEnv} {bank : Bool} {f : FlashBank}

/-- A loader that fails ends the boot in the management state. -/
theorem bootFrom_loaderFails {r : Nat} (hl : imageFail (s.hub.stageTwo bank f).svn 3 (loaderImageOf f) = some r) :
    s.bootFrom env bank f = (s.modHub fun h => ((h.stageTwo bank f).setReason bank r).manage r) := by
  have hl' : imageFail (s.modHub fun h => h.stageTwo bank f).hub.svn 3 (loaderImageOf f) = some r := hl
  simp only [State.bootFrom, hl']
  rfl

/-- A register write that is ignored ends the boot in the management state. -/
theorem bootFrom_writeIgnored (hl : imageFail (s.hub.stageTwo bank f).svn 3 (loaderImageOf f) = none)
    (hb : (loaderMeasured s bank f).bringUp env f = none) :
    s.bootFrom env bank f = ((loaderMeasured s bank f).modHub fun h => (h.setReason bank 5).manage 5) := by
  have hl' : imageFail (s.modHub fun h => h.stageTwo bank f).hub.svn 3 (loaderImageOf f) = none := hl
  have hb' : ((s.modHub fun h => h.stageTwo bank f).modHub fun h =>
      { h.measure 3 f.loader.digest with svn := max h.svn f.loader.svn }).bringUp env f = none := hb
  simp only [State.bootFrom, hl', hb']
  rfl

/-- Else every core runs, and M4 holds what stage 3 loads. -/
theorem bootFrom_runs {t : State} (hl : imageFail (s.hub.stageTwo bank f).svn 3 (loaderImageOf f) = none)
    (hb : (loaderMeasured s bank f).bringUp env f = some t) :
    s.bootFrom env bank f =
      t.modHub fun h => env.loaded.foldl (fun h g => h.measure 4 g) { h with stage := 3, coresRun := 0xFFFF } := by
  have hl' : imageFail (s.modHub fun h => h.stageTwo bank f).hub.svn 3 (loaderImageOf f) = none := hl
  have hb' : ((s.modHub fun h => h.stageTwo bank f).modHub fun h =>
      { h.measure 3 f.loader.digest with svn := max h.svn f.loader.svn }).bringUp env f = some t := hb
  simp only [State.bootFrom, hl', hb']

/-- A boot from a bank leaves CYCLE as it is. -/
theorem cycle_bootFrom (s : State) (env : ResetEnv) (bank : Bool) (f : FlashBank) : (s.bootFrom env bank f).cycle = s.cycle := by
  cases hl : imageFail (s.hub.stageTwo bank f).svn 3 (loaderImageOf f) with
  | some r => rw [bootFrom_loaderFails hl]; rfl
  | none =>
    cases hb : (loaderMeasured s bank f).bringUp env f with
    | none => rw [bootFrom_writeIgnored hl hb]; rfl
    | some t =>
      rw [bootFrom_runs hl hb]
      exact congrArg Prod.fst (State.standing_bringUp hb)

end

/-- A bank that passes is there. -/
theorem exists_of_tryBank {s : State} {b : Option FlashBank} {h : Hub} (hb : s.tryBank b = (h, none)) : ∃ f, b = some f := by
  cases b with
  | none => cases hb
  | some f => exact ⟨f, rfl⟩

/-- Every reset leaves CYCLE at 0. -/
theorem cycle_execModuleReset (env : ResetEnv) (s : State) : ∃ u, execModuleReset env s = .next u ∧ u.cycle = 0 := by
  cases hpuf : env.pufOk with
  | false => exact ⟨s.cleared.modHub fun h => h.manage 6, by simp [execModuleReset, hpuf], rfl⟩
  | true =>
    rcases hb : (resetStart s).tryBank s.hub.flash0 with ⟨h, _ | a⟩
    · obtain ⟨f, hf⟩ := exists_of_tryBank hb
      rw [hf] at hb
      exact ⟨_, execModuleReset_bank0 hpuf hf hb, cycle_bootFrom ..⟩
    · rcases hc : ((resetStart s).modHub fun _ => h.setReason false a).tryBank s.hub.flash1 with ⟨k, _ | b⟩
      · obtain ⟨g, hg⟩ := exists_of_tryBank hc
        rw [hg] at hc
        exact ⟨_, execModuleReset_bank1 hpuf hg hb hc, cycle_bootFrom ..⟩
      · exact ⟨_, execModuleReset_neither hpuf hb hc, rfl⟩

theorem bootRuns : BootRuns := by
  refine ⟨?runs, ?kept, ?loader, ?ignored, fun s env => cycle_execModuleReset env s⟩
  case runs =>
    intro s t env bank f hl hb
    obtain ⟨hcores, hstage, hms⟩ := Hub.foldl_measure_rest env.loaded { t.hub with stage := 3, coresRun := 0xFFFF }
    rw [bootFrom_runs hl hb]
    exact ⟨hcores, hstage, hms, Hub.foldl_measure_meas env.loaded rfl, rfl, rfl, rfl⟩
  case kept =>
    intro s t env f hb
    obtain ⟨hcycle, hhub⟩ := Prod.mk.inj (State.standing_bringUp hb)
    obtain ⟨hmeas, hsvn, h0, h1⟩ := Standing.mk.inj hhub
    exact ⟨hcycle, hmeas, hsvn, h0, h1⟩
  case loader =>
    intro s env bank f r hl
    rw [bootFrom_loaderFails hl]
    exact ⟨rfl, rfl, rfl⟩
  case ignored =>
    intro s env bank f hl hb
    rw [bootFrom_writeIgnored hl hb]
    exact ⟨rfl, rfl, rfl⟩

/-- The module as a wake takes it up: core 0 runs, and H holds on where S was entered from it (log 38). -/
abbrev awake (s : State) : State := s.modHub fun h => { h with power := if h.hot then .h else .p0, coresRun := 1 }

/-- Waking changes neither which bank booted nor what the flash holds. -/
theorem bank_awake (s : State) :
    (if (awake s).hub.bank then (awake s).hub.flash1 else (awake s).hub.flash0) = if s.hub.bank then s.hub.flash1 else s.hub.flash0 := rfl

/-- A wake that fails leaves the management state, with the reason in the field of the bank that booted. -/
theorem wakeFails (s : State) (r : Nat) :
    ((s.hub.setReason s.hub.bank r).manage r).ms = true ∧ ((s.hub.setReason s.hub.bank r).manage r).mgmt = BitVec.ofNat 8 r ∧
      ((s.hub.setReason s.hub.bank r).manage r).coresRun = 1 ∧
      (if s.hub.bank then ((s.hub.setReason s.hub.bank r).manage r).rsn1 else ((s.hub.setReason s.hub.bank r).manage r).rsn0) =
        BitVec.ofNat 8 r := by
  refine ⟨rfl, rfl, rfl, ?_⟩
  cases s.hub.bank <;> rfl

section
variable {s : State} {env : ResetEnv} (hs : s.hub.power = .s) (hms : s.hub.ms = false)
include hs hms

theorem execWake_up {t : State} {f : FlashBank} (hf : (if s.hub.bank then s.hub.flash1 else s.hub.flash0) = some f)
    (hb : (awake s).bringUp env f = some t) : execWake env s = .next (t.modHub fun h => { h with coresRun := 0xFFFF }) := by
  have hgo : ¬(s.hub.power ≠ .s ∨ s.hub.ms = true) := by simp [hs, hms]
  rw [← bank_awake] at hf
  simp only [execWake, if_neg hgo, hf, hb]

theorem execWake_ignored {f : FlashBank} (hf : (if s.hub.bank then s.hub.flash1 else s.hub.flash0) = some f)
    (hb : (awake s).bringUp env f = none) :
    execWake env s = .next ((awake s).modHub fun h => (h.setReason h.bank 5).manage 5) := by
  have hgo : ¬(s.hub.power ≠ .s ∨ s.hub.ms = true) := by simp [hs, hms]
  rw [← bank_awake] at hf
  simp only [execWake, if_neg hgo, hf, hb]

theorem execWake_gone (hf : (if s.hub.bank then s.hub.flash1 else s.hub.flash0) = none) :
    execWake env s = .next ((awake s).modHub fun h => (h.setReason h.bank 7).manage 7) := by
  have hgo : ¬(s.hub.power ≠ .s ∨ s.hub.ms = true) := by simp [hs, hms]
  rw [← bank_awake] at hf
  simp only [execWake, if_neg hgo, hf]
end

theorem wakes : Wakes := by
  refine ⟨fun s t env f hs hms hf hb => execWake_up hs hms hf hb, ?ignored, ?gone, ?other⟩
  case ignored =>
    intro s env f hs hms hf hb
    exact ⟨_, execWake_ignored hs hms hf hb, wakeFails (awake s) 5⟩
  case gone =>
    intro s env hs hms hf
    exact ⟨_, execWake_gone hs hms hf, wakeFails (awake s) 7⟩
  case other =>
    intro s env h
    show execWake env s = _
    rw [execWake, if_pos h]

/-- Settles O47: each bank by the stages' checks, the boot by what bringing the dies up leaves standing, the wake by its cases. -/
theorem bootOrder : Obligations.BootOrder := ⟨banksTried, bankPasses, bootRuns, wakes⟩

end Sys2Proof.Claims
end

section
/-! PROOFS. The encoding (09 R113 to R130): what the packers write, the unpackers and the decoder read back. -/

namespace Sys2Proof
open Sys2Proof.Machine (Ty)

/-! ### Operand specifiers and types (09 R123, R124) -/

theorem encodeOpnd_lt (o : Opnd) : encodeOpnd o < 2048 := by
  cases o with
  | q pk i => have := i.isLt; rw [encodeOpnd]; split <;> omega
  | null => decide
  | _ i => have := i.isLt; simp only [encodeOpnd]; omega

/-- Every specifier reads back as the operand it was made from: the classes take disjoint ranges of the 11 bits. -/
theorem decodeOpnd_encodeOpnd (o : Opnd) : decodeOpnd (BitVec.ofNat 11 (encodeOpnd o)) = some o := by
  have hn : (BitVec.ofNat 11 (encodeOpnd o)).toNat = encodeOpnd o := by
    rw [BitVec.toNat_ofNat, Nat.mod_eq_of_lt (encodeOpnd_lt o)]
  simp only [decodeOpnd, hn]
  cases o with
  | v i =>
    have hi := i.isLt
    simp [encodeOpnd, show i.toNat ≠ 2047 by omega, show i.toNat / 512 = 0 by omega]
  | s i =>
    have hi := i.isLt
    simp [encodeOpnd, show 512 + i.toNat ≠ 2047 by omega, show (512 + i.toNat) / 512 = 1 by omega,
      show (512 + i.toNat) / 64 % 8 = 0 by omega, BitVec.ofNat_add]
  | b i =>
    have hi := i.isLt
    simp [encodeOpnd, show 576 + i.toNat ≠ 2047 by omega, show (576 + i.toNat) / 512 = 1 by omega,
      show (576 + i.toNat) / 64 % 8 = 1 by omega, show (576 + i.toNat) / 8 % 8 = 0 by omega, BitVec.ofNat_add]
  | p i =>
    have hi := i.isLt
    simp [encodeOpnd, show 640 + i.toNat ≠ 2047 by omega, show (640 + i.toNat) / 512 = 1 by omega,
      show (640 + i.toNat) / 64 % 8 = 2 by omega, show (640 + i.toNat) / 8 % 8 = 0 by omega, BitVec.ofNat_add]
  | vm i =>
    have hi := i.isLt
    simp [encodeOpnd, show 704 + i.toNat ≠ 2047 by omega, show (704 + i.toNat) / 512 = 1 by omega,
      show (704 + i.toNat) / 64 % 8 = 3 by omega, show (704 + i.toNat) / 16 % 4 = 0 by omega, BitVec.ofNat_add]
  | k i =>
    have hi := i.isLt
    simp [encodeOpnd, show 1024 + i.toNat ≠ 2047 by omega, show (1024 + i.toNat) / 512 = 2 by omega,
      show (1024 + i.toNat) / 256 % 2 = 0 by omega, BitVec.ofNat_add]
  | q pk i =>
    have hi := i.isLt
    cases pk
    · simp [encodeOpnd, show 1536 + i.toNat ≠ 2047 by omega, show (1536 + i.toNat) / 512 = 3 by omega,
        show (1536 + i.toNat) / 256 % 2 = 0 by omega, show (1536 + i.toNat) / 16 % 16 = 0 by omega, BitVec.ofNat_add]
    · simp [encodeOpnd, show 1792 + i.toNat ≠ 2047 by omega, show (1792 + i.toNat) / 512 = 3 by omega,
        show (1792 + i.toNat) / 256 % 2 = 1 by omega, show (1792 + i.toNat) / 16 % 16 = 0 by omega, BitVec.ofNat_add]
  | null => rfl

theorem Machine.Ty.ofCode_code (t : Ty) : Ty.ofCode t.code = some t := by cases t <;> rfl
theorem Machine.Ty.code_lt (t : Ty) : t.code < 32 := by cases t <;> decide

/-! ### Parcels (09 R113) -/

theorem wordNat_natParcels {n : Nat} (h : n < 2 ^ 96) :
    wordNat (BitVec.ofNat 32 n) (BitVec.ofNat 32 (n / 2 ^ 32)) (BitVec.ofNat 32 (n / 2 ^ 64)) = n := by
  simp only [wordNat, BitVec.toNat_ofNat]
  omega

@[simp] theorem length_toParcels (k n : Nat) : (toParcels k n).length = k := by
  induction k generalizing n with
  | zero => rfl
  | succ k ih => simp [toParcels, ih]

theorem parcelsNat_toParcels (k n : Nat) : parcelsNat (toParcels k n) = n % 2 ^ (32 * k) := by
  induction k generalizing n with
  | zero => simp [toParcels, parcelsNat, Nat.mod_one]
  | succ k ih =>
    rw [toParcels, parcelsNat, ih, BitVec.toNat_ofNat, Nat.mul_succ, Nat.add_comm (32 * k), Nat.pow_add, Nat.mod_mul]

/-! ### Fields of a number -/

theorem ite_eq_toNat (b : Bool) : (if b then 1 else 0 : Nat) = b.toNat := by cases b <;> rfl

/-- The field of k bits at the bottom of a number. -/
theorem ofNat_eq_of_mod {k n : Nat} {x : BitVec k} (h : n % 2 ^ k = x.toNat) : BitVec.ofNat k n = x :=
  BitVec.eq_of_toNat_eq (by rwa [BitVec.toNat_ofNat])

/-- The flag at the bottom of a number. -/
theorem decide_eq_of_mod {n : Nat} {b : Bool} (h : n % 2 = b.toNat) : decide (n % 2 = 1) = b := by
  rw [h]; cases b <;> rfl

/-- The specifier at the bottom of a number. -/
theorem decodeOpnd_of_mod {n : Nat} {o : Opnd} (h : n % 2 ^ 11 = encodeOpnd o) : decodeOpnd (BitVec.ofNat 11 n) = some o := by
  have hn : BitVec.ofNat 11 n = BitVec.ofNat 11 (encodeOpnd o) :=
    ofNat_eq_of_mod (by rw [h, BitVec.toNat_ofNat, Nat.mod_eq_of_lt (encodeOpnd_lt o)])
  rw [hn, decodeOpnd_encodeOpnd]

/-! ### The bits common to the four forms (09 R119) -/

section
variable {n opc : Nat} {sub : BitVec 4} {gn : Bool} {gp : BitVec 3} {dst sa : Opnd} (hn : n / 2 ^ 58 = packHead opc sub gn gp dst sa)
include hn

/-- A word's head is the sum of its fields, each at its place. -/
theorem head_eq : n / 2 ^ 58 = opc * 2 ^ 30 + sub.toNat * 2 ^ 26 + gn.toNat * 2 ^ 25 + gp.toNat * 2 ^ 22 +
    encodeOpnd dst * 2 ^ 11 + encodeOpnd sa := by
  rw [hn, packHead, ite_eq_toNat]
  omega

theorem opc_of_head : n / 2 ^ 88 = opc := by
  have := head_eq hn; have := sub.isLt; have := gn.toNat_lt; have := gp.isLt; have := encodeOpnd_lt dst; have := encodeOpnd_lt sa
  omega

theorem lt_of_head (h : opc < 256) : n < 2 ^ 96 := by
  have := opc_of_head hn
  omega

theorem sub_of_head : BitVec.ofNat 4 (n / 2 ^ 84) = sub := by
  have := head_eq hn; have := sub.isLt; have := gn.toNat_lt; have := gp.isLt; have := encodeOpnd_lt dst; have := encodeOpnd_lt sa
  exact ofNat_eq_of_mod (by omega)

theorem gn_of_head : decide (n / 2 ^ 83 % 2 = 1) = gn := by
  have := head_eq hn; have := gn.toNat_lt; have := gp.isLt; have := encodeOpnd_lt dst; have := encodeOpnd_lt sa
  exact decide_eq_of_mod (by omega)

theorem gp_of_head : BitVec.ofNat 3 (n / 2 ^ 80) = gp := by
  have := head_eq hn; have := gp.isLt; have := encodeOpnd_lt dst; have := encodeOpnd_lt sa
  exact ofNat_eq_of_mod (by omega)

theorem dst_of_head : decodeOpnd (BitVec.ofNat 11 (n / 2 ^ 69)) = some dst := by
  have := head_eq hn; have := encodeOpnd_lt dst; have := encodeOpnd_lt sa
  exact decodeOpnd_of_mod (by omega)

theorem sa_of_head : decodeOpnd (BitVec.ofNat 11 (n / 2 ^ 58)) = some sa := by
  have := head_eq hn; have := encodeOpnd_lt sa
  exact decodeOpnd_of_mod (by omega)
end

/-! ### What each form's packer writes, its unpacker reads (09 R119) -/

/-- A Form A word is its head and the sum of the fields below it. -/
theorem packA_eq (opc : Nat) (w : AForm) : packA opc w = packHead opc w.sub w.gn w.gp w.dst w.sa * 2 ^ 58 + encodeOpnd w.sb * 2 ^ 47 +
    encodeOpnd w.sc * 2 ^ 36 + w.ft.toNat * 2 ^ 33 + w.ty.code * 2 ^ 28 + w.md.toNat * 2 ^ 24 + w.imm.toNat := by
  rw [packA]
  omega

theorem packB_eq (opc : Nat) (w : BForm) : packB opc w = packHead opc w.sub w.gn w.gp w.dst w.sa * 2 ^ 58 + w.ft.toNat * 2 ^ 57 +
    w.ty.code * 2 ^ 52 + w.md.toNat * 2 ^ 48 + w.imm.toNat := by
  rw [packB, ite_eq_toNat]
  omega

theorem packC_eq (opc : Nat) (w : CForm) : packC opc w = packHead opc w.sub w.gn w.gp w.dst w.sa * 2 ^ 58 + w.lv.toNat * 2 ^ 55 +
    w.cf.toNat * 2 ^ 48 + w.off.toNat := by
  rw [packC]
  omega

theorem packA_head (opc : Nat) (w : AForm) : packA opc w / 2 ^ 58 = packHead opc w.sub w.gn w.gp w.dst w.sa := by
  have := packA_eq opc w; have := encodeOpnd_lt w.sb; have := encodeOpnd_lt w.sc; have := w.ty.code_lt
  omega

theorem packB_head (opc : Nat) (w : BForm) : packB opc w / 2 ^ 58 = packHead opc w.sub w.gn w.gp w.dst w.sa := by
  have := packB_eq opc w; have := w.ft.toNat_lt; have := w.ty.code_lt
  omega

theorem packC_head (opc : Nat) (w : CForm) : packC opc w / 2 ^ 58 = packHead opc w.sub w.gn w.gp w.dst w.sa := by
  have := packC_eq opc w
  omega

theorem unpackA_packA (opc : Nat) (w : AForm) : unpackA (packA opc w) = .ok w := by
  have hn := packA_head opc w
  have heq := packA_eq opc w
  have hsb := encodeOpnd_lt w.sb
  have hsc := encodeOpnd_lt w.sc
  have hty := w.ty.code_lt
  have hmd := w.md.isLt
  have him := w.imm.isLt
  have esb : decodeOpnd (BitVec.ofNat 11 (packA opc w / 2 ^ 47)) = some w.sb := decodeOpnd_of_mod (by omega)
  have esc : decodeOpnd (BitVec.ofNat 11 (packA opc w / 2 ^ 36)) = some w.sc := decodeOpnd_of_mod (by omega)
  have eft : BitVec.ofNat 3 (packA opc w / 2 ^ 33) = w.ft := ofNat_eq_of_mod (by omega)
  have ety : packA opc w / 2 ^ 28 % 32 = w.ty.code := by omega
  have emd : BitVec.ofNat 4 (packA opc w / 2 ^ 24) = w.md := ofNat_eq_of_mod (by omega)
  have eim : BitVec.ofNat 24 (packA opc w) = w.imm := ofNat_eq_of_mod (by omega)
  rw [unpackA, dst_of_head hn, sa_of_head hn, esb, esc, ety, Ty.ofCode_code, sub_of_head hn, gn_of_head hn, gp_of_head hn, eft, emd, eim]

theorem unpackB_packB (opc : Nat) (w : BForm) : unpackB (packB opc w) = .ok w := by
  have hn := packB_head opc w
  have heq := packB_eq opc w
  have hty := w.ty.code_lt
  have hmd := w.md.isLt
  have him := w.imm.isLt
  have eft : decide (packB opc w / 2 ^ 57 % 2 = 1) = w.ft := decide_eq_of_mod (by omega)
  have ety : packB opc w / 2 ^ 52 % 32 = w.ty.code := by omega
  have emd : BitVec.ofNat 4 (packB opc w / 2 ^ 48) = w.md := ofNat_eq_of_mod (by omega)
  have eim : BitVec.ofNat 48 (packB opc w) = w.imm := ofNat_eq_of_mod (by omega)
  rw [unpackB, dst_of_head hn, sa_of_head hn, ety, Ty.ofCode_code, sub_of_head hn, gn_of_head hn, gp_of_head hn, eft, emd, eim]

theorem unpackC_packC (opc : Nat) (w : CForm) : unpackC (packC opc w) = .ok w := by
  have hn := packC_head opc w
  have heq := packC_eq opc w
  have hcf := w.cf.isLt
  have hof := w.off.isLt
  have elv : BitVec.ofNat 3 (packC opc w / 2 ^ 55) = w.lv := ofNat_eq_of_mod (by omega)
  have ecf : BitVec.ofNat 7 (packC opc w / 2 ^ 48) = w.cf := ofNat_eq_of_mod (by omega)
  have eof : BitVec.ofNat 48 (packC opc w) = w.off := ofNat_eq_of_mod (by omega)
  rw [unpackC, dst_of_head hn, sa_of_head hn, sub_of_head hn, gn_of_head hn, gp_of_head hn, elv, ecf, eof]

/-! ### What a packed word decodes to, before its form is checked (09 R121, R126) -/

section
variable {n opc : Nat} {sub : BitVec 4} {gn : Bool} {gp : BitVec 3} {dst sa : Opnd} (hn : n / 2 ^ 58 = packHead opc sub gn gp dst sa)
  (h : opc < 256) (rest : List Parcel)
include hn h

theorem decode_formA {w : AForm} (hu : unpackA n = .ok w) (hf : opcForm opc = some 0) :
    decode (natParcels n ++ rest) = checkForm (ofA opc w) rest := by
  simp only [natParcels, List.cons_append, List.nil_append, decode, wordNat_natParcels (lt_of_head hn h), opc_of_head hn, hf, hu]

theorem decode_formB {w : BForm} (hu : unpackB n = .ok w) (hf : opcForm opc = some 1) :
    decode (natParcels n ++ rest) = checkForm (ofB opc w) rest := by
  simp only [natParcels, List.cons_append, List.nil_append, decode, wordNat_natParcels (lt_of_head hn h), opc_of_head hn, hf, hu]

theorem decode_formC {w : CForm} (hu : unpackC n = .ok w) (hf : opcForm opc = some 2) :
    decode (natParcels n ++ rest) = checkForm (ofC opc w) rest := by
  simp only [natParcels, List.cons_append, List.nil_append, decode, wordNat_natParcels (lt_of_head hn h), opc_of_head hn, hf, hu]

/-- A Form P word whose head is well formed takes its twelve parameter parcels (09 R121). -/
theorem decode_formP {w : PForm} {j : Instr} (hu : unpackA n = .ok w.head) (hf : opcForm opc = some 3)
    (hj : ofP opc { w with par := 0 } = some j) (he : formErr j = none) :
    decode (natParcels n ++ (toParcels 12 w.par.toNat ++ rest)) = checkForm (ofP opc w) rest := by
  have hlen : ¬ (toParcels 12 w.par.toNat ++ rest).length < 12 := by simp
  have hpar : BitVec.ofNat 384 (parcelsNat (toParcels 12 w.par.toNat)) = w.par :=
    ofNat_eq_of_mod (by rw [parcelsNat_toParcels, Nat.mod_mod, Nat.mod_eq_of_lt w.par.isLt])
  simp only [natParcels, List.cons_append, List.nil_append, decode, wordNat_natParcels (lt_of_head hn h), opc_of_head hn, hf, hu,
    hj, he, checkForm, hlen, if_false, List.take_left' (length_toParcels 12 _), List.drop_left' (length_toParcels 12 _), hpar]
end

/-! ### Every word of an engine's stream -/

namespace Laws.EncForm

/-- The rows of the encoding tables lead the decoder back to every instruction. -/
theorem statement_holds (i : Instr) : Statement i := by
  cases i with
  | nop w => exact nop w | endI w => exact endI w | bri w => exact bri w | br w => exact br w | pbr w => exact pbr w
  | jtab w => exact jtab w | call w => exact call w | ret w => exact ret w | loop w => exact loop w | lbrk w => exact lbrk w
  | lidx w => exact lidx w | post w => exact post w | await w => exact await w | awaitNb w => exact awaitNb w | wseg w => exact wseg w
  | trapI w => exact trapI w | addI w => exact addI w | subI w => exact subI w | andI w => exact andI w | orI w => exact orI w
  | xorI w => exact xorI w | shl w => exact shl w | shr w => exact shr w | sar w => exact sar w | minI w => exact minI w
  | maxI w => exact maxI w | minn w => exact minn w | maxn w => exact maxn w | clz w => exact clz w | popc w => exact popc w
  | bext w => exact bext w | bins w => exact bins w | addImm w => exact addImm w | subImm w => exact subImm w
  | andImm w => exact andImm w | orImm w => exact orImm w | xorImm w => exact xorImm w | shlImm w => exact shlImm w
  | shrImm w => exact shrImm w | sarImm w => exact sarImm w | minImm w => exact minImm w | maxImm w => exact maxImm w
  | minnImm w => exact minnImm w | maxnImm w => exact maxnImm w | mulI w => exact mulI w | mulh w => exact mulh w
  | mulhn w => exact mulhn w | madd w => exact madd w | divI w => exact divI w | divn w => exact divn w | rem w => exact rem w
  | remn w => exact remn w | cmp w => exact cmp w | cmpi w => exact cmpi w | sel w => exact sel w | li w => exact li w
  | liHi w => exact liHi w | mov w => exact mov w | plog w => exact plog w | lea w => exact lea w | leaPc w => exact leaPc w
  | spld w => exact spld w | spst w => exact spst w | getc w => exact getc w | setc w => exact setc w | fork w => exact fork w
  | rdv w => exact rdv w | qcfg w => exact qcfg w | tspawn w => exact tspawn w | tsig w => exact tsig w | tyield w => exact tyield w
  | gbar w => exact gbar w | gwait w => exact gwait w | prog w => exact prog w | wrel w => exact wrel w | tret w => exact tret w
  | tretSkip w => exact tretSkip w | ctxsave w => exact ctxsave w | ctxload w => exact ctxload w | lttw w => exact lttw w
  | bank w => exact bank w | attrSet w => exact attrSet w | attrClr w => exact attrClr w | halt w => exact halt w
  | haltGo w => exact haltGo w | ld w => exact ld w | st w => exact st w | lda w => exact lda w | stl w => exact stl w
  | vld w => exact vld w | vst w => exact vst w | ldq w => exact ldq w | stq w => exact stq w | kld w => exact kld w
  | kst w => exact kst w | gath w => exact gath w | scat w => exact scat w | copy w => exact copy w | fill w => exact fill w
  | atom w => exact atom w | redst w => exact redst w | mcst w => exact mcst w | fenceAcq w => exact fenceAcq w
  | fenceRel w => exact fenceRel w | fenceAr w => exact fenceAr w | fenceSc w => exact fenceSc w | qfence w => exact qfence w
  | qpush w => exact qpush w | qpop w => exact qpop w | msgsend w => exact msgsend w | pref w => exact pref w | vadd w => exact vadd w
  | vsub w => exact vsub w | vmul w => exact vmul w | vfma w => exact vfma w | vmin w => exact vmin w | vmax w => exact vmax w
  | vabs w => exact vabs w | vdiv w => exact vdiv w | vrcp w => exact vrcp w | vrsq w => exact vrsq w | vexp w => exact vexp w
  | vlog w => exact vlog w | vact w => exact vact w | viadd w => exact viadd w | visub w => exact visub w | vimul w => exact vimul w
  | vimac w => exact vimac w | vbit w => exact vbit w | vsh w => exact vsh w | vimm w => exact vimm w | vcmp w => exact vcmp w
  | vsel w => exact vsel w | vmsk w => exact vmsk w | vcvt w => exact vcvt w | vrnd w => exact vrnd w | vqnt w => exact vqnt w
  | vdq w => exact vdq w | vunp3 w => exact vunp3 w | vtmac w => exact vtmac w | vred w => exact vred w | vscan w => exact vscan w
  | vtopk w => exact vtopk w | vperm w => exact vperm w | vbcst w => exact vbcst w | vsld w => exact vsld w | vilv w => exact vilv w
  | vxpose w => exact vxpose w | vmovs w => exact vmovs w | vsmx w => exact vsmx w | vrope w => exact vrope w | vstat w => exact vstat w
  | vmov w => exact vmov w | kmov w => exact kmov w | kset w => exact kset w | ksetOne w => exact ksetOne w | ksetS w => exact ksetS w
  | kadd w => exact kadd w | kmax w => exact kmax w | kmin w => exact kmin w | ktype w => exact ktype w | kbind w => exact kbind w
  | kunb w => exact kunb w | kgen w => exact kgen w | kgenB w => exact kgenB w | kfrom w => exact kfrom w | mnest w => exact mnest w
  | msrc w => exact msrc w | mbselWin w => exact mbselWin w | mbselScr w => exact mbselScr w | mfmt w => exact mfmt w
  | mgo w => exact mgo w | mgoGrp w => exact mgoGrp w | mdrain w => exact mdrain w | mzero w => exact mzero w | mload w => exact mload w
  | mrnd w => exact mrnd w | mgrp w => exact mgrp w | mstat w => exact mstat w | aqset w => exact aqset w | astep w => exact astep w
  | amerge w => exact amerge w | afin w => exact afin w | kvapp w => exact kvapp w | kvappBeam w => exact kvappBeam w
  | kvgath w => exact kvgath w | pgalloc w => exact pgalloc w | pgfree w => exact pgfree w | pxlook w => exact pxlook w
  | pxins w => exact pxins w | pxrel w => exact pxrel w | bmapRo w => exact bmapRo w | bmapSet w => exact bmapSet w
  | bmapRdlo w => exact bmapRdlo w | bmapRdhi w => exact bmapRdhi w | bmapClr w => exact bmapClr w | tierin w => exact tierin w
  | tierout w => exact tierout w | seqrd w => exact seqrd w
  | _ => exact trivial -- a step of the module has neither row nor fields

end Laws.EncForm

/-- A pair of checks that let a word pass: the first of them holds. -/
theorem eq_true_of_passed {α : Type} {a b : Bool} {e : α} {y : Option α} (h : (if !a || !b then some e else y) = none) : a = true := by
  cases a with
  | true => rfl
  | false => simp at h

/-! Each form's checks begin with the SUBs that the row admits and the guard. -/

theorem sub_of_errA {i : Instr} {r : Row} {w : AForm} (h : errA i r w = none) : r.subs.contains w.sub.toNat = true := eq_true_of_passed h
theorem sub_of_errB {i : Instr} {r : Row} {w : BForm} (h : errB i r w = none) : r.subs.contains w.sub.toNat = true := eq_true_of_passed h
theorem sub_of_errC {i : Instr} {r : Row} {w : CForm} (h : errC i r w = none) : r.subs.contains w.sub.toNat = true := eq_true_of_passed h

/-- The form of a Form P word is that of its head: its parameters have no part in it (09 R121). -/
theorem formErr_of_ofP {opc : Nat} {w : PForm} {i : Instr} (h : ofP opc w = some i) (he : formErr i = none) :
    ∃ j, ofP opc { w with par := 0 } = some j ∧ formErr j = none := by
  unfold ofP at h ⊢
  split at h <;> cases h <;> exact ⟨_, rfl, he⟩

theorem checkForm_some {i : Instr} (h : formErr i = none) (rest : List Parcel) : checkForm (some i) rest = .ok (i, rest) := by
  simp only [checkForm, h]

/-- A word of an engine's stream has a row of the encoding tables. -/
theorem Instr.exists_row {i : Instr} {b : Body} (hb : i.body = some b) : ∃ r, i.row = some r := by
  have hs := Laws.EncForm.statement_holds i
  cases hr : i.row with
  | some r => exact ⟨r, rfl⟩
  | none => simp [Laws.EncForm.Statement, hr, hb] at hs

theorem decode_encode {i : Instr} (h : WellFormed i) (rest : List Parcel) : decode (encode i ++ rest) = .ok (i, rest) := by
  obtain ⟨hbody, herr⟩ := h
  obtain ⟨b, hb⟩ := Option.isSome_iff_exists.1 hbody
  obtain ⟨r, hr⟩ := Instr.exists_row hb
  have hs := Laws.EncForm.statement_holds i
  have hform := herr
  cases b <;> simp only [Laws.EncForm.Statement, formErr, encode, hr, hb] at hs hform ⊢ <;> obtain ⟨hopc, hf, hof⟩ := hs
  case a w => rw [decode_formA (packA_head r.opc w) hopc rest (unpackA_packA r.opc w) hf, hof (sub_of_errA hform), checkForm_some herr]
  case b w => rw [decode_formB (packB_head r.opc w) hopc rest (unpackB_packB r.opc w) hf, hof (sub_of_errB hform), checkForm_some herr]
  case c w => rw [decode_formC (packC_head r.opc w) hopc rest (unpackC_packC r.opc w) hf, hof (sub_of_errC hform), checkForm_some herr]
  case p w =>
    have hi := hof (sub_of_errA hform)
    obtain ⟨j, hj, hje⟩ := formErr_of_ofP hi herr
    rw [List.append_assoc, decode_formP (packA_head r.opc w.head) hopc rest (unpackA_packA r.opc w.head) hf hj hje, hi, checkForm_some herr]

theorem length_encode {i : Instr} (h : WellFormed i) : (encode i).length = i.parcels := by
  obtain ⟨b, hb⟩ := Option.isSome_iff_exists.1 h.1
  obtain ⟨r, hr⟩ := Instr.exists_row hb
  cases b <;> simp [encode, Instr.parcels, hr, hb, natParcels]

end Sys2Proof

namespace Sys2Proof.Claims
open Sys2Proof

/-- Settles O51: the head and each form's fields are read back where they were packed (unpackA_packA and its like), and the tables lead the
decoder from the fields to the instruction (EncForm.statement_holds). -/
theorem decodeOfEncode : Obligations.DecodeOfEncode := by
  unfold Obligations.DecodeOfEncode
  exact fun i rest h => ⟨decode_encode h rest, length_encode h⟩

/-- The parcels written out from the spec are the encodings of well-formed instructions. -/
theorem encode_workedWords : ∀ e ∈ workedWords, (e.2.body.isSome = true ∧ formErr e.2 = none) ∧ encode e.2 = [e.1.1, e.1.2.1, e.1.2.2] := by
  decide +kernel

/-- Settles O50: what the worked words encode, they decode to. -/
theorem wordsDecode : Obligations.WordsDecode := by
  unfold Obligations.WordsDecode
  intro e he
  obtain ⟨hw, henc⟩ := encode_workedWords e he
  have hd := decode_encode (i := e.2) hw []
  rwa [List.append_nil, henc] at hd

end Sys2Proof.Claims
end

section
/-! PROOFS. Transfers of control (09 R115, 11 R144 to R146): O5. -/

namespace Sys2Proof.Machine

/-! ### What fetches a parcel does not see (09 R113) -/

/-- A fetch sees of the clusters only the ASID of the context that makes it. -/
theorem State.fetch_clusters (s : State) (m : SMap Cluster) (c x : Nat) (a : Parcel)
    (h : (({ s with clusters := m } : State).cl c).asid x = (s.cl c).asid x) : ({ s with clusters := m } : State).fetch c x a = s.fetch c x a := by
  unfold State.fetch State.fetch32
  rw [h]
  rfl

theorem State.fetch_modCtx (s : State) {f : Ctx → Ctx} (hf : (f s.ctx).hnd = s.ctx.hnd) (a : Parcel) :
    (s.modCtx f).fetch s.cur.1 s.cur.2 a = s.fetch s.cur.1 s.cur.2 a := by
  refine s.fetch_clusters _ _ _ a ?_
  show ((s.modCtx f).me).asid s.cur.2 = s.me.asid s.cur.2
  have hctx : ((s.modCtx f).me.cx s.cur.2).hnd = (s.me.cx s.cur.2).hnd := by
    rw [State.me_modCtx, Cluster.cx_modCx_same]
    exact hf
  unfold Cluster.asid
  rw [hctx, State.me_modCtx]
  rfl

/-- A change of the context that keeps its handler record leaves the judgement of a target as it was. -/
theorem State.judge_modCtx (s : State) {f : Ctx → Ctx} (hf : (f s.ctx).hnd = s.ctx.hnd) (a : Parcel) : (s.modCtx f).judge a = s.judge a := by
  simp only [State.judge, State.cur_modCtx, State.fetch_modCtx s hf]

theorem State.goto_header {s : State} {a : Parcel} (hin : s.ctx.inside a = false) (hj : s.judge a = .ok true) : s.goto a = .ok (s.leaveTo a) := by
  simp [State.goto, hin, hj]

theorem State.goto_nowhere {s : State} {a : Parcel} (hin : s.ctx.inside a = false) (hj : s.judge a = .ok false) :
    s.goto a = .error (.trap { cause := .illegal, info := some (a.setWidth 64) }) := by
  simp [State.goto, hin, hj, trapInfo]

/-- A target is this parcel plus the offset, modulo 2^32 (11 R144). -/
theorem relTarget_eq (pc : Parcel) (off : BitVec 48) : relTarget pc off = pc + off.setWidth 32 := by
  have hoff : (off.signExtend 64).setWidth 32 = off.setWidth 32 := by
    ext i hi
    simp only [BitVec.getElem_setWidth, BitVec.getLsbD_signExtend]
    rw [if_pos (by omega), decide_eq_true (by omega), Bool.true_and]
  rw [relTarget, BitVec.setWidth_add _ _ (by decide), BitVec.setWidth_setWidth_of_le _ (by decide), BitVec.setWidth_eq, hoff]

end Sys2Proof.Machine

namespace Sys2Proof.Claims
open Sys2Proof.Machine

/-! ### A transfer is one goto -/

/-- A word that transfers control goes to its target in a state v that differs from the one it is said to leave in nothing but the course of
its context, and whose section and memory judge the target as the state at issue does. -/
structure GoesTo (i : Instr) (s u v : State) (a : Parcel) : Prop where
  runs : exec i s = finishAt s (v.goto a)
  only : OnlySequencing u v
  inside : v.ctx.inside a = s.ctx.inside a
  judge : v.judge a = s.judge a

theorem goesTo_same {i : Instr} {s : State} {a : Parcel} (h : exec i s = finishAt s (s.goto a)) : GoesTo i s s s a :=
  ⟨h, OnlySequencing.refl s, rfl, rfl⟩

theorem branchB_now {s : State} {r : BitVec 3} (hp : s.ctx.phase = .body) (h : 4 ≤ (SMap.get? s.ctx.bAge r.toNat).getD 4) :
    s.branchB (.b r) = finishAt s (s.goto (s.ctx.getB r.toNat)) := by
  have hd : brDelay s.ctx r.toNat = 0 := Nat.sub_eq_zero_of_le h
  simp only [State.branchB, hp, hd]

theorem branchB_after {s : State} {r : BitVec 3} (hp : s.ctx.phase = .brWait 0) :
    s.branchB (.b r) = finishAt s ((s.modCtx fun e => { e with phase := .body }).goto (s.ctx.getB r.toNat)) := by
  simp only [State.branchB, hp]

theorem branchB_waits {s : State} {r : BitVec 3} {n : Nat}
    (h : s.ctx.phase = .brWait (n + 1) ∨ (s.ctx.phase = .body ∧ SMap.get? s.ctx.bAge r.toNat = some (3 - n) ∧ n ≤ 3)) :
    s.branchB (.b r) = .next (s.modCtx fun e => { e with phase := .brWait n }).used := by
  rcases h with hp | ⟨hp, hage, hn⟩
  · simp only [State.branchB, hp]
  · have hd : brDelay s.ctx r.toNat = n + 1 := by
      rw [brDelay, hage, Option.getD_some]
      omega
    simp only [State.branchB, hp, hd]

theorem goesTo_body {i : Instr} {s : State} {a : Parcel} (h : exec i s = finishAt s ((s.modCtx fun e => { e with phase := .body }).goto a)) :
    GoesTo i s s (s.modCtx fun e => { e with phase := .body }) a :=
  ⟨h, OnlySequencing.modCtx s _ rfl, by rw [State.ctx_modCtx]; rfl, State.judge_modCtx s rfl a⟩

theorem execJtab_goto {w : AForm} {s : State} {i b : Word} {a : Parcel} (hi : s.srcS w.sa 2 (ftBit w 2) = .ok i)
    (hb : s.srcS w.sb 3 (ftBit w 3) = .ok b) (hal : (b.toNat + 4 * min i.toNat w.imm.toNat) % 4 = 0)
    (ha : s.fetch32 s.cur.1 s.cur.2 (b.toNat + 4 * min i.toNat w.imm.toNat) = .ok a) : execJtab w s = finishAt s (s.goto a) := by
  have hmin : (if i.toNat < w.imm.toNat then i.toNat else w.imm.toNat) = min i.toNat w.imm.toNat := by
    split <;> omega
  simp only [execJtab, hi, hb, ok_bind, hmin, hal, ha, trapIfInfo, bne_self_eq_false, Bool.false_eq_true, if_false]

theorem exists_goesTo {i : Instr} {s u : State} {a : Parcel} (h : Branch s i u a) : ∃ v, GoesTo i s u v a := by
  cases h with
  | bri w => exact ⟨s, goesTo_same (by rw [← relTarget_eq]; rfl)⟩
  | call w d hd =>
    refine ⟨s.modCtx fun e => e.putB d.toNat (s.ctx.pc + 3), ?_, OnlySequencing.refl _, ?_, State.judge_modCtx s rfl _⟩
    · show finishAt s _ = _
      rw [hd, relTarget_eq, State.putOpnd, BitVec.setWidth_setWidth_of_le _ (by decide), BitVec.setWidth_eq]
    · rw [State.ctx_modCtx]; rfl
  | br w r hr hp hage => exact ⟨s, goesTo_same ((congrArg s.branchB hr).trans (branchB_now hp hage))⟩
  | brAfter w r hr hp => exact ⟨_, goesTo_body ((congrArg s.branchB hr).trans (branchB_after hp))⟩
  | ret w r hr hp hage => exact ⟨s, goesTo_same ((congrArg s.branchB hr).trans (branchB_now hp hage))⟩
  | retAfter w r hr hp => exact ⟨_, goesTo_body ((congrArg s.branchB hr).trans (branchB_after hp))⟩
  | jtab w i b a hi hb hal ha => exact ⟨s, goesTo_same (execJtab_goto hi hb hal ha)⟩

/-! ### The three outcomes of a transfer (09 R115) -/

section
variable {i : Instr} {s u v : State} {a : Parcel} (h : GoesTo i s u v a)
include h

theorem goesTo_inside (hin : s.ctx.inside a = true) : ∃ t, exec i s = .next t ∧ OnlySequencing u t ∧ t.ctx.pc = a ∧ t.ctx.phase = .body := by
  refine ⟨(v.modCtx fun e => { e with pc := a, phase := .body }).issuedWord, ?_, ?_, ?_, ?_⟩
  · rw [h.runs, State.goto_inside (h.inside.trans hin)]; rfl
  · exact (h.only.trans (OnlySequencing.modCtx v _ rfl)).trans (OnlySequencing.issuedWord _)
  all_goals rw [State.ctx_issuedWord, State.ctx_modCtx]

theorem goesTo_header (hin : s.ctx.inside a = false) (hj : s.judge a = .ok true) :
    ∃ t, exec i s = .next t ∧ OnlySequencing u t ∧ t.ctx.pc = a ∧ t.ctx.phase = .header ∧ t.ctx.inSec = false := by
  refine ⟨(v.leaveTo a).issuedWord, ?_, ?_, ?_⟩
  · rw [h.runs, State.goto_header (h.inside.trans hin) (h.judge.trans hj)]; rfl
  · exact (h.only.trans (OnlySequencing.leaveTo v a)).trans (OnlySequencing.issuedWord _)
  · rw [State.ctx_issuedWord, State.leaveTo, State.ctx_modCtx]
    exact ⟨rfl, rfl, rfl⟩

theorem goesTo_nowhere (hin : s.ctx.inside a = false) (hj : s.judge a = .ok false) :
    ∃ t, exec i s = .next t ∧ Trapped t s.cur.1 s.cur.2 .illegal 0 s.ctx.pc (a.setWidth 64) := by
  refine ⟨s.trapHere { cause := .illegal, info := some (a.setWidth 64) }, ?_, trapped_trapHere s rfl nofun⟩
  rw [h.runs, State.goto_nowhere (h.inside.trans hin) (h.judge.trans hj)]; rfl
end

/-- Settles O5: every transfer is one goto of its target (exists_goesTo), which has three outcomes; a BR or RET that comes too early waits. -/
theorem transfersOfControl : Obligations.TransfersOfControl := by
  unfold Obligations.TransfersOfControl
  refine ⟨fun i s u a hb => ?_, fun w r s n hr hw i hi => ?_⟩
  · obtain ⟨v, hv⟩ := exists_goesTo hb
    exact ⟨goesTo_inside hv, goesTo_header hv, goesTo_nowhere hv⟩
  · have hbr : s.branchB w.sa = .next (s.modCtx fun e => { e with phase := .brWait n }).used := by rw [hr, branchB_waits hw]
    simp only [List.mem_cons, List.not_mem_nil, or_false] at hi
    rcases hi with rfl | rfl <;> exact hbr

end Sys2Proof.Claims
end

section
/-! PROOFS. No instruction and no step stops the model (09 R126, 29 R366): O53. -/

namespace Sys2Proof.Machine

/-- An outcome that is a next state. -/
def Answers (o : Out) : Prop := ∃ t, o = .next t

theorem answers_next (t : State) : Answers (.next t) := ⟨t, rfl⟩

theorem answers_ite {p : Prop} [Decidable p] {a b : Out} (ha : Answers a) (hb : Answers b) : Answers (if p then a else b) := by
  split
  · exact ha
  · exact hb

/-! ### The shared answers of words: what passes its checks completes, what does not waits or traps -/

section
variable (s : State)

theorem finish_answers (len : Nat) (r : Chk State) : Answers (finish s len r) := by cases r <;> exact answers_next _
theorem finishAt_answers (r : Chk State) : Answers (finishAt s r) := by cases r <;> exact answers_next _
theorem finishWait_answers (r : Chk State) : Answers (finishWait s r) := by cases r <;> exact answers_next _

theorem attrDone_answers (r : Chk (State × Bool)) : Answers (attrDone s r) := by
  unfold attrDone
  split
  · exact finishWait_answers ..
  · exact finish_answers ..
  · exact finish_answers ..

theorem branchB_answers (o : Opnd) : Answers (s.branchB o) := by
  unfold State.branchB
  split
  · dsimp only
    split
    · exact answers_next _
    · exact finishAt_answers ..
    · split
      · exact answers_next _
      · exact finishAt_answers ..
  · exact answers_next _

theorem endHere_answers : Answers s.endHere := by
  unfold State.endHere
  split
  · exact answers_next _
  · exact finishAt_answers ..

theorem actEnd_answers : Answers s.actEnd := by
  unfold State.actEnd
  refine answers_ite ?_ (endHere_answers s)
  split
  · exact answers_next _
  · exact endHere_answers s

theorem fence_answers (w : AForm) (kind : Nat) : Answers (s.fence w kind) := by
  unfold State.fence
  split
  · exact answers_next _
  · exact answers_ite (answers_next _) (finish_answers ..)

theorem bankCmd_answers (bank : Nat) (r : Chk State) : Answers (s.bankCmd bank r) := by
  unfold State.bankCmd
  refine answers_ite (answers_next _) ?_
  split
  · exact answers_next _
  · exact finish_answers ..

theorem kvapp_answers (w : AForm) (beam : Bool) : Answers (s.kvapp w beam) := by
  unfold State.kvapp
  split
  · exact answers_next _
  · split <;> exact answers_next _

/-! ### Words that choose between answers -/

theorem execLoop_answers (w : CForm) : Answers (execLoop w s) := by
  unfold execLoop
  dsimp only
  split
  · exact answers_next _
  · iterate 4 refine answers_ite (answers_next _) ?_
    exact finish_answers ..

theorem execLbrk_answers (w : CForm) : Answers (execLbrk w s) := by
  unfold execLbrk
  split
  · exact answers_next _
  · exact finishAt_answers ..

theorem execWseg_answers (w : AForm) : Answers (execWseg w s) := by
  unfold execWseg
  split
  · exact answers_next _
  · dsimp only
    split -- what the key's check says
    · exact finish_answers ..
    · exact answers_next _
    · split -- the action on a miss
      · exact answers_ite (answers_next _) (answers_next _)
      · exact answers_next _
      · exact answers_next _
      · exact finish_answers ..

theorem execSetc_answers (w : AForm) : Answers (execSetc w s) := by
  unfold execSetc
  dsimp only
  split
  · exact finishWait_answers ..
  · exact finish_answers ..

theorem execCopy_answers (w : AForm) : Answers (execCopy w s) := by
  unfold execCopy
  dsimp only
  split
  · exact finishWait_answers ..
  · exact finish_answers ..
  · exact finish_answers ..

theorem execFill_answers (w : AForm) : Answers (execFill w s) := by
  unfold execFill
  dsimp only
  split
  · exact finishWait_answers ..
  · exact finish_answers ..
  · exact finish_answers ..

theorem execMstat_answers (w : AForm) : Answers (execMstat w s) := by
  unfold execMstat
  refine answers_ite (answers_next _) ?_
  split
  · exact answers_next _
  · exact finish_answers ..

theorem execTspawn_answers (w : AForm) : Answers (execTspawn w s) := by
  unfold execTspawn
  split
  · exact answers_next _
  · refine answers_ite (answers_next _) (answers_ite (answers_next _) ?_)
    dsimp only
    split
    · exact answers_next _
    · exact answers_ite (finish_answers ..) (finish_answers ..)

theorem execTyield_answers (w : AForm) : Answers (execTyield w s) := by
  unfold execTyield
  refine answers_ite (answers_next _) ?_
  split
  · exact finish_answers ..
  · exact answers_ite (answers_next _) (finish_answers ..)

/-! ### Headers and keys -/

theorem execHeaderReached_answers (c x : Nat) : Answers (execHeaderReached c x s) := by
  unfold execHeaderReached
  refine answers_ite (answers_next _) ?_
  split
  · split -- what stands at the PC
    · exact actEnd_answers _
    · split <;> exact answers_next _
    · exact answers_next _
  · exact answers_next _

theorem execSegmentKeyHit_answers (c x : Nat) : Answers (execSegmentKeyHit c x s) := by
  unfold execSegmentKeyHit
  refine answers_ite (answers_next _) ?_
  split -- the phase of the context
  · split
    · exact execWseg_answers ..
    · exact answers_next _
  · split
    · exact answers_ite (answers_next _) (answers_next _)
    · exact answers_next _
  · exact answers_next _

/-! ### Every instruction, and every step -/

/-- Every instruction answers. A word does so through one of the answers above; the meaning of a step of the module is a choice between
next states. -/
theorem exec_answers (i : Instr) : Answers (exec i s) := by
  cases i with
  | lidx _ | await _ | awaitNb _ | addI _ | subI _ | andI _ | orI _ | xorI _ | shl _ | shr _ | sar _ | minI _ | maxI _ | minn _ | maxn _
    | clz _ | popc _ | bext _ | bins _ | addImm _ | subImm _ | andImm _ | orImm _ | xorImm _ | shlImm _ | shrImm _ | sarImm _ | minImm _
    | maxImm _ | minnImm _ | maxnImm _ | mulI _ | mulh _ | mulhn _ | madd _ | divI _ | divn _ | rem _ | remn _ | cmp _ | cmpi _ | sel _
    | li _ | liHi _ | mov _ | plog _ | lea _ | leaPc _ | spld _ | spst _ | getc _ | fork _ | rdv _ | qcfg _ | tsig _ | gbar _ | gwait _
    | prog _ | wrel _ | tret _ | tretSkip _ | ctxsave _ | ctxload _ | lttw _ | halt _ | haltGo _ | pref _ | vadd _ | vsub _ | vmul _
    | vfma _ | vmin _ | vmax _ | vabs _ | vdiv _ | vrcp _ | vrsq _ | vexp _ | vlog _ | vact _ | viadd _ | visub _ | vimul _ | vimac _
    | vbit _ | vsh _ | vimm _ | vcmp _ | vsel _ | vmsk _ | vcvt _ | vqnt _ | vdq _ | vunp3 _ | vtmac _ | vred _ | vscan _ | vtopk _
    | vperm _ | vbcst _ | vsld _ | vilv _ | vxpose _ | vmovs _ | vsmx _ | vrope _ | vstat _ | vmov _ | kmov _ | kset _ | ksetOne _
    | ksetS _ | kadd _ | kmax _ | kmin _ | ktype _ | kbind _ | kunb _ | kgen _ | kgenB _ | kfrom _ | mnest _ | msrc _ | mbselScr _ | mfmt _
    | mgo _ | mgoGrp _ | mgrp _ | aqset _ | astep _ | amerge _ | afin _ | kvgath _ | pgalloc _ | pgfree _ | pxlook _ | pxins _ | pxrel _
    | bmapRo _ | bmapSet _ | bmapRdlo _ | bmapRdhi _ | bmapClr _ | tierin _ | tierout _ | seqrd _ => exact finish_answers ..
  | bri _ | jtab _ | call _ => exact finishAt_answers ..
  | post _ | bank _ | ld _ | st _ | lda _ | stl _ | vld _ | vst _ | ldq _ | stq _ | kld _ | kst _ | gath _ | scat _ | atom _ | redst _
    | mcst _ | qpush _ | qpop _ | msgsend _ => exact finishWait_answers ..
  | endI _ => exact actEnd_answers ..
  | br _ | ret _ => exact branchB_answers ..
  | loop _ => exact execLoop_answers ..
  | lbrk _ => exact execLbrk_answers ..
  | wseg _ => exact execWseg_answers ..
  | setc _ => exact execSetc_answers ..
  | tspawn _ => exact execTspawn_answers ..
  | tyield _ => exact execTyield_answers ..
  | attrSet _ | attrClr _ => exact attrDone_answers ..
  | copy _ => exact execCopy_answers ..
  | fill _ => exact execFill_answers ..
  | fenceAcq _ | fenceRel _ | fenceAr _ | fenceSc _ => exact fence_answers ..
  | mdrain _ | mzero _ | mload _ => exact bankCmd_answers ..
  | mstat _ => exact execMstat_answers ..
  | kvapp _ | kvappBeam _ => exact kvapp_answers ..
  | headerReached _ _ => exact execHeaderReached_answers ..
  | segmentKeyHit _ _ => exact execSegmentKeyHit_answers ..
  | nop _ | pbr _ | trapI _ | qfence _ | vrnd _ | mbselWin _ | mrnd _ | backgroundEviction _ | retry _ _ _ | skip _ _ _ | kill _ _ _
    | saveTeam _ _ _ | swapout _ _ | swapin _ _ | agfrz _ _ _ | estclr _ _ _ _ | alloc _ _ _ _ | refPage _ _ _ _ | unref _ _ _ _
    | setro _ _ _ _ | clrro _ _ _ _ | setpin _ _ _ _ | clrpin _ _ _ _ | evict _ _ _ _ | publish _ _ _ _ | pageAllocatorEnable _ _ _
    | pageAllocatorInitDone _ | partcfg _ _ | partsup _ _ | rfcfg _ _ _ | bypass _ _ _ | fabcfg _ _ | hostwin _ _ | pwrcap _ _
    | configRegisterWrite _ _ _ | leaseExpiry _ _ | getCertificate | challenge _ | getMeasurements _ | keyExchange _ | p1Entry | p1Exit
    | powerRemoved | hubCoreAccess _ _ | segmentStoreError _ => exact answers_next _
  -- the steps of the module whose meaning is a choice between next states
  | tierMoveEnd _ | sectionStart _ _ | sectionRetire _ _ | resultLands _ _ _ | ldqScalesLand _ _ _ | ldqDataLands _ _ _
    | acceptanceTimeout _ _ | fenceWaitExpiry _ _ | bankWake _ _ | taskTrapHandlerStart _ | messageArrival _ _ | arrivalHandlerStart _
    | hubSubmission _ _ _ | earlySignalExpiry _ _ | taskRelease _ _ | taskIssue _ _ | taskRetirement _ | timingSourceChange _ | tickEnd _
    | frameStart _ | segmentArrival _ _ | segmentForward _ | segmentRefetch _ _ | heartbeatTimeout _ _ | repairComplete _ | nestStart _
    | nestStep _ | nestEnd _ | mdrainRowLands _ | preemptionCheck _ | saveImageComplete _ | saveDrainFallback _ | contextRestore _ _
    | frz _ _ _ | accessTableWrite _ _ _ _ | groupTableWrite _ _ _ | flitReceived _ _ _ _ | keyUpdate _ _ | linkDeclaredDead _ | linkUp _ _
    | remoteAccessArrival _ | shootDown _ _ | roClearAtHome _ | hostBarAccess _ _ | moduleReset _ | pldmFirmwareUpdate _ _
    | thermalHalt _ _ _ | suspend | wake _ | accessAccepted _ _ _ | accessPerformed _ _ | linkLosesTraining _ | distributorMessageArrival _ =>
    simp only [exec, execTierMoveEnd, execSectionStart, execSectionRetire, execResultLands, execLdqScalesLand, execLdqDataLands, execAcceptanceTimeout,
      execFenceWaitExpiry, execBankWake, execTaskTrapHandlerStart, execMessageArrival, execArrivalHandlerStart, execHubSubmission,
      execEarlySignalExpiry, execTaskRelease, execTaskIssue, execTaskRetirement, execTimingSourceChange, execTickEnd, execFrameStart,
      execSegmentArrival, execSegmentForward, execSegmentRefetch, execHeartbeatTimeout, execRepairComplete, execNestStart, execNestStep,
      execNestEnd, execMdrainRowLands, execPreemptionCheck, execSaveImageComplete, execSaveDrainFallback, execContextRestore, execFrz,
      execAccessTableWrite, execGroupTableWrite, execFlitReceived, execKeyUpdate, execLinkDeclaredDead, execLinkUp,
      execRemoteAccessArrival, execShootDown, execRoClearAtHome, execHostBarAccess, execModuleReset, execPldmFirmwareUpdate,
      execThermalHalt, execSuspend, execWake, execAccessAccepted, execAccessPerformed, execLinkLosesTraining, execDistributorMessageArrival]
    repeat' first | with_reducible exact answers_next _ | split

/-- The answer of a turn, where it has one, is a next state. -/
def Plan.Answers : Plan → Prop
  | .answer o => Machine.Answers o
  | .run _ _ => True

theorem planEnd_answers : s.planEnd.Answers := by
  unfold State.planEnd
  split
  · trivial
  · trivial
  · exact answers_next _

theorem issueWord_answers : s.issueWord.Answers := by
  unfold State.issueWord
  split
  · exact answers_next _
  · dsimp only
    split
    · trivial
    · exact answers_next _

theorem issueTurn_answers : s.issueTurn.Answers := by
  unfold State.issueTurn
  dsimp only
  split
  · exact answers_next _
  · split -- the phase of the context
    case h_2 => split <;> trivial
    case h_3 | h_4 | h_5 | h_6 => exact answers_next _
    case h_1 | h_7 => trivial
    all_goals exact issueWord_answers s

theorem plan_answers : s.plan.Answers := by
  unfold State.plan
  split
  · exact planEnd_answers s
  · split
    · exact answers_next _
    · trivial
  · split
    · exact planEnd_answers s
    · exact issueTurn_answers _

theorem step_answers : Answers (step s) := by
  have hp := plan_answers s
  unfold step
  split
  next o ho => rwa [ho] at hp
  next i t _ => exact exec_answers t i

end

end Sys2Proof.Machine

namespace Sys2Proof.Claims
open Sys2Proof.Machine

/-- Settles O53: each meaning ends in a next state (exec_answers), and so does each turn (plan_answers). -/
theorem nothingStops : Obligations.NothingStops := by
  unfold Obligations.NothingStops
  exact ⟨fun i s => exec_answers s i, step_answers⟩

end Sys2Proof.Claims
end

section
/-! PROOFS. What a step runs (09 R126, 11 R141): the word at the PC, an event, or the end of the cycle: O52. -/

namespace Sys2Proof

/-- The OPC of a word stands in the top byte of its third parcel (09 R119). -/
theorem wordNat_opc (p0 p1 p2 : Parcel) : wordNat p0 p1 p2 / 2 ^ 88 = p2.toNat / 2 ^ 24 := by
  have h0 := p0.isLt
  have h1 := p1.isLt
  unfold wordNat
  omega

/-- Parcels that decode are of an allocated OPC, and hold a Form P word's parameters (09 R121, R127). -/
theorem opcForm_of_decode {p0 p1 p2 : Parcel} {ps : List Parcel} {r : Instr × List Parcel} (h : decode (p0 :: p1 :: p2 :: ps) = .ok r) :
    ∃ f, opcForm (p2.toNat / 2 ^ 24) = some f ∧ (f = 3 → 12 ≤ ps.length) := by
  cases hf : opcForm (p2.toNat / 2 ^ 24) with
  | none => simp only [decode, wordNat_opc, hf] at h; cases h
  | some f =>
    refine ⟨f, rfl, fun h3 => ?_⟩
    subst h3
    by_contra hlen
    simp only [decode, wordNat_opc, hf, Nat.lt_of_not_le hlen, if_true] at h
    split at h
    · cases h
    · split at h <;> cases h

end Sys2Proof

namespace Sys2Proof.Machine
open Sys2Proof.Claims

variable {s : State} {i : Instr}

theorem wordAt_of_shortWord (h : ShortWord s i) (hp : parOf i = none) : s.wordAt = .ok i := by
  obtain ⟨p0, p1, p2, hin, hfetch, hdec, hacc, hkind⟩ := h
  obtain ⟨f, hf, hlen⟩ := opcForm_of_decode hdec
  have h3 : f ≠ 3 := fun h => absurd (hlen h) (by decide)
  have hin' : ¬ s.ctx.secE < s.ctx.pc.toNat + 3 := Nat.not_lt.2 hin
  simp only [State.wordAt, if_neg hin', hfetch, List.getD_cons_succ, List.getD_cons_zero, hf, hacc, h3, false_and, List.append_nil, hdec, hkind, hp,
    Bool.not_true, Bool.false_eq_true, if_false]

theorem wordAt_of_longWord (h : LongWord s i) : s.wordAt = .ok i := by
  obtain ⟨p0, p1, p2, qs, b, hin, hfetch, hpar, hf, hdec, hacc, hkind, hp, hhead, hfixed⟩ := h
  have hin' : ¬ s.ctx.secE < s.ctx.pc.toNat + 3 := by omega
  simp only [State.wordAt, if_neg hin', hfetch, List.getD_cons_succ, List.getD_cons_zero, hf, hacc, hin, and_self, hpar, List.cons_append,
    List.nil_append, hdec, hkind, hp, hhead, hfixed, Bool.and_self, Bool.not_true, Bool.false_eq_true, if_false, if_true]

/-! ### What ends a cycle leaves of the order of turns -/

/-- What says whose turn it is: CYCLE, the turns that are left, and the issue slots that each cluster has used. -/
def State.round (s : State) : BitVec 64 × List Turn × (Nat → List Nat) := (s.cycle, s.turns, fun c => (s.cl c).issued)

@[simp] theorem State.round_ite (p : Prop) [Decidable p] (s t : State) : (if p then s else t).round = if p then s.round else t.round :=
  apply_ite State.round p s t

@[simp] theorem State.round_foldl {α : Type} (f : State → α → State) (l : List α) (s : State) (hf : ∀ s a, (f s a).round = s.round) :
    (l.foldl f s).round = s.round := by
  induction l generalizing s with
  | nil => rfl
  | cons a l ih => exact (ih (f s a)).trans (hf s a)

theorem State.round_modCl (s : State) (c : Nat) (f : Cluster → Cluster) (hf : (f (s.cl c)).issued = (s.cl c).issued) :
    (s.modCl c f).round = s.round := by
  have hslots : (fun d => ((s.modCl c f).cl d).issued) = fun d => (s.cl d).issued := by
    funext d
    by_cases hd : d = c
    · rw [hd, State.cl_modCl_same, hf]
    · rw [State.cl_modCl_ne _ _ hd]
  exact congrArg (fun y => (s.cycle, s.turns, y)) hslots

@[simp] theorem State.round_modCx (s : State) (c x : Nat) (f : Ctx → Ctx) : (s.modCx c x f).round = s.round := State.round_modCl s c _ rfl
@[simp] theorem State.round_modCtx (s : State) (f : Ctx → Ctx) : (s.modCtx f).round = s.round := State.round_modCx s _ _ f
@[simp] theorem State.round_modSup (s : State) (t : Nat) (f : Sup → Sup) : (s.modSup t f).round = s.round := rfl
@[simp] theorem State.round_modDist (s : State) (t : Nat) (f : Dist → Dist) : (s.modDist t f).round = s.round := rfl
@[simp] theorem State.round_modHub (s : State) (f : Hub → Hub) : (s.modHub f).round = s.round := rfl
@[simp] theorem State.round_logFault (s : State) (t : Nat) (r : Fault.Rec) : (s.logFault t r).round = s.round := rfl
@[simp] theorem State.round_msi (s : State) (n : Nat) : (s.msi n).round = s.round := rfl
@[simp] theorem State.round_refuse (s : State) (c x tgt va pc : Nat) : (s.refuse c x tgt va pc).round = s.round := by simp [State.refuse]
@[simp] theorem State.round_refuseCopy (s : State) (c x m tgt va pc : Nat) : (s.refuseCopy c x m tgt va pc).round = s.round := by
  simp [State.refuseCopy]
@[simp] theorem State.round_tvecRefused (s : State) (c : Nat) : (s.tvecRefused c).round = s.round := by
  unfold State.tvecRefused
  split <;> simp
@[simp] theorem State.round_interrupt (s : State) (t : Nat) : (s.interrupt t).round = s.round := by
  unfold State.interrupt
  dsimp only
  split <;> simp
@[simp] theorem State.round_cancelPre (s : State) (d : Nat) (team : BitVec 16) : (s.cancelPre d team).round = s.round := by
  have hstop (b : Bool) (s : State) (c : Nat) : (s.modCl c fun k => { k.unstop with halted := k.halted && b }).round = s.round :=
    State.round_modCl s c _ rfl
  unfold State.cancelPre
  split <;> simp [hstop]
@[simp] theorem State.round_escalate (s : State) (c x : Nat) (t : Trap) : (s.escalate c x t).round = s.round := by
  have hhalt (s : State) : (s.modCl c fun k => { k with halted := true }).round = s.round := State.round_modCl s c _ rfl
  simp [State.escalate, hhalt]
@[simp] theorem State.round_takeTrap (s : State) (c x : Nat) (pc : Parcel) (t : Trap) : (s.takeTrap c x pc t).round = s.round := by
  have hlist (s : State) : (s.modCl c fun k => { k with traps := k.traps ++ [x] }).round = s.round := State.round_modCl s c _ rfl
  have hfree : ({ s with free := s.free + 1 } : State).round = s.round := rfl
  unfold State.takeTrap
  cases t.info <;> cases t.agent <;> simp [hlist, hfree]

theorem State.round_goto {s t : State} {a : Parcel} (h : s.goto a = .ok t) : t.round = s.round := by
  unfold State.goto at h
  split at h
  · cases h; simp
  · split at h <;> cases h <;> simp [State.leaveTo]

theorem State.round_arrive {s t : State} {a : Parcel} (h : s.arrive a = .ok t) : t.round = s.round := by
  unfold State.arrive at h
  split at h
  · cases h; simp [State.leaveTo]
  · exact State.round_goto h

@[simp] theorem State.round_preemptPoint (s : State) : s.preemptPoint.round = s.round := by simp [State.preemptPoint]

@[simp] theorem State.round_succeed (s : State) (nx : Parcel) : (s.succeed nx).round = s.round := by
  unfold State.succeed
  dsimp only
  split
  next t ht =>
    have hr : t.round = s.round := by
      split at ht
      · exact (State.round_goto ht).trans (State.round_modCtx _ _)
      · exact (State.round_arrive ht).trans (State.round_modCtx _ _)
    simp [hr]
  · simp
  · rfl

@[simp] theorem State.round_store (s : State) (pa : Nat) (bs : List Byte) : (s.store pa bs).1.round = s.round := by
  unfold State.store
  split <;> rfl
@[simp] theorem State.round_logNow (s : State) (t : Nat) (e : List Byte) : (s.logNow t e).round = s.round := by simp [State.logNow]
@[simp] theorem State.round_writeEvents (s : State) (t : Nat) : (s.writeEvents t).round = s.round := by simp [State.writeEvents]

theorem Cluster.issued_applyBank (k : Cluster) (v : BitVec 64) : (k.applyBank v).issued = k.issued := by
  have hfold : ∀ (l : List Nat) (j : Cluster),
      (l.foldl (fun j b => if bankState k.bankctl b = 2 ∨ bankState v b = 2 then j.clearBank b else j) j).issued = j.issued := by
    intro l
    induction l with
    | nil => exact fun _ => rfl
    | cons b l ih => exact fun j => (ih _).trans (by dsimp only; split <;> rfl)
  exact hfold _ k

@[simp] theorem State.round_finishWord (s : State) (c x len : Nat) : (s.finishWord c x len).round = s.round :=
  (State.round_succeed _ _).trans (State.round_modCtx _ _)

@[simp] theorem State.round_banksOf (s : State) (c : Nat) : (s.banksOf c).round = s.round := by
  refine State.round_foldl _ _ _ fun s x => ?_
  split
  · have hbank (f : Cluster → BitVec 64) : (s.modCl c fun k => k.applyBank (f k)).round = s.round :=
      State.round_modCl s c _ (Cluster.issued_applyBank _ _)
    split
    · rw [State.round_finishWord, hbank]
    · rfl
  · rfl

/-! ### The end of a cycle (07 R95, 11 R152) -/

/-- CYCLE and the turns that are left: completing a POST uses an issue slot, and changes no more of the round. -/
def State.clock (s : State) : BitVec 64 × List Turn := (s.cycle, s.turns)

theorem State.clock_of_round {s t : State} (h : t.round = s.round) : t.clock = s.clock := congrArg (fun r => (r.1, r.2.1)) h

theorem State.clock_complete (s : State) (len : Nat) : (s.complete len).clock = s.clock := by
  show (s.succeed _).clock = s.clock
  exact State.clock_of_round (State.round_succeed ..)

theorem State.clock_postOne (s : State) (c : Nat) (p : Post) : (s.postOne c p).clock = s.clock := by
  cases hp : p.nest with
  | true =>
    unfold State.postOne
    simp only [hp, if_true]
    split <;> rfl
  | false =>
    rcases Nat.lt_or_ge 65535 (((s.cl c).event p.n).toNat + p.count) with h | h
    · rw [State.postOne_traps hp h]
      exact (State.clock_of_round (State.round_takeTrap ..)).trans rfl
    · rw [State.postOne_adds hp h]
      exact (State.clock_complete ..).trans rfl

theorem State.clock_foldl {α : Type} (f : State → α → State) (hf : ∀ s a, (f s a).clock = s.clock) (l : List α) (s : State) :
    (l.foldl f s).clock = s.clock := by
  induction l generalizing s with
  | nil => rfl
  | cons a l ih => exact (ih (f s a)).trans (hf s a)

theorem State.clock_postsOf (s : State) (c : Nat) : (s.postsOf c).clock = s.clock :=
  State.clock_foldl _ (fun s p => s.clock_postOne c p) _ _

/-- A landing uses no issue slot. -/
theorem Cluster.issued_land1 (k : Cluster) (l : Land) : (k.land1 l).issued = k.issued := by
  obtain ⟨due, x, sec, dst, kind, flags⟩ := l
  cases kind with
  | pop =>
    show ((k.raise flags).popQ dst).issued = k.issued
    unfold Cluster.popQ
    split <;> rfl
  | _ => cases dst <;> rfl

theorem issued_landDue (now : Nat) (ls : List Land) (k : Cluster) : (landDue now ls k).issued = k.issued := by
  induction ls generalizing k with
  | nil => rfl
  | cons l ls ih =>
    rw [landDue]
    split
    · rw [ih, Cluster.issued_land1]
    · rw [ih]

/-- The issue slots of a cycle are free again once its results have landed. -/
theorem Cluster.issued_lands (k : Cluster) (now : Nat) : (k.lands now).issued = [] := issued_landDue ..

/-- The state in which the results of every cluster that are due have landed. -/
abbrev State.landed (s : State) (now : Nat) : State := { s with clusters := s.clusters.map fun e => (e.1, e.2.lands now) }

theorem State.cl_landed (s : State) (now c : Nat) : (s.landed now).cl c = (s.cl c).lands now :=
  SMap.get_map (fun k : Cluster => k.lands now) Cluster.reset s.clusters c

theorem State.round_landed (s : State) (now : Nat) : (s.landed now).round = (s.cycle, s.turns, fun _ => []) := by
  have hslots : (fun c => ((s.landed now).cl c).issued) = fun _ => [] := by
    funext c
    rw [State.cl_landed, Cluster.issued_lands]
  exact congrArg (fun y => (s.cycle, s.turns, y)) hslots

/-- What the end of a cycle does once its POSTs have taken effect keeps the round of the landings, and advances CYCLE. -/
theorem State.round_endCycle (s : State) : s.endCycle.round = (s.cycle + 1, s.turns, fun _ => []) := by
  have hposts := State.clock_foldl _ State.clock_postsOf (s.clusters.map (·.1)) s
  unfold State.endCycle
  dsimp only
  generalize (s.clusters.map (·.1)).foldl State.postsOf s = s1 at hposts ⊢
  have hbanks := State.round_foldl _ (s.clusters.map (·.1)) (s1.landed (s1.cycle.toNat + 1)) State.round_banksOf
  generalize (s.clusters.map (·.1)).foldl State.banksOf (s1.landed (s1.cycle.toNat + 1)) = s2 at hbanks ⊢
  have hevents := (State.round_foldl _ (s2.sups.map (·.1)) s2 State.round_writeEvents).trans (hbanks.trans (State.round_landed ..))
  generalize (s2.sups.map (·.1)).foldl State.writeEvents s2 = s3 at hevents ⊢
  simp only [State.round, State.clock, Prod.mk.injEq] at hposts hevents ⊢
  obtain ⟨hcycle, hturns⟩ := hposts
  obtain ⟨hcycle3, hturns3, hslots⟩ := hevents
  exact ⟨by rw [hcycle3, hcycle], hturns3.trans hturns, hslots⟩

/-! ### Which turn it is (log 1) -/

theorem issueTurn_of_issues {c x : Nat} (hc : s.cur = (c, x)) (h : Issues s c x) : s.issueTurn = s.issueWord := by
  obtain ⟨hcan, hphase⟩ := h
  have hgo : (!s.canIssue c x && !s.goesOn c x) = false := by simp [hcan]
  simp only [State.issueTurn, hc, hgo, Bool.false_eq_true, if_false]
  rcases hphase with hp | ⟨f, hp⟩ | ⟨n, hp⟩ | ⟨b, hp⟩ <;> simp only [hp]

theorem plan_of_issue {c x : Nat} {ts : List Turn} (ht : s.turns = .issue c x :: ts) (hcl : (s.cl c).clash x = false)
    (h : Issues { s with turns := ts, cur := (c, x) } c x) : s.plan = ({ s with turns := ts, cur := (c, x) } : State).issueWord := by
  simp only [State.plan, ht, hcl, Bool.false_eq_true, if_false]
  exact issueTurn_of_issues rfl h

/-- A word whose guard holds is executed; its v registers may be counted. -/
theorem issueWord_runs (hw : s.wordAt = .ok i) (hg : s.ctx.getP (guardOf i).2.toNat ≠ (guardOf i).1) : s.issueWord = .run i (s.noteV i) := by
  simp only [State.issueWord, hw]
  rw [if_pos (by simpa using hg)]

/-- A word whose guard does not hold completes (09 R120). -/
theorem issueWord_skips (hw : s.wordAt = .ok i) (hg : s.ctx.getP (guardOf i).2.toNat = (guardOf i).1) :
    s.issueWord = .answer (.next (s.complete i.parcels)) := by
  simp only [State.issueWord, hw]
  rw [if_neg (by simpa using hg)]

theorem step_of_run {t : State} (h : s.plan = .run i t) : step s = exec i t := by simp only [step, h]
theorem step_of_answer {o : Out} (h : s.plan = .answer o) : step s = o := by simp only [step, h]

theorem plan_of_event {ts : List Turn} (ht : s.turns = .event i :: ts) (hb : i.body = none) (hk : ∀ d, i ≠ .tickEnd d)
    (hr : ∀ c, i ≠ .mdrainRowLands c) : s.plan = .run i { s with turns := ts } := by
  have hclk : clocked i = false := by
    unfold clocked
    split
    · exact absurd rfl (hk _)
    · exact absurd rfl (hr _)
    · rfl
  simp only [State.plan, ht, hb, hclk, Option.isSome_none, Bool.or_self, Bool.false_eq_true, if_false]

theorem plan_of_no_turn (ht : s.turns = []) : s.plan = s.planEnd := by simp only [State.plan, ht]

end Sys2Proof.Machine

namespace Sys2Proof.Claims
open Sys2Proof.Machine

/-- Settles O52: the turn that State.plan names, and for the end of a cycle what it leaves of the round. -/
theorem stepRunsWord : Obligations.StepRunsWord := by
  unfold Obligations.StepRunsWord
  refine ⟨?issue, ?event, ?row, ?tick, ?cycle⟩
  case issue =>
    intro s c x ts i ht hcl hi hword
    have hw : ({ s with turns := ts, cur := (c, x) } : State).wordAt = .ok i :=
      hword.elim (fun h => wordAt_of_shortWord h.1 h.2) wordAt_of_longWord
    have hplan := plan_of_issue ht hcl hi
    exact ⟨fun hg => step_of_run (hplan.trans (issueWord_runs hw hg)), fun hg => step_of_answer (hplan.trans (issueWord_skips hw hg))⟩
  case event => exact fun s ts i ht hb hk hr => step_of_run (plan_of_event ht hb hk hr)
  case row =>
    intro s c ht hr
    exact step_of_run ((plan_of_no_turn ht).trans (by simp only [State.planEnd, hr]))
  case tick =>
    intro s d ht hr hd
    exact step_of_run ((plan_of_no_turn ht).trans (by simp only [State.planEnd, hr, hd]))
  case cycle =>
    intro s ht hr hd
    have hround := State.round_endCycle s
    refine ⟨s.endCycle, step_of_answer ((plan_of_no_turn ht).trans (by simp only [State.planEnd, hr, hd])), congrArg (·.1) hround,
      (congrArg (·.2.1) hround).trans ht, rfl, fun c => congrFun (congrArg (·.2.2) hround) c⟩

end Sys2Proof.Claims
end

section
/-! PROOFS. Scalar operations, their immediate forms and divisions (11 R155 to R157, 03 R62): O3. -/

namespace Sys2Proof.Claims
open Sys2Proof.Machine

/-! ### The model's scalar operations are the rules' (R155 to R157) -/

theorem narrow_eq (md : BitVec 4) {x : Int} {v : Word} (h : BitVec.ofInt 64 x = v) : narrow (satOf md) x = sat64 md x v := by
  subst h
  rfl

theorem narrow_add (md : BitVec 4) (a b : Word) : narrow (satOf md) (a.toInt + b.toInt) = sat64 md (a.toInt + b.toInt) (a + b) :=
  narrow_eq md (by rw [BitVec.ofInt_add, BitVec.ofInt_toInt, BitVec.ofInt_toInt])

theorem narrow_sub (md : BitVec 4) (a b : Word) : narrow (satOf md) (a.toInt - b.toInt) = sat64 md (a.toInt - b.toInt) (a - b) :=
  narrow_eq md (by rw [Int.sub_eq_add_neg, BitVec.ofInt_add, BitVec.ofInt_neg, BitVec.ofInt_toInt, BitVec.ofInt_toInt, ← BitVec.sub_eq_add_neg])

theorem mulW_eq (md : BitVec 4) (a b : Word) : mulW (satOf md) a b = sat64 md (a.toInt * b.toInt) (a * b) :=
  narrow_eq md (by rw [BitVec.ofInt_mul, BitVec.ofInt_toInt, BitVec.ofInt_toInt])

theorem maddW_eq (md : BitVec 4) (a b c : Word) : maddW (satOf md) a b c = sat64 md (a.toInt * b.toInt + c.toInt) (a * b + c) :=
  narrow_eq md (by rw [BitVec.ofInt_add, BitVec.ofInt_mul, BitVec.ofInt_toInt, BitVec.ofInt_toInt, BitVec.ofInt_toInt])

/-- Beyond the signed 64-bit range the clamp gives the bound on that side. -/
theorem clamp_of_le {x : Int} (h : x ≤ -2 ^ 63) : max (-2 ^ 63) (min (2 ^ 63 - 1) x) = -2 ^ 63 := by omega
theorem clamp_of_ge {x : Int} (h : 2 ^ 63 ≤ x) : max (-2 ^ 63) (min (2 ^ 63 - 1) x) = 2 ^ 63 - 1 := by omega

/-- A saturating shift by 64 or more takes every number but 0 out of the range. -/
theorem clamp_shl (x : Int) {n : Nat} (hn : 64 ≤ n) (hx : x ≠ 0) : max (-2 ^ 63) (min (2 ^ 63 - 1) (x * 2 ^ n)) =
    max (-2 ^ 63) (min (2 ^ 63 - 1) (if x < 0 then -2 ^ 64 else 2 ^ 64)) := by
  have hp : (2 : Int) ^ 64 ≤ 2 ^ n := by exact_mod_cast Nat.pow_le_pow_right (by decide) hn
  split
  next h => rw [clamp_of_le (by nlinarith), clamp_of_le (by decide)]
  next h =>
    have hpos : 1 ≤ x := by omega
    rw [clamp_of_ge (by nlinarith), clamp_of_ge (by decide)]

theorem shlW_eq (md : BitVec 4) (a b : Word) : shlW (satOf md) a b = sat64 md (a.toInt * 2 ^ b.toNat) (a <<< b.toNat) := by
  have hzero : a = 0 ↔ a.toInt = 0 := by rw [← BitVec.toInt_zero, BitVec.toInt_inj]; rfl
  unfold shlW sat64 satOf
  by_cases hs : md.getLsbD 3 = true
  · rw [if_pos hs, if_pos hs]
    by_cases hb : 64 ≤ b.toNat
    · rw [if_pos hb]
      by_cases ha : a = 0
      · rw [if_pos ha, hzero.1 ha, Int.zero_mul]
        rfl
      · rw [if_neg ha, clamp_shl _ hb fun h => ha (hzero.2 h)]
        rfl
    · rw [if_neg hb]
      rfl
  · rw [if_neg hs, if_neg hs]
    split
    next hb => exact (BitVec.shiftLeft_eq_zero hb).symm
    next => rfl

theorem shrW_eq (a b : Word) : shrW a b = a >>> b.toNat := by
  unfold shrW
  split
  next hb => exact (BitVec.ushiftRight_eq_zero hb).symm
  next => rfl

theorem sarW_eq (a b : Word) : sarW a b = a.sshiftRight b.toNat := by
  refine BitVec.eq_of_getLsbD_eq fun i hi => ?_
  rw [sarW, BitVec.getLsbD_sshiftRight, BitVec.getLsbD_sshiftRight]
  by_cases hb : b.toNat ≤ 63
  · rw [Nat.min_eq_left hb]
  · have h63 : min b.toNat 63 = 63 := by omega
    rw [h63, if_neg (by omega : ¬b.toNat + i < 64)]
    split
    next h =>
      obtain rfl : i = 0 := by omega
      rw [BitVec.msb_eq_getLsbD_last]
    next => rfl

theorem minW_eq (a b : Word) : minW a b = if b.slt a then b else a := by
  rw [minW, ← ite_not]
  exact if_congr (by rw [BitVec.slt_iff_toInt_lt, Int.not_le]) rfl rfl

theorem maxW_eq (a b : Word) : maxW a b = if a.slt b then b else a := by
  simp only [maxW, BitVec.slt_iff_toInt_lt]
  split
  next h =>
    split
    · rfl
    · exact BitVec.eq_of_toInt_eq (by omega)
  next h => rw [if_neg (by omega)]

theorem minnW_eq (a b : Word) : minnW a b = if b.ult a then b else a := by
  rw [minnW, ← ite_not]
  exact if_congr (by rw [BitVec.ult_iff_lt, BitVec.lt_def, Nat.not_le]) rfl rfl

theorem maxnW_eq (a b : Word) : maxnW a b = if a.ult b then b else a := by
  simp only [maxnW, BitVec.ult_iff_lt, BitVec.lt_def]
  split
  next h =>
    split
    · rfl
    · exact BitVec.eq_of_toNat_eq (by omega)
  next h => rw [if_neg (by omega)]

theorem clzNat_eq (x : Nat) : clzNat 64 x = 64 - x.size := by
  unfold clzNat
  split
  next h => subst h; rfl
  next h =>
    have hsize : x.size = x.log2 + 1 :=
      Nat.le_antisymm (Nat.size_le.2 ((Nat.log2_lt h).1 (Nat.lt_succ_self _))) (Nat.lt_size.2 (Nat.log2_self_le h))
    omega

theorem popNat_eq (a : Word) : popNat 64 a.toNat = (List.range 64).countP fun i => a.getLsbD i := List.countP_eq_length_filter.symm

theorem fieldPos_eq (b : Word) : fieldPos b = posOf b := rfl

theorem fieldLen_eq (b : Word) : fieldLen b = lenOf b := by
  rw [fieldLen, lenOf, bitsNat_eq_div]
  rfl

theorem fieldMask_toNat {len : Nat} (h : len ≤ 64) : (fieldMask 0 len).toNat = 2 ^ len - 1 := by
  have hp : 2 ^ len ≤ 2 ^ 64 := Nat.pow_le_pow_right (by decide) h
  rw [fieldMask, Nat.pow_zero, Nat.mul_one, BitVec.toNat_ofNat, Nat.mod_eq_of_lt]
  have := Nat.two_pow_pos len
  omega

theorem bextW_eq (a b : Word) : bextW a b = (a >>> posOf b) &&& fieldMask 0 (lenOf b) := by
  have hlen : lenOf b ≤ 64 := Nat.min_le_right ..
  have hlt : a.toNat >>> posOf b % 2 ^ lenOf b < 2 ^ 64 :=
    Nat.lt_of_lt_of_le (Nat.mod_lt _ (Nat.two_pow_pos _)) (Nat.pow_le_pow_right (by decide) hlen)
  refine BitVec.eq_of_toNat_eq ?_
  rw [bextW, fieldPos_eq, fieldLen_eq, BitVec.toNat_ofNat, Nat.mod_eq_of_lt hlt, BitVec.toNat_and, fieldMask_toNat hlen,
    Nat.and_two_pow_sub_one_eq_mod, BitVec.toNat_ushiftRight]

theorem binsW_eq (a b c : Word) : binsW a b c =
    (c &&& ~~~fieldMask (posOf b) (lenOf b)) ||| ((a <<< posOf b) &&& fieldMask (posOf b) (lenOf b)) := by
  have hm : BitVec.ofNat 64 ((2 ^ fieldLen b - 1) <<< fieldPos b) = fieldMask (posOf b) (lenOf b) := by
    rw [fieldMask, Nat.shiftLeft_eq, fieldLen_eq, fieldPos_eq]
  rw [binsW, hm, fieldPos_eq]

theorem divW_eq (md : BitVec 4) (a b : Word) :
    divW (satOf md) a b = if b = 0 then BitVec.allOnes 64 else sat64 md (a.toInt.tdiv b.toInt) (a.sdiv b) := by
  have hq : BitVec.ofInt 64 (a.toInt.tdiv b.toInt) = a.sdiv b :=
    BitVec.eq_of_toInt_eq (by rw [BitVec.toInt_ofInt, BitVec.toInt_sdiv])
  rw [divW, narrow_eq md hq]

theorem divnW_eq (a b : Word) : divnW a b = if b = 0 then BitVec.allOnes 64 else a / b := by
  have hq : BitVec.ofNat 64 (a.toNat / b.toNat) = a / b := by rw [← BitVec.toNat_udiv, BitVec.ofNat_toNat, BitVec.setWidth_eq]
  rw [divnW, hq]

theorem remnW_eq (a b : Word) : remnW a b = if b = 0 then a else a % b := by
  have hr : BitVec.ofNat 64 (a.toNat % b.toNat) = a % b := by rw [← BitVec.toNat_umod, BitVec.ofNat_toNat, BitVec.setWidth_eq]
  rw [remnW, hr]

/-! ### The immediates (R156) -/

theorem immS_toInt (w : BForm) : (immS w).toInt = w.imm.toInt := BitVec.toInt_signExtend_of_le (by decide)
theorem immZ_toNat (w : BForm) : (immZ w).toNat = w.imm.toNat := BitVec.toNat_setWidth_of_le (by decide)

/-! ### What each scalar word runs -/

/-- A scalar operation of the model with one, two or three sources, a latency, and the rule's result as that of its function. -/
inductive ScalarRun (i : Instr) (w : AForm) : Nat → Nat → (Word → Word → Word → Word) → Prop
  | one {f} (g : Word → Word) : (∀ s, exec i s = s.alu1 w g) → (∀ a b c, g a = f a b c) → ScalarRun i w 1 1 f
  | two {f} (lat) (g : Word → Word → Word) : (∀ s, exec i s = s.alu2 lat w g) → (∀ a b c, g a b = f a b c) → ScalarRun i w 2 lat f
  | three {f} (lat) (g : Word → Word → Word → Word) : (∀ s, exec i s = s.alu3 lat w g) → (∀ a b c, g a b c = f a b c) →
      ScalarRun i w 3 lat f

theorem scalarRun_of_scalarOp {i : Instr} {w : AForm} {n lat : Nat} {f : Word → Word → Word → Word} (h : scalarOp i = some (w, n, lat, f)) :
    ScalarRun i w n lat f := by
  unfold scalarOp at h
  split at h <;> cases h
  case h_1 => exact .two 1 _ (fun _ => rfl) fun a b _ => narrow_add w.md a b
  case h_2 => exact .two 1 _ (fun _ => rfl) fun a b _ => narrow_sub w.md a b
  case h_3 | h_4 | h_5 => exact .two 1 _ (fun _ => rfl) fun _ _ _ => rfl
  case h_6 => exact .two 1 _ (fun _ => rfl) fun a b _ => shlW_eq w.md a b
  case h_7 => exact .two 1 _ (fun _ => rfl) fun a b _ => shrW_eq a b
  case h_8 => exact .two 1 _ (fun _ => rfl) fun a b _ => sarW_eq a b
  case h_9 => exact .two 1 _ (fun _ => rfl) fun a b _ => minW_eq a b
  case h_10 => exact .two 1 _ (fun _ => rfl) fun a b _ => maxW_eq a b
  case h_11 => exact .two 1 _ (fun _ => rfl) fun a b _ => minnW_eq a b
  case h_12 => exact .two 1 _ (fun _ => rfl) fun a b _ => maxnW_eq a b
  case h_13 => exact .one _ (fun _ => rfl) fun a _ _ => congrArg (BitVec.ofNat 64) (clzNat_eq a.toNat)
  case h_14 => exact .one _ (fun _ => rfl) fun a _ _ => congrArg (BitVec.ofNat 64) (popNat_eq a)
  case h_15 => exact .two 1 _ (fun _ => rfl) fun a b _ => bextW_eq a b
  case h_16 => exact .three 1 _ (fun _ => rfl) fun a b c => binsW_eq a b c
  case h_17 => exact .two 3 _ (fun _ => rfl) fun a b _ => mulW_eq w.md a b
  case h_18 | h_19 => exact .two 3 _ (fun _ => rfl) fun _ _ _ => rfl
  case h_20 => exact .three 3 _ (fun _ => rfl) fun a b c => maddW_eq w.md a b c

/-- The immediate forms run as the operations do, on IMM48 extended. -/
theorem aluImm_of_immediateOp {i : Instr} {w : BForm} {f : Word → Word} (h : immediateOp i = some (w, f)) :
    ∃ g, (∀ s, exec i s = s.aluImm w g) ∧ ∀ a, g a = f a := by
  unfold immediateOp at h
  split at h <;> cases h
  case h_1 => exact ⟨_, fun _ => rfl, fun a => (narrow_add w.md a (immS w)).trans (by rw [immS_toInt]; rfl)⟩
  case h_2 => exact ⟨_, fun _ => rfl, fun a => (narrow_sub w.md a (immS w)).trans (by rw [immS_toInt]; rfl)⟩
  case h_3 | h_4 | h_5 => exact ⟨_, fun _ => rfl, fun _ => rfl⟩
  case h_6 => exact ⟨_, fun _ => rfl, fun a => by rw [shlW_eq, immZ_toNat]⟩
  case h_7 => exact ⟨_, fun _ => rfl, fun a => by rw [shrW_eq, immZ_toNat]⟩
  case h_8 => exact ⟨_, fun _ => rfl, fun a => by rw [sarW_eq, immZ_toNat]⟩
  case h_9 => exact ⟨_, fun _ => rfl, fun a => by simp only [minW_eq, BitVec.slt_iff_toInt_lt, immS_toInt]; rfl⟩
  case h_10 => exact ⟨_, fun _ => rfl, fun a => by simp only [maxW_eq, BitVec.slt_iff_toInt_lt, immS_toInt]; rfl⟩
  case h_11 => exact ⟨_, fun _ => rfl, fun a => by simp only [minnW_eq, BitVec.ult_iff_lt, BitVec.lt_def, immZ_toNat]; rfl⟩
  case h_12 => exact ⟨_, fun _ => rfl, fun a => by simp only [maxnW_eq, BitVec.ult_iff_lt, BitVec.lt_def, immZ_toNat]; rfl⟩

theorem aluDiv_of_divisionOp {i : Instr} {w : AForm} {f : Word → Word → Word} (h : divisionOp i = some (w, f)) :
    ∃ g, (∀ s, exec i s = s.aluDiv w g) ∧ ∀ a b, g a b = f a b := by
  unfold divisionOp at h
  split at h <;> cases h
  case h_1 => exact ⟨_, fun _ => rfl, divW_eq w.md⟩
  case h_2 => exact ⟨_, fun _ => rfl, divnW_eq⟩
  case h_3 => exact ⟨_, fun _ => rfl, fun _ _ => rfl⟩
  case h_4 => exact ⟨_, fun _ => rfl, remnW_eq⟩

/-! ### O3 -/

theorem scalarOperations : ScalarOperations := by
  intro i w n lat f s a b c hop ha hb hc hd hs
  cases scalarRun_of_scalarOp hop with
  | one g he hg => exact gives_of_finish (he s) (by simp only [ha, hd, ok_bind, pure_eq_ok, hg a b c]) hs (sameCourse_resultS ..)
  | two lat g he hg =>
    exact gives_of_finish (he s) (by simp only [ha, hb (Nat.le_refl _), hd, ok_bind, pure_eq_ok, hg a b c]) hs (sameCourse_resultS ..)
  | three lat g he hg =>
    exact gives_of_finish (he s) (by simp only [ha, hb (by decide), hc (Nat.le_refl _), hd, ok_bind, pure_eq_ok, hg a b c]) hs
      (sameCourse_resultS ..)

theorem scalarImmediates : ScalarImmediates := by
  intro i w f s a hop ha hd hs
  obtain ⟨g, he, hg⟩ := aluImm_of_immediateOp hop
  exact gives_of_finish (he s) (by simp only [ha, hd, ok_bind, pure_eq_ok, hg]) hs (sameCourse_resultS ..)

theorem divisions : Divisions := by
  intro i w f s a b hop ha hb hd hs
  obtain ⟨g, he, hg⟩ := aluDiv_of_divisionOp hop
  exact gives_of_finish (he s) (by simp only [ha, hb, hd, ok_bind, pure_eq_ok, hg]) hs (sameCourse_resultLong ..)

/-- Settles O3: each word runs a shared body with the rule's function (scalarRun_of_scalarOp and its like), whose checks pass. -/
theorem scalarArithmetic : Obligations.ScalarArithmetic := by
  unfold Obligations.ScalarArithmetic
  exact ⟨scalarOperations, scalarImmediates, divisions⟩

end Sys2Proof.Claims
end

section
/-! PROOFS. Comparisons, moves and immediates (11 R158, R159): O1, O2. -/

namespace Sys2Proof.Machine

theorem State.putPred_p (s : State) (d : BitVec 3) (v : Bool) : s.putPred (.p d) v = s.modCtx fun e => e.putP d.toNat v := by
  cases v <;> rfl

theorem OnlySequencing.getP {u t : State} (h : OnlySequencing u t) (n : Nat) : t.ctx.getP n = u.ctx.getP n := by
  have hp := congrArg (fun e : Ctx => e.getP n) h.own
  exact hp

theorem OnlySequencing.p {u t : State} (h : OnlySequencing u t) : t.ctx.p = u.ctx.p := by
  have hp := congrArg Ctx.p h.own
  exact hp

end Sys2Proof.Machine

namespace Sys2Proof.Claims
open Sys2Proof.Machine

/-! ### Comparisons (R158) -/

theorem condW_eq (n : Nat) (a b : Word) : condW n a b = condition n a b := by
  match n with
  | 0 => rfl
  | 1 => exact Bool.eq_iff_iff.2 (by rw [condW, condition, bne_iff_ne, decide_eq_true_eq])
  | 2 | 3 | 4 | 5 | 6 | 7 | 8 | n + 9 => rfl

/-- A predicate reads what a comparison has written, but p0 reads 1. -/
theorem getP_putP_pred (e : Ctx) (d : BitVec 3) (v : Bool) : (e.putP d.toNat v).getP d.toNat = (decide (d = 0) || v) := by
  by_cases hd : d = 0
  · subst hd
    rfl
  · rw [Ctx.getP_putP e v hd d.isLt, if_pos rfl, decide_eq_false hd, Bool.false_or]

/-- A word that writes a predicate and goes on: what its predicate then reads, and that p0 is left. -/
theorem writes_predicate {i : Instr} {s : State} {d : BitVec 3} {v : Bool} {r : Chk State} (he : exec i s = finish s 3 r)
    (hr : r = .ok (s.putPred (.p d) v)) (hs : Straight s 3) :
    ∃ t, exec i s = .next t ∧ OnlySequencing (s.modCtx fun e => e.putP d.toNat v) t ∧ t.ctx.getP d.toNat = (decide (d = 0) || v) ∧
      (d = 0 → t.ctx.p = s.ctx.p) := by
  obtain ⟨t, ht, ho⟩ := gives_of_finish he hr hs (sameCourse_putOpnd ..)
  rw [State.putPred_p] at ho
  refine ⟨t, ht, ho, ?_, fun hd => ?_⟩
  · rw [ho.getP, State.ctx_modCtx, getP_putP_pred]
  · rw [ho.p, State.ctx_modCtx, hd]
    rfl

/-- Settles O1. -/
theorem comparisons : Obligations.Comparisons := by
  unfold Obligations.Comparisons
  refine ⟨fun w d s a b hd _ ha hb hs => ?_, fun w d s a b hd _ ha hb hs => ?_, fun _ => rfl, fun _ => rfl⟩
  · exact writes_predicate (i := .cmp w) rfl (by simp only [ha, hb, ok_bind, pure_eq_ok, condW_eq, hd]) hs
  · exact writes_predicate (i := .cmpi w) rfl (by simp only [ha, hb, ok_bind, pure_eq_ok, condW_eq, hd, immS, immZ]) hs

/-! ### Moves and immediates (R159) -/

theorem liHi_value (x : BitVec 48) (a : Word) :
    BitVec.ofNat 64 (x.toNat % 2 ^ 16 * 2 ^ 48 + a.toNat % 2 ^ 48) = (x.setWidth 16 ++ a.setWidth 48 : BitVec 64) := by
  have ha : a.toNat % 2 ^ 48 < 2 ^ 48 := Nat.mod_lt _ (by decide)
  refine BitVec.eq_of_toNat_eq ?_
  rw [BitVec.toNat_append, BitVec.toNat_setWidth, BitVec.toNat_setWidth, ← Nat.shiftLeft_add_eq_or_of_lt ha, Nat.shiftLeft_eq, BitVec.toNat_ofNat]
  omega

/-- The low 56 bits of a number, as a word. -/
theorem ofNat_mod_address (a : Word) : BitVec.ofNat 64 (a.toNat % 2 ^ 56) = (a.setWidth 56).setWidth 64 := by
  refine BitVec.eq_of_toNat_eq ?_
  rw [BitVec.toNat_setWidth, BitVec.toNat_setWidth, BitVec.toNat_ofNat]

/-- The byte address of a parcel plus an offset, modulo 2^56. -/
theorem parcel_address (pc : Parcel) (x : BitVec 48) :
    (BitVec.ofNat 64 (4 * pc.toNat) + x.signExtend 64).setWidth 56 = ((pc.setWidth 56) <<< 2) + x.signExtend 56 := by
  have hx : (x.signExtend 64).setWidth 56 = x.signExtend 56 := by
    ext i hi
    simp only [BitVec.getElem_setWidth, BitVec.getLsbD_signExtend, BitVec.getElem_signExtend]
    rw [decide_eq_true (by omega), Bool.true_and]
    rfl
  have hpc : (BitVec.ofNat 64 (4 * pc.toNat)).setWidth 56 = (pc.setWidth 56) <<< 2 := by
    have hlt := pc.isLt
    refine BitVec.eq_of_toNat_eq ?_
    rw [BitVec.toNat_setWidth, BitVec.toNat_ofNat, BitVec.toNat_shiftLeft, BitVec.toNat_setWidth, Nat.shiftLeft_eq]
    omega
  rw [BitVec.setWidth_add _ _ (by decide), hx, hpc]

theorem plog_value (imm : BitVec 24) (a b : Bool) :
    (if imm.toNat.testBit ((if a then 2 else 0) + if b then 1 else 0) then 1 else 0 : Word) =
      if imm.getLsbD (2 * a.toNat + b.toNat) then 1 else 0 := by
  cases a <;> cases b <;> rfl

theorem gives_of_moveWord {i : Instr} {d : Opnd} {v : Word} {s : State} (h : MoveWord s i d v) (hd : s.dstS d = .ok ()) (hs : Straight s 3) :
    Gives i s (s.putOpnd d v) := by
  have key {i : Instr} {d : Opnd} {v : Word} {r : Chk State} (he : exec i s = finish s 3 r) (hr : r = .ok (s.putOpnd d v)) :
      Gives i s (s.putOpnd d v) := gives_of_finish he hr hs (sameCourse_putOpnd ..)
  cases h with
  | sel w a b p ha hb hp => exact key (i := .sel w) rfl (by simp only [ha, hb, hp, State.srcP, hd, ok_bind, pure_eq_ok])
  | li w => exact key (i := .li w) rfl (by simp only [hd, ok_bind, pure_eq_ok, immS])
  | liHi w a ha => exact key (i := .liHi w) rfl (by simp only [ha, ok_bind, pure_eq_ok, liHi_value])
  | movS w i a hi ha => exact key (i := .mov w) rfl (by rw [hi] at ha ⊢; simp only [hd, ha, ok_bind, pure_eq_ok])
  | movP w i hi | movB w i hi => exact key (i := .mov w) rfl (by simp only [hi, hd, ok_bind, pure_eq_ok])
  | plog w a b ha hb => exact key (i := .plog w) rfl (by simp only [ha, hb, State.srcP, ok_bind, pure_eq_ok, State.putPred, plog_value])
  | lea w a ha => exact key (i := .lea w) rfl (by simp only [ha, hd, ok_bind, pure_eq_ok, ofNat_mod_address, immS])
  | leaPc w => exact key (i := .leaPc w) rfl (by simp only [hd, ok_bind, pure_eq_ok, ofNat_mod_address, immS, parcel_address])

/-- Settles O2. -/
theorem moves : Obligations.Moves := by
  unfold Obligations.Moves
  exact fun i d v s h hd hs => gives_of_moveWord h hd hs

end Sys2Proof.Claims
end

section
/-! PROOFS. The spill stores (07 R108, 11 R160): O11. -/

namespace Sys2Proof.Machine

/-! ### Bytes of a number -/

theorem length_natBytes (n v : Nat) : (natBytes n v).length = n := by
  induction n generalizing v with
  | zero => rfl
  | succ n ih => rw [natBytes, List.length_cons, ih]

theorem bytesNat_natBytes (n v : Nat) : bytesNat (natBytes n v) = v % 256 ^ n := by
  induction n generalizing v with
  | zero => rw [natBytes, bytesNat, Nat.pow_zero, Nat.mod_one]
  | succ n ih =>
    have hpow : 256 ^ (n + 1) = 256 * 256 ^ n := Nat.pow_succ'
    rw [natBytes, bytesNat, ih, BitVec.toNat_ofNat, hpow]
    exact Nat.mod_mul.symm

/-! ### The bytes of a spill store -/

theorem spillWrite_eq_memWrite (m : SMap Byte) (a : Nat) (bs : List Byte) : spillWrite m a bs = memWrite m a bs := by
  induction bs generalizing m a with
  | nil => rfl
  | cons b bs ih => exact ih _ _

/-- A number written to a spill store reads back. -/
theorem spillRead_spillWrite (k : Cluster) (x off n v : Nat) :
    ({ k with spill := spillWrite k.spill (spillKey x off) (natBytes n v) } : Cluster).spillRead x off n = v % 256 ^ n := by
  have hbytes : (List.range n).map (fun i => SMap.get 0 (spillWrite k.spill (spillKey x off) (natBytes n v)) (spillKey x off + i)) =
      natBytes n v := by
    refine List.ext_getElem (by rw [List.length_map, List.length_range, length_natBytes]) fun i hi hi' => ?_
    rw [List.getElem_map, List.getElem_range, spillWrite_eq_memWrite, get_memWrite_in _ _ _ _ hi', List.getD_eq_getElem _ _ hi']
  rw [Cluster.spillRead, hbytes, bytesNat_natBytes]

/-! ### The checks of a spill access (R160) -/

theorem spillCheck_ok {x off n : Nat} (hn : 0 < n) (hal : off % n = 0) (hin : off + n ≤ spillSize x) : spillCheck x off n = .ok () := by
  rw [spillCheck, if_neg (by omega), if_neg (by omega), if_neg (by omega)]

theorem spillCheck_misaligned {x off n : Nat} (hn : 0 < n) (hal : off % n ≠ 0) : spillCheck x off n = trapWith .misalign := by
  rw [spillCheck, if_neg (by omega), if_pos hal]

theorem spillCheck_beyond {x off n : Nat} (hn : 0 < n) (hal : off % n = 0) (hout : spillSize x < off + n) :
    spillCheck x off n = trapWith .illegal := by
  rw [spillCheck, if_neg (by omega), if_neg (by omega), if_pos hout]

section
variable {w : AForm} {s : State} {c : Cause}

theorem execSpld_traps (h : spillCheck s.cur.2 w.imm.toNat (spillBytes w.dst) = trapWith c) :
    exec (.spld w) s = .next (s.trapHere { cause := c }) := by
  change execSpld w s = _
  simp only [execSpld, h]
  rfl

theorem execSpst_traps (h : spillCheck s.cur.2 w.imm.toNat (spillBytes w.sa) = trapWith c) :
    exec (.spst w) s = .next (s.trapHere { cause := c }) := by
  change execSpst w s = _
  simp only [execSpst, h]
  rfl

end

end Sys2Proof.Machine

namespace Sys2Proof.Claims
open Sys2Proof.Machine

theorem gives_of_spill {i : Instr} {s u : State} (h : Spill s i u) (hs : Straight s 3) : Gives i s u := by
  have key {i : Instr} {u : State} {r : Chk State} (he : exec i s = finish s 3 r) (hr : r = .ok u) (hc : Ctx.sameCourse s.ctx u.ctx) :
      Gives i s u := gives_of_finish he hr hs hc
  cases h with
  | ldS w i hi hal hin hd =>
    exact key rfl (by rw [hi] at hd ⊢; simp only [spillBytes, spillCheck_ok (Nat.succ_pos 7) hal hin, hd, ok_bind, pure_eq_ok])
      (sameCourse_putOpnd ..)
  | ldB w i hi hal hin =>
    exact key rfl (by rw [hi]; simp only [spillBytes, spillCheck_ok (Nat.succ_pos 3) hal hin, ok_bind, pure_eq_ok])
      (sameCourse_putOpnd ..)
  | ldV w i d hi hal hin hd =>
    exact key rfl (by rw [hi] at hd ⊢; simp only [spillBytes, spillCheck_ok (Nat.succ_pos 255) hal hin, hd, ok_bind, pure_eq_ok])
      (sameCourse_lands ..)
  | ldK w i hi hal hin hd =>
    exact key rfl (by rw [hi] at hd ⊢; simp only [spillBytes, spillCheck_ok (Nat.succ_pos 15) hal hin, hd, ok_bind, pure_eq_ok])
      (sameCourse_lands ..)
  | ldVM w i hi hal hin hd =>
    exact key rfl (by rw [hi] at hd ⊢; simp only [spillBytes, spillCheck_ok (Nat.succ_pos 31) hal hin, hd, ok_bind, pure_eq_ok])
      (sameCourse_lands ..)
  | stS w i v hi hal hin hv =>
    exact key rfl (by rw [hi] at hv ⊢; simp only [spillBytes, spillCheck_ok (Nat.succ_pos 7) hal hin, hv, ok_bind, pure_eq_ok])
      (sameCourse_modMe _ _ rfl)
  | stB w i hi hal hin =>
    exact key rfl (by rw [hi]; simp only [spillBytes, spillCheck_ok (Nat.succ_pos 3) hal hin, ok_bind, pure_eq_ok])
      (sameCourse_modMe _ _ rfl)
  | stV w i v hi hal hin hv =>
    exact key rfl (by rw [hi] at hv ⊢; simp only [spillBytes, spillCheck_ok (Nat.succ_pos 255) hal hin, hv, ok_bind, pure_eq_ok])
      (sameCourse_modMe _ _ rfl)
  | stK w i v hi hal hin hv =>
    exact key rfl (by rw [hi] at hv ⊢; simp only [spillBytes, spillCheck_ok (Nat.succ_pos 15) hal hin, hv, ok_bind, pure_eq_ok])
      (sameCourse_modMe _ _ rfl)
  | stVM w i v hi hal hin hv =>
    exact key rfl (by rw [hi]; simp only [spillBytes, spillCheck_ok (Nat.succ_pos 31) hal hin, State.srcVMOr, hv, ok_bind, pure_eq_ok])
      (sameCourse_modMe _ _ rfl)

theorem spillTraps : SpillTraps := by
  intro w s
  have trapped (c : Cause) (hc : c ≠ .refused) := trapped_trapHere_some s (t := { cause := c }) hc
  obtain ⟨m, hm⟩ := trapped .misalign nofun
  obtain ⟨l, hl⟩ := trapped .illegal nofun
  exact ⟨fun hn hal => ⟨_, m, execSpld_traps (spillCheck_misaligned hn hal), hm⟩,
    fun hn hal hout => ⟨_, l, execSpld_traps (spillCheck_beyond hn hal hout), hl⟩,
    fun hn hal => ⟨_, m, execSpst_traps (spillCheck_misaligned hn hal), hm⟩,
    fun hn hal hout => ⟨_, l, execSpst_traps (spillCheck_beyond hn hal hout), hl⟩⟩

theorem spillHolds : SpillHolds := by
  refine fun k x off n v => ⟨spillRead_spillWrite k x off n v, fun a ha => ?_⟩
  refine (congrArg (SMap.get 0 · a) (spillWrite_eq_memWrite ..)).trans (get_memWrite_out _ _ _ _ ?_)
  rw [length_natBytes]
  omega

/-- Settles O11. -/
theorem spills : Obligations.Spills := by
  unfold Obligations.Spills
  exact ⟨fun i s u h hs => gives_of_spill h hs, spillHolds, spillTraps⟩

end Sys2Proof.Claims
end

section
/-! PROOFS. Instructions that only a system task may issue, or no arrival handler (11 R163): O10. -/

namespace Sys2Proof.Machine

section
variable {s : State} {f : Unit → Chk State}

theorem State.systemOnly_priv (h : s.me.asid s.cur.2 ≠ 0) : s.systemOnly = trapWith .priv := by
  rw [State.systemOnly, trapIf, if_pos (bne_iff_ne.2 h)]

theorem State.notArrival_illegal (h : s.inArrival = true) : s.notArrival = trapWith .illegal := by
  rw [State.notArrival, trapIf, if_pos h]

/-- A word that begins with the check of R163 traps where it fails. -/
theorem finish_systemOnly (h : s.me.asid s.cur.2 ≠ 0) : finish s 3 (s.systemOnly >>= f) = .next (s.trapHere { cause := .priv }) := by
  rw [State.systemOnly_priv h]
  rfl

theorem attrDone_systemOnly {g : Unit → Chk (State × Bool)} (h : s.me.asid s.cur.2 ≠ 0) :
    attrDone s (s.systemOnly >>= g) = .next (s.trapHere { cause := .priv }) := by
  rw [State.systemOnly_priv h]
  rfl

theorem finish_notArrival (h : s.inArrival = true) : finish s 3 (s.notArrival >>= f) = .next (s.trapHere { cause := .illegal }) := by
  rw [State.notArrival_illegal h]
  rfl

theorem tretOk_of_inArrival (g : Nat) (h : s.inArrival = true) : s.tretOk g = false := by
  unfold State.inArrival at h
  unfold State.tretOk
  split at h
  next hh => rw [hh]; rfl
  next => exact nomatch h

theorem finish_tretOk {g : Nat} (h : s.inArrival = true) :
    finish s 3 (trapIf (!s.tretOk g) .illegal >>= f) = .next (s.trapHere { cause := .illegal }) := by
  rw [tretOk_of_inArrival g h]
  rfl

end

end Sys2Proof.Machine

namespace Sys2Proof.Claims
open Sys2Proof.Machine

/-- Settles O10. -/
theorem systemTasksOnly : Obligations.SystemTasksOnly := by
  unfold Obligations.SystemTasksOnly
  refine ⟨fun k x h => ?_, fun w s h i hi => ⟨?_, trapped_trapHere_some s (t := { cause := .priv }) nofun⟩,
    fun v w s h i hi => ⟨?_, trapped_trapHere_some s (t := { cause := .illegal }) nofun⟩⟩
  · rw [Cluster.asid, h]
  · simp only [List.mem_cons, List.not_mem_nil, or_false] at hi
    rcases hi with rfl | rfl | rfl | rfl | rfl | rfl | rfl
    case inr.inl | inr.inr.inl => exact attrDone_systemOnly h
    all_goals exact finish_systemOnly h
  · simp only [List.mem_cons, List.not_mem_nil, or_false] at hi
    rcases hi with rfl | rfl | rfl | rfl | rfl | rfl | rfl
    case inr.inr.inr.inl => exact if_pos (by rw [h, Bool.true_or])
    case inr.inr.inr.inr.inr.inl | inr.inr.inr.inr.inr.inr => exact finish_tretOk h
    all_goals exact finish_notArrival h

end Sys2Proof.Claims
end

section
/-! PROOFS. What taking a trap leaves of the other contexts (29 R366 to R369). -/

namespace Sys2Proof.Machine

/-- t is s but for what concerns the context x of cluster c: the same context issues, and every other one is as it was, but for whether it has
stopped. -/
structure State.besides (c x : Nat) (s t : State) : Prop where
  cur : t.cur = s.cur
  cx : ∀ d y, d ≠ c ∨ y ≠ x → Ctx.sameButStopped ((s.cl d).cx y) ((t.cl d).cx y)

section
variable {c x : Nat} {s t u : State}

theorem State.besides_refl : State.besides c x s s := ⟨rfl, fun _ _ _ => Ctx.sameButStopped_refl _⟩

theorem State.besides.trans (h : State.besides c x s t) (g : State.besides c x t u) : State.besides c x s u :=
  ⟨g.cur.trans h.cur, fun d y hy => (h.cx d y hy).trans (g.cx d y hy)⟩

theorem State.besides_of_nearly (h : State.nearly s t) : State.besides c x s t := ⟨h.cur, fun d y _ => (h.cl d).cx y⟩

theorem State.besides_of_clusters (h : t.clusters = s.clusters) (hc : t.cur = s.cur) : State.besides c x s t :=
  State.besides_of_nearly (State.nearly_of_clusters h hc)

theorem State.besides_modCx (f : Ctx → Ctx) : State.besides c x s (s.modCx c x f) := by
  refine ⟨rfl, fun d y hy => ?_⟩
  have hcx : ((s.modCx c x f).cl d).cx y = (s.cl d).cx y := by
    by_cases hd : d = c
    · subst hd
      rw [State.modCx, State.cl_modCl_same, Cluster.cx_modCx_ne _ _ (hy.resolve_left fun h => h rfl)]
    · rw [State.modCx, State.cl_modCl_ne _ _ hd]
  rw [hcx]
  exact Ctx.sameButStopped_refl _

/-- A change of a cluster that leaves its contexts as they are. -/
theorem State.besides_modCl (d : Nat) {f : Cluster → Cluster} (hf : ∀ k, (f k).ctx = k.ctx) : State.besides c x s (s.modCl d f) := by
  refine ⟨rfl, fun j y _ => ?_⟩
  have hcx : ((s.modCl d f).cl j).cx y = (s.cl j).cx y := by
    by_cases hj : j = d
    · subst hj
      rw [State.cl_modCl_same, Cluster.cx, hf, ← Cluster.cx]
    · rw [State.cl_modCl_ne _ _ hj]
  rw [hcx]
  exact Ctx.sameButStopped_refl _

theorem State.besides_ite {p : Prop} [Decidable p] (ht : State.besides c x s t) (hu : State.besides c x s u) :
    State.besides c x s (if p then t else u) := by
  split
  · exact ht
  · exact hu

end

theorem State.nearly_refuseCopy (s : State) (c x m tgt va pc : Nat) : State.nearly s (s.refuseCopy c x m tgt va pc) := by
  unfold State.refuseCopy
  dsimp only
  split <;> exact State.nearly_of_clusters rfl rfl

/-- The record that a refusal makes, if the trap is one. -/
theorem State.nearly_trapRecord (s : State) (c x : Nat) (pc : Parcel) (t : Trap) (info : BitVec 64) :
    State.nearly s (if t.cause = .refused then (match t.agent with
      | none => s.refuse c x t.tgt info.toNat pc.toNat
      | some m => s.refuseCopy c x m t.tgt info.toNat pc.toNat) else s) := by
  split
  · split
    · exact State.nearly_refuse ..
    · exact State.nearly_refuseCopy ..
  · exact State.nearly_of_clusters rfl rfl

/-- A trap leaves every context but the one that takes it, but for whether it has stopped. -/
theorem State.besides_takeTrap (s : State) (c x : Nat) (pc : Parcel) (t : Trap) : State.besides c x s (s.takeTrap c x pc t) := by
  have hend (u : State) (hu : State.besides c x s u) : State.besides c x s
      (if t.cause = .refused ∨ x ≥ 5 then u.escalate c x t
        else if u.tvec c = none then (u.tvecRefused c).escalate c x t else u.modCl c fun k => { k with traps := k.traps ++ [x] }) := by
    refine State.besides_ite (hu.trans (State.besides_of_nearly (u.nearly_escalate c x t))) (State.besides_ite ?_ ?_)
    · exact hu.trans (State.besides_of_nearly ((u.nearly_tvecRefused c).trans (State.nearly_escalate _ c x t)))
    · exact hu.trans (State.besides_modCl c fun _ => rfl)
  unfold State.takeTrap
  cases t.info with
  | some i => exact hend _ ((State.besides_of_nearly (s.nearly_trapRecord c x pc t i)).trans (State.besides_modCx _))
  | none =>
    have hfree : State.besides c x s { s with free := s.free + 1 } := State.besides_of_clusters rfl rfl
    exact hend _ ((hfree.trans (State.besides_of_nearly (State.nearly_trapRecord _ c x pc t _))).trans (State.besides_modCx _))

@[simp] theorem State.cur_takeTrap (s : State) (c x : Nat) (pc : Parcel) (t : Trap) : (s.takeTrap c x pc t).cur = s.cur :=
  (s.besides_takeTrap c x pc t).cur

end Sys2Proof.Machine
end

section
/-! PROOFS. Loops open, break and step (11 R147 to R149): O6. -/

namespace Sys2Proof.Machine

/-- Changes of the issuing context that agree on it are one. -/
theorem State.modCtx_congr {s : State} {f g : Ctx → Ctx} (h : f s.ctx = g s.ctx) : s.modCtx f = s.modCtx g := by
  change s.setCl s.cur.1 ((s.cl s.cur.1).setCx s.cur.2 (f s.ctx)) = s.setCl s.cur.1 ((s.cl s.cur.1).setCx s.cur.2 (g s.ctx))
  rw [h]

/-! ### Where the loop step leaves a context (R148) -/

/-- Reaching a parcel of the section, or its end, sets the PC and leaves the loop stack and VRB. -/
theorem State.arrive_course {s : State} {a : Parcel} (hs : s.ctx.inSec = true) (h1 : s.ctx.secF.toNat ≤ a.toNat) (h2 : a.toNat ≤ s.ctx.secE) :
    ∃ t, s.arrive a = .ok t ∧ t.ctx.pc = a ∧ t.ctx.loops = s.ctx.loops ∧ t.ctx.vrb = s.ctx.vrb := by
  unfold State.arrive
  split
  · exact ⟨_, rfl, by rw [State.leaveTo, State.ctx_modCtx]; exact ⟨rfl, rfl, rfl⟩⟩
  next h =>
    have hne : a.toNat ≠ s.ctx.secE := fun he => h ⟨hs, he⟩
    have hin : s.ctx.inside a = true := by
      simp only [Ctx.inside, hs, Bool.true_and, Bool.and_eq_true, decide_eq_true_eq]
      omega
    exact ⟨_, State.goto_inside hin, by rw [State.ctx_modCtx]; exact ⟨rfl, rfl, rfl⟩⟩

theorem State.course_preemptPoint (s : State) :
    s.preemptPoint.ctx.pc = s.ctx.pc ∧ s.preemptPoint.ctx.loops = s.ctx.loops ∧ s.preemptPoint.ctx.vrb = s.ctx.vrb := by
  obtain ⟨b, hb⟩ := s.ctx_preemptPoint
  rw [hb]
  exact ⟨rfl, rfl, rfl⟩

/-- Completing a word in its section leaves the loop stack, VRB and the PC that the loop step gives. -/
theorem State.complete_course {s : State} {len : Nat} (h : Straight s len) {ls : List LoopEnt} {v : BitVec 32} {a : Parcel} {back : Bool}
    (hstep : loopStep s.ctx.loops s.ctx.vrb (s.ctx.pc + BitVec.ofNat 32 len) = (ls, v, a, back)) :
    (s.complete len).ctx.pc = a ∧ (s.complete len).ctx.loops = ls ∧ (s.complete len).ctx.vrb = v := by
  obtain ⟨hs, h1, h2, hl⟩ := h
  have hgoes : ∃ t, (if back then (s.modCtx fun e => { e with loops := ls, vrb := v }).goto a
      else (s.modCtx fun e => { e with loops := ls, vrb := v }).arrive a) = .ok t ∧ t.ctx.pc = a ∧ t.ctx.loops = ls ∧ t.ctx.vrb = v := by
    have hn := loopStep_next s.ctx.loops s.ctx.vrb (s.ctx.pc + BitVec.ofNat 32 len)
    rw [hstep] at hn
    rcases hn with ⟨rfl, rfl⟩ | ⟨rfl, l, hmem, rfl⟩
    · obtain ⟨t, ht, hpc, hloops, hv⟩ := State.arrive_course (s := s.modCtx fun e => { e with loops := ls, vrb := v })
        (a := s.ctx.pc + BitVec.ofNat 32 len) (by rw [State.ctx_modCtx]; exact hs) (by rw [State.ctx_modCtx]; exact h1)
        (by rw [State.ctx_modCtx]; exact h2)
      rw [State.ctx_modCtx] at hloops hv
      exact ⟨t, ht, hpc, hloops, hv⟩
    · have hin : (s.modCtx fun e => { e with loops := ls, vrb := v }).ctx.inside l.start = true := by
        rw [State.ctx_modCtx]
        exact hl l hmem
      refine ⟨_, State.goto_inside hin, ?_⟩
      rw [State.ctx_modCtx, State.ctx_modCtx]
      exact ⟨rfl, rfl, rfl⟩
  obtain ⟨t, ht, hpc, hloops, hv⟩ := hgoes
  rw [State.complete, State.ctx_issuedWord]
  simp only [State.succeed, hstep, ht]
  split
  · obtain ⟨ppc, ploops, pv⟩ := t.course_preemptPoint
    exact ⟨ppc.trans hpc, ploops.trans hloops, pv.trans hv⟩
  · exact ⟨hpc, hloops, hv⟩

theorem loopStep_round {e : LoopEnt} {es : List LoopEnt} {v : BitVec 32} {nx : Parcel} (hstop : e.stop = nx)
    (hlt : e.index.toNat + 1 < e.limit.toNat % 2 ^ 31) :
    loopStep (e :: es) v nx = ({ e with index := e.index + 1 } :: es, if e.limit.getLsbD 31 then rotateVrb v else v, e.start, true) := by
  rw [loopStep, if_pos hstop]
  exact if_pos hlt

theorem loopStep_leaves {e : LoopEnt} {es : List LoopEnt} {v : BitVec 32} {nx : Parcel} (hstop : e.stop = nx)
    (hge : e.limit.toNat % 2 ^ 31 ≤ e.index.toNat + 1) :
    loopStep (e :: es) v nx = loopStep es (if e.limit.getLsbD 31 then rotateVrb v else v) nx := by
  rw [loopStep, if_pos hstop]
  exact if_neg (Nat.not_lt.2 hge)

theorem loopStep_stays {ls : List LoopEnt} {v : BitVec 32} {nx : Parcel} (h : ∀ e ∈ ls.head?, e.stop ≠ nx) :
    loopStep ls v nx = (ls, v, nx, false) := by
  cases ls with
  | nil => rfl
  | cons e es => rw [loopStep, if_neg (h e rfl)]

/-- A loop step whose back-branch leads nowhere traps on the word that completed (R115, R148). -/
theorem State.complete_backNowhere {s : State} {len : Nat} {e : LoopEnt} {es : List LoopEnt} (hls : s.ctx.loops = e :: es)
    (hstop : e.stop = s.ctx.pc + BitVec.ofNat 32 len) (hlt : e.index.toNat + 1 < e.limit.toNat % 2 ^ 31) (hin : s.ctx.inside e.start = false)
    (hj : s.judge e.start = .ok false) : s.complete len =
      (s.takeTrap s.cur.1 s.cur.2 s.ctx.pc { cause := .illegal, info := some (e.start.setWidth 64) }).issuedWord := by
  have hgo (ls : List LoopEnt) (v : BitVec 32) : (s.modCtx fun e => { e with loops := ls, vrb := v }).goto e.start =
      .error (.trap { cause := .illegal, info := some (e.start.setWidth 64) }) :=
    State.goto_nowhere (by rw [State.ctx_modCtx]; exact hin) ((State.judge_modCtx s rfl _).trans hj)
  have hstep := loopStep_round (es := es) (v := s.ctx.vrb) hstop hlt
  rw [← hls] at hstep
  simp only [State.complete, State.succeed, hstep, if_true, hgo]

end Sys2Proof.Machine

namespace Sys2Proof.Claims
open Sys2Proof.Machine

/-! ### The loop step (R106, R148) -/

theorem turnedVrb_eq (e : LoopEnt) (v : BitVec 32) : turnedVrb e v = if e.limit.getLsbD 31 then rotateVrb v else v := by
  have hsize : bitsNat v.toNat 27 18 = v.toNat / 2 ^ 18 % 1024 := bitsNat_eq_div _
  have hbase : v.toNat - v.toNat % 512 = v.toNat / 512 * 512 := by omega
  unfold turnedVrb rotateVrb
  simp only [hsize, hbase]
  by_cases he : e.limit.getLsbD 31 = true
  · by_cases h0 : v.toNat / 2 ^ 18 % 1024 = 0
    · rw [if_neg fun h => h.2 h0, if_pos he, if_pos h0]
    · rw [if_pos ⟨he, h0⟩, if_pos he, if_neg h0]
  · rw [if_neg fun h => he h.1, if_neg he]

/-- The relation of R148 is the model's loop step. -/
theorem loopStep_of_loopSteps {nx : Parcel} {ls ls' : List LoopEnt} {v v' : BitVec 32} {a : Parcel} (h : LoopSteps nx ls v ls' v' a) :
    ∃ back, loopStep ls v nx = (ls', v', a, back) := by
  induction h with
  | stays ls v hne => exact ⟨false, loopStep_stays hne⟩
  | round e es v hstop hlt => exact ⟨true, by rw [turnedVrb_eq, loopStep_round hstop hlt]⟩
  | leaves e es v ls v' a hstop hge _ ih =>
    obtain ⟨back, hb⟩ := ih
    exact ⟨back, by rw [loopStep_leaves hstop hge, ← turnedVrb_eq, hb]⟩

theorem complete_loopSteps {s : State} {ls : List LoopEnt} {v : BitVec 32} {a : Parcel} (hs : Straight s 3)
    (h : LoopSteps (s.ctx.pc + 3) s.ctx.loops s.ctx.vrb ls v a) :
    (s.complete 3).ctx.pc = a ∧ (s.complete 3).ctx.loops = ls ∧ (s.complete 3).ctx.vrb = v := by
  obtain ⟨back, hb⟩ := loopStep_of_loopSteps h
  exact State.complete_course hs hb

theorem loopStepsMade : LoopStepsMade := fun _ _ _ _ hs _ h => complete_loopSteps hs h

theorem turnedVrb_of_unrotated {e : LoopEnt} (v : BitVec 32) (h : e.limit.getLsbD 31 = false) : turnedVrb e v = v := by
  rw [turnedVrb_eq, h]
  rfl

/-- A rotation of VRB leaves all but BASE, which goes down by one modulo SIZE (R106). -/
theorem turnedVrb_rotated {e : LoopEnt} {v : BitVec 32} (h : e.limit.getLsbD 31 = true) (hsize : v.toNat / 2 ^ 18 % 1024 ≤ 512) :
    (turnedVrb e v).toNat / 512 = v.toNat / 512 ∧ (0 < v.toNat / 2 ^ 18 % 1024 →
      (turnedVrb e v).toNat % 512 = (v.toNat % 512 + v.toNat / 2 ^ 18 % 1024 - 1) % (v.toNat / 2 ^ 18 % 1024)) := by
  have hv := v.isLt
  unfold turnedVrb
  by_cases h0 : v.toNat / 2 ^ 18 % 1024 = 0
  · rw [if_neg fun hn => hn.2 h0]
    exact ⟨rfl, fun hpos => absurd h0 (Nat.ne_of_gt hpos)⟩
  · rw [if_pos ⟨h, h0⟩]
    have hx := Nat.mod_lt (v.toNat % 512 + v.toNat / 2 ^ 18 % 1024 - 1) (Nat.pos_of_ne_zero h0)
    generalize (v.toNat % 512 + v.toNat / 2 ^ 18 % 1024 - 1) % (v.toNat / 2 ^ 18 % 1024) = x at hx ⊢
    rw [BitVec.toNat_ofNat]
    omega

theorem loopStep_of_innermost : LoopStep := by
  intro s e es hls hstop hs
  have round (hlt : e.index.toNat + 1 < e.limit.toNat % 2 ^ 31) := complete_loopSteps hs (hls ▸ LoopSteps.round e es s.ctx.vrb hstop hlt)
  refine ⟨fun hlt => ?_, fun hge hes => ?_, fun hrot hlt => ?_, fun hrot hsize hlt => ?_⟩
  · obtain ⟨hpc, hloops, -⟩ := round hlt
    exact ⟨hpc, hloops⟩
  · obtain ⟨hpc, hloops, -⟩ := complete_loopSteps hs (hls ▸ LoopSteps.leaves e es s.ctx.vrb _ _ _ hstop hge (.stays es _ hes))
    exact ⟨hpc, hloops⟩
  · obtain ⟨-, -, hv⟩ := round hlt
    rw [hv, turnedVrb_of_unrotated _ hrot]
  · obtain ⟨-, -, hv⟩ := round hlt
    rw [hv]
    exact turnedVrb_rotated hrot hsize

theorem trapped_issuedWord {s : State} {c x : Nat} {cause : Cause} {opnd : Nat} {pc : Parcel} {i : BitVec 64}
    (h : Trapped s c x cause opnd pc i) : Trapped s.issuedWord c x cause opnd pc i := by
  refine trapped_used ?_
  by_cases hcx : c = s.cur.1 ∧ x = s.cur.2
  · obtain ⟨rfl, rfl⟩ := hcx
    have hcx : ((s.modCtx fun e => { e with bAge := e.bAge.map fun a => (a.1, min 4 (a.2 + 1)) }).cl s.cur.1).cx s.cur.2 =
      { s.ctx with bAge := s.ctx.bAge.map fun a => (a.1, min 4 (a.2 + 1)) } := State.ctx_modCtx ..
    rw [Trapped, hcx]
    exact h
  · have hcx : ((s.modCtx fun e => { e with bAge := e.bAge.map fun a => (a.1, min 4 (a.2 + 1)) }).cl c).cx x = (s.cl c).cx x := by
      by_cases hc : c = s.cur.1
      · subst hc
        exact (congrArg (Cluster.cx · x) (State.me_modCtx ..)).trans (Cluster.cx_modCx_ne _ _ fun hx => hcx ⟨rfl, hx⟩)
      · rw [State.cl_modCtx_ne _ _ hc]
    rwa [Trapped, hcx]

theorem loopStepTraps : LoopStepTraps := by
  intro s e es hls hstop hlt hin hj
  rw [State.complete_backNowhere hls hstop hlt hin hj]
  exact trapped_issuedWord (trapped_takeTrap s _ _ _ rfl nofun)

/-! ### LOOP (R147) -/

section
variable {w : CForm} {s : State} {c : Word} (hc : s.srcS w.sa 2 false = .ok c)
include hc

theorem execLoop_tooMany (h : 2 ^ 31 ≤ c.toNat) : exec (.loop w) s = .next (s.trapHere { cause := .illegal, opnd := 2, info := some c }) := by
  change execLoop w s = _
  simp only [execLoop, hc]
  rw [if_pos h]

theorem execLoop_backward (h : c.toNat < 2 ^ 31) (ho : w.off.toInt ≤ 3) : exec (.loop w) s = .next (s.trapHere { cause := .illegal }) := by
  change execLoop w s = _
  simp only [execLoop, hc]
  rw [if_neg (by omega), if_pos (by omega)]

theorem execLoop_none (h : c = 0) (ho : 3 < w.off.toInt) :
    exec (.loop w) s = .next (s.succeed (s.ctx.pc + w.off.setWidth 32)).issuedWord := by
  have hn : ¬2 ^ 31 ≤ c.toNat := by rw [h]; decide
  change execLoop w s = _
  simp only [execLoop, hc, relTarget_eq]
  rw [if_neg hn, if_neg (by omega), if_pos h]

theorem execLoop_over (h0 : 0 < c.toNat) (h : c.toNat < 2 ^ 31) (ho : 3 < w.off.toInt) (hl : 6 ≤ s.ctx.loops.length) :
    exec (.loop w) s = .next (s.trapHere { cause := .loopOver }) := by
  have hne : c ≠ 0 := fun hz => by rw [hz] at h0; exact absurd h0 (by decide)
  change execLoop w s = _
  simp only [execLoop, hc]
  rw [if_neg (by omega), if_neg (by omega), if_neg hne, if_pos hl]

/-- The entry that a LOOP opens. -/
def loopEntry (w : CForm) (c : Word) (pc : Parcel) : LoopEnt :=
  { index := 0, limit := BitVec.ofNat 32 (c.toNat + if w.cf.getLsbD 0 then 2 ^ 31 else 0), start := pc + 3, stop := pc + w.off.setWidth 32 }

theorem execLoop_opens (h0 : 0 < c.toNat) (h : c.toNat < 2 ^ 31) (ho : 3 < w.off.toInt) (hl : s.ctx.loops.length < 6) :
    exec (.loop w) s = .next ((s.modCtx fun e => { e with loops := loopEntry w c s.ctx.pc :: e.loops }).complete 3) := by
  have hne : c ≠ 0 := fun hz => by rw [hz] at h0; exact absurd h0 (by decide)
  have hstop : relTarget s.ctx.pc w.off = s.ctx.pc + w.off.setWidth 32 := relTarget_eq ..
  change execLoop w s = _
  simp only [execLoop, hc, hstop]
  rw [if_neg (by omega), if_neg (by omega), if_neg hne, if_neg (by omega)]
  exact congrArg (fun u : State => Host.Outcome.next (u.complete 3)) (State.modCtx_congr rfl)

end

/-- What LOOP leaves when it opens an entry that does not end at its own successor. -/
theorem opened_course {s : State} {e : LoopEnt} (hin : s.ctx.inside (s.ctx.pc + 3) = true) (hne : e.stop ≠ s.ctx.pc + 3) :
    let t := (s.modCtx fun x => { x with loops := e :: x.loops }).complete 3
    OnlySequencing s t ∧ t.ctx.pc = s.ctx.pc + 3 ∧ t.ctx.loops = e :: s.ctx.loops := by
  have hctx := s.ctx_modCtx fun x => { x with loops := e :: x.loops }
  have hstep : (s.modCtx fun x => { x with loops := e :: x.loops }).ctx.stepsAt (s.ctx.pc + 3) = false := by
    rw [hctx]
    exact beq_false_of_ne hne
  have hseq : OnlySequencing s (s.modCtx fun x => { x with loops := e :: x.loops }) := OnlySequencing.modCtx s _ rfl
  have hsucc := State.succeed_inside (s := s.modCtx fun x => { x with loops := e :: x.loops }) (nx := s.ctx.pc + 3)
    (by rw [hctx]; exact hin) hstep
  have hpc : (s.modCtx fun x => { x with loops := e :: x.loops }).ctx.pc + BitVec.ofNat 32 3 = s.ctx.pc + 3 := by rw [hctx]; rfl
  dsimp only
  rw [State.complete, hpc, hsucc]
  refine ⟨((hseq.trans (OnlySequencing.modCtx _ _ rfl)).trans (OnlySequencing.modCtx _ _ rfl)).trans (OnlySequencing.issuedWord _), ?_⟩
  rw [State.ctx_issuedWord, State.ctx_modCtx, State.ctx_modCtx, hctx]
  exact ⟨rfl, rfl⟩

/-- A trap without stated detail leaves the open loops. -/
theorem loops_trapHere (s : State) {t : Trap} (hi : t.info = none) (hr : t.cause ≠ .refused) : (s.trapHere t).ctx.loops = s.ctx.loops := by
  have hctx : (s.trapHere t).ctx = ((s.takeTrap s.cur.1 s.cur.2 s.ctx.pc t).cl s.cur.1).cx s.cur.2 := by
    rw [State.trapHere, State.ctx_used, State.ctx, State.me, State.cur_takeTrap]
  obtain ⟨i, b, hb⟩ := s.takeTrap_cx_free s.cur.1 s.cur.2 s.ctx.pc t hi hr
  rw [hctx, hb]
  rfl

theorem loopOpens : LoopOpens := by
  intro w s c hc
  refine ⟨fun h => ?_, fun h ho => ?_, fun h ho => execLoop_none hc h ho, fun h0 h ho hl => ?_, fun h0 h ho hl hin hne => ?_⟩
  · exact ⟨_, execLoop_tooMany hc h, trapped_trapHere s rfl nofun⟩
  · obtain ⟨i, hi⟩ := trapped_trapHere_some s (t := { cause := .illegal }) nofun
    exact ⟨_, i, execLoop_backward hc h ho, hi⟩
  · obtain ⟨i, hi⟩ := trapped_trapHere_some s (t := { cause := .loopOver }) nofun
    exact ⟨_, i, execLoop_over hc h0 h ho hl, hi, loops_trapHere s rfl nofun⟩
  · exact ⟨_, execLoop_opens hc h0 h ho hl, opened_course hin hne⟩

/-! ### LBRK (R149) -/

theorem loopBreaks : LoopBreaks := by
  refine fun w s => ⟨fun e rest hdrop hin hend => ?_, fun hlen => ?_⟩
  · have hctx := s.ctx_modCtx fun x => { x with loops := rest }
    have harr : (s.modCtx fun x => { x with loops := rest }).arrive e.stop =
        .ok ((s.modCtx fun x => { x with loops := rest }).modCtx fun x => { x with pc := e.stop, phase := .body }) := by
      rw [State.arrive, if_neg (by rw [hctx]; exact fun h => hend h.2), State.goto_inside (by rw [hctx]; exact hin)]
    have hexec : exec (.lbrk w) s = .next
        ((s.modCtx fun x => { x with loops := rest }).modCtx fun x => { x with pc := e.stop, phase := .body }).preemptPoint.issuedWord := by
      change execLbrk w s = _
      simp only [execLbrk, hdrop, harr]
      rfl
    have hseq : OnlySequencing s ((s.modCtx fun x => { x with loops := rest }).modCtx fun x => { x with pc := e.stop, phase := .body }) :=
      (OnlySequencing.modCtx s _ rfl).trans (OnlySequencing.modCtx _ _ rfl)
    obtain ⟨hpc, hloops, -⟩ :=
      ((s.modCtx fun x => { x with loops := rest }).modCtx fun x => { x with pc := e.stop, phase := .body }).course_preemptPoint
    rw [State.ctx_modCtx, hctx] at hpc hloops
    refine ⟨_, hexec, (hseq.trans (OnlySequencing.preemptPoint _)).trans (OnlySequencing.issuedWord _), ?_⟩
    rw [State.ctx_issuedWord]
    exact ⟨hpc, hloops⟩
  · have hexec : exec (.lbrk w) s = .next (s.trapHere { cause := .illegal }) := by
      change execLbrk w s = _
      simp only [execLbrk, List.drop_of_length_le hlen]
    obtain ⟨i, hi⟩ := trapped_trapHere_some s (t := { cause := .illegal }) nofun
    exact ⟨_, i, hexec, hi⟩

/-- Settles O6: the whole loop step is the model's (loopStep_of_loopSteps), and completing a word in its section makes it
(State.complete_course). -/
theorem loops : Obligations.Loops := by
  unfold Obligations.Loops
  exact ⟨loopOpens, loopBreaks, loopStep_of_innermost, loopStepsMade, loopStepTraps⟩

end Sys2Proof.Claims
end

section
/-! PROOFS. What the C engine's words leave of the course of their context (11 R164 to R177): towards O9. -/

namespace Sys2Proof.Machine

/-! ### Operations that leave every context as it is -/

/-- What the issuing context is read from. -/
def State.agents (s : State) : SMap Cluster × Nat × Nat := (s.clusters, s.cur)

theorem State.ctx_of_agents {s t : State} (h : t.agents = s.agents) : t.ctx = s.ctx := by
  obtain ⟨hcl, hcur⟩ := Prod.mk.inj h
  rw [State.ctx, State.ctx, State.me, State.me, hcur, State.cl_congr hcl]

theorem State.sameCourse_of_agents {s t : State} (h : t.agents = s.agents) : Ctx.sameCourse s.ctx t.ctx := by
  rw [State.ctx_of_agents h]
  exact Ctx.sameCourse_refl _

theorem State.agents_foldl {α : Type} {f : State → α → State} (hf : ∀ s a, (f s a).agents = s.agents) (l : List α) (s : State) :
    (l.foldl f s).agents = s.agents := by
  induction l generalizing s with
  | nil => rfl
  | cons a l ih => exact (ih _).trans (hf s a)

theorem State.agents_ite {p : Prop} [Decidable p] {s t u : State} (ht : t.agents = s.agents) (hu : u.agents = s.agents) :
    (if p then t else u).agents = s.agents := by
  split
  · exact ht
  · exact hu

@[simp] theorem State.agents_modTaskOn (s : State) (c : Nat) (f : Task → Task) : (s.modTaskOn c f).agents = s.agents := by
  unfold State.modTaskOn
  split <;> rfl

@[simp] theorem State.agents_markXstIf (s : State) (c : Nat) (b : Bool) : (s.markXstIf c b).agents = s.agents :=
  State.agents_ite (State.agents_modTaskOn ..) rfl

@[simp] theorem State.agents_signal (s : State) (t : Nat) (tid : BitVec 32) : (s.signal t tid).1.agents = s.agents := by
  unfold State.signal
  dsimp only
  split
  · rfl
  · split <;> split <;> rfl

@[simp] theorem State.agents_setMasters (s : State) : s.setMasters.agents = s.agents := by
  refine State.agents_foldl (fun s t => ?_) _ s
  split
  · exact State.agents_ite rfl rfl
  · rfl

/-- A write of a register that every permitted master writes leaves the contexts as they are. -/
theorem State.agents_openReg {s bad : State} (hb : bad.agents = s.agents) (o : Nat) (v : BitVec 64) :
    ((s.openReg bad o v).getD bad).agents = s.agents := by
  unfold State.openReg
  split
  · exact State.agents_ite hb rfl
  split
  · rfl
  split
  · rfl
  split
  · exact State.agents_ite rfl rfl
  split
  · exact State.agents_ite hb (State.agents_setMasters _)
  split
  · exact State.agents_ite rfl hb
  · exact hb

@[simp] theorem State.agents_cfgIgnoredBy (s : State) (m off : Nat) : (s.cfgIgnoredBy m off).agents = s.agents := rfl

@[simp] theorem State.agents_cfgPut (s : State) (m off : Nat) (bs : List Byte) : (s.cfgPut m off bs).agents = s.agents := by
  refine State.agents_foldl (fun s i => ?_) _ s
  exact State.agents_openReg (State.agents_cfgIgnoredBy ..) _ _

@[simp] theorem State.agents_put (s : State) (m pa : Nat) (bs : List Byte) : (s.put m pa bs).1.agents = s.agents := by
  unfold State.put
  split
  · exact State.agents_cfgPut ..
  · exact Prod.ext (State.clusters_store ..) (State.cur_store ..)

/-- Writing an image leaves the contexts as they are. -/
@[simp] theorem State.agents_putImage (s : State) (im : SMap Byte) (ps : List Piece) : (s.putImage im ps).agents = s.agents := by
  refine State.agents_foldl (fun s p => ?_) _ s
  split
  · rfl
  · exact State.agents_ite rfl (State.agents_put ..)

/-! ### Changes of other contexts and of other clusters -/

theorem State.ctx_modCl_ne (s : State) {c : Nat} (f : Cluster → Cluster) (h : c ≠ s.cur.1) : (s.modCl c f).ctx = s.ctx := by
  rw [State.ctx, State.me, State.cur_modCl, State.cl_modCl_ne _ _ h.symm, ← State.me, ← State.ctx]

theorem State.ctx_modCx_ne (s : State) {x : Nat} (f : Ctx → Ctx) (h : x ≠ s.cur.2) : (s.modCx s.cur.1 x f).ctx = s.ctx := by
  rw [State.ctx, State.me, State.modCx, State.cur_modCl, State.cl_modCl_same, Cluster.cx_modCx_ne _ _ h.symm, ← State.me, ← State.ctx]

/-- A change of every context of the cluster that leaves each its course. -/
theorem sameCourse_mapCtx (s : State) {f : Ctx → Ctx} (hd : f Ctx.reset = Ctx.reset) (hf : ∀ e, Ctx.sameCourse e (f e)) :
    Ctx.sameCourse s.ctx (s.modMe fun k => { k with ctx := k.ctx.map fun e => (e.1, f e.2) }).ctx := by
  have hcx : (s.modMe fun k => { k with ctx := k.ctx.map fun e => (e.1, f e.2) }).ctx = f s.ctx := by
    rw [State.ctx, State.me_modMe]
    exact (congrArg (fun d => SMap.get d _ _) hd.symm).trans (SMap.get_map f Ctx.reset s.me.ctx s.cur.2)
  rw [hcx]
  exact hf _

/-- The other engine's trap is over: the context's own course stays. -/
theorem sameCourse_solved (s : State) (x : Nat) : Ctx.sameCourse s.ctx (s.modCl s.cur.1 fun k => k.solved x).ctx :=
  sameCourse_mapCtx s (f := fun e => { e with hnd := e.hnd.map (Hnd.solve x) }) rfl fun _ => Ctx.sameCourse_refl _

theorem sameCourse_of_besides {s t : State} {c x : Nat} (h : State.besides c x s t) {d y : Nat} (hy : d ≠ c ∨ y ≠ x) :
    Ctx.sameCourse ((s.cl d).cx y) ((t.cl d).cx y) := by
  obtain ⟨b, hb⟩ := h.cx d y hy
  rw [hb]
  exact Ctx.sameCourse_refl _

/-! ### A loop step of one context leaves the others -/

theorem State.besides_modCtx (s : State) (f : Ctx → Ctx) : State.besides s.cur.1 s.cur.2 s (s.modCtx f) := State.besides_modCx f

theorem State.besides_goto {s t : State} {a : Parcel} (h : s.goto a = .ok t) : State.besides s.cur.1 s.cur.2 s t := by
  unfold State.goto at h
  split at h
  · cases h
    exact s.besides_modCtx _
  · split at h
    · cases h
      exact s.besides_modCtx _
    · exact nomatch h
    · cases h
      exact (s.besides_modCtx _).trans (State.besides_takeTrap _ _ _ _ _)

theorem State.besides_arrive {s t : State} {a : Parcel} (h : s.arrive a = .ok t) : State.besides s.cur.1 s.cur.2 s t := by
  unfold State.arrive at h
  split at h
  · cases h
    exact s.besides_modCtx _
  · exact State.besides_goto h

theorem State.besides_preemptPoint (s : State) : State.besides s.cur.1 s.cur.2 s s.preemptPoint :=
  State.besides_ite (s.besides_modCtx _) State.besides_refl

theorem State.besides_succeed (s : State) (nx : Parcel) : State.besides s.cur.1 s.cur.2 s (s.succeed nx) := by
  unfold State.succeed
  dsimp only
  split
  next t ht =>
    have hgo : State.besides s.cur.1 s.cur.2 s t := by
      split at ht
      · exact (s.besides_modCtx _).trans (State.besides_goto ht)
      · exact (s.besides_modCtx _).trans (State.besides_arrive ht)
    have hpre : State.besides s.cur.1 s.cur.2 t t.preemptPoint := by
      rw [← hgo.cur]
      exact t.besides_preemptPoint
    exact State.besides_ite (hgo.trans hpre) hgo
  next => exact s.besides_takeTrap ..
  next => exact State.besides_refl

/-- A context whose engine goes on elsewhere leaves the course of every other. -/
theorem sameCourse_succeed_other {s : State} {c y : Nat} (f : Ctx → Ctx) (nx : Parcel) (h : c ≠ s.cur.1 ∨ y ≠ s.cur.2) :
    Ctx.sameCourse ((s.cl c).cx y) ((((s.modCtx f).succeed nx).cl c).cx y) :=
  sameCourse_of_besides ((s.besides_modCtx f).trans (State.besides_succeed (s.modCtx f) nx)) h

/-! ### Returning from a trap (R172) -/

theorem sameCourse_modCx_solved {s : State} {x : Nat} (f : Ctx → Ctx) (h : x ≠ s.cur.2) :
    Ctx.sameCourse s.ctx ((s.modCl s.cur.1 fun k => k.solved x).modCx s.cur.1 x f).ctx := by
  have hctx : ((s.modCl s.cur.1 fun k => k.solved x).modCx s.cur.1 x f).ctx = (s.modCl s.cur.1 fun k => k.solved x).ctx :=
    State.ctx_modCx_ne _ f h
  rw [hctx]
  exact sameCourse_solved s x

theorem sameCourse_resume {s : State} {x : Nat} (h : x ≠ s.cur.2) : Ctx.sameCourse s.ctx (s.resume s.cur.1 x).ctx :=
  sameCourse_modCx_solved _ h

theorem sameCourse_resumeSkip {s t : State} {x : Nat} (h : x ≠ s.cur.2) (hr : s.resumeSkip s.cur.1 x = some t) :
    Ctx.sameCourse s.ctx t.ctx := by
  unfold State.resumeSkip at hr
  dsimp only at hr
  split at hr
  case h_3 =>
    cases hr
    exact (sameCourse_modCx_solved (fun e => { e with run := .running, cause := 0 }) h).trans
      (sameCourse_succeed_other (s := { ((s.modCl s.cur.1 fun k => k.solved x).modCx s.cur.1 x fun e =>
        { e with run := .running, cause := 0 }) with cur := (s.cur.1, x) }) _ _ (.inr h.symm))
  all_goals
    split at hr
    · split at hr
      · exact nomatch hr
      · cases hr
        rw [State.modCx_modCx]
        exact sameCourse_modCx_solved _ h
    · exact nomatch hr

end Sys2Proof.Machine
end

section
/-! PROOFS. The C engine's words complete (11 R164 to R177): O9. -/

namespace Sys2Proof.Machine

section
variable {s : State} {w : AForm}

theorem State.notArrival_ok (h : s.inArrival = false) : s.notArrival = .ok () := by
  rw [State.notArrival, h]
  rfl

theorem waitIf_ok {b : Bool} (h : b = false) : waitIf b = .ok () := by
  rw [h]
  rfl

theorem trapIf_ok {b : Bool} {c : Cause} {o : Nat} (h : b = false) : trapIf b c o = .ok () := by
  rw [h]
  rfl

theorem checkAlign_ok {a : Word} {n o : Nat} (h : a.toNat % n = 0) : checkAlign a n o = .ok () := by
  rw [checkAlign, h]
  rfl

theorem State.otherCluster_ok (hc : w.imm.toNat % 32 < clustersOn (dieOf s.cur.1))
    (hne : clusterNo (dieOf s.cur.1) (w.imm.toNat % 32) ≠ s.cur.1) :
    s.otherCluster w = .ok (clusterNo (dieOf s.cur.1) (w.imm.toNat % 32)) := if_pos ⟨hc, hne⟩

/-- HALT, CTXSAVE and CTXLOAD name another cluster than their own. -/
theorem State.otherCluster_ne {c : Nat} (h : s.otherCluster w = .ok c) : c ≠ s.cur.1 := by
  unfold State.otherCluster at h
  dsimp only at h
  split at h
  next hc =>
    cases h
    exact hc.2
  next => exact nomatch h

/-- An engine that TRET may name is not the one that issues. -/
theorem tretOk_ne {g : Nat} (hrun : s.ctx.run = .running) (h : s.tretOk g = true) : g ≠ s.cur.2 := by
  rintro rfl
  have htrap : s.ctx.run = .trapped := of_decide_eq_true (Bool.and_eq_true_iff.1 h).2
  exact nomatch hrun.symm.trans htrap

/-- An engine that FORK may start is not the one that issues. -/
theorem forked_ne {g : Nat} (hrun : s.ctx.run = .running) (h : (s.me.cx g).run = .idle ∨ (s.me.cx g).run = .arrived) : g ≠ s.cur.2 := by
  rintro rfl
  rcases h with h | h
  · exact nomatch hrun.symm.trans h
  · exact nomatch hrun.symm.trans h

theorem sameCourse_withForked {w : CForm} (h : w.cf.toNat % 8 ≠ s.cur.2) : Ctx.sameCourse s.ctx (s.withForked w).ctx := by
  have hctx : (s.withForked w).ctx = s.ctx := by
    rw [State.ctx, State.withForked, State.me_modMe]
    exact Cluster.cx_setCx_ne _ _ h.symm
  rw [hctx]
  exact Ctx.sameCourse_refl _

theorem sameCourse_unlistTrap (c g : Nat) : Ctx.sameCourse s.ctx (s.unlistTrap c g).ctx := by
  have hb : State.besides (s.cur.1 + 1) 0 s (s.unlistTrap c g) := State.besides_modCl c fun _ => rfl
  exact sameCourse_of_besides hb (d := s.cur.1) (y := s.cur.2) (.inl (Nat.succ_ne_self _).symm)

theorem sameCourse_modCl_ne {c : Nat} (f : Cluster → Cluster) (h : c ≠ s.cur.1) : Ctx.sameCourse s.ctx (s.modCl c f).ctx := by
  rw [State.ctx_modCl_ne s f h]
  exact Ctx.sameCourse_refl _

theorem sameCourse_loadInto {c : Nat} (im : SMap Byte) (ctxs : SMap Ctx) (h : c ≠ s.cur.1) :
    Ctx.sameCourse s.ctx (s.loadInto c im ctxs).ctx :=
  sameCourse_modCl_ne (s := s) (fun k => loadImage (isRing c) im k ctxs) h

end

/-! ### FORK, RDV, QCFG, TSIG, GBAR, GWAIT (R164 to R169) -/

section
variable {s : State} {w : AForm}

theorem gives_fork {w : CForm} (ha : s.inArrival = false) (ho : w.off.toNat < 2 ^ 32)
    (he : (s.me.cx (w.cf.toNat % 8)).run = .idle ∨ (s.me.cx (w.cf.toNat % 8)).run = .arrived) (hrun : s.ctx.run = .running)
    (hst : Straight s 3) : Gives (.fork w) s (s.withForked w) :=
  gives_of_finish (execFork_eq ha ho he) rfl hst (sameCourse_withForked (forked_ne hrun he))

theorem gives_rdv (ha : s.inArrival = false) (hall : s.me.allArrived = true) (hst : Straight s 3) :
    Gives (.rdv w) s (s.modMe fun k => { k with ctx := k.ctx.map fun e => (e.1, { e.2 with forked := false }) }) := by
  refine gives_of_finish (i := .rdv w) rfl ?_ hst (sameCourse_mapCtx s (f := fun e => { e with forked := false }) rfl fun e => Ctx.sameCourse_refl e)
  simp only [State.notArrival_ok ha, waitIf_ok (congrArg (!·) hall), ok_bind, pure_eq_ok]

theorem gives_qcfg {i : BitVec 4} (ha : s.inArrival = false) (hd : w.dst = .q false i) (hpc : w.imm.toNat % 8 ≠ w.imm.toNat / 16 % 8)
    (hq : s.me.configured i = false) (hst : Straight s 3) : Gives (.qcfg w) s (s.modMe fun k => { k with land := k.land ++
      [{ due := s.cycle.toNat + 1, x := s.cur.2, sec := s.ctx.secNow, dst := w.dst
         kind := .cfg (w.imm.toNat % 8) (w.imm.toNat / 16 % 8), flags := 0 }] }) := by
  refine gives_of_finish (i := .qcfg w) rfl ?_ hst (sameCourse_modMe s _ rfl)
  have hok : (w.imm.toNat % 8 == w.imm.toNat / 16 % 8 || s.me.configured i) = false := by rw [hq, beq_false_of_ne hpc, Bool.or_false]
  simp only [State.notArrival_ok ha, hd, trapIf_ok hok, ok_bind, pure_eq_ok]

theorem gives_tsig {a : Word} (ha : s.srcS w.sa 2 (ftBit w 2) = .ok a) (hst : Straight s 3) :
    Gives (.tsig w) s ((s.signal (dieOf s.cur.1) (a.setWidth 32)).1.putOpnd w.dst
      (if (s.signal (dieOf s.cur.1) (a.setWidth 32)).2 then 1 else 0)) := by
  refine gives_of_finish (i := .tsig w) rfl ?_ hst ((State.sameCourse_of_agents (State.agents_signal ..)).trans (sameCourse_putOpnd ..))
  simp only [ha, ok_bind, pure_eq_ok]
  rfl

theorem gives_gbar {i : Nat} (hd : s.dstS w.dst = .ok ()) (hi : s.groupIn (w.imm.toNat % 4) = .ok i)
    (hm : (s.group i).marks.getLsbD s.cur.1 = false) (hst : Straight s 3) :
    Gives (.gbar w) s ({ s with groups := SMap.set s.groups i ((s.group i).arrive s.cur.1) }.putOpnd w.dst ((s.group i).phase.setWidth 64)) := by
  refine gives_of_finish (i := .gbar w) rfl ?_ hst (sameCourse_putOpnd { s with groups := _ } _ _)
  simp only [hd, hi, waitIf_ok hm, ok_bind, pure_eq_ok]

theorem gives_gwait {v : Word} {i : Nat} (hv : s.srcS w.sa 2 (ftBit w 2) = .ok v) (hi : s.groupIn (w.imm.toNat % 4) = .ok i)
    (hp : (s.group i).phase ≠ v.setWidth 16) (hst : Straight s 3) : Gives (.gwait w) s s := by
  refine gives_of_finish (i := .gwait w) rfl ?_ hst (Ctx.sameCourse_refl _)
  simp only [hv, hi, waitIf_ok (beq_false_of_ne hp), ok_bind, pure_eq_ok]

/-! ### PROG, WREL, TRET (R170 to R172) -/

/-- PROG of n units, as it stands at the end of the word. -/
def State.progTo (s : State) (n : Nat) : State := s.modMe fun k => { k with land := k.land ++
  [{ due := s.cycle.toNat + 1, x := s.cur.2, sec := s.ctx.secNow, dst := .null, kind := .prog (BitVec.ofNat 16 (min n 65535)), flags := 0 }] }

theorem gives_prog {v : Word} (hv : s.srcSOr w.sa 2 (ftBit w 2) (w.imm.setWidth 64) = .ok v) (hst : Straight s 3) :
    Gives (.prog w) s (s.progTo v.toNat) := by
  refine gives_of_finish (i := .prog w) rfl ?_ hst (sameCourse_modMe s _ rfl)
  simp only [hv, ok_bind, pure_eq_ok]
  rfl

theorem gives_wrel (ha : s.inArrival = false) (hn : ∀ n ∈ s.me.m.nests, n.gen = none) (hst : Straight s 3) :
    Gives (.wrel w) s (s.modTaskOn s.cur.1 fun t => { t with wrel := t.wrel || recKeyed t.rcd }) := by
  refine gives_of_finish (i := .wrel w) rfl ?_ hst (State.sameCourse_of_agents (State.agents_modTaskOn ..))
  have hany : (s.me.m.nests.any fun n => n.gen.isSome) = false := List.any_eq_false.2 fun n h => by simp [hn n h]
  simp only [State.notArrival_ok ha, waitIf_ok hany, ok_bind, pure_eq_ok]

theorem gives_tret (h : s.tretOk (w.imm.toNat % 8) = true) (hrun : s.ctx.run = .running) (hst : Straight s 3) :
    Gives (.tret w) s ((s.resume s.cur.1 (w.imm.toNat % 8)).unlistTrap s.cur.1 (w.imm.toNat % 8)) := by
  refine gives_of_finish (i := .tret w) rfl ?_ hst ((sameCourse_resume (tretOk_ne hrun h)).trans (sameCourse_unlistTrap _ _))
  simp only [h, Bool.not_true, trapIf_ok, ok_bind, pure_eq_ok]

theorem gives_tretSkip {r : State} (h : s.tretOk (w.imm.toNat % 8) = true)
    (hr : (s.unlistTrap s.cur.1 (w.imm.toNat % 8)).resumeSkip s.cur.1 (w.imm.toNat % 8) = some r) (hrun : s.ctx.run = .running)
    (hst : Straight s 3) : Gives (.tretSkip w) s r := by
  refine gives_of_finish (i := .tretSkip w) rfl ?_ hst ((sameCourse_unlistTrap _ _).trans
    (sameCourse_resumeSkip (s := s.unlistTrap s.cur.1 (w.imm.toNat % 8)) (tretOk_ne (s := s) hrun h) hr))
  simp only [h, Bool.not_true, trapIf_ok, ok_bind, hr, pure_eq_ok]

/-! ### HALT, CTXSAVE, CTXLOAD (R173, R174) -/

section
variable (hsys : s.me.asid s.cur.2 = 0)
include hsys

theorem gives_halt (hc : w.imm.toNat % 32 < clustersOn (dieOf s.cur.1)) (hne : clusterNo (dieOf s.cur.1) (w.imm.toNat % 32) ≠ s.cur.1)
    (hst : Straight s 3) : Gives (.halt w) s (s.modCl (clusterNo (dieOf s.cur.1) (w.imm.toNat % 32)) fun k => { k with byHalt := true }) := by
  refine gives_of_finish (i := .halt w) rfl ?_ hst (sameCourse_modCl_ne _ hne)
  simp only [State.systemOnly_ok hsys, State.otherCluster_ok hc hne, ok_bind, pure_eq_ok]

theorem gives_haltGo (hc : w.imm.toNat % 32 < clustersOn (dieOf s.cur.1)) (hne : clusterNo (dieOf s.cur.1) (w.imm.toNat % 32) ≠ s.cur.1)
    (hst : Straight s 3) : Gives (.haltGo w) s (s.modCl (clusterNo (dieOf s.cur.1) (w.imm.toNat % 32)) fun k => { k with byHalt := false }) := by
  refine gives_of_finish (i := .haltGo w) rfl ?_ hst (sameCourse_modCl_ne _ hne)
  simp only [State.systemOnly_ok hsys, State.otherCluster_ok hc hne, ok_bind, pure_eq_ok]

section
variable {c : Nat} {a : Word} {ps : List Piece} (hc : s.otherCluster w = .ok c) (ha : s.srcS w.sa 2 (ftBit w 2) = .ok a)
  (hb : (s.cl c).byHalt = true) (hal : a.toNat % 4096 = 0)
include hc ha hb hal

theorem gives_ctxsave (hps : s.imagePlaces ((s.cl c).savedPieces a.toNat) true = .ok ps) (hset : s.settled c = true) (hst : Straight s 3) :
    Gives (.ctxsave w) s ((s.putImage (s.saveImage c).img ps).markXstIf s.cur.1 (ps.any (s.offSram s.cur.1))) := by
  refine gives_of_finish (i := .ctxsave w) rfl ?_ hst (State.sameCourse_of_agents ?_)
  · simp only [State.systemOnly_ok hsys, hc, ha, trapIf_ok (congrArg (!·) hb), checkAlign_ok hal, hps, waitIf_ok (congrArg (!·) hset),
      ok_bind, pure_eq_ok]
  · rw [State.agents_markXstIf, State.agents_putImage]

theorem gives_ctxload (hps : s.imagePlaces (imagePieces a.toNat) false = .ok ps) (hheld : ∀ p ∈ ps, s.readHeld s.cur.1 p.pa p.len = false)
    (him : imageOk (isRing c) (s.takeImage ps) = true) (hro : s.sramRo c = none) (hset : s.settled c = true) (hst : Straight s 3) :
    Gives (.ctxload w) s ((s.loadInto c (s.takeImage ps) (s.cl c).ctx).modCl c fun k =>
      { k with ctx := k.ctx.map fun e => if e.1 < 5 then (e.1, e.2.atPc) else e }) := by
  have hne := State.otherCluster_ne hc
  have hany : (ps.any fun p => s.readHeld s.cur.1 p.pa p.len) = false := List.any_eq_false.2 fun p h => by simp [hheld p h]
  refine gives_of_finish (i := .ctxload w) rfl ?_ hst
    ((sameCourse_loadInto _ _ hne).trans (sameCourse_modCl_ne (s := s.loadInto c (s.takeImage ps) (s.cl c).ctx) _ hne))
  simp only [State.systemOnly_ok hsys, hc, ha, trapIf_ok (congrArg (!·) hb), checkAlign_ok hal, hps, waitIf_ok hany,
    trapIf_ok (congrArg (!·) him), hro, waitIf_ok (congrArg (!·) hset), ok_bind, pure_eq_ok]

end

/-! ### LTTW, ATTR (R175, R177) -/

section
variable {i lo hi : Word} (hi0 : s.srcS w.sa 2 (ftBit w 2) = .ok i) (hlo : s.srcS w.sb 3 (ftBit w 3) = .ok lo)
  (hhi : s.srcS w.sc 4 (ftBit w 4) = .ok hi) (hn : i.toNat ≤ 4095)
include hi0 hlo hhi hn

theorem execLttw_eq : exec (.lttw w) s = finish s 3 (.ok
    (if s.asidInUse (dieOf s.cur.1) (lttAsid (SMap.get 0 s.ltt (dieOf s.cur.1 * 4096 + i.toNat))) ||
        s.asidInUse (dieOf s.cur.1) (lttAsid (hi ++ lo)) then s.putOpnd w.dst 0
      else { s with lttNew := s.lttNew ++ [(dieOf s.cur.1 * 4096 + i.toNat, hi ++ lo)] }.putOpnd w.dst 1)) := by
  have hin : decide (4095 < i.toNat) = false := decide_eq_false (Nat.not_lt.2 hn)
  change execLttw w s = _
  simp only [execLttw, State.systemOnly_ok hsys, hi0, hlo, hhi, hin, trapIfInfo, ok_bind, pure_eq_ok, Bool.false_eq_true, if_false]
  split <;> rfl

theorem gives_lttwIn (hold : s.asidInUse (dieOf s.cur.1) (lttAsid (SMap.get 0 s.ltt (dieOf s.cur.1 * 4096 + i.toNat))) = false)
    (hnew : s.asidInUse (dieOf s.cur.1) (lttAsid (hi ++ lo)) = false) (hst : Straight s 3) :
    Gives (.lttw w) s ({ s with lttNew := s.lttNew ++ [(dieOf s.cur.1 * 4096 + i.toNat, hi ++ lo)] }.putOpnd w.dst 1) := by
  refine gives_of_finish (execLttw_eq hsys hi0 hlo hhi hn) ?_ hst (sameCourse_putOpnd { s with lttNew := _ } _ _)
  rw [hold, hnew, Bool.or_false, if_neg Bool.false_ne_true]

theorem gives_lttwBusy (h : s.asidInUse (dieOf s.cur.1) (lttAsid (SMap.get 0 s.ltt (dieOf s.cur.1 * 4096 + i.toNat))) = true ∨
    s.asidInUse (dieOf s.cur.1) (lttAsid (hi ++ lo)) = true) (hst : Straight s 3) : Gives (.lttw w) s (s.putOpnd w.dst 0) := by
  refine gives_of_finish (execLttw_eq hsys hi0 hlo hhi hn) ?_ hst (sameCourse_putOpnd s _ _)
  rw [if_pos (Bool.or_eq_true_iff.2 h)]

end

section
variable {a n : Word} {gs : List Nat} (ha : s.srcS w.sa 2 (ftBit w 2) = .ok a) (hn : s.srcS w.sb 3 (ftBit w 3) = .ok n)
  (hd : s.dstS w.dst = .ok ()) (hr : s.attrRange a n = .ok gs)
include ha hn hd hr

theorem gives_attrSet (h0 : w.imm.getLsbD 0 = true) (hp : s.writePending gs = false) (hnear : ∀ g ∈ gs, s.isFar (g * 4096) = false)
    (hst : Straight s 3) :
    Gives (.attrSet w) s ({ s with ro := gs.foldl (fun m g => SMap.put false m g true) s.ro }.putOpnd w.dst 0) := by
  have hfar : (gs.filter fun g => s.isFar (g * 4096)) = [] := List.filter_eq_nil_iff.2 fun g h => by simp [hnear g h]
  have hall : (gs.filter fun g => !s.isFar (g * 4096)) = gs := List.filter_eq_self.2 fun g h => by simp [hnear g h]
  refine gives_of_finish (i := .attrSet w) (len := 3) (r := .ok ((s.grantRo gs).putOpnd w.dst 0)) ?_ rfl hst
    (sameCourse_putOpnd (s.grantRo gs) _ _)
  change execAttrSet w s = _
  simp only [execAttrSet, State.systemOnly_ok hsys, ha, hn, hd, hr, h0, waitIf_ok hp, hfar, hall, ok_bind]
  rfl

theorem gives_attrSet_none (h0 : w.imm.getLsbD 0 = false) (hst : Straight s 3) : Gives (.attrSet w) s (s.putOpnd w.dst 0) := by
  refine gives_of_finish (i := .attrSet w) (len := 3) (r := .ok (s.putOpnd w.dst 0)) ?_ rfl hst (sameCourse_putOpnd s _ _)
  change execAttrSet w s = _
  simp only [execAttrSet, State.systemOnly_ok hsys, ha, hn, hd, hr, h0, ok_bind]
  rfl

theorem gives_attrClr_none (h0 : w.imm.getLsbD 0 = false ∨ gs = []) (hst : Straight s 3) : Gives (.attrClr w) s (s.putOpnd w.dst 0) := by
  have hno : (w.imm.getLsbD 0 && !gs.isEmpty) = false := by
    rcases h0 with h0 | rfl
    · rw [h0, Bool.false_and]
    · rw [List.isEmpty_nil, Bool.not_true, Bool.and_false]
  refine gives_of_finish (i := .attrClr w) (len := 3) (r := .ok (s.putOpnd w.dst 0)) ?_ rfl hst (sameCourse_putOpnd s _ _)
  change execAttrClr w s = _
  simp only [execAttrClr, State.systemOnly_ok hsys, ha, hn, hd, hr, hno, ok_bind]
  rfl

end
end
end

end Sys2Proof.Machine

namespace Sys2Proof.Claims
open Sys2Proof.Machine

/-- Settles O9: the checks of each word pass under its case's conditions (the gives_ lemmas), and none changes the course of its own context. -/
theorem controlWords : Obligations.ControlWords := by
  unfold Obligations.ControlWords
  intro i s u h hrun hst
  cases h with
  | fork w ha ho he => exact gives_fork ha ho he hrun hst
  | rdv w ha hall => exact gives_rdv ha hall hst
  | qcfg w i ha hd hpc hq => exact gives_qcfg ha hd hpc hq hst
  | tsig w a ha => exact gives_tsig ha hst
  | gbar w i hd hi hm => exact gives_gbar hd hi hm hst
  | gwait w v i hv hi hp => exact gives_gwait hv hi hp hst
  | progI w hw =>
    have h64 : (w.imm.setWidth 64).toNat = w.imm.toNat := BitVec.toNat_setWidth_of_le (by decide)
    have h := gives_prog (w := w) (s := s) (if_pos hw) hst
    rwa [h64] at h
  | progS w v hw hv => exact gives_prog ((if_neg hw).trans hv) hst
  | wrel w ha hn => exact gives_wrel ha hn hst
  | tret w h => exact gives_tret h hrun hst
  | tretSkip w r h hr => exact gives_tretSkip h hr hrun hst
  | halt w hsys hc hne => exact gives_halt hsys hc hne hst
  | haltGo w hsys hc hne => exact gives_haltGo hsys hc hne hst
  | ctxsave w c a ps hsys hc ha hb hal hps hset => exact gives_ctxsave hsys hc ha hb hal hps hset hst
  | ctxload w c a ps hsys hc ha hb hal hps hheld him hro hset => exact gives_ctxload hsys hc ha hb hal hps hheld him hro hset hst
  | lttwIn w i lo hi hsys hi0 hlo hhi hn hold hnew => exact gives_lttwIn hsys hi0 hlo hhi hn hold hnew hst
  | lttwBusy w i lo hi hsys hi0 hlo hhi hn h => exact gives_lttwBusy hsys hi0 hlo hhi hn h hst
  | attrSet w a n gs hsys ha hn hd hr h0 hp hnear => exact gives_attrSet hsys ha hn hd hr h0 hp hnear hst
  | attrSetNone w a n gs hsys ha hn hd hr h0 => exact gives_attrSet_none hsys ha hn hd hr h0 hst
  | attrClrNone w a n gs hsys ha hn hd hr h0 => exact gives_attrClr_none hsys ha hn hd hr h0 hst

end Sys2Proof.Claims
end

section
/-! PROOFS. The sequencer's words complete (11 R143, R144, R149, R151 to R154, R169): towards O60. -/

namespace Sys2Proof.Machine

theorem OnlySequencing.getB {u t : State} (h : OnlySequencing u t) (n : Nat) : t.ctx.getB n = u.ctx.getB n := by
  have hb := congrArg (fun e : Ctx => e.getB n) h.own
  exact hb

theorem OnlySequencing.getS {u t : State} (h : OnlySequencing u t) (n : Nat) : t.ctx.getS n = u.ctx.getS n := by
  have hs := congrArg (fun e : Ctx => e.getS n) h.own
  exact hs

theorem OnlySequencing.event {u t : State} (h : OnlySequencing u t) (n : Nat) : t.me.event n = u.me.event n := by
  have he := congrArg (fun k : Cluster => k.event n) h.cluster
  exact he

theorem OnlySequencing.mem {u t : State} (h : OnlySequencing u t) : t.mem = u.mem := by
  have hm := congrArg State.mem h.module
  exact hm

theorem OnlySequencing.m {u t : State} (h : OnlySequencing u t) : t.me.m = u.me.m := by
  have hm := congrArg Cluster.m h.cluster
  exact hm

theorem State.event_me_modCtx (s : State) (f : Ctx → Ctx) (n : Nat) : (s.modCtx f).me.event n = s.me.event n :=
  congrArg (fun ev => SMap.get 0 ev n) (s.ev_modCtx f s.cur.1)

theorem State.putB_of_parcel (s : State) (d : BitVec 3) (a : Parcel) :
    s.putOpnd (.b d) (a.setWidth 64) = s.modCtx fun e => e.putB d.toNat a := by
  rw [State.putOpnd, BitVec.setWidth_setWidth_of_le a (by decide), BitVec.setWidth_eq]

/-- What an event counter holds once a count has been taken from it. -/
theorem State.event_takeEvent (s : State) {n c : Nat} (h : c ≤ (s.me.event n).toNat) :
    ((s.takeEvent n c).me.event n).toNat = (s.me.event n).toNat - c := by
  have hc : c < 2 ^ 16 := Nat.lt_of_le_of_lt h (s.me.event n).isLt
  have hof : (BitVec.ofNat 16 c).toNat = c := by rw [BitVec.toNat_ofNat, Nat.mod_eq_of_lt hc]
  rw [State.takeEvent, State.me_modMe]
  simp only [Cluster.event, SMap.get_put_same]
  rw [BitVec.toNat_sub_of_le (by rw [BitVec.le_def, hof]; exact h), hof]

theorem sameCourse_takeEvent (s : State) (n c : Nat) : Ctx.sameCourse s.ctx (s.takeEvent n c).ctx := sameCourse_modMe s _ rfl

/-- The module with a POST of the issuing context that its cycle's end will add. -/
def State.posted (s : State) (n c : Nat) : State :=
  ((s.modMe fun k => { k with posts := k.posts ++ [{ x := s.cur.2, n := n, count := c, nest := false }] }).modCtx fun e =>
    { e with phase := .post }).used

theorem State.posts_posted (s : State) (n c : Nat) :
    (s.posted n c).me.posts = s.me.posts ++ [{ x := s.cur.2, n := n, count := c, nest := false }] := by
  rw [State.posted, State.used, State.me_modMe, State.me_modCtx, State.me_modMe]
  rfl

theorem State.event_posted (s : State) (n c m : Nat) : (s.posted n c).me.event m = s.me.event m := by
  rw [State.posted, State.used, State.me_modMe, State.me_modCtx, State.me_modMe]
  rfl

section
variable {w : AForm} {n : Nat} {s : State} (hn : s.countOf w = .ok n)
include hn

theorem gives_await (hle : n ≤ (s.me.event (eventOf w)).toNat) (hs : Straight s 3) : Gives (.await w) s (s.takeEvent (eventOf w) n) := by
  refine gives_of_finish (i := .await w) rfl ?_ hs (sameCourse_takeEvent ..)
  simp only [hn, ok_bind, if_pos hle, pure_eq_ok]

theorem gives_awaitNb_takes (hle : n ≤ (s.me.event (eventOf w)).toNat) (hs : Straight s 3) :
    Gives (.awaitNb w) s ((s.takeEvent (eventOf w) n).putPred w.dst true) := by
  refine gives_of_finish (i := .awaitNb w) rfl ?_ hs ((sameCourse_takeEvent ..).trans (sameCourse_putOpnd _ _ _))
  simp only [hn, ok_bind, if_pos hle, pure_eq_ok]

theorem gives_awaitNb_lacks (hlt : ¬n ≤ (s.me.event (eventOf w)).toNat) (hs : Straight s 3) :
    Gives (.awaitNb w) s (s.putPred w.dst false) := by
  refine gives_of_finish (i := .awaitNb w) rfl ?_ hs (sameCourse_putOpnd ..)
  simp only [hn, ok_bind, if_neg hlt, pure_eq_ok]

end

end Sys2Proof.Machine

namespace Sys2Proof.Claims
open Sys2Proof.Machine

theorem nop_completes (w : AForm) (s : State) (hs : Straight s 3) : Gives (.nop w) s s :=
  gives_of_finish (i := .nop w) rfl rfl hs (Ctx.sameCourse_refl _)

theorem endI_arrives (w : AForm) (s : State) (hd : s.me.m.drop = [])
    (h : s.cur.2 ∈ [1, 3, 4] ∨ (s.cur.2 = 2 ∧ s.me.m.busy = false) ∨ (s.cur.2 = 0 ∧ s.me.allArrived = true)) :
    ∃ t, exec (.endI w) s = .next t ∧ t.ctx.run = .arrived := by
  refine ⟨_, (actEnd_of_no_drop hd).trans (endHere_of_ok (doEnd_arrives h)), ?_⟩
  rw [State.ctx_issuedWord, State.ctx_modCtx]
  rfl

theorem pbr_completes (w : CForm) (d : BitVec 3) (s : State) (hd : w.dst = .b d) (hs : Straight s 3) :
    ∃ t, exec (.pbr w) s = .next t ∧ OnlySequencing (s.modCtx fun e => e.putB d.toNat (s.ctx.pc + w.off.setWidth 32)) t ∧
      t.ctx.getB d.toNat = s.ctx.pc + w.off.setWidth 32 := by
  obtain ⟨t, ht, ho⟩ := gives_of_finish (i := .pbr w) rfl rfl hs (sameCourse_putOpnd s w.dst _)
  rw [hd, relTarget_eq, State.putB_of_parcel] at ho
  refine ⟨t, ht, ho, ?_⟩
  rw [ho.getB, State.ctx_modCtx, Ctx.getB_putB_same]

theorem lidx_completes (w : CForm) (d : BitVec 6) (e : LoopEnt) (s : State) (hd : w.dst = .s d) (he : s.ctx.loops[w.lv.toNat]? = some e)
    (hdst : s.dstS (.s d) = .ok ()) (hs : Straight s 3) :
    ∃ t, exec (.lidx w) s = .next t ∧ t.ctx.getS d.toNat = e.index.setWidth 64 ∧ t.mem = s.mem := by
  obtain ⟨t, ht, ho⟩ := gives_of_finish (i := .lidx w) (u := s.putOpnd (.s d) (e.index.setWidth 64)) rfl
    (by simp only [hd, hdst, he, ok_bind, pure_eq_ok]) hs (sameCourse_putOpnd ..)
  refine ⟨t, ht, ?_, ?_⟩
  · rw [ho.getS, State.ctx_putOpnd_s, Ctx.getS_putS_same]
  · rw [ho.mem, State.mem_putOpnd]

theorem post_completes (w : AForm) (n : Nat) (s : State) (hn : s.countOf w = .ok n) :
    ∃ t, exec (.post w) s = .next t ∧ t.me.posts = s.me.posts ++ [{ x := s.cur.2, n := eventOf w, count := n, nest := false }] ∧
      ((s.me.event (eventOf w)).toNat + n ≤ 65535 →
        (((t.postOne s.cur.1 { x := s.cur.2, n := eventOf w, count := n, nest := false }).cl s.cur.1).event (eventOf w)).toNat =
          (s.me.event (eventOf w)).toNat + n) := by
  obtain ⟨hposts, hadds, -⟩ := posts
  refine ⟨s.posted (eventOf w) n, hposts w s n hn, s.posts_posted .., fun hle => ?_⟩
  have hev : ((s.posted (eventOf w) n).cl s.cur.1).event (eventOf w) = s.me.event (eventOf w) := s.event_posted ..
  have hadd := hadds (s.posted (eventOf w) n) s.cur.1 { x := s.cur.2, n := eventOf w, count := n, nest := false } rfl (by rwa [hev])
  rw [hadd.1, hev]

theorem await_completes (w : AForm) (n : Nat) (s : State) (hn : s.countOf w = .ok n) (hle : n ≤ (s.me.event (eventOf w)).toNat)
    (hs : Straight s 3) : ∃ t, exec (.await w) s = .next t ∧ OnlySequencing (s.takeEvent (eventOf w) n) t ∧
      (t.me.event (eventOf w)).toNat = (s.me.event (eventOf w)).toNat - n := by
  obtain ⟨t, ht, ho⟩ := gives_await hn hle hs
  exact ⟨t, ht, ho, by rw [ho.event, State.event_takeEvent s hle]⟩

theorem awaitNb_completes (w : AForm) (n : Nat) (d : BitVec 3) (s : State) (hd : w.dst = .p d) (h0 : d ≠ 0) (hn : s.countOf w = .ok n)
    (hs : Straight s 3) : ∃ t, exec (.awaitNb w) s = .next t ∧ t.ctx.getP d.toNat = decide (n ≤ (s.me.event (eventOf w)).toNat) ∧
      (t.me.event (eventOf w)).toNat =
        (if n ≤ (s.me.event (eventOf w)).toNat then (s.me.event (eventOf w)).toNat - n else (s.me.event (eventOf w)).toNat) := by
  have hget (e : Ctx) (v : Bool) : (e.putP d.toNat v).getP d.toNat = v := by rw [Ctx.getP_putP e v h0 d.isLt, if_pos rfl]
  by_cases hle : n ≤ (s.me.event (eventOf w)).toNat
  · obtain ⟨t, ht, ho⟩ := gives_awaitNb_takes hn hle hs
    rw [hd, State.putPred_p] at ho
    refine ⟨t, ht, ?_, ?_⟩
    · rw [ho.getP, State.ctx_modCtx, hget, decide_eq_true hle]
    · rw [ho.event, State.event_me_modCtx, State.event_takeEvent s hle, if_pos hle]
  · obtain ⟨t, ht, ho⟩ := gives_awaitNb_lacks hn hle hs
    rw [hd, State.putPred_p] at ho
    refine ⟨t, ht, ?_, ?_⟩
    · rw [ho.getP, State.ctx_modCtx, hget, decide_eq_false hle]
    · rw [ho.event, State.event_me_modCtx, if_neg hle]

theorem wseg_completes (w : AForm) (r : Word) (d : BitVec 3) (s : State) (hd : w.dst = .p d) (_ : d ≠ 0)
    (hr : s.srcSOr w.sa 2 (ftBit w 2) 0xFFFFFFFF = .ok r) (hk : s.keyCheck s.cur.1 w.imm (r.setWidth 32) = .hit) (hs : Straight s 3) :
    ∃ t, exec (.wseg w) s = .next t ∧ OnlySequencing (s.modCtx fun e => e.putP d.toNat true) t ∧ t.ctx.getP d.toNat = true := by
  have he : exec (.wseg w) s = finish s 3 (.ok (s.putPred (.p d) true)) := by
    change execWseg w s = _
    simp only [execWseg, hr, hk, hd]
  obtain ⟨t, ht, ho, hp, -⟩ := writes_predicate he rfl hs
  exact ⟨t, ht, ho, by rw [hp, Bool.or_true]⟩

end Sys2Proof.Claims
end

section
/-! PROOFS. MGO, MGO.grp, KVAPP and KVAPP.beam complete (17 R260, 19 R286): towards O60. -/

namespace Sys2Proof.Claims
open Sys2Proof.Machine

/-- The module once an MGO has queued its nest. -/
def queued (s : State) (w : AForm) (grp : Bool) : State :=
  { s with seq := s.seq + 1 }.modM s.cur.1 fun q => { q with nests := q.nests ++ [nestOf s w grp] }

theorem nests_queued (s : State) (w : AForm) (grp : Bool) : (queued s w grp).me.m.nests = s.me.m.nests ++ [nestOf s w grp] :=
  congrArg (fun k : Cluster => k.m.nests) (State.cl_modCl_same { s with seq := s.seq + 1 } s.cur.1 _)

theorem sameCourse_queued (s : State) (w : AForm) (grp : Bool) : Ctx.sameCourse s.ctx (queued s w grp).ctx :=
  sameCourse_modMe { s with seq := s.seq + 1 } (fun k => { k with m := { k.m with nests := k.m.nests ++ [nestOf s w grp] } }) rfl

section
variable {w : AForm} {s : State} {grp : Bool}

theorem mgo_queues (hlen : s.me.m.nests.length < 4) (hc : nestChecks s grp = .ok ()) (hr : s.mReads s.cur.1 = true)
    (hk : ∀ g t, (nestOf s w grp).gen = some g → s.taskOn s.cur.1 = some t → recKeyed t.rcd = true → t.isHolder g = true) :
    s.mgo w grp = finish s 3 (.ok (queued s w grp)) := by
  have hroom : waitIf (decide (4 ≤ s.me.m.nests.length)) = .ok () := waitIf_ok (decide_eq_false (Nat.not_le.2 hlen))
  have hacc : s.mAccepts s.me.m.set = .ok () := if_pos hr
  unfold nestChecks at hc
  change ∀ g t, (if s.me.m.set.scr then none else s.genNow (dieOf s.cur.1)) = some g → _ at hk
  simp only [State.mgo, hroom, hc, ok_bind]
  split
  next g hmiss hgen =>
    split at hmiss
    next g' t hg ht =>
      obtain ⟨hkeyed, hno⟩ := Bool.and_eq_true_iff.1 hmiss
      rw [hk g' t hg ht hkeyed] at hno
      exact nomatch hno
    next => exact nomatch hmiss
  next =>
    rw [hacc]
    rfl

end

theorem exec_mgo (w : AForm) (s : State) (grp : Bool) : exec (if grp then .mgoGrp w else .mgo w) s = s.mgo w grp := by
  cases grp <;> rfl

theorem exec_kvapp (w : AForm) (s : State) (beam : Bool) : exec (if beam then .kvappBeam w else .kvapp w) s = s.kvapp w beam := by
  cases beam <;> rfl

theorem mgo_completes (w : AForm) (s : State) (grp : Bool) (i : Instr) (hi : i = (if grp then .mgoGrp w else .mgo w))
    (hlen : s.me.m.nests.length < 4) (hc : nestChecks s grp = .ok ()) (hr : s.mReads s.cur.1 = true)
    (hk : ∀ g t, (nestOf s w grp).gen = some g → s.taskOn s.cur.1 = some t → recKeyed t.rcd = true → t.isHolder g = true) (hs : Straight s 3) :
    ∃ t, exec i s = .next t ∧ t.me.m.nests = s.me.m.nests ++ [nestOf s w grp] ∧ t.mem = s.mem := by
  subst hi
  obtain ⟨t, ht, ho⟩ := gives_of_finish ((exec_mgo w s grp).trans (mgo_queues hlen hc hr hk)) rfl hs (sameCourse_queued s w grp)
  exact ⟨t, ht, by rw [ho.m, nests_queued], ho.mem⟩

/-! ### KVAPP -/

theorem appendOf_has {w : AForm} {s t : State} {beam : Bool} {r : Append} (h : appendHas s t w beam r) : s.appendOf w beam = .ok (r, t) := by
  rcases h with ⟨hp, hr⟩ | ⟨hp, rfl⟩
  · simp only [State.appendOf, hp, hr]
  · simp only [State.appendOf, hp]

/-- A KVAPP that is done completes with its predicate. -/
theorem kvapp_done {w : AForm} {s t u : State} {beam ok : Bool} {r : Append} (h : appendHas s t w beam r)
    (hd : t.appendNow t.me.a r = .ok (.done u ok)) : s.kvapp w beam = .next (((u.putPred w.dst ok).inPhase .body).complete 3) := by
  simp only [State.kvapp, appendOf_has h, hd]

theorem kvapp_completes (w : AForm) (s t u : State) (beam : Bool) (r : Append) (i : Instr) (ok : Bool)
    (hi : i = (if beam then .kvappBeam w else .kvapp w)) (h : appendHas s t w beam r) (hd : t.appendNow t.me.a r = .ok (.done u ok))
    (hs : Straight u 3) : ∃ v, exec i s = .next v ∧ OnlySequencing (u.putOpnd w.dst (if ok then 1 else 0)) v := by
  subst hi
  refine ⟨_, (exec_kvapp w s beam).trans (kvapp_done h hd), ?_⟩
  have hcourse : Ctx.sameCourse u.ctx ((u.putPred w.dst ok).inPhase .body).ctx := by
    rw [State.inPhase, State.ctx_modCtx]
    exact (sameCourse_putOpnd u w.dst _).trans (Ctx.sameCourse_refl _)
  exact (OnlySequencing.modCtx _ _ rfl).trans (OnlySequencing.complete (hs.of_same hcourse))

/-- R143 to R154, 03 R36, R169, 17 R260, 19 R286. -/
theorem wordsComplete : WordsComplete :=
  ⟨nop_completes, endI_arrives, pbr_completes, lidx_completes, post_completes, await_completes, awaitNb_completes, wseg_completes, trapWord,
    fun _ _ _ _ hv hi hp hs => gives_gwait hv hi hp hs, mgo_completes, kvapp_completes⟩

end Sys2Proof.Claims
end

section
/-! PROOFS. The steps of nests, rows, accesses, messages, tier moves and repairs complete (03 R36, 13 R182, R205, 17 R261 to R267, 23 R326,
25 R341, 29 R372): towards O60. -/

namespace Sys2Proof.Machine

/-! ### Nests and rows (17 R251, R261, R263, R266 to R268) -/

section
variable {c : Nat} {s : State} {n : Nest} {ns : List Nest} (hn : (s.cl c).m.nests = n :: ns)
include hn

theorem exec_nestStart (hr : n.running = false) (hc : n.cyc < s.cycle.toNat)
    (hv : ∀ v ∈ (s.cl c).m.movers, v.bank = n.bank → n.id ≤ v.id) : exec (.nestStart c) s = .next (s.modM c fun m =>
      { m with nests := m.nests.map fun y => if y.id = n.id then { y with running := true } else y }) := by
  have hany : ((s.cl c).m.movers.any fun v => v.bank == n.bank && decide (v.id < n.id)) = false := by
    refine List.any_eq_false.2 fun v hm hb => ?_
    obtain ⟨hbank, hid⟩ := Bool.and_eq_true_iff.1 hb
    exact absurd (of_decide_eq_true hid) (Nat.not_lt.2 (hv v hm (beq_iff_eq.1 hbank)))
  change execNestStart c s = _
  simp only [execNestStart, hn, hr, decide_eq_false (Nat.not_le.2 hc), hany, Bool.or_self, Bool.false_eq_true, if_false]

theorem exec_nestStep (hr : n.running = true) (hlt : n.step < n.total) (hh : s.mHold c n.cyc = false) (hg : n.gen = none) :
    exec (.nestStep c) s = .next (s.runStep c n) := by
  have hstep : (s.cl c).stepping = some n := by
    simp only [Cluster.stepping, hn, hr, decide_eq_true hlt, Bool.and_self, if_true]
  change execNestStep c s = _
  simp only [execNestStep, hstep, hh, hg, Bool.false_eq_true, if_false]

theorem exec_nestEnd (hr : n.running = true) (hle : n.total ≤ n.step) : exec (.nestEnd c) s = .next (s.modM c fun m => m.endNest n) := by
  change execNestEnd c s = _
  simp only [execNestEnd, hn, hr, decide_eq_true hle, Bool.and_self, if_true]

/-- The head nest runs once NEST_START has started it. -/
theorem head_started : ((s.modM c fun m => { m with nests := m.nests.map fun y => if y.id = n.id then { y with running := true } else y }).cl
    c).m.nests.head? = some { n with running := true } := by
  rw [State.modM, State.cl_modCl_same, hn]
  exact congrArg some (if_pos rfl)

end

theorem exec_rowLands {c : Nat} {s : State} {v : Mover} {vs : List Mover} (hv : (s.cl c).m.movers = v :: vs)
    (hd : v.cyc + 1 + v.done ≤ s.cycle.toNat) :
    exec (.mdrainRowLands c) s = .next (s.modCl c fun k => k.moveRow v (s.cycle.toNat + 1)) := by
  have hdue : (s.cl c).dueMover s.cycle.toNat = some v := by
    rw [Cluster.dueMover, hv]
    exact List.find?_cons_of_pos (decide_eq_true hd)
  change execMdrainRowLands c s = _
  simp only [execMdrainRowLands, hdue]

/-! ### Accesses and messages (13 R182, R205, R206) -/

section
variable {c x : Nat} {far : FarMap} {s : State} {a : Access} {undo : List (Opnd × Option Hold)} {pops : List Opnd}

/-- A transfer whose ways are whole lies behind no dead link. -/
theorem accessDead_of_plain (ho : Claims.plainOp a.op = true) (hw : ∀ p ∈ a.pieces ++ a.sources, s.deadPath c p.pa = false) :
    s.accessDead c a = false := by
  have hpart : s.deadPart c a = none := List.find?_eq_none.2 fun p hp => by rw [hw p hp]; exact Bool.false_ne_true
  rw [State.accessDead, hpart]
  cases hop : a.op
  case msg => rw [hop] at ho; exact nomatch ho
  all_goals rfl

/-- An access all of whose pieces lie in this module is answered here. -/
theorem farFail_of_near (hw : ∀ p ∈ a.pieces ++ a.sources, s.isFar p.pa = false) : s.farFail c far a = (s, some a) := by
  have hnone : ((a.pieces ++ a.sources).find? fun p => s.farNone far p.pa) = none :=
    List.find?_eq_none.2 fun p hp => by rw [State.farNone, hw p hp]; exact Bool.false_ne_true
  rw [State.farFail, hnone]

theorem exec_accessAccepted (hp : ((s.cl c).cx x).phase = .accept [a] false undo pops) (ho : Claims.plainOp a.op = true)
    (hf : a.fail ≠ some .deadlink) (hw : ∀ p ∈ a.pieces ++ a.sources, s.deadPath c p.pa = false ∧ s.isFar p.pa = false)
    (hro : s.roAt [a] far = none) (href : s.refusedAt c x [a] far = none) :
    exec (.accessAccepted c x far) s = .next (s.enterQueue c x [a] pops) := by
  have hdead : ([a].any fun a => s.accessDead c a || a.fail == some .deadlink) = false := by
    rw [List.any_cons, accessDead_of_plain ho fun p hp => (hw p hp).1, beq_false_of_ne hf]
    rfl
  have htrap : s.acceptTrap c x [a] far = none := by
    rw [State.acceptTrap, hro, href]
    rfl
  have hfold : foldAcc (fun s a => s.farFail c far a) s [a] = (s, [a]) := by
    rw [foldAcc, farFail_of_near fun p hp => (hw p hp).2]
    rfl
  change execAccessAccepted c x far s = _
  simp only [execAccessAccepted, hp, hdead, List.head?_cons, Option.map_some, Bool.false_eq_true, if_false]
  split
  next _ _ _ _ _ hop => rw [Option.some.inj hop] at ho; exact nomatch ho
  next _ _ _ hop => rw [Option.some.inj hop] at ho; exact nomatch ho
  next _ _ _ hop => rw [Option.some.inj hop] at ho; exact nomatch ho
  next => simp only [htrap, hfold]

end

/-- A message that a free slot of its target takes, where nothing refuses it. -/
theorem exec_messageArrival {c cl : Nat} {far : MsgAns} {g : Bool} {s t : State} {a : Access} {p : BitVec 3} {q : List Byte} {hnd : Parcel}
    {undo : List (Opnd × Option Hold)} {pops : List Opnd} (hp : ((s.cl c).cx 4).phase = .accept [a] g undo pops)
    (hop : a.op = .msg p q s.hub.modNo cl hnd) (hd : s.accessDead c a = false) (hf : a.fail ≠ some .deadlink) (hm : s.mayPerform c a = true)
    (href : s.refusedAt c 4 [a] far.payload = none) (hb : ∀ r ∈ a.pieces, s.badAt r.pa r.len = false ∧ s.farNone far.payload r.pa = false)
    (hro : s.slotRo cl = false) (hperm : s.permits (dieOf cl) (masterOf c 4) &&& bitM ≠ 0)
    (hwhole : s.slotWhole cl (a.pieces.flatMap fun q => s.bytes q.pa q.len) = true)
    (hdel : s.deliver cl (a.pieces.flatMap fun q => s.bytes q.pa q.len) (BitVec.ofNat 22 (s.hub.modNo.toNat * 2 ^ 16 + masterOf c 4)) a.asid hnd =
      some t) :
    exec (.messageArrival c far) s = .next (((t.msgSync c a cl).modCx c 4 fun e => e.putP p.toNat true).finishWord c 4 3) := by
  have hgo : (s.accessDead c a || a.fail == some .deadlink || !s.mayPerform c a) = false := by
    rw [hd, hm, beq_false_of_ne hf]
    rfl
  have hfind : (a.pieces.find? fun q => s.badAt q.pa q.len || s.farNone far.payload q.pa) = none :=
    List.find?_eq_none.2 fun r hr => by rw [(hb r hr).1, (hb r hr).2]; exact Bool.false_ne_true
  change execMessageArrival c far s = _
  simp only [execMessageArrival, hp, hop, hgo, href, hfind, ne_eq, not_true_eq_false, if_false, hperm, hro, hwhole, hdel, Bool.false_eq_true,
    if_true]

/-! ### Tier moves (25 R341) -/

section
variable {a : ADie} {i now : Nat}

@[simp] theorem ADie.descOf_setPool (a : ADie) (t : Nat) (p : Pool) (i : Nat) : (a.setPool t p).descOf i = a.descOf i := by
  unfold ADie.setPool
  split <;> rfl

@[simp] theorem ADie.moves_setPool (a : ADie) (t : Nat) (p : Pool) : (a.setPool t p).moves = a.moves := by
  unfold ADie.setPool
  split <;> rfl

/-- A page that is counted stays. -/
theorem ADie.settle_of_refc (h : (a.descOf i).refc ≠ 0) : a.settle i now = a := if_neg fun hz => h hz.1

/-- The copy engine goes on with the next move: what the moves are is left. -/
theorem ADie.atRest_goOn (a : ADie) (b : Bool) : Claims.atRest (a.goOn b).moves = Claims.atRest a.moves := by
  unfold ADie.goOn
  split
  next m ms h => rw [h]; rfl
  next h => rfl

@[simp] theorem ADie.descOf_goOn (a : ADie) (b : Bool) (i : Nat) : (a.goOn b).descOf i = a.descOf i := by
  unfold ADie.goOn
  split <;> rfl

/-- An A-die at the end of a move, the first of its copy engine's: the page has its frame and its tier, and the old frame is back. -/
def ADie.endMove (a : ADie) (m : Move) (ms : List Move) (now : Nat) : ADie :=
  let b : ADie := { (a.modDesc m.page fun d => { d with addr := m.frame, tier := if m.toIn then 0 else 1, out := false, rev := false }) with
    moves := ms }
  (b.setPool (if m.toIn then 1 else 0) ((b.pool (if m.toIn then 1 else 0)).give (a.descOf m.page).addr now)).settle m.page now

theorem ADie.endMove_spec (a : ADie) (m : Move) (ms : List Move) (now : Nat) (h : (a.descOf m.page).refc ≠ 0) :
    (a.endMove m ms now).moves = ms ∧ (a.endMove m ms now).descOf m.page =
      { a.descOf m.page with addr := m.frame, tier := if m.toIn then 0 else 1, out := false, rev := false } := by
  have hdesc (t : Nat) (p : Pool) : (({ (a.modDesc m.page fun d => { d with
      addr := m.frame, tier := if m.toIn then 0 else 1, out := false, rev := false }) with moves := ms } : ADie).setPool t p).descOf m.page =
      { a.descOf m.page with addr := m.frame, tier := if m.toIn then 0 else 1, out := false, rev := false } :=
    (ADie.descOf_setPool ..).trans (SMap.get_put_same ..)
  unfold ADie.endMove
  dsimp only
  rw [ADie.settle_of_refc (by rw [hdesc]; exact h)]
  exact ⟨ADie.moves_setPool .., hdesc _ _⟩

end

/-- The module once A-die n's copy engine has made its first move, for which nobody waits. -/
def State.moveEnded (s : State) (n : Nat) (m : Move) (ms : List Move) : State :=
  ((s.copyPage ((s.adie n).descOf m.page).addr.toNat m.frame.toNat (s.adie n).pageSize).modADie n fun _ =>
    (s.adie n).endMove m ms s.seq).modADie n fun a => a.goOn (s.copyFrozen n)

theorem State.adie_moveEnded (s : State) (n : Nat) (m : Move) (ms : List Move) :
    (s.moveEnded n m ms).adie n = ((s.adie n).endMove m ms s.seq).goOn (s.copyFrozen n) := by
  rw [State.moveEnded, State.adie_modADie_same, State.adie_modADie_same]

theorem exec_tierMoveEnd {n : Nat} {s : State} {m : Move} {ms : List Move} (hms : (s.adie n).moves = m :: ms) (hq : m.reqs = [])
    (hr : m.rev = []) (hstill : m.still = false) (hgo : m.going = true) (hheld : s.dieHeld (8 + n) = false)
    (href : s.moveRefused n ((s.adie n).descOf m.page).addr.toNat m.frame.toNat = none) :
    exec (.tierMoveEnd n) s = .next (s.moveEnded n m ms) := by
  change execTierMoveEnd n s = _
  simp only [execTierMoveEnd, hms, hgo, hheld, hstill, href, hq, hr, Bool.not_true, Bool.or_self, Bool.false_eq_true, if_false]
  rfl

/-! ### Losses and repairs (23 R326, R327) -/

theorem exec_heartbeatTimeout {d lost : Nat} {s : State} (hr : Claims.RingRuns s d) (hne : d ≠ lost)
    (ht : (s.ring d).since + (s.ring d).hbto.toNat ≤ (s.ring d).ticks) (hs : s.succHere d = some lost) :
    exec (.heartbeatTimeout d lost) s = .next (s.repair lost 1) := by
  obtain ⟨hd, -, -, hon⟩ := hr
  have hlost : lost < 256 := by
    unfold State.succHere at hs
    split at hs
    next => rw [← Option.some.inj hs]; exact Nat.lt_of_lt_of_le (BitVec.isLt _) (by decide)
    next => exact nomatch hs
  have hnb : s.neighbours d lost = true := by
    rw [State.neighbours, if_pos hlost, hs, bne_iff_ne.2 hne, beq_self_eq_true]
    rfl
  have hall : (decide (d < 8) && s.ringOn d && decide ((s.ring d).since + (s.ring d).hbto.toNat ≤ (s.ring d).ticks) &&
      s.neighbours d lost) = true := by
    rw [decide_eq_true hd, hon, decide_eq_true ht, hnb]
    rfl
  change execHeartbeatTimeout d lost s = _
  rw [execHeartbeatTimeout, if_pos hall, if_pos hlost]

/-- What a die's ring part is once the repairs of a list of dies are over. -/
theorem State.ring_foldl_repaired (l : List Nat) (s : State) (d : Nat) :
    ((l.foldl (fun s e => s.modRing e fun r => { r with repairing := false }) s).ring d).repairing =
      if d ∈ l then false else (s.ring d).repairing := by
  induction l generalizing s with
  | nil => rfl
  | cons e l ih =>
    rw [List.foldl_cons, ih]
    by_cases hl : d ∈ l
    · rw [if_pos hl, if_pos (List.mem_cons_of_mem e hl)]
    · by_cases he : d = e
      · subst he
        rw [if_neg hl, if_pos (List.mem_cons_self ..), State.ring_modRing_same]
      · rw [if_neg hl, if_neg (List.not_mem_cons_of_ne_of_not_mem he hl), State.ring_modRing_ne _ _ he]

end Sys2Proof.Machine
end

section
/-! PROOFS. Where the words and the steps of the sequencer complete: O60. -/

namespace Sys2Proof.Claims
open Sys2Proof.Machine

/-! ### Headers and sections (03 R34, R35, 09 R118, 23 R324) -/

section
variable {c x : Nat} {s : State} {h : Header} {f : Parcel}

theorem headerReached_completes (hi : s.mayIssue c x = true) (hp : ((s.cl c).cx x).phase = .header) (hk : h.key = none)
    (hr : ({ s with cur := (c, x) } : State).readHeader c x ((s.cl c).cx x).pc = .sect h f) :
    ∃ t, exec (.headerReached c x) s = .next t ∧ ((t.cl c).cx x).phase = .start h f .free ∧ t.mem = s.mem := by
  refine ⟨_, headerReached_free hi hp hr hk, ?_, rfl⟩
  rw [cx_used]
  exact congrArg Ctx.phase (State.cx_modCx_same ..)

theorem sectionStart_completes (hi : s.mayIssue c x = true) (hs : s.mayStart c x h = true)
    (hp : ((s.cl c).cx x).phase = .start h f .free) :
    ∃ t, exec (.sectionStart c x) s = .next t ∧ ((t.cl c).cx x) = ((s.cl c).cx x).startSection h f none ∧ t.mem = s.mem := by
  obtain ⟨hstart, -, -⟩ := sectionsRun
  exact ⟨_, (hstart c x s h f hi hs).1 hp, State.cx_modCx_same .., rfl⟩

theorem segmentKeyHit_completes {tag : BitVec 24} {rot : BitVec 32} {miss : Nat} (hp : ((s.cl c).cx x).phase = .start h f .waits)
    (hi : s.mayIssue c x = true) (hs : s.mayStart c x h = true) (hk : h.key = some (tag, rot, miss))
    (hc : ({ s with cur := (c, x) } : State).keyCheck c tag rot = .hit) :
    ∃ t, exec (.segmentKeyHit c x) s = .next t ∧ ((t.cl c).cx x) = ((s.cl c).cx x).startSection h f (some true) ∧ t.mem = s.mem := by
  obtain ⟨-, hkey, -⟩ := sectionsRun
  exact ⟨_, (hkey c x s h f .waits tag rot miss hp (.inl rfl) hi hk hs).1 hc, State.cx_modCx_same .., rfl⟩

theorem sectionRetire_completes {n : Nat} {ns : List Nat} (ho : ((s.cl c).cx x).openSecs = n :: ns)
    (hn : (s.cl c).sectionOpen x n = false) :
    ∃ t, exec (.sectionRetire c x) s = .next t ∧ ((t.cl c).cx x).openSecs = ns ∧ ((t.cl c).cx x).last = some n ∧ t.mem = s.mem := by
  obtain ⟨-, -, hretire⟩ := sectionsRun
  refine ⟨_, hretire c x n ns s ho hn, ?_, ?_, rfl⟩
  · rw [State.cx_modCx_same]
  · rw [State.cx_modCx_same]

end

/-! ### Nests, moves, repairs -/

theorem nestSteps_complete (c : Nat) (s : State) (n : Nest) (ns : List Nest) (hn : (s.cl c).m.nests = n :: ns) :
    (n.running = false → n.cyc < s.cycle.toNat → (∀ v ∈ (s.cl c).m.movers, v.bank = n.bank → n.id ≤ v.id) →
      ∃ t, exec (.nestStart c) s = .next t ∧ (t.cl c).m.nests.head? = some { n with running := true }) ∧
    (n.running = true → n.step < n.total → s.mHold c n.cyc = false → n.gen = none → exec (.nestStep c) s = .next (s.runStep c n)) ∧
    (n.running = true → n.total ≤ n.step → exec (.nestEnd c) s = .next (s.modM c fun m => m.endNest n)) :=
  ⟨fun hr hc hv => ⟨_, exec_nestStart hn hr hc hv, head_started hn⟩, exec_nestStep hn, exec_nestEnd hn⟩

theorem tierMoveEnd_completes (n : Nat) (s : State) (m : Move) (ms : List Move) (hms : (s.adie n).moves = m :: ms) (hq : m.reqs = [])
    (hr : m.rev = []) (hstill : m.still = false) (hgo : m.going = true) (hheld : s.dieHeld (8 + n) = false)
    (href : s.moveRefused n ((s.adie n).descOf m.page).addr.toNat m.frame.toNat = none) (_ : ((s.adie n).descOf m.page).free = false)
    (hc : ((s.adie n).descOf m.page).refc ≠ 0) :
    ∃ t, exec (.tierMoveEnd n) s = .next t ∧ atRest (t.adie n).moves = atRest ms ∧ ((t.adie n).descOf m.page).addr = m.frame ∧
      ((t.adie n).descOf m.page).tier = (if m.toIn then 0 else 1) := by
  obtain ⟨hmoves, hdesc⟩ := (s.adie n).endMove_spec m ms s.seq hc
  refine ⟨_, exec_tierMoveEnd hms hq hr hstill hgo hheld href, ?_, ?_, ?_⟩
  · rw [State.adie_moveEnded, ADie.atRest_goOn, hmoves]
  · rw [State.adie_moveEnded, ADie.descOf_goOn, hdesc]
  · rw [State.adie_moveEnded, ADie.descOf_goOn, hdesc]

theorem repairComplete_completes (d : Nat) (s : State) (hd : d < 8) (hr : (s.ring d).repairing = true)
    (hl : ∀ e, e < 8 → s.partOf e = s.partOf d → (s.ring e).lost = []) :
    ∃ t, exec (.repairComplete d) s = .next t ∧ (t.ring d).repairing = false ∧ t.mem = s.mem := by
  have hmem {e : Nat} : e ∈ (List.range 8).filter (fun e => s.partOf e == s.partOf d) ↔ e < 8 ∧ s.partOf e = s.partOf d := by
    rw [List.mem_filter, List.mem_range, beq_iff_eq]
  have hall : (((List.range 8).filter fun e => s.partOf e == s.partOf d).all fun e => (s.ring e).lost.isEmpty) = true := by
    refine List.all_eq_true.2 fun e he => ?_
    obtain ⟨he8, hpart⟩ := hmem.1 he
    rw [hl e he8 hpart]
    rfl
  have hgo : (decide (d < 8) && (s.ring d).repairing &&
      ((List.range 8).filter fun e => s.partOf e == s.partOf d).all fun e => (s.ring e).lost.isEmpty) = true := by
    rw [decide_eq_true hd, hr, hall]
    rfl
  refine ⟨_, if_pos hgo, ?_, State.mem_foldl_modRing ..⟩
  rw [State.ring_foldl_repaired, if_pos (hmem.2 ⟨hd, rfl⟩)]

/-- 03 R34, R35, 09 R118, 13 R182, R205, R206, 17 R261, R263, R267, 23 R326, 25 R341, 29 R372, R377. -/
theorem stepsComplete : StepsComplete :=
  ⟨fun _ _ _ _ _ => headerReached_completes, fun _ _ _ _ _ => sectionStart_completes,
    fun _ _ _ _ _ _ _ _ => segmentKeyHit_completes, fun _ _ _ _ _ => sectionRetire_completes, nestSteps_complete,
    fun _ _ _ _ => exec_rowLands, fun _ _ _ _ _ _ _ => exec_accessAccepted, fun _ _ _ _ _ _ _ _ _ _ _ _ => exec_messageArrival,
    tierMoveEnd_completes, fun _ _ _ => exec_heartbeatTimeout, fun _ _ => rfl, repairComplete_completes⟩

/-- Settles O60: wordsComplete has a lemma for each word, stepsComplete one for each step. -/
theorem wordsAndStepsComplete : Obligations.WordsAndStepsComplete := by
  unfold Obligations.WordsAndStepsComplete
  exact ⟨wordsComplete, stepsComplete⟩

end Sys2Proof.Claims
end

section
/-! PROOFS. Handler contexts start for the message or the trap that waits (13 R206, 29 R368): O19. -/

namespace Sys2Proof.Machine

/-- Two changes of a cluster that agree on it. -/
theorem State.modCl_congr {s : State} {c : Nat} {f g : Cluster → Cluster} (h : f (s.cl c) = g (s.cl c)) : s.modCl c f = s.modCl c g := by
  rw [State.modCl, h, ← State.modCl]

/-- The registers that a handler context starts with. -/
theorem handlerCtx_getS (pc : Parcel) (h : Hnd) {regs : List Word} {m : SMap Word} (hm : regs.zipIdx.map (fun r => (r.2, r.1)) = m)
    (hs : m.Pairwise fun a b => a.1 < b.1) (n : Nat) : (handlerCtx pc h regs).getS n = SMap.get 0 m n := by
  subst hm
  exact SMap.get_filter_ne_default 0 _ n hs

/-- TVEC does not depend on which traps wait (29 R368). -/
theorem State.tvec_dropTrap (s : State) (c : Nat) (gs : List Nat) : (s.modCl c fun k => { k with traps := gs }).tvec c = s.tvec c := by
  have hcl : (s.modCl c fun k => { k with traps := gs }).cl c = { s.cl c with traps := gs } := s.cl_modCl_same c _
  have hfetch (va : Nat) : (s.modCl c fun k => { k with traps := gs }).fetch32 c 0 va = s.fetch32 c 0 va := by
    unfold State.fetch32
    rw [hcl]
    rfl
  simp only [State.tvec, State.tvecWord, hcl, hfetch]

end Sys2Proof.Machine

namespace Sys2Proof.Claims
open Sys2Proof.Machine

/-- The context that a message's handler starts as (13 R206). -/
def arrivalCtx (n : Nat) (m : Slot) : Ctx :=
  handlerCtx m.hnd { slot := some n, eng := none, asid := m.asid, still := false }
    [BitVec.ofNat 64 (0xFF000000000000 + slotOff n), BitVec.ofNat 64 m.len, m.src.setWidth 64, m.asid.setWidth 64]

theorem arrivalCtx_getS (n : Nat) (m : Slot) (i : Nat) : (arrivalCtx n m).getS i = SMap.get 0 [(0, BitVec.ofNat 64 (0xFF000000000000 + slotOff n)),
    (1, BitVec.ofNat 64 m.len), (2, m.src.setWidth 64), (3, m.asid.setWidth 64)] i := handlerCtx_getS _ _ rfl (by simp) i

theorem arrivalHandlerStart_eq {c n : Nat} {s : State} {m : Slot} (hs : (s.cl c).slots = [(n, m)]) (hm : m.started = false)
    (hd : (s.cl c).dormant 5 = true) (ht : (s.cl c).traps = [] ∨ (s.cl c).dormant 6 = true) (hr : s.handlersRun c = true) :
    exec (.arrivalHandlerStart c) s = .next (s.modCl c fun k =>
      { k.setCx 5 (arrivalCtx n m) with slots := SMap.set k.slots n { m with started := true } }) := by
  have hfirst : (!(s.cl c).traps.isEmpty && !((s.cl c).dormant 5 && (s.cl c).dormant 6)) = false := by
    rcases ht with ht | ht
    · rw [ht]; rfl
    · rw [hd, ht, Bool.and_self, Bool.not_true, Bool.and_false]
  have hgo : (!s.handlersRun c || !(s.cl c).traps.isEmpty && !((s.cl c).dormant 5 && (s.cl c).dormant 6)) = false := by
    rw [hr, hfirst]; rfl
  change execArrivalHandlerStart c s = _
  simp only [execArrivalHandlerStart, hs, hm, List.filter_cons, List.filter_nil, Bool.not_false, if_true, List.foldl_cons, List.foldl_nil, hgo,
    Bool.false_eq_true, if_false, if_pos hd]
  rfl

/-- The context that a task's trap handler starts as, for engine g (29 R368). -/
def trapHandlerCtx (k : Cluster) (g : Nat) (pc : Parcel) : Ctx :=
  handlerCtx pc { slot := none, eng := some g, asid := recAsid k.rec0, still := true }
    [recParam k.rec0, BitVec.ofNat 64 g, (k.cx g).cause.setWidth 64, (k.cx g).tpc.setWidth 64, (k.cx g).tinfo]

theorem trapHandlerCtx_getS (k : Cluster) (g : Nat) (pc : Parcel) (i : Nat) : (trapHandlerCtx k g pc).getS i = SMap.get 0 [(0, recParam k.rec0),
    (1, BitVec.ofNat 64 g), (2, (k.cx g).cause.setWidth 64), (3, (k.cx g).tpc.setWidth 64), (4, (k.cx g).tinfo)] i :=
  handlerCtx_getS _ _ rfl (by simp) i

theorem taskTrapHandlerStart_eq {c g : Nat} {gs : List Nat} {s : State} {pc : Parcel} (hd : (s.cl c).dormant 6 = true)
    (ht : (s.cl c).traps = g :: gs) (hr : s.handlersRun c = true) (hv : s.tvec c = some pc) :
    exec (.taskTrapHandlerStart c) s = .next (s.modCl c fun k => ({ k with traps := gs } : Cluster).setCx 6 (trapHandlerCtx k g pc)) := by
  change execTaskTrapHandlerStart c s = _
  simp only [execTaskTrapHandlerStart, hd, if_true, ht, hr, Bool.not_true, Bool.false_eq_true, if_false, State.tvec_dropTrap, hv,
    State.modCl_modCl]
  exact congrArg _ (State.modCl_congr rfl)

/-- Settles O19: each start is one change of the cluster, which puts the handler's context in place. -/
theorem handlersStart : Obligations.HandlersStart := by
  unfold Obligations.HandlersStart
  refine ⟨fun c n s m hs hm hd ht hr => ⟨_, arrivalHandlerStart_eq hs hm hd ht hr, ?_⟩,
    fun c g gs s pc hd ht hr hv => ⟨_, taskTrapHandlerStart_eq hd ht hr hv, ?_⟩⟩
  · have hcx : ({ (s.cl c).setCx 5 (arrivalCtx n m) with slots := SMap.set (s.cl c).slots n { m with started := true } } : Cluster).cx 5 =
        arrivalCtx n m := Cluster.cx_setCx_same ..
    dsimp only
    rw [State.cl_modCl_same, Cluster.asid, hcx]
    have haddr : (arrivalCtx n m).getS 0 = BitVec.ofNat 64 (0xFF000000000000 + 0x3F0000 + n * 0x1000) := by
      rw [arrivalCtx_getS, Nat.add_assoc]
      rfl
    exact ⟨rfl, rfl, rfl, haddr, arrivalCtx_getS n m 1, arrivalCtx_getS n m 2, arrivalCtx_getS n m 3, rfl, rfl,
      fun x hx => Cluster.cx_setCx_ne _ _ hx, fun j hj => State.cl_modCl_ne _ _ hj⟩
  · have hs := trapHandlerCtx_getS (s.cl c) g pc
    dsimp only
    rw [State.cl_modCl_same, Cluster.cx_setCx_same]
    exact ⟨rfl, rfl, rfl, hs 0, hs 1, hs 2, hs 3, hs 4, rfl, rfl, fun x hx => Cluster.cx_setCx_ne _ _ hx, fun j hj => State.cl_modCl_ne _ _ hj⟩

end Sys2Proof.Claims
end

section
/-! PROOFS. A transfer that its target refuses, or that traps as it waits for acceptance (01 R26, 13 R181, R182, 29 R366). -/

namespace Sys2Proof.Machine

/-! ### Freezes (01 R26) -/

theorem localOf_lt (c : Nat) : localOf c < 32 := by
  unfold localOf
  split <;> omega

/-- A change of a supervisor block that keeps FRZ. -/
@[simp] theorem State.frozen_modSup (s : State) (t c : Nat) {f : Sup → Sup} (hf : ∀ p, (f p).frz = p.frz) :
    (s.modSup t f).frozen c = s.frozen c := by
  have hfrz : ((s.modSup t f).sup (dieOf c)).frz = (s.sup (dieOf c)).frz := by
    by_cases h : dieOf c = t
    · subst h
      rw [State.sup_modSup_same, hf]
    · rw [State.sup_modSup_ne _ _ h]
  rw [State.frozen, hfrz, ← State.frozen]

@[simp] theorem State.frozen_ite (p : Prop) [Decidable p] (s t : State) (c : Nat) :
    (if p then s else t).frozen c = if p then s.frozen c else t.frozen c := apply_ite (fun s => State.frozen s c) p s t
@[simp] theorem State.frozen_foldl {α : Type} (f : State → α → State) (l : List α) (s : State) (c : Nat)
    (hf : ∀ s a, (f s a).frozen c = s.frozen c) : (l.foldl f s).frozen c = s.frozen c := by
  induction l generalizing s with
  | nil => rfl
  | cons a l ih => rw [List.foldl_cons, ih, hf]
@[simp] theorem State.frozen_modCl (s : State) (d c : Nat) (f : Cluster → Cluster) : (s.modCl d f).frozen c = s.frozen c := rfl
@[simp] theorem State.frozen_modCx (s : State) (d x c : Nat) (f : Ctx → Ctx) : (s.modCx d x f).frozen c = s.frozen c := rfl
@[simp] theorem State.frozen_modDist (s : State) (t c : Nat) (f : Dist → Dist) : (s.modDist t f).frozen c = s.frozen c := rfl
@[simp] theorem State.frozen_modHub (s : State) (c : Nat) (f : Hub → Hub) : (s.modHub f).frozen c = s.frozen c := rfl
@[simp] theorem State.frozen_logFault (s : State) (t c : Nat) (r : Fault.Rec) : (s.logFault t r).frozen c = s.frozen c :=
  s.frozen_modSup t c fun _ => rfl
@[simp] theorem State.frozen_cancelPre (s : State) (d : Nat) (team : BitVec 16) (c : Nat) : (s.cancelPre d team).frozen c = s.frozen c := by
  unfold State.cancelPre
  split
  · simp [Sup.finish]
  · rfl
@[simp] theorem State.frozen_interrupt (s : State) (t c : Nat) : (s.interrupt t).frozen c = s.frozen c := by
  unfold State.interrupt
  dsimp only
  split <;> rfl

/-- Escalating a trap freezes no cluster and releases none. -/
@[simp] theorem State.frozen_escalate (s : State) (c x : Nat) (t : Trap) (d : Nat) : (s.escalate c x t).frozen d = s.frozen d := by
  simp [State.escalate]

/-- A refusal freezes the cluster whose access it is. -/
theorem State.frozen_refuse (s : State) (c x tgt va pc : Nat) : (s.refuse c x tgt va pc).frozen c = true := by
  have hbit : (BitVec.ofNat 32 (2 ^ localOf c)).getLsbD (localOf c) = true := by
    rw [BitVec.getLsbD_ofNat, Nat.testBit_two_pow_self, Bool.and_true, decide_eq_true_eq]
    exact localOf_lt c
  unfold State.refuse
  dsimp only
  rw [State.frozen, State.sup_modSup_same, BitVec.getLsbD_or, hbit, Bool.or_true]

/-! ### The trap of a refusal (29 R366, R369) -/

/-- A context that a trap has stopped, with TRAPCAUSE, TRAPPC and TRAPINFO written. -/
def Ctx.trappedBy (e : Ctx) (t : Trap) (pc : Parcel) (i : BitVec 64) : Ctx :=
  { e with run := .trapped, cause := BitVec.ofNat 32 (t.opnd * 2 ^ 16 + t.cause.code), tpc := pc, tinfo := i, tgt := t.tgt }

/-- The trap of a refusal: the record and the freeze, the context's registers, the escalation. -/
theorem State.takeTrap_refused (s : State) (c x : Nat) (pc : Parcel) {t : Trap} (hr : t.cause = .refused) (ha : t.agent = none) :
    ∃ (u : State) (i : BitVec 64), (∀ j, t.info = some j → i = j) ∧ s.takeTrap c x pc t =
      ((u.refuse c x t.tgt i.toNat pc.toNat).modCx c x fun e => e.trappedBy t pc i).escalate c x t := by
  unfold State.takeTrap
  cases hi : t.info with
  | some i => exact ⟨s, i, fun j hj => Option.some.inj hj, by simp only [hr, ha, if_true, true_or, Ctx.trappedBy]⟩
  | none => exact ⟨{ s with free := s.free + 1 }, Config.freeInfo s.free, nofun, by simp only [hr, ha, if_true, true_or, Ctx.trappedBy]⟩

/-! ### A transfer gives back what it held, and traps (13 R181) -/

/-- What a transfer gives back of a context is holds alone. -/
theorem Cluster.cx_undo1 (k : Cluster) (x : Nat) (ids : List Nat) (u : Opnd × Option Hold) (y : Nat) :
    ∃ h, (k.undo1 x ids u).cx y = { k.cx y with sHold := h } := by
  obtain ⟨o, v⟩ := u
  cases o with
  | s i =>
    by_cases hy : y = x
    · subst hy
      exact ⟨_, Cluster.cx_modCx_same _ _ _⟩
    · exact ⟨(k.cx y).sHold, Cluster.cx_modCx_ne _ _ hy⟩
  | v i | k i | vm i | q p i | p i | b i | null => exact ⟨(k.cx y).sHold, rfl⟩

theorem Cluster.cx_undo (k : Cluster) (x : Nat) (ids : List Nat) (us : List (Opnd × Option Hold)) (y : Nat) :
    ∃ h, (us.foldl (fun k u => k.undo1 x ids u) k).cx y = { k.cx y with sHold := h } := by
  induction us generalizing k with
  | nil => exact ⟨(k.cx y).sHold, rfl⟩
  | cons u us ih =>
    obtain ⟨h, hu⟩ := k.cx_undo1 x ids u y
    obtain ⟨g, hg⟩ := ih (k.undo1 x ids u)
    exact ⟨g, by rw [List.foldl_cons, hg, hu]⟩

/-- A transfer that waits has given back what it held, and no longer waits. -/
def State.givenBack (s : State) (c x : Nat) (accs : List Access) (undo : List (Opnd × Option Hold)) : State :=
  (s.modCl c fun k => undo.foldl (fun k u => k.undo1 x (accs.map (·.id)) u) k).modCx c x fun e => { e with phase := .body }

theorem State.trapXfer_eq (s : State) (c x : Nat) (accs : List Access) (undo : List (Opnd × Option Hold)) (t : Trap) :
    s.trapXfer c x accs undo t = (s.givenBack c x accs undo).takeTrap c x ((s.cl c).cx x).pc t := by
  obtain ⟨h, hcx⟩ := (s.cl c).cx_undo x (accs.map (·.id)) undo x
  have hpc : (((s.givenBack c x accs undo).cl c).cx x).pc = ((s.cl c).cx x).pc := by
    rw [State.givenBack, State.cx_modCx_same, State.cl_modCl_same, hcx]
  rw [State.trapXfer, ← State.givenBack, hpc]

end Sys2Proof.Machine

namespace Sys2Proof.Claims
open Sys2Proof.Machine

section
variable {s : State} {c x : Nat} {t : Trap}

theorem trapped_takeTrap_refused (pc : Parcel) (hr : t.cause = .refused) (ha : t.agent = none) : ∃ i, (∀ j, t.info = some j → i = j) ∧
    Trapped (s.takeTrap c x pc t) c x .refused t.opnd pc i ∧ (s.takeTrap c x pc t).frozen c = true := by
  obtain ⟨u, i, hi, ht⟩ := s.takeTrap_refused c x pc hr ha
  obtain ⟨b, hb⟩ := (State.nearly_escalate ((u.refuse c x t.tgt i.toNat pc.toNat).modCx c x fun e => e.trappedBy t pc i) c x t).cl c |>.cx x
  rw [State.cx_modCx_same] at hb
  refine ⟨i, hi, ?_, ?_⟩
  · rw [ht, Trapped, hb]
    exact ⟨rfl, by rw [← hr]; rfl, rfl, rfl⟩
  · rw [ht, State.frozen_escalate, State.frozen_modCx, State.frozen_refuse]

theorem trapped_trapXfer_refused (accs : List Access) (undo : List (Opnd × Option Hold)) (hr : t.cause = .refused) (ha : t.agent = none) :
    ∃ i, (∀ j, t.info = some j → i = j) ∧ Trapped (s.trapXfer c x accs undo t) c x .refused t.opnd ((s.cl c).cx x).pc i ∧
      (s.trapXfer c x accs undo t).frozen c = true := by
  rw [State.trapXfer_eq]
  exact trapped_takeTrap_refused _ hr ha

theorem trapped_trapXfer (accs : List Access) (undo : List (Opnd × Option Hold)) (hr : t.cause ≠ .refused) :
    ∃ i, Trapped (s.trapXfer c x accs undo t) c x t.cause t.opnd ((s.cl c).cx x).pc i := by
  rw [State.trapXfer_eq]
  exact trapped_takeTrap_some _ c x _ hr

theorem trapped_trapXfer_info (accs : List Access) (undo : List (Opnd × Option Hold)) {i : BitVec 64} (hi : t.info = some i)
    (hr : t.cause ≠ .refused) : Trapped (s.trapXfer c x accs undo t) c x t.cause t.opnd ((s.cl c).cx x).pc i := by
  rw [State.trapXfer_eq]
  exact trapped_takeTrap _ c x _ hi hr

end

end Sys2Proof.Claims
end

section
/-! PROOFS. Messages and receive slots (13 R182, R205, R206): O22. -/

namespace Sys2Proof.Claims
open Sys2Proof.Machine

/-! ### The answer to a message (13 R205) -/

/-- A MSGSEND of cluster c whose payload has been read: nothing on its way or at its source stops it (13 R182). -/
structure MessageReady (s : State) (c : Nat) (far : MsgAns) (a : Access) (undo : List (Opnd × Option Hold)) : Prop where
  phase : ∃ g pops, ((s.cl c).cx 4).phase = .accept [a] g undo pops
  live : (s.accessDead c a || a.fail == some .deadlink || !s.mayPerform c a) = false
  may : s.refusedAt c 4 [a] far.payload = none
  whole : (a.pieces.find? fun q => s.badAt q.pa q.len || s.farNone far.payload q.pa) = none

/-- The predicate that a MSGSEND of cluster c answers with, and its word completes. -/
def messageAnswered (s : State) (c : Nat) (p : BitVec 3) (ok : Bool) : State := (s.modCx c 4 fun e => e.putP p.toNat ok).finishWord c 4 3

section
variable {s : State} {c cl : Nat} {far : MsgAns} {a : Access} {p : BitVec 3} {q : List Byte} {m : BitVec 6} {hnd : Parcel}
  {undo : List (Opnd × Option Hold)} (h : MessageReady s c far a undo) (hop : a.op = .msg p q m cl hnd)
include h hop

/-- A target in another module that takes the message, or does not, has its answer in the predicate. -/
theorem messageArrival_far (hm : m ≠ s.hub.modNo) (ht : far.target = .ok ∨ far.target = .no) :
    exec (.messageArrival c far) s = .next (messageAnswered s c p (far.target == .ok)) := by
  obtain ⟨g, pops, hp⟩ := h.phase
  change execMessageArrival c far s = _
  rcases ht with ht | ht <;>
    simp only [execMessageArrival, hp, hop, h.live, h.may, h.whole, hm, ht, ne_eq, not_false_eq_true, if_true, Bool.false_eq_true, if_false] <;> rfl

/-- With no free slot the predicate is 0. -/
theorem messageArrival_full (hm : m = s.hub.modNo) (hperm : s.permits (dieOf cl) (masterOf c 4) &&& bitM ≠ 0)
    (hfull : (s.cl cl).freeSlot = none) : exec (.messageArrival c far) s = .next (messageAnswered s c p false) := by
  obtain ⟨g, pops, hp⟩ := h.phase
  change execMessageArrival c far s = _
  simp only [execMessageArrival, hp, hop, h.live, h.may, h.whole, hm, hperm, State.slotRo, State.slotWhole, State.deliver, hfull, ne_eq,
    not_true_eq_false, if_true, Bool.false_eq_true, if_false]
  rfl

/-- What stops a message at its target (13 R182, 27 R351, R362). -/
theorem messageArrival_stopped {cause : Cause}
    (hs : (cause = .refused ∧ ((m = s.hub.modNo ∧ s.permits (dieOf cl) (masterOf c 4) &&& bitM = 0) ∨ (m ≠ s.hub.modNo ∧ far.target = .refused))) ∨
      (cause = .roWrite ∧ ((m = s.hub.modNo ∧ s.permits (dieOf cl) (masterOf c 4) &&& bitM ≠ 0 ∧ s.slotRo cl = true) ∨
        (m ≠ s.hub.modNo ∧ far.target = .readOnly)))) :
    exec (.messageArrival c far) s = .next (s.trapXfer c 4 [a] undo { cause := cause, tgt := m.toNat * 256 + dieOf cl }) := by
  obtain ⟨g, pops, hp⟩ := h.phase
  change execMessageArrival c far s = _
  rcases hs with ⟨rfl, ⟨hm, hperm⟩ | ⟨hm, ht⟩⟩ | ⟨rfl, ⟨hm, hperm, hro⟩ | ⟨hm, ht⟩⟩
  · simp only [execMessageArrival, hp, hop, h.live, h.may, h.whole, hm, hperm, ne_eq, not_true_eq_false, if_true, Bool.false_eq_true, if_false]
  · simp only [execMessageArrival, hp, hop, h.live, h.may, h.whole, hm, ht, ne_eq, not_false_eq_true, if_true, Bool.false_eq_true, if_false]
  · simp only [execMessageArrival, hp, hop, h.live, h.may, h.whole, hm, hperm, hro, ne_eq, not_true_eq_false, if_true, Bool.false_eq_true, if_false]
  · simp only [execMessageArrival, hp, hop, h.live, h.may, h.whole, hm, ht, ne_eq, not_false_eq_true, if_true, Bool.false_eq_true, if_false]

end

/-- 13 R182, R205, R206, 27 R351, R362. -/
theorem messagesArrive : MessagesArrive := by
  intro c cl far g s a p q m hnd undo pops hp hop hd hf hmay href hw
  have h : MessageReady s c far a undo := by
    refine ⟨⟨g, pops, hp⟩, ?_, href, List.find?_eq_none.2 fun r hr => ?_⟩
    · rw [hd, hmay, beq_false_of_ne hf]
      rfl
    · rw [(hw r hr).1, (hw r hr).2]
      exact Bool.false_ne_true
  refine ⟨fun hm hperm hro hwhole => ⟨fun s' hs' => ?_, fun hfull => messageArrival_full h hop hm hperm hfull⟩,
    fun hm ht => messageArrival_far h hop hm ht, fun hs => ?_, fun hs => ?_⟩
  · subst hm
    exact exec_messageArrival hp hop hd hf hmay href hw hro hperm hwhole hs'
  · obtain ⟨i, -, ht, hfrz⟩ := trapped_trapXfer_refused (s := s) (c := c) (x := 4) (t := { cause := .refused, tgt := m.toNat * 256 + dieOf cl })
      [a] undo rfl rfl
    exact ⟨_, i, messageArrival_stopped h hop (.inl ⟨rfl, hs⟩), ht, hfrz⟩
  · obtain ⟨i, ht⟩ := trapped_trapXfer (s := s) (c := c) (x := 4) (t := { cause := .roWrite, tgt := m.toNat * 256 + dieOf cl }) [a] undo nofun
    exact ⟨_, i, messageArrival_stopped h hop (.inr ⟨rfl, hs⟩), ht⟩

/-! ### Slots (13 R206) -/

/-- The lowest free slot is free, and those below it are not. -/
theorem freeSlot_lowest {k : Cluster} {n : Nat} (h : k.freeSlot = some n) :
    SMap.get? k.slots n = none ∧ ∀ j, j < n → (SMap.get? k.slots j).isSome = true := by
  obtain ⟨hfree, -, hlow⟩ := List.find?_range_eq_some.1 h
  exact ⟨by simpa using hfree, fun j hj => by simpa [Option.isSome_iff_ne_none] using hlow j hj⟩

/-- The record of a slot that a message takes. -/
def takenSlot (s : State) (bs : List Byte) (src : BitVec 22) (asid : BitVec 8) (hnd : Parcel) : Slot :=
  { order := s.seq, len := bs.length, src := src, asid := asid, hnd := hnd, started := false }

/-- A message's slot is one change of its cluster, and its payload one store. -/
theorem deliver_cl {s s' : State} {cl n : Nat} {bs : List Byte} {src : BitVec 22} {asid : BitVec 8} {hnd : Parcel}
    (hd : s.deliver cl bs src asid hnd = some s') (hn : (s.cl cl).freeSlot = some n) :
    s'.cl cl = { s.cl cl with slots := SMap.set (s.cl cl).slots n (takenSlot s bs src asid hnd) } ∧ ∀ c, c ≠ cl → s'.cl c = s.cl c := by
  have hstore (c : Nat) : (({ s with seq := s.seq + 1 } : State).store (s.here (sramBase cl) + slotOff n) bs).1.cl c = s.cl c :=
    State.cl_congr (State.clusters_store ..) c
  simp only [State.deliver, hn, Option.some.injEq] at hd
  subst hd
  refine ⟨?_, fun c hc => ?_⟩
  · rw [State.cl_modCl_same, hstore]
    rfl
  · rw [State.cl_modCl_ne _ _ hc, hstore]

/-- 13 R206. -/
theorem messageSlots : MessageSlots := by
  intro s s' cl n bs src asid hnd hd hn
  obtain ⟨hfree, hlow⟩ := freeSlot_lowest hn
  obtain ⟨hcl, hrest⟩ := deliver_cl hd hn
  rw [hcl]
  exact ⟨⟨_, SMap.get?_set_same _ _ _, rfl, rfl, rfl, rfl, rfl⟩, hlow, hfree, fun k hk => SMap.get?_set_ne _ _ hk, hrest⟩

/-- Settles O22: each course of a message's arrival, and the one change of its target's slots. -/
theorem messages : Obligations.Messages := by
  unfold Obligations.Messages
  exact ⟨messagesArrive, messageSlots⟩

end Sys2Proof.Claims
end

section
/-! PROOFS. Accesses without an answer fail (13 R183, R200, R201, 21 R316): O18. -/

namespace Sys2Proof.Machine

/-- Two changes of a context that agree on it. -/
theorem State.modCx_congr {s : State} {c x : Nat} {f g : Ctx → Ctx} (h : f ((s.cl c).cx x) = g ((s.cl c).cx x)) :
    s.modCx c x f = s.modCx c x g := State.modCl_congr (by rw [Cluster.modCx, h, ← Cluster.modCx])

/-! ### What fails one access (13 R183) -/

section
variable {s : State} {c : Nat} {a : Access} {bs : List Byte}

theorem State.failAccess_store (hop : a.op = .store bs) (why : Fail) (q : Option Piece) : s.failAccess c a why q =
    (s.failStore c a.que a.store why (s.accessTarget c a q), if why == .timeout then some { a with fail := some why } else none) := by
  simp only [State.failAccess, hop]

theorem State.failWaiting_store (hop : a.op = .store bs) (x : Nat) (why : Fail) (q : Option Piece) :
    s.failWaiting c x a why q = s.failAccess c a why q := by
  simp only [State.failWaiting, hop]

/-- A read that fails is performed no more, and its destination will be error-pending. -/
theorem State.failAccess_loadS {d : BitVec 6} {g : Bool} {n : Nat} (hop : a.op = .loadS d g n) (why : Fail) (q : Option Piece) :
    s.failAccess c a why q =
      (s, some { a with pieces := [], fail := some why, err := some (BitVec.ofNat 64 a.va, s.accessTarget c a q) }) := by
  simp only [State.failAccess, hop, State.lostVa]

theorem State.lostNow_dead {i : Nat} {late : List (Nat × Nat)} (h : s.accessDead c a = true ∨ a.fail = some .deadlink) :
    s.lostNow c late (a, i) = some (.deadlink, none) := by
  have hdead : (s.accessDead c a || a.fail == some .deadlink) = true := by
    rcases h with h | h
    · rw [h]; rfl
    · rw [h, beq_self_eq_true, Bool.or_true]
  rw [State.lostNow, if_pos hdead]

theorem State.lostNow_live {i : Nat} {late : List (Nat × Nat)} (hd : s.accessDead c a = false) (hf : a.fail ≠ some .deadlink) :
    s.lostNow c late (a, i) = if a.cyc + Config.cycles2ms ≤ s.cycle.toNat then
      (late.find? fun l => l.1 == i).map fun l => (.timeout, a.part l.2) else none := by
  have hdead : (s.accessDead c a || a.fail == some .deadlink) = false := by
    rw [hd, beq_false_of_ne hf]; rfl
  rw [State.lostNow, hdead, if_neg Bool.false_ne_true]

end

/-- With no store shown, the homes have none to perform. -/
theorem State.flushShown_none {s : State} (h : s.shownStores = []) : s.flushShown = s := by
  rw [State.flushShown, h, List.foldl_nil]

/-! ### The expiry of a transfer that waits for acceptance -/

section
variable {s : State} {c x : Nat} {a : Access} {bs : List Byte} {undo : List (Opnd × Option Hold)} {pops : List Opnd}
  {late : List (Nat × Nat)} {far : FarMap} (hp : ((s.cl c).cx x).phase = .accept [a] false undo pops)
include hp

/-- An access that is not lost goes on waiting. -/
theorem acceptanceTimeout_waits (hl : s.lostNow c late (a, 0) = none) : exec (.acceptanceTimeout c ⟨x, late, far, []⟩) s = .next s := by
  change execAcceptanceTimeout c _ s = _
  simp [execAcceptanceTimeout, hp, hl]

/-- A store that is lost counts as accepted and failed. -/
theorem acceptanceTimeout_store (hop : a.op = .store bs) {why : Fail} {q : Option Piece} (hl : s.lostNow c late (a, 0) = some (why, q)) :
    exec (.acceptanceTimeout c ⟨x, late, far, []⟩) s = .next ((s.failStore c a.que a.store why (s.accessTarget c a q)).enterQueue c x
      (if why == .timeout then some { a with fail := some why } else none).toList pops) := by
  have htrap : s.acceptTrap c x [] far = none := rfl
  change execAcceptanceTimeout c _ s = _
  simp [execAcceptanceTimeout, hp, hl, htrap, foldAcc, State.failWaiting_store hop, State.failAccess_store hop]

end

/-! ### The expiry of accepted accesses -/

section
variable {s : State} {c : Nat} {a : Access} (hs : s.shownStores = []) (hq : (s.cl c).mq = [a]) (ho : a.isOpen = true)
  (hd : s.accessDead c a = false) (hc : a.cyc + Config.cycles2ms ≤ s.cycle.toNat)
include hq ho hd hc

theorem State.loseAccepted_one (i : Nat) : s.loseAccepted c [(a.id, i)] =
    (s.failAccess c a .timeout (a.part i)).1.modCl c fun k => { k with mq := (s.failAccess c a .timeout (a.part i)).2.toList } := by
  simp [State.loseAccepted, hq, foldAcc, ho, hd, hc]

include hs

theorem State.giveUp_one (hf : a.fail ≠ some .deadlink) {covers : Access → Bool} (hv : covers a = true) : s.giveUp c covers =
    (s.failAccess c a .timeout).1.modCl c fun k => { k with mq := (s.failAccess c a .timeout).2.toList } := by
  simp [State.giveUp, State.flushShown_none hs, hq, foldAcc, ho, hv, hd, hc, hf]

end

end Sys2Proof.Machine

namespace Sys2Proof.Claims
open Sys2Proof.Machine

/-- A context that does not wait for acceptance is left by the expiry of accepted accesses. -/
theorem acceptanceTimeout_lost {s : State} {c x : Nat} {far : FarMap} {l : List (Nat × Nat)} (hs : s.shownStores = []) (hl : l ≠ [])
    (hp : ∀ accs grp undo pops, (((s.loseAccepted c l).cl c).cx x).phase ≠ .accept accs grp undo pops) :
    exec (.acceptanceTimeout c ⟨x, [], far, l⟩) s = .next (s.loseAccepted c l) := by
  have hne : l.isEmpty = false := by simpa using hl
  change execAcceptanceTimeout c _ s = _
  simp only [execAcceptanceTimeout, hne, Bool.false_eq_true, if_false, State.flushShown_none hs]

/-- Settles O18: which accesses are lost is lostNow's answer, and failAccess says what becomes of each. -/
theorem accessesFail : Obligations.AccessesFail := by
  unfold Obligations.AccessesFail
  refine ⟨fun c x s a bs undo pops hp hop => ⟨fun h late far => ?_, fun hd hf hc i far => ?_, fun hd hf hc late far => ?_⟩,
    fun c x i n s a d g far hs hq hop ho hf hd hc hp => ?_, fun c x s f a bs hcl hp hk hs hfc hq hop ho hb hf hd hc => ?_⟩
  · exact acceptanceTimeout_store hp hop (State.lostNow_dead h)
  · refine acceptanceTimeout_store hp hop (q := a.part i) ?_
    rw [State.lostNow_live hd hf, if_pos hc]
    rfl
  · refine acceptanceTimeout_waits hp ?_
    rw [State.lostNow_live hd hf, if_neg (by omega)]
  · have hlose := State.loseAccepted_one hq ho hd hc i
    rw [State.failAccess_loadS hop] at hlose
    have hph : (((s.loseAccepted c [(a.id, i)]).cl c).cx x).phase = ((s.cl c).cx x).phase := by
      rw [hlose, State.cl_modCl_same]
      rfl
    rw [acceptanceTimeout_lost hs (List.cons_ne_nil _ _) (by rwa [hph]), hlose]
    rfl
  · have hgive := State.giveUp_one hs hq ho hd hc hf (covers := fun a => a.before (queOf x) f.mask f.id f.cyc) hb
    have hwait : (decide (f.kind < 4) && s.over2ms f.cyc) = true := by
      rw [decide_eq_true hk, State.over2ms, decide_eq_true hfc]; rfl
    have hph : (((s.giveUp c fun a => a.before (queOf x) f.mask f.id f.cyc).cl c).cx x).phase = .fence f := by
      rw [hgive, State.cl_modCl_same, State.failAccess_store hop]
      exact (congrArg (fun k : Cluster => (k.cx x).phase) (s.cl_modCl_same c _)).trans hp
    change execFenceWaitExpiry c x s = _
    rw [execFenceWaitExpiry, if_neg (Nat.not_le.2 hcl), hp]
    dsimp only
    rw [if_pos hwait]
    rw [State.failAccess_store hop] at hgive
    refine congrArg _ ((State.modCx_congr ?_).trans (congrArg (fun t : State => t.modCx c x fun e =>
      { e with phase := .fence { f with expired := true } }) hgive))
    rw [hph]

end Sys2Proof.Claims
end

section
/-! PROOFS. What a trap and the completion of a word leave of a cluster: its v registers, its queues, the predicates of its contexts (11 R141,
29 R366). -/

namespace Sys2Proof.Machine

/-! ### What is looked at -/

/-- The v registers and the queues of a cluster, and what is looked at of a context. -/
def State.held {β : Type} (ρ : Ctx → β) (s : State) (d y : Nat) : SMap VWord × List Access × β :=
  ((s.cl d).v, (s.cl d).mq, ρ ((s.cl d).cx y))

section
variable {β : Type} {ρ : Ctx → β} {s t : State} {d y : Nat}

theorem State.mq_of_held (h : t.held ρ d y = s.held ρ d y) : (t.cl d).mq = (s.cl d).mq := congrArg (fun r => r.2.1) h
theorem State.v_of_held (h : t.held ρ d y = s.held ρ d y) : (t.cl d).v = (s.cl d).v := congrArg (fun r => r.1) h
theorem State.cx_of_held (h : t.held ρ d y = s.held ρ d y) : ρ ((t.cl d).cx y) = ρ ((s.cl d).cx y) := congrArg (fun r => r.2.2) h

theorem State.held_modCl (c : Nat) {f : Cluster → Cluster} (hv : ∀ k, (f k).v = k.v) (hq : ∀ k, (f k).mq = k.mq)
    (hx : ∀ k, (f k).ctx = k.ctx) : (s.modCl c f).held ρ d y = s.held ρ d y := by
  by_cases h : d = c
  · subst h
    rw [State.held, State.cl_modCl_same, hv, hq, Cluster.cx, hx]
    rfl
  · rw [State.held, State.cl_modCl_ne _ _ h]
    rfl

theorem State.held_modCx (c x : Nat) {f : Ctx → Ctx} (hf : ∀ e, ρ (f e) = ρ e) : (s.modCx c x f).held ρ d y = s.held ρ d y := by
  by_cases h : d = c
  · subst h
    by_cases hy : y = x
    · subst hy
      rw [State.held, State.cx_modCx_same, hf, State.modCx, State.cl_modCl_same]
      rfl
    · rw [State.held, State.modCx, State.cl_modCl_same, Cluster.cx_modCx_ne _ _ hy]
      rfl
  · rw [State.held, State.modCx, State.cl_modCl_ne _ _ h]
    rfl

theorem State.held_of_nearly (hs : ∀ e b, ρ { e with stopped := b } = ρ e) (h : State.nearly s t) : t.held ρ d y = s.held ρ d y := by
  obtain ⟨b, hb⟩ := (h.cl d).cx y
  have hv := congrArg Cluster.v (h.cl d).rest
  have hq := congrArg Cluster.mq (h.cl d).rest
  exact Prod.ext hv (Prod.ext hq ((congrArg ρ hb).trans (hs _ b)))

end

/-! ### A trap (29 R366) -/

/-- A trap leaves the v registers and the queues, and of a context what neither its stop nor its trap registers show. -/
theorem State.held_takeTrap {β : Type} {ρ : Ctx → β} (hs : ∀ e b, ρ { e with stopped := b } = ρ e)
    (ht : ∀ e t pc i, ρ (Ctx.trappedBy e t pc i) = ρ e) (s : State) (c x : Nat) (pc : Parcel) (t : Trap) (d y : Nat) :
    (s.takeTrap c x pc t).held ρ d y = s.held ρ d y := by
  have hend (u : State) : (if t.cause = .refused ∨ x ≥ 5 then u.escalate c x t
      else if u.tvec c = none then (u.tvecRefused c).escalate c x t else u.modCl c fun k => { k with traps := k.traps ++ [x] }).held ρ d y =
      u.held ρ d y := by
    split
    · exact State.held_of_nearly hs (u.nearly_escalate c x t)
    · split
      · exact State.held_of_nearly hs ((u.nearly_tvecRefused c).trans (State.nearly_escalate _ c x t))
      · exact State.held_modCl c (fun _ => rfl) (fun _ => rfl) fun _ => rfl
  have hstop (u : State) (i : BitVec 64) : ((if t.cause = .refused then (match t.agent with
      | none => u.refuse c x t.tgt i.toNat pc.toNat
      | some m => u.refuseCopy c x m t.tgt i.toNat pc.toNat) else u).modCx c x fun e => e.trappedBy t pc i).held ρ d y = u.held ρ d y :=
    (State.held_modCx c x fun e => ht e t pc i).trans (State.held_of_nearly hs (u.nearly_trapRecord c x pc t i))
  unfold State.takeTrap
  cases t.info with
  | some i => exact (hend _).trans (hstop s i)
  | none => exact (hend _).trans (hstop { s with free := s.free + 1 } _)

/-! ### The completion of a word (11 R141) -/

/-- A trap leaves the predicates. -/
theorem State.p_takeTrap (s : State) (c x : Nat) (pc : Parcel) (t : Trap) (d y : Nat) :
    (s.takeTrap c x pc t).held Ctx.p d y = s.held Ctx.p d y := State.held_takeTrap (fun _ _ => rfl) (fun _ _ _ _ => rfl) s c x pc t d y

theorem State.p_goto {s t : State} {a : Parcel} (h : s.goto a = .ok t) (d y : Nat) : t.held Ctx.p d y = s.held Ctx.p d y := by
  have hleave : (s.leaveTo a).held Ctx.p d y = s.held Ctx.p d y := State.held_modCx _ _ fun _ => rfl
  unfold State.goto at h
  split at h
  · cases h
    exact State.held_modCx _ _ fun _ => rfl
  · split at h <;> cases h
    · exact hleave
    · exact (State.p_takeTrap ..).trans hleave

theorem State.p_arrive {s t : State} {a : Parcel} (h : s.arrive a = .ok t) (d y : Nat) : t.held Ctx.p d y = s.held Ctx.p d y := by
  unfold State.arrive at h
  split at h
  · cases h
    exact State.held_modCx _ _ fun _ => rfl
  · exact State.p_goto h d y

theorem State.p_preemptPoint (s : State) (d y : Nat) : s.preemptPoint.held Ctx.p d y = s.held Ctx.p d y := by
  unfold State.preemptPoint
  split
  · exact State.held_modCx _ _ fun _ => rfl
  · rfl

/-- A word's successor is reached with the v registers, the queues and the predicates as they were. -/
theorem State.p_succeed (s : State) (nx : Parcel) (d y : Nat) : (s.succeed nx).held Ctx.p d y = s.held Ctx.p d y := by
  simp only [State.succeed]
  split
  next t ht =>
    have hgo : t.held Ctx.p d y = s.held Ctx.p d y := by
      split at ht
      · exact (State.p_goto ht d y).trans (State.held_modCx _ _ fun _ => rfl)
      · exact (State.p_arrive ht d y).trans (State.held_modCx _ _ fun _ => rfl)
    split
    · exact (t.p_preemptPoint d y).trans hgo
    · exact hgo
  next t ht => exact State.p_takeTrap ..
  next => rfl

theorem State.p_finishWord (s : State) (c x len d y : Nat) : (s.finishWord c x len).held Ctx.p d y = s.held Ctx.p d y := by
  let u : State := { s with cur := (c, x) }
  let f : Ctx → Ctx := fun e => { e with phase := .body, bAge := e.bAge.map fun a => (a.1, min 4 (a.2 + 1)) }
  calc (s.finishWord c x len).held Ctx.p d y = (u.modCtx f).held Ctx.p d y := State.p_succeed _ _ d y
    _ = u.held Ctx.p d y := State.held_modCx _ _ fun _ => rfl
    _ = s.held Ctx.p d y := rfl

end Sys2Proof.Machine
end

section
/-! PROOFS. The checks of a transfer at issue (13 R180, R181), met and not met. -/

namespace Sys2Proof.Machine
open Sys2Proof.Claims

@[simp] theorem trapInfo_bind {α β : Type} (c : Cause) (i : BitVec 64) (o : Nat) (f : α → Chk β) :
    ((trapInfo c i o : Chk α) >>= f) = trapInfo c i o := rfl

theorem checkEa_ok {ea : Word} (h : ea.toNat < 2 ^ 56) : checkEa ea = .ok () := by
  rw [checkEa, decide_eq_false (Nat.not_le.2 h)]
  rfl

theorem checkEa_long {ea : Word} (h : 2 ^ 56 ≤ ea.toNat) : checkEa ea = trapInfo .unmapped ea := by
  rw [checkEa, decide_eq_true h]
  rfl

theorem checkAlign_skew {a : Word} {n : Nat} (o : Nat) (h : a.toNat % n ≠ 0) : checkAlign a n o = trapInfo .misalign a o := by
  rw [checkAlign, bne_iff_ne.2 h]
  rfl

section
variable {s : State} {c : Cause} {a b ea sc : Word} {n va : Nat} {ps : List (Piece × Bool)}

theorem State.reach_unmapped (atom : Option (Nat × Nat)) (h : s.placeAll s.cur.1 (s.me.asid s.cur.2) ps = .error va) :
    s.reach ps atom = trapInfo .unmapped (BitVec.ofNat 64 va) := by
  rw [State.reach, h]

/-- Steps 1 and 2 of R181 on a bad effective address. -/
theorem checkEa_bind_bad {α : Type} (h : OffEa ea n c) (k : Unit → Unit → Chk α) :
    (checkEa ea >>= fun u => checkAlign ea n >>= k u) = trapInfo c ea := by
  cases h with
  | long hlong => rw [checkEa_long hlong, trapInfo_bind]
  | skew hin hskew => rw [checkEa_ok hin, ok_bind, checkAlign_skew 0 hskew, trapInfo_bind]

/-- Steps 1 to 4 of R181 on an address whose parts are not all mapped, and on one that passes. -/
theorem checks_unmapped {α : Type} (hin : ea.toNat < 2 ^ 56) (hal : ea.toNat % n = 0)
    (h : s.placeAll s.cur.1 (s.me.asid s.cur.2) ps = .error va) (k : Unit → Unit → List Piece → Chk α) :
    (checkEa ea >>= fun u => checkAlign ea n >>= fun v => s.reach ps none >>= k u v) = trapInfo .unmapped (BitVec.ofNat 64 va) := by
  rw [checkEa_ok hin, ok_bind, checkAlign_ok hal, ok_bind, State.reach_unmapped none h, trapInfo_bind]

theorem checks_ok {α : Type} {qs : List Piece} (hin : ea.toNat < 2 ^ 56) (hal : ea.toNat % n = 0) (h : s.reach ps none = .ok qs)
    (k : Unit → Unit → List Piece → Chk α) :
    (checkEa ea >>= fun u => checkAlign ea n >>= fun v => s.reach ps none >>= k u v) = k () () qs := by
  rw [checkEa_ok hin, ok_bind, checkAlign_ok hal, ok_bind, h, ok_bind]

/-- Steps 2 and 3 of R181 on a bad address without an offset. -/
theorem checkAlign_bind_bad {α : Type} (h : OffParts s a n ps c b) (atom : Option (Nat × Nat)) (k : Unit → List Piece → Chk α) :
    (checkAlign a n >>= fun u => s.reach ps atom >>= k u) = trapInfo c b := by
  cases h with
  | skew hskew => rw [checkAlign_skew 0 hskew, trapInfo_bind]
  | unmapped va hal hva => rw [checkAlign_ok hal, ok_bind, State.reach_unmapped atom hva, trapInfo_bind]

theorem State.descriptor_bad (h : OffParts s a 64 (flagParts true (granuleParts 0 a.toNat 64)) c b) : s.descriptor a = trapInfo c b := by
  cases h with
  | skew hskew => rw [State.descriptor, checkAlign_skew 0 hskew, trapInfo_bind]
  | unmapped va hal hva => rw [State.descriptor, checkAlign_ok hal, ok_bind, State.reach_unmapped none hva]

theorem State.descriptor_ok {qs : List Piece} (hal : a.toNat % 64 = 0)
    (hr : s.reach (flagParts true (granuleParts 0 a.toNat 64)) none = .ok qs) : s.descriptor a = .ok qs := by
  rw [State.descriptor, checkAlign_ok hal, ok_bind, hr]

/-- Step 3 for a group store's offset (R197). -/
theorem checkAlign_bind_beyond {α : Type} {gs : List Piece} (h : OffGroup a n gs c b) (k : Unit → Unit → Chk α) :
    (checkAlign a n >>= fun u => offsetsIn gs >>= k u) = trapInfo c b := by
  cases h with
  | skew hskew => rw [checkAlign_skew 0 hskew, trapInfo_bind]
  | beyond p hal hp => rw [checkAlign_ok hal, ok_bind, offsetsIn, hp, trapInfo_bind]

/-- The two streams of an LDQ or STQ are checked in ascending order of address (R189, R190). -/
theorem State.twoStreams_bad (h : OffStreams ea sc c a) (wr : Bool) : s.twoStreams ea sc wr = trapInfo c a := by
  unfold State.twoStreams
  cases h with
  | long hlong => rw [checkEa_long hlong, trapInfo_bind]
  | data hin hskew hfirst =>
    rw [checkEa_ok hin, ok_bind]
    split
    · next hlt => rw [checkAlign_ok (hfirst.resolve_left (by omega)), ok_bind, checkAlign_skew 0 hskew]; rfl
    · rw [checkAlign_skew 0 hskew]; rfl
  | scale hin hskew hfirst =>
    rw [checkEa_ok hin, ok_bind]
    split
    · rw [checkAlign_skew 0 hskew]; rfl
    · next hge => rw [checkAlign_ok (hfirst.resolve_left hge), ok_bind, checkAlign_skew 0 hskew]; rfl

theorem State.twoStreams_unmapped {wr : Bool} (hea : ea.toNat < 2 ^ 56) (hal : ea.toNat % 16 = 0) (hsc : sc.toNat % 16 = 0)
    (h : s.placeAll s.cur.1 (s.me.asid s.cur.2) (mergeParts 8 (flagParts wr (granuleParts 0 ea.toNat 256))
      (flagParts wr (granuleParts 4096 sc.toNat 16))) = .error va) : s.twoStreams ea sc wr = trapInfo .unmapped (BitVec.ofNat 64 va) := by
  have hr : s.reach (mergeParts 8 (flagParts wr (granuleParts 0 ea.toNat 256)) (flagParts wr (granuleParts scaleOff sc.toNat 16))) none =
      trapInfo .unmapped (BitVec.ofNat 64 va) := State.reach_unmapped none h
  unfold State.twoStreams
  simp only [checkEa_ok hea, checkAlign_ok hal, checkAlign_ok hsc, ok_bind, ite_self, hr, trapInfo_bind]

end

/-- A part above 56 bits is in no aperture and is mapped by no entry (27 R358, R360). -/
theorem State.placePart_above (c : Nat) (asid : BitVec 8) (s : State) (p : Piece) (h : 2 ^ 56 ≤ p.va) : s.placePart c asid p = .error p.va := by
  have hap : p.va / 2 ^ 48 ≠ 0xFF := by omega
  have hnone : s.translate c asid p.va = none := by rw [State.translate, if_neg hap, if_pos h]
  rw [State.placePart, hnone]

end Sys2Proof.Machine
end

section
/-! PROOFS. Misaligned and over-long addresses trap (13 R181): O13. -/

namespace Sys2Proof.Claims
open Sys2Proof.Machine

/-! ### A word that traps with an address makes no access -/

theorem OffEa.not_refused {ea : Word} {n : Nat} {c : Cause} (h : OffEa ea n c) : c ≠ .refused := by
  cases h <;> decide
theorem OffStreams.not_refused {ea sc a : Word} {c : Cause} (h : OffStreams ea sc c a) : c ≠ .refused := by
  cases h <;> decide
theorem OffParts.not_refused {s : State} {a b : Word} {n : Nat} {ps : List (Piece × Bool)} {c : Cause} (h : OffParts s a n ps c b) :
    c ≠ .refused := by
  cases h <;> decide
theorem OffGroup.not_refused {a b : Word} {n : Nat} {ps : List Piece} {c : Cause} (h : OffGroup a n ps c b) : c ≠ .refused := by
  cases h <;> decide

/-- The word traps with an address as its detail, and no access is made. -/
def TrapsAt (i : Instr) (s : State) (c : Cause) (o : Nat) (a : Word) : Prop :=
  ∃ t, exec i s = .next t ∧ Trapped t s.cur.1 s.cur.2 c o s.ctx.pc a ∧ NoAccess s t

theorem noAccess_trapHere (s : State) (t : Trap) : NoAccess s (s.trapHere t) := by
  have hheld : (s.takeTrap s.cur.1 s.cur.2 s.ctx.pc t).held Ctx.phase s.cur.1 s.cur.2 = s.held Ctx.phase s.cur.1 s.cur.2 :=
    State.held_takeTrap (fun _ _ => rfl) (fun _ _ _ _ => rfl) s _ _ _ t _ _
  have hcur : (s.takeTrap s.cur.1 s.cur.2 s.ctx.pc t).cur = s.cur := State.cur_takeTrap ..
  refine ⟨State.mem_trapHere s t, ?_, ?_⟩
  · rw [State.trapHere, State.used, State.me_modMe, State.me, hcur]
    exact State.mq_of_held hheld
  · rw [State.trapHere, State.ctx_used, State.ctx, State.me, hcur]
    exact State.cx_of_held hheld

theorem trapsAt_trapHere {i : Instr} {s : State} {c : Cause} {o : Nat} {a : Word}
    (he : exec i s = .next (s.trapHere { cause := c, opnd := o, info := some a })) (hc : c ≠ .refused) : TrapsAt i s c o a :=
  ⟨_, he, trapped_trapHere s rfl hc, noAccess_trapHere s _⟩

section
variable {i : Instr} {s : State} {r : Chk State} {c : Cause} {o len : Nat} {a : Word}

theorem trapsAt_of_finishWait (he : exec i s = finishWait s r) (hr : r = trapInfo c a o) (hc : c ≠ .refused) : TrapsAt i s c o a :=
  trapsAt_trapHere (he.trans (congrArg (finishWait s) hr)) hc

theorem trapsAt_of_finish (he : exec i s = finish s len r) (hr : r = trapInfo c a o) (hc : c ≠ .refused) : TrapsAt i s c o a :=
  trapsAt_trapHere (he.trans (congrArg (finish s len) hr)) hc

end

/-! ### Scalar loads and stores (13 R187) -/

section
variable {s : State} {w : AForm} {base v : Word} {c : Cause} {va : Nat}

theorem load_bad (scope : Nat) (acq : Bool) (hbase : s.srcS w.sa 2 (ftBit w 2) = .ok base) (hdst : s.dstS w.dst = .ok ())
    (h : OffEa (eaOf base w.imm) (w.ty.width / 8) c) : s.load w scope acq = trapInfo c (eaOf base w.imm) := by
  simp only [State.load, hbase, hdst, ok_bind, checkEa_bind_bad h]

theorem load_unmapped (scope : Nat) (acq : Bool) (hbase : s.srcS w.sa 2 (ftBit w 2) = .ok base) (hdst : s.dstS w.dst = .ok ())
    (hin : (eaOf base w.imm).toNat < 2 ^ 56) (hal : (eaOf base w.imm).toNat % (w.ty.width / 8) = 0)
    (hva : s.placeAll s.cur.1 (s.me.asid s.cur.2) (flagParts false (granuleParts 0 (eaOf base w.imm).toNat (w.ty.width / 8))) = .error va) :
    s.load w scope acq = trapInfo .unmapped (BitVec.ofNat 64 va) := by
  simp only [State.load, hbase, hdst, ok_bind, checks_unmapped hin hal hva]

theorem storeS_bad (scope : Nat) (rel : Bool) (hbase : s.srcS w.sa 2 (ftBit w 2) = .ok base) (hv : s.srcS w.sb 3 (ftBit w 3) = .ok v)
    (h : OffEa (eaOf base w.imm) (w.ty.width / 8) c) : s.storeS w scope rel = trapInfo c (eaOf base w.imm) := by
  simp only [State.storeS, hbase, hv, ok_bind, checkEa_bind_bad h]

theorem storeS_unmapped (scope : Nat) (rel : Bool) (hbase : s.srcS w.sa 2 (ftBit w 2) = .ok base)
    (hv : s.srcS w.sb 3 (ftBit w 3) = .ok v) (hin : (eaOf base w.imm).toNat < 2 ^ 56)
    (hal : (eaOf base w.imm).toNat % (w.ty.width / 8) = 0)
    (hva : s.placeAll s.cur.1 (s.me.asid s.cur.2) (flagParts true (granuleParts 0 (eaOf base w.imm).toNat (w.ty.width / 8))) = .error va) :
    s.storeS w scope rel = trapInfo .unmapped (BitVec.ofNat 64 va) := by
  simp only [State.storeS, hbase, hv, ok_bind, checks_unmapped hin hal hva]

end

/-! ### Every transfer -/

theorem ne_zero_of_toNat_pos {n : Nat} {v : BitVec n} (h : 0 < v.toNat) : v ≠ 0 := by
  rintro rfl
  exact absurd h (by simp)

@[simp] theorem length_flagParts (wr : Bool) (ps : List Piece) : (flagParts wr ps).length = ps.length := List.length_map _

/-- The length and the target word of a message that R205 allows. -/
theorem msg_size_ok {len : Word} (hpos : 0 < len.toNat) (hmax : len.toNat ≤ 4096) : decide (len = 0 ∨ 4096 < len.toNat) = false :=
  decide_eq_false (not_or.2 ⟨ne_zero_of_toNat_pos hpos, Nat.not_lt.2 hmax⟩)

theorem msg_target_ok {s : State} {v : Nat} (hlow : v / 2 ^ 22 % 2 ^ 10 = 0) (hmid : v / 2 ^ 9 % 2 ^ 7 = 0) (hcl : v % 2 ^ 9 ≤ 319)
    (hmod : s.reachesMod (v / 2 ^ 16 % 2 ^ 6) = true) :
    (bitsNat v 31 22 != 0 || bitsNat v 15 9 != 0 || decide (319 < bitsNat v 8 0) || !s.reachesMod (bitsNat v 21 16)) = false := by
  have h31 : bitsNat v 31 22 = v / 2 ^ 22 % 2 ^ 10 := bitsNat_eq_div _
  have h15 : bitsNat v 15 9 = v / 2 ^ 9 % 2 ^ 7 := bitsNat_eq_div _
  have h8 : bitsNat v 8 0 = v % 2 ^ 9 := rfl
  have h21 : bitsNat v 21 16 = v / 2 ^ 16 % 2 ^ 6 := bitsNat_eq_div _
  rw [h31, h15, h8, h21, hlow, hmid, hmod, decide_eq_false (Nat.not_lt.2 hcl)]
  rfl

theorem trapsAt_of_badAddress {i : Instr} {s : State} {c : Cause} {o : Nat} {a : Word} (h : BadAddress s i c o a) : TrapsAt i s c o a := by
  cases h with
  | ldPart w base va hbase hdst hin hal hva => exact trapsAt_of_finishWait rfl (load_unmapped _ _ hbase hdst hin hal hva) (by decide)
  | ldaPart w base va hbase hdst hin hal hva => exact trapsAt_of_finishWait rfl (load_unmapped _ _ hbase hdst hin hal hva) (by decide)
  | stPart w base v va hbase hv hin hal hva => exact trapsAt_of_finishWait rfl (storeS_unmapped _ _ hbase hv hin hal hva) (by decide)
  | stlPart w base v va hbase hv hin hal hva => exact trapsAt_of_finishWait rfl (storeS_unmapped _ _ hbase hv hin hal hva) (by decide)
  | vldPart w base m d va hbase hm hd hin hal hva =>
    exact trapsAt_of_finishWait rfl (by simp only [hbase, hm, hd, ok_bind, checks_unmapped hin hal hva]) (by decide)
  | vstPart w base v m va hbase hv hm hin hal hva =>
    exact trapsAt_of_finishWait rfl (by simp only [hbase, hv, hm, ok_bind, checks_unmapped hin hal hva]) (by decide)
  | kldPart w base va hbase hd hin hal hva =>
    exact trapsAt_of_finishWait rfl (by simp only [hbase, hd, ok_bind, checks_unmapped hin hal hva]) (by decide)
  | kstPart w base k va hbase hk hin hal hva =>
    exact trapsAt_of_finishWait rfl (by simp only [hbase, hk, ok_bind, checks_unmapped hin hal hva]) (by decide)
  | ldqPart w base sc d va hbase hsc hd hk hin hal hsk hva =>
    exact trapsAt_of_finishWait rfl (by simp only [hbase, hsc, hd, hk, ok_bind, State.twoStreams_unmapped hin hal hsk hva, trapInfo_bind]) (by decide)
  | stqPart w base vk sc va hbase hvk hsc hin hal hsk hva =>
    exact trapsAt_of_finishWait rfl (by simp only [hbase, hvk, hsc, ok_bind, State.twoStreams_unmapped hin hal hsk hva, trapInfo_bind]) (by decide)
  | vld w base m d c hbase hm hd h =>
    exact trapsAt_of_finishWait rfl (by simp only [hbase, hm, hd, ok_bind, checkEa_bind_bad h]) h.not_refused
  | vst w base v m c hbase hv hm h =>
    exact trapsAt_of_finishWait rfl (by simp only [hbase, hv, hm, ok_bind, checkEa_bind_bad h]) h.not_refused
  | kld w base c hbase hd h => exact trapsAt_of_finishWait rfl (by simp only [hbase, hd, ok_bind, checkEa_bind_bad h]) h.not_refused
  | kst w base k c hbase hk h => exact trapsAt_of_finishWait rfl (by simp only [hbase, hk, ok_bind, checkEa_bind_bad h]) h.not_refused
  | ldq w base sc d c a hbase hsc hd hk h =>
    exact trapsAt_of_finishWait rfl (by simp only [hbase, hsc, hd, hk, ok_bind, State.twoStreams_bad h, trapInfo_bind]) h.not_refused
  | stq w base vk sc c a hbase hvk hsc h =>
    exact trapsAt_of_finishWait rfl (by simp only [hbase, hvk, hsc, ok_bind, State.twoStreams_bad h, trapInfo_bind]) h.not_refused
  | gath w base idx d c a hbase hidx hd hk h =>
    simp only [bytesOf] at h
    exact trapsAt_of_finishWait rfl (by simp only [hbase, hidx, hd, hk, ok_bind, checkAlign_bind_bad h]) h.not_refused
  | scat w base idx v c a hbase hidx hv h =>
    simp only [bytesOf] at h
    exact trapsAt_of_finishWait rfl (by simp only [hbase, hidx, hv, ok_bind, checkAlign_bind_bad h]) h.not_refused
  | copyDst w dst src len hdst hsrc hlen hmax hskew =>
    refine trapsAt_of_finish (len := 3) (r := trapInfo .misalign a 2) ?_ rfl (by decide)
    simp only [exec, execCopy, hdst, hsrc, hlen, ok_bind, checkAlign_skew 2 hskew, trapInfo_bind]
    rfl
  | copySrc w dst src len hdst hsrc hlen hmax hal hskew =>
    refine trapsAt_of_finish (len := 3) (r := trapInfo .misalign a 3) ?_ rfl (by decide)
    simp only [exec, execCopy, hdst, hsrc, hlen, ok_bind, checkAlign_ok hal, checkAlign_skew 3 hskew, trapInfo_bind]
    rfl
  | copyLen w dst src len hdst hsrc hlen hmax hal hal' hskew =>
    refine trapsAt_of_finish (len := 3) (r := trapInfo .misalign a 4) ?_ rfl (by decide)
    simp only [exec, execCopy, hdst, hsrc, hlen, ok_bind, checkAlign_ok hal, checkAlign_ok hal', checkAlign_skew 4 hskew, trapInfo_bind]
    rfl
  | copyParts w dst src len va hdst hsrc hlen hpos hmax hal hal' hlal hva =>
    refine trapsAt_of_finish (len := 3) (r := trapInfo .unmapped (BitVec.ofNat 64 va)) ?_ rfl (by decide)
    simp only [exec, execCopy, hdst, hsrc, hlen, ok_bind, checkAlign_ok hal, checkAlign_ok hal', checkAlign_ok hlal,
      trapIf_ok (decide_eq_false (Nat.not_le.2 hmax)), if_neg (ne_zero_of_toNat_pos hpos), length_flagParts, State.reach_unmapped none hva,
      trapInfo_bind]
    rfl
  | fillDst w dst pat len hdst hpat hlen hmax hskew =>
    refine trapsAt_of_finish (len := 3) (r := trapInfo .misalign a 2) ?_ rfl (by decide)
    simp only [exec, execFill, hdst, hpat, hlen, ok_bind, checkAlign_skew 2 hskew, trapInfo_bind]
    rfl
  | fillLen w dst pat len hdst hpat hlen hmax hal hskew =>
    refine trapsAt_of_finish (len := 3) (r := trapInfo .misalign a 4) ?_ rfl (by decide)
    simp only [exec, execFill, hdst, hpat, hlen, ok_bind, checkAlign_ok hal, checkAlign_skew 4 hskew, trapInfo_bind]
    rfl
  | fillParts w dst pat len va hdst hpat hlen hpos hmax hal hlal hva =>
    refine trapsAt_of_finish (len := 3) (r := trapInfo .unmapped (BitVec.ofNat 64 va)) ?_ rfl (by decide)
    simp only [exec, execFill, hdst, hpat, hlen, ok_bind, checkAlign_ok hal, checkAlign_ok hlal, trapIf_ok (decide_eq_false (Nat.not_le.2 hmax)),
      if_neg (ne_zero_of_toNat_pos hpos), State.reach_unmapped none hva, trapInfo_bind]
    rfl
  | atom w ea b x c a hea hb hx hd h =>
    simp only [bytesOf] at h
    exact trapsAt_of_finishWait rfl (by simp only [hea, hb, hx, hd, ok_bind, checkAlign_bind_bad h]) h.not_refused
  | redst w base v m c a hbase hv hm hone h =>
    exact trapsAt_of_finishWait rfl (by simp only [hbase, hv, hm, ok_bind, if_neg hone, checkAlign_bind_bad h]) h.not_refused
  | redstGroup w base v m g c a hbase hv hm hone hg h =>
    exact trapsAt_of_finishWait rfl (by simp only [hbase, hv, hm, ok_bind, if_pos hone, hg, checkAlign_bind_beyond h]) h.not_refused
  | mcstS w off x g i c a hoff hsb hx hg h =>
    refine trapsAt_of_finishWait rfl ?_ h.not_refused
    rw [hsb] at hx
    simp only [hoff, hsb, hx, hg, ok_bind, pure_eq_ok, if_true, checkAlign_bind_beyond h]
  | mcstV w off x g c a hoff hsb hx hg h =>
    have hn : ¬((256 : Nat) = 8) := by decide
    refine trapsAt_of_finishWait rfl ?_ h.not_refused
    simp only [hoff, hx, hg, ok_bind, pure_eq_ok, if_neg hn, checkAlign_bind_beyond h]
  | qpushS w x v i c b hx hsb hv h =>
    refine trapsAt_of_finishWait rfl ?_ h.not_refused
    rw [hsb] at hv
    simp only [hx, hsb, hv, ok_bind, pure_eq_ok, State.descriptor_bad h, trapInfo_bind]
  | qpushV w x v c b hx hsb hv h =>
    refine trapsAt_of_finishWait rfl ?_ h.not_refused
    simp only [hx, hv, ok_bind, pure_eq_ok, State.descriptor_bad h, trapInfo_bind]
  | qpopS w x i c b hx hdst hd h =>
    refine trapsAt_of_finishWait rfl ?_ h.not_refused
    rw [hdst] at hd
    simp only [hx, hdst, hd, ok_bind, pure_eq_ok, State.descriptor_bad h, trapInfo_bind]
  | qpopV w x d c b hx hdst hd h =>
    refine trapsAt_of_finishWait rfl ?_ h.not_refused
    simp only [hx, hd, ok_bind, pure_eq_ok, State.descriptor_bad h, trapInfo_bind]
  | msgsend w x len tg c b hx hlen htg hpos hmax hlow hmid hcl hmod h =>
    refine trapsAt_of_finishWait rfl ?_ h.not_refused
    simp only [hx, hlen, htg, ok_bind, trapIf_ok (msg_size_ok hpos hmax), trapIf_ok (msg_target_ok hlow hmid hcl hmod), checkAlign_bind_bad h]

/-- R181: every transfer with a bad address traps with it and makes no access; a part above 56 bits is unmapped. -/
theorem badAddresses : BadAddresses := ⟨fun _ _ _ _ _ h => trapsAt_of_badAddress h, State.placePart_above⟩

/-- Settles O13: the checks of R181 come before the access, so the word stops at the first that fails. -/
theorem addressTraps : Obligations.AddressTraps := by
  refine ⟨badAddresses, fun w s base hbase => ⟨fun i hi hdst => ?_, fun i hi v hv => ?_, fun i hi hdst ⟨d, hd⟩ hskew => ?_⟩⟩
  · have hload (c : Cause) (h : OffEa (eaOf base w.imm) (w.ty.width / 8) c) : TrapsAt i s c 0 (eaOf base w.imm) := by
      simp only [List.mem_cons, List.not_mem_nil, or_false] at hi
      rcases hi with rfl | rfl
      · exact trapsAt_of_finishWait rfl (load_bad _ _ hbase hdst h) h.not_refused
      · exact trapsAt_of_finishWait rfl (load_bad _ _ hbase hdst h) h.not_refused
    exact ⟨fun hlong => hload _ (.long hlong), fun hin hskew => hload _ (.skew hin hskew)⟩
  · have hstore (c : Cause) (h : OffEa (eaOf base w.imm) (w.ty.width / 8) c) : TrapsAt i s c 0 (eaOf base w.imm) := by
      simp only [List.mem_cons, List.not_mem_nil, or_false] at hi
      rcases hi with rfl | rfl
      · exact trapsAt_of_finishWait rfl (storeS_bad _ _ hbase hv h) h.not_refused
      · exact trapsAt_of_finishWait rfl (storeS_bad _ _ hbase hv h) h.not_refused
    exact ⟨fun hlong => hstore _ (.long hlong), fun hin hskew => hstore _ (.skew hin hskew)⟩
  · cases List.mem_singleton.1 hi
    exact trapsAt_of_badAddress (.qpopS w base d _ _ hbase hd hdst (.skew hskew))

end Sys2Proof.Claims
end

section
/-! PROOFS. What a reader of the module's bytes looks at (13 R180, 27 R357, R358, R363). -/

namespace Sys2Proof.Machine

/-- Two states that read alike: they differ in nothing that a read looks at, but in the lines of Die Caches and in the tokens that an A-die has
not seen, in clusters and Distributors, and in the model's own counters. -/
structure State.SameReads (s t : State) : Prop where
  cycle : t.cycle = s.cycle
  mem : t.mem = s.mem
  hub : t.hub = s.hub
  access : t.access = s.access
  ltt : t.ltt = s.ltt
  groups : t.groups = s.groups
  links : t.links = s.links
  sups : t.sups = s.sups
  ring : ∀ d, ∃ ls, t.ring d = { s.ring d with lines := ls }
  adie : ∀ n, ∃ u, t.adie n = { s.adie n with unseen := u }

namespace State.SameReads

theorem refl (s : State) : s.SameReads s := ⟨rfl, rfl, rfl, rfl, rfl, rfl, rfl, rfl, fun _ => ⟨_, rfl⟩, fun _ => ⟨_, rfl⟩⟩

theorem trans {s t u : State} (h : s.SameReads t) (g : t.SameReads u) : s.SameReads u where
  cycle := g.cycle.trans h.cycle
  mem := g.mem.trans h.mem
  hub := g.hub.trans h.hub
  access := g.access.trans h.access
  ltt := g.ltt.trans h.ltt
  groups := g.groups.trans h.groups
  links := g.links.trans h.links
  sups := g.sups.trans h.sups
  ring d := by
    obtain ⟨ls, hls⟩ := h.ring d
    obtain ⟨ls', hls'⟩ := g.ring d
    exact ⟨ls', by rw [hls', hls]⟩
  adie n := by
    obtain ⟨v, hv⟩ := h.adie n
    obtain ⟨v', hv'⟩ := g.adie n
    exact ⟨v', by rw [hv', hv]⟩

/-- A change of clusters, or of the number of the next access. -/
theorem withClusters (s : State) (m : SMap Cluster) (n : Nat) : s.SameReads { s with clusters := m, seq := n } :=
  ⟨rfl, rfl, rfl, rfl, rfl, rfl, rfl, rfl, fun _ => ⟨_, rfl⟩, fun _ => ⟨_, rfl⟩⟩

theorem modCl (s : State) (c : Nat) (f : Cluster → Cluster) : s.SameReads (s.modCl c f) := withClusters s _ _
theorem modMe (s : State) (f : Cluster → Cluster) : s.SameReads (s.modMe f) := withClusters s _ _
theorem modCtx (s : State) (f : Ctx → Ctx) : s.SameReads (s.modCtx f) := withClusters s _ _
theorem mapShown (s : State) (f : Nat → Access → Shown → Shown) : s.SameReads (s.mapShown f) := withClusters s _ _

theorem modRing (s : State) (d : Nat) {f : Ring → Ring} (hf : ∀ r, ∃ ls, f r = { r with lines := ls }) : s.SameReads (s.modRing d f) :=
  { refl s with
    ring e := by
      by_cases h : e = d
      · subst h
        rw [State.ring_modRing_same]
        exact hf _
      · rw [State.ring_modRing_ne _ _ h]
        exact ⟨_, rfl⟩
    adie _ := ⟨_, rfl⟩ }

theorem modADie (s : State) (n : Nat) {f : ADie → ADie} (hf : ∀ a, ∃ u, f a = { a with unseen := u }) : s.SameReads (s.modADie n f) :=
  { refl s with
    ring _ := ⟨_, rfl⟩
    adie e := by
      by_cases h : e = n
      · subst h
        rw [State.adie_modADie_same]
        exact hf _
      · rw [State.adie_modADie_ne _ _ h]
        exact ⟨_, rfl⟩ }

variable {s t : State} (h : s.SameReads t)
include h

theorem winByte (d x : Nat) : t.winByte d x = s.winByte d x := by
  obtain ⟨ls, hls⟩ := h.ring d
  simp only [State.winByte, hls, h.cycle]

theorem isFar (pa : Nat) : t.isFar pa = s.isFar pa := by rw [State.isFar, h.hub, ← State.isFar]

theorem privAt (pa : Nat) : t.privAt pa = s.privAt pa := by
  have hin (n : Nat) : t.inPriv n pa = s.inPriv n pa := by
    obtain ⟨u, hu⟩ := h.adie n
    simp only [State.inPriv, hu]
  simp only [State.privAt, hin]

theorem privByte (n o : Nat) : (t.adie n).privByte o = (s.adie n).privByte o := by
  obtain ⟨u, hu⟩ := h.adie n
  rw [hu]
  rfl

theorem privBase (n : Nat) : (t.adie n).privBase = (s.adie n).privBase := by
  obtain ⟨u, hu⟩ := h.adie n
  rw [hu]

theorem partcfg : t.partcfg = s.partcfg := by simp only [State.partcfg, State.superOf, h.hub]

theorem cfgByte (o : Nat) : t.cfgByte o = s.cfgByte o := by
  have hring (d o : Nat) : (t.ring d).readReg o = (s.ring d).readReg o := by
    obtain ⟨ls, hls⟩ := h.ring d
    rw [hls]
    rfl
  have hadie (n o : Nat) : (t.adie n).readReg o = (s.adie n).readReg o := by
    obtain ⟨u, hu⟩ := h.adie n
    rw [hu]
    rfl
  simp only [State.cfgByte, State.cfgWord, State.permits, State.group, State.link, State.sup, hring, hadie, h.access, h.ltt, h.groups, h.links,
    h.sups, h.hub, h.partcfg]

theorem sameBytes : SameBytes s t := fun pa => by
  simp only [State.byte, h.winByte, h.isFar, h.cfgByte, h.privAt, h.privByte, h.privBase, h.cycle, h.mem]

end State.SameReads

end Sys2Proof.Machine
end

section
/-! PROOFS. Transfer words at issue (13 R179 to R205): O14. -/

namespace Sys2Proof.Machine

/-! ### What the issue of a transfer leaves -/

/-- t is s but for holds, queues, entries to come and the phase of the issuing context: it reads alike, no register has changed, and no other
cluster. -/
structure State.SameRegs (s t : State) : Prop where
  reads : s.SameReads t
  cur : t.cur = s.cur
  others : ∀ c, c ≠ s.cur.1 → t.cl c = s.cl c
  pc : t.ctx.pc = s.ctx.pc
  regs : t.ctx.s = s.ctx.s
  v : t.me.v = s.me.v
  k : t.me.k = s.me.k

/-- A destination of a transfer is claimed: it becomes empty, or an entry of its queue is reserved. -/
def State.claim (qid : Nat) (s : State) (o : Opnd) : State :=
  match o with
  | .q _ i => s.reserve i.toNat qid
  | _ => s.empties o

theorem State.beginXfer_eq (s : State) (accs : List Access) (grp : Bool) (dests : List Opnd) (qid : Nat) (srcs : List Opnd) :
    s.beginXfer accs grp dests qid srcs =
      ({ dests.foldl (State.claim qid) s with seq := (dests.foldl (State.claim qid) s).seq + accs.length } : State).modCtx
        fun e => { e with phase := .accept accs grp (dests.map fun o => (o, s.holdOf o)) srcs } := rfl

namespace State.SameRegs

theorem refl (s : State) : s.SameRegs s := ⟨.refl s, rfl, fun _ _ => rfl, rfl, rfl, rfl, rfl⟩

theorem trans {s t u : State} (h : s.SameRegs t) (g : t.SameRegs u) : s.SameRegs u :=
  ⟨h.reads.trans g.reads, g.cur.trans h.cur, fun c hc => (g.others c (h.cur ▸ hc)).trans (h.others c hc), g.pc.trans h.pc, g.regs.trans h.regs,
    g.v.trans h.v, g.k.trans h.k⟩

theorem modMe (s : State) {f : Cluster → Cluster} (hx : (f s.me).ctx = s.me.ctx) (hv : (f s.me).v = s.me.v) (hk : (f s.me).k = s.me.k) :
    s.SameRegs (s.modMe f) where
  reads := .modMe s f
  cur := rfl
  others _ hc := State.cl_modMe_ne s f hc
  pc := by rw [State.ctx_modMe s f hx]
  regs := by rw [State.ctx_modMe s f hx]
  v := by rw [State.me_modMe, hv]
  k := by rw [State.me_modMe, hk]

theorem modCtx (s : State) {f : Ctx → Ctx} (hpc : (f s.ctx).pc = s.ctx.pc) (hs : (f s.ctx).s = s.ctx.s) : s.SameRegs (s.modCtx f) where
  reads := .modCtx s f
  cur := rfl
  others _ hc := State.cl_modCtx_ne s f hc
  pc := by rw [State.ctx_modCtx, hpc]
  regs := by rw [State.ctx_modCtx, hs]
  v := by rw [State.me_modCtx]; rfl
  k := by rw [State.me_modCtx]; rfl

theorem used (s : State) : s.SameRegs s.used := modMe s rfl rfl rfl

theorem empties (s : State) (o : Opnd) : s.SameRegs (s.empties o) := by
  cases o with
  | s i => exact modCtx s rfl rfl
  | v i => exact modMe s rfl rfl rfl
  | k i => exact modMe s rfl rfl rfl
  | vm i => exact modMe s rfl rfl rfl
  | _ => exact refl s

theorem claim (s : State) (o : Opnd) (qid : Nat) : s.SameRegs (s.claim qid o) := by
  unfold State.claim State.reserve
  split
  · exact modMe s rfl rfl rfl
  · exact empties s _

theorem number (s : State) (n : Nat) : s.SameRegs { s with seq := n } :=
  ⟨.withClusters s s.clusters n, rfl, fun _ _ => rfl, rfl, rfl, rfl, rfl⟩

theorem beginXfer (s : State) (accs : List Access) (grp : Bool) (dests : List Opnd) (qid : Nat) (srcs : List Opnd) :
    s.SameRegs (s.beginXfer accs grp dests qid srcs) := by
  have hdests : s.SameRegs (dests.foldl (State.claim qid) s) := List.foldlRecOn dests _ (refl s) fun t ht o _ => ht.trans (claim t o qid)
  rw [State.beginXfer_eq]
  exact (hdests.trans (number _ _)).trans (modCtx _ rfl rfl)

end State.SameRegs

theorem State.phase_beginXfer (s : State) (accs : List Access) (grp : Bool) (dests : List Opnd) (qid : Nat) (srcs : List Opnd) :
    (s.beginXfer accs grp dests qid srcs).ctx.phase = .accept accs grp (dests.map fun o => (o, s.holdOf o)) srcs := by
  simp only [State.beginXfer, State.ctx_modCtx]

/-! ### The parts of a transfer -/

/-- A byte range is cut into parts that lie in it. -/
theorem granuleParts_le {off va len : Nat} {p : Piece} (h : p ∈ granuleParts off va len) : p.va + p.len ≤ va + len := by
  unfold granuleParts at h
  split at h
  · cases h
  · obtain ⟨i, hi, rfl⟩ := List.mem_map.1 h
    have hi' := List.mem_range.1 hi
    dsimp only
    omega

theorem offsetsIn_ok {ps : List Piece} (h : ∀ p ∈ ps, p.va + p.len ≤ 2 ^ 22) : offsetsIn ps = .ok () := by
  have hnone : ps.find? (fun p => decide (2 ^ 22 < p.va + p.len)) = none :=
    List.find?_eq_none.2 fun p hp => by simpa using h p hp
  rw [offsetsIn, hnone]

end Sys2Proof.Machine

namespace Sys2Proof.Claims
open Sys2Proof.Machine

/-! ### Every transfer -/

theorem exec_of_finishWait {i : Instr} {s u : State} {r : Chk State} (he : exec i s = finishWait s r) (hr : r = .ok u) :
    exec i s = .next u.used := he.trans (congrArg (finishWait s) hr)

section
variable {s : State} {w : AForm} {base v : Word} {ps : List Piece}

theorem load_ok (scope : Nat) (acq : Bool) (hbase : s.srcS w.sa 2 (ftBit w 2) = .ok base) (hdst : s.dstS w.dst = .ok ())
    (hin : (eaOf base w.imm).toNat < 2 ^ 56) (hal : (eaOf base w.imm).toNat % (w.ty.width / 8) = 0)
    (hr : s.reach (flagParts false (granuleParts 0 (eaOf base w.imm).toNat (w.ty.width / 8))) none = .ok ps) :
    s.load w scope acq = .ok (s.xfer1 { (s.newAccess 0 (.loadS (sIdx w.dst) w.ty.signed (w.ty.width / 8)) (eaOf base w.imm).toNat ps) with
      scope := scope, acq := acq } [w.dst]) := by
  simp only [State.load, hbase, hdst, ok_bind, checks_ok hin hal hr, pure_eq_ok]

theorem storeS_ok (scope : Nat) (rel : Bool) (hbase : s.srcS w.sa 2 (ftBit w 2) = .ok base) (hv : s.srcS w.sb 3 (ftBit w 3) = .ok v)
    (hin : (eaOf base w.imm).toNat < 2 ^ 56) (hal : (eaOf base w.imm).toNat % (w.ty.width / 8) = 0)
    (hr : s.reach (flagParts true (granuleParts 0 (eaOf base w.imm).toNat (w.ty.width / 8))) none = .ok ps) :
    s.storeS w scope rel = .ok (s.xfer1 { (s.newAccess 0 (.store (natBytes (w.ty.width / 8) v.toNat)) (eaOf base w.imm).toNat ps) with
      scope := scope, rel := rel } []) := by
  simp only [State.storeS, hbase, hv, ok_bind, checks_ok hin hal hr, pure_eq_ok]

end

theorem exec_transfer {i : Instr} {s : State} {accs : List Access} {grp : Bool} {dests srcs : List Opnd} {qid : Nat}
    (h : Transfer s i accs grp dests qid srcs) : exec i s = .next (s.beginXfer accs grp dests qid srcs).used := by
  cases h with
  | ld w base ps hbase hd hin hal hr => exact exec_of_finishWait rfl (load_ok 0 false hbase hd hin hal hr)
  | lda w base ps hbase hd hin hal hr => exact exec_of_finishWait rfl (load_ok _ true hbase hd hin hal hr)
  | st w base v ps hbase hv hin hal hr => exact exec_of_finishWait rfl (storeS_ok 0 false hbase hv hin hal hr)
  | stl w base v ps hbase hv hin hal hr => exact exec_of_finishWait rfl (storeS_ok _ true hbase hv hin hal hr)
  | vld w base m d ps hbase hm hd hin hal hr =>
    refine exec_of_finishWait rfl ?_
    simp only [hbase, hm, hd, ok_bind, checks_ok hin hal hr]
    rfl
  | vst w base v m ps hbase hv hm hin hal hr =>
    refine exec_of_finishWait rfl ?_
    simp only [hbase, hv, hm, ok_bind, checks_ok hin hal hr]
    rfl
  | ldqV w base sc i dp kp hbase hsc hd hk hr =>
    refine exec_of_finishWait rfl ?_
    simp only [hbase, hsc, hd, hk, ok_bind, hr]
    rfl
  | ldqQ w base sc p i dp kp hbase hsc hd hk hr =>
    refine exec_of_finishWait rfl ?_
    simp only [hbase, hsc, hd, hk, ok_bind, hr]
    rfl
  | stq w base v k sc dp kp hbase hvk hsc hr =>
    refine exec_of_finishWait rfl ?_
    simp only [hbase, hvk, hsc, ok_bind, hr]
    rfl
  | kld w base ps hbase hd hin hal hr =>
    refine exec_of_finishWait rfl ?_
    simp only [hbase, hd, ok_bind, checks_ok hin hal hr]
    rfl
  | kst w base k ps hbase hk hin hal hr =>
    refine exec_of_finishWait rfl ?_
    simp only [hbase, hk, ok_bind, checks_ok hin hal hr]
    rfl
  | gathMask w base idx d m ps hbase hidx hd hm hk hal hr =>
    simp only [bytesOf] at hal hr
    rw [hm] at hk
    refine exec_of_finishWait rfl ?_
    simp only [hbase, hidx, hd, hm, hk, ok_bind, checkAlign_ok hal, hr]
    rfl
  | gath w base idx d ps hbase hidx hd hm hal hr =>
    simp only [bytesOf] at hal hr
    have hk : s.dstK .null = .ok () := rfl
    refine exec_of_finishWait rfl ?_
    simp only [hbase, hidx, hd, hm, hk, ok_bind, checkAlign_ok hal, hr]
    rfl
  | scat w base idx v ps hbase hidx hv hal hr =>
    simp only [bytesOf] at hal hr
    refine exec_of_finishWait rfl ?_
    simp only [hbase, hidx, hv, ok_bind, checkAlign_ok hal, hr]
    rfl
  | copy w dst src len ps hdst hsrc hlen hal hal' hlal hpos hmax hr =>
    simp only [exec, execCopy, hdst, hsrc, hlen, ok_bind, checkAlign_ok hal, checkAlign_ok hal', checkAlign_ok hlal,
      trapIf_ok (decide_eq_false (Nat.not_le.2 hmax)), if_neg (ne_zero_of_toNat_pos hpos), length_flagParts, hr]
    rfl
  | fill w dst pat len ps hdst hpat hlen hal hlal hpos hmax hr =>
    simp only [exec, execFill, hdst, hpat, hlen, ok_bind, checkAlign_ok hal, checkAlign_ok hlal,
      trapIf_ok (decide_eq_false (Nat.not_le.2 hmax)), if_neg (ne_zero_of_toNat_pos hpos), hr]
    rfl
  | atom w ea b c ps hea hb hc hd hal hr =>
    simp only [bytesOf] at hal hr
    have hacq : (w.imm.toNat % 4 == 1 || w.imm.toNat % 4 == 3) = decide (w.imm.toNat % 4 = 1 ∨ w.imm.toNat % 4 = 3) := by
      rw [Bool.decide_or]
      rfl
    have hrel : (w.imm.toNat % 4 == 2 || w.imm.toNat % 4 == 3) = decide (2 ≤ w.imm.toNat % 4) := by
      rw [Bool.eq_iff_iff, Bool.or_eq_true, beq_iff_eq, beq_iff_eq, decide_eq_true_eq]
      omega
    refine exec_of_finishWait rfl ?_
    simp only [hea, hb, hc, hd, ok_bind, checkAlign_ok hal, hr, hacq, hrel]
    rfl
  | mcstS w off x g hoff hsb hx hg hal hin hc =>
    obtain ⟨i, hi⟩ := hsb
    rw [hi] at hx
    refine exec_of_finishWait rfl ?_
    simp only [hoff, hi, hx, hg, ok_bind, pure_eq_ok, if_true, checkAlign_ok hal,
      offsetsIn_ok fun p hp => (granuleParts_le hp).trans hin, hc]
  | mcstV w off x g hoff hsb hx hg hal hin hc =>
    have hn : ¬((256 : Nat) = 8) := by decide
    refine exec_of_finishWait rfl ?_
    simp only [hoff, hx, hg, ok_bind, pure_eq_ok, if_neg hn, checkAlign_ok hal,
      offsetsIn_ok fun p hp => (granuleParts_le hp).trans hin, hc]
  | redst w base v m ps hbase hv hm hone hal hr =>
    refine exec_of_finishWait rfl ?_
    simp only [hbase, hv, hm, ok_bind, if_neg hone, checkAlign_ok hal, hr]
    rfl
  | redstGroup w base v m g hbase hv hm hone hg hal hin hc =>
    refine exec_of_finishWait rfl ?_
    simp only [hbase, hv, hm, ok_bind, if_pos hone, hg, checkAlign_ok hal, offsetsIn_ok hin, hc]
    rfl
  | qpushS w a x ps ha hsb hx hal hr =>
    obtain ⟨i, hi⟩ := hsb
    rw [hi] at hx
    refine exec_of_finishWait rfl ?_
    simp only [ha, hi, hx, ok_bind, pure_eq_ok, State.descriptor_ok hal hr]
    rfl
  | qpushV w a x ps ha hsb hx hal hr =>
    refine exec_of_finishWait rfl ?_
    simp only [ha, hx, ok_bind, pure_eq_ok, State.descriptor_ok hal hr]
    rfl
  | qpopS w a i ps ha hi hd hal hr =>
    rw [hi] at hd
    refine exec_of_finishWait rfl ?_
    simp only [ha, hi, hd, ok_bind, pure_eq_ok, State.descriptor_ok hal hr]
    rfl
  | qpopV w a d ps ha hdst hd hal hr =>
    refine exec_of_finishWait rfl ?_
    simp only [ha, hd, ok_bind, pure_eq_ok, State.descriptor_ok hal hr]
    rfl
  | msgsend w a len tg ps ha hlen htg hpos hmax hlow hmid hcl hmod hal hr =>
    have h8 : bitsNat tg.toNat 8 0 = tg.toNat % 2 ^ 9 := rfl
    have h21 : bitsNat tg.toNat 21 16 = tg.toNat / 2 ^ 16 % 2 ^ 6 := bitsNat_eq_div _
    have h63 : bitsNat tg.toNat 63 32 = tg.toNat / 2 ^ 32 :=
      (bitsNat_eq_div _).trans (Nat.mod_eq_of_lt (Nat.div_lt_of_lt_mul tg.isLt))
    refine exec_of_finishWait rfl ?_
    simp only [ha, hlen, htg, ok_bind, trapIf_ok (msg_size_ok hpos hmax), trapIf_ok (msg_target_ok hlow hmid hcl hmod), checkAlign_ok hal, hr]
    simp only [h8, h21, h63]
    rfl

/-- R180 to R205: a transfer at issue claims its destinations and waits. -/
theorem transfersIssue : TransfersIssue := by
  rintro i s t accs grp dests srcs qid h rfl
  have hsame := (State.SameRegs.beginXfer s accs grp dests qid srcs).trans (.used _)
  exact ⟨exec_transfer h, hsame.reads.sameBytes, hsame.pc, by rw [State.ctx_used, State.phase_beginXfer], hsame.regs, hsame.v, hsame.k,
    hsame.others⟩

/-! ### The words that complete at once (13 R194, R200 to R202, R208) -/

theorem fenceWord_exec {w : AForm} {i : Instr} {n : Nat} (h : fenceWord w i n) (s : State) : exec i s = s.fence w n := by
  simp only [fenceWord, List.mem_cons, List.not_mem_nil, or_false, Prod.mk.injEq] at h
  rcases h with ⟨rfl, rfl⟩ | ⟨rfl, rfl⟩ | ⟨rfl, rfl⟩ | ⟨rfl, rfl⟩ <;> rfl

theorem fence_first {s : State} {w : AForm} (n : Nat) (hd : s.dstS w.dst = .ok ()) (hp : s.ctx.phase = .body) :
    s.fence w n = if ({ s with seq := s.seq + 1 } : State).fenceOpen s.cur.1 (queOf s.cur.2) (fenceFrom s w n) then
        .next (({ s with seq := s.seq + 1 } : State).modCtx fun e => { e with phase := .fence (fenceFrom s w n) }).used
      else finish { s with seq := s.seq + 1 } 3 (.ok (({ s with seq := s.seq + 1 } : State).endFence w (queOf s.cur.2) (fenceFrom s w n))) := by
  simp only [State.fence, hd, hp]
  rfl

theorem fence_again {s : State} {w : AForm} {f : FenceRec} (n : Nat) (hd : s.dstS w.dst = .ok ()) (hp : s.ctx.phase = .fence f) :
    s.fence w n = if s.fenceOpen s.cur.1 (queOf s.cur.2) f then .next (s.modCtx fun e => { e with phase := .fence f }).used
      else finish s 3 (.ok (s.endFence w (queOf s.cur.2) f)) := by
  simp only [State.fence, hd, hp]

end Sys2Proof.Claims

namespace Sys2Proof.Machine

theorem State.ctx_mapShown (s : State) (f : Nat → Access → Shown → Shown) : (s.mapShown f).ctx = s.ctx := by
  have hcx := congrArg (fun k : Cluster => k.cx s.cur.2) (s.cl_mapShown f s.cur.1)
  exact hcx

/-- What an acquiring fence takes up is what A-dies have not seen. -/
theorem State.sameReads_synced (s : State) (f : FenceRec) : s.SameReads (s.synced f) := by
  unfold State.synced
  split
  · exact .modADie s _ fun _ => ⟨_, rfl⟩
  · exact .refl s

theorem State.ctx_synced (s : State) (f : FenceRec) : (s.synced f).ctx = s.ctx := by
  unfold State.synced
  split <;> rfl

theorem State.sameReads_fenceSync (s : State) (own : Nat) (f : FenceRec) : s.SameReads (s.fenceSync own f) := by
  unfold State.fenceSync
  split
  · exact .refl s
  · exact .mapShown s _

theorem State.ctx_fenceSync (s : State) (own : Nat) (f : FenceRec) : (s.fenceSync own f).ctx = s.ctx := by
  unfold State.fenceSync
  split
  · rfl
  · exact s.ctx_mapShown _

theorem State.sameReads_putOpnd (s : State) (o : Opnd) (v : Word) : s.SameReads (s.putOpnd o v) := by
  cases o with
  | s i => exact (State.SameReads.modMe s _).trans (.modCtx _ _)
  | p i => exact .modCtx s _
  | b i => exact .modCtx s _
  | _ => exact .refl s

theorem State.sameReads_endFence (s : State) (w : AForm) (own : Nat) (f : FenceRec) : s.SameReads (s.endFence w own f) :=
  ((((State.SameReads.modMe s _).trans (State.sameReads_synced _ f)).trans (State.sameReads_fenceSync _ own f)).trans
    (State.sameReads_putOpnd _ _ _)).trans (.modCtx _ _)

theorem sameCourse_endFence (s : State) (w : AForm) (own : Nat) (f : FenceRec) : Ctx.sameCourse s.ctx (s.endFence w own f).ctx := by
  have hfails (g : Cluster → SMap FailRec) : (s.modMe fun k => { k with fails := g k }).ctx = s.ctx := State.ctx_modMe s _ rfl
  unfold State.endFence
  rw [State.ctx_modCtx]
  refine Ctx.sameCourse.trans ?_ (sameCourse_putOpnd _ w.dst _)
  rw [State.ctx_fenceSync, State.ctx_synced, hfails]
  exact Ctx.sameCourse_refl _

/-- A line enters the Die Cache of a ring die. -/
theorem State.sameReads_fillLine (s : State) (t pa : Nat) : s.SameReads (s.fillLine t pa) := by
  unfold State.fillLine
  dsimp only
  split
  · exact .modRing s t fun _ => ⟨_, rfl⟩
  · exact .refl s

theorem State.ctx_fillLine (s : State) (t pa : Nat) : (s.fillLine t pa).ctx = s.ctx := by
  unfold State.fillLine
  dsimp only
  split <;> rfl

end Sys2Proof.Machine

namespace Sys2Proof.Claims
open Sys2Proof.Machine

/-- One granule that PREF names: where it may be read it enters the Die Cache. -/
def prefStep (s t : State) (p : Piece) : State :=
  match s.translate s.cur.1 (s.me.asid s.cur.2) p.va with
  | some (pa, _) => if s.mayAccess (masterOf s.cur.1 s.cur.2) bitR pa then t.fillLine (dieOf s.cur.1) pa else t
  | none => t

theorem prefStep_keeps (s t : State) (p : Piece) : t.SameReads (prefStep s t p) ∧ (prefStep s t p).ctx = t.ctx := by
  unfold prefStep
  split
  · split
    · exact ⟨t.sameReads_fillLine _ _, t.ctx_fillLine _ _⟩
    · exact ⟨.refl t, rfl⟩
  · exact ⟨.refl t, rfl⟩

/-- PREF changes lines of Die Caches alone. -/
theorem prefetch_keeps (s : State) (ps : List Piece) :
    s.SameReads (ps.foldl (prefStep s) s) ∧ (ps.foldl (prefStep s) s).ctx = s.ctx :=
  List.foldlRecOn (motive := fun t => s.SameReads t ∧ t.ctx = s.ctx) ps (prefStep s) ⟨.refl s, rfl⟩ fun t ht p _ =>
    ⟨ht.1.trans (prefStep_keeps s t p).1, (prefStep_keeps s t p).2.trans ht.2⟩

theorem sameCourse_of_eq {e f : Ctx} (h : f = e) : Ctx.sameCourse e f := h ▸ Ctx.sameCourse_refl e

theorem sameReads_of_atOnce {i : Instr} {s u : State} (h : AtOnce s i u) : s.SameReads u := by
  cases h with
  | copyNone w dst src => exact .refl s
  | fillNone w dst pat => exact .refl s
  | fenceAcq w f => exact s.sameReads_endFence w _ f
  | fenceRel w f => exact s.sameReads_endFence w _ f
  | fenceAr w f => exact s.sameReads_endFence w _ f
  | fenceSc w f => exact s.sameReads_endFence w _ f
  | fenceNow w n i => exact (State.SameReads.withClusters s s.clusters (s.seq + 1)).trans (State.sameReads_endFence _ w _ _)
  | qfence w => exact (State.SameReads.withClusters s s.clusters (s.seq + 1)).trans (.modMe _ _)
  | pref w a len => exact (prefetch_keeps s _).1
  | prefDropped w t => exact .refl s

theorem gives_of_atOnce {i : Instr} {s u : State} (h : AtOnce s i u) (hs : Straight s 3) : Gives i s u := by
  have hfence (w : AForm) (f : FenceRec) (n : Nat) (hi : fenceWord w i n) (hd : s.dstS w.dst = .ok ()) (hp : s.ctx.phase = .fence f)
      (hopen : s.fenceOpen s.cur.1 (queOf s.cur.2) f = false) : Gives i s (s.endFence w (queOf s.cur.2) f) := by
    refine gives_of_finish (len := 3) ?_ rfl hs (sameCourse_endFence ..)
    rw [fenceWord_exec hi, fence_again n hd hp, hopen]
    rfl
  cases h with
  | copyNone w dst src hdst hsrc hlen hal hal' =>
    refine gives_of_finish (len := 3) (r := .ok s) ?_ rfl hs (Ctx.sameCourse_refl _)
    simp only [exec, execCopy, hdst, hsrc, hlen, ok_bind, checkAlign_ok hal, checkAlign_ok hal']
    rfl
  | fillNone w dst pat hdst hpat hlen hal =>
    refine gives_of_finish (len := 3) (r := .ok s) ?_ rfl hs (Ctx.sameCourse_refl _)
    simp only [exec, execFill, hdst, hpat, hlen, ok_bind, checkAlign_ok hal]
    rfl
  | fenceAcq w f hd hp hopen => exact hfence w f 0 (by simp [fenceWord]) hd hp hopen
  | fenceRel w f hd hp hopen => exact hfence w f 1 (by simp [fenceWord]) hd hp hopen
  | fenceAr w f hd hp hopen => exact hfence w f 2 (by simp [fenceWord]) hd hp hopen
  | fenceSc w f hd hp hopen => exact hfence w f 3 (by simp [fenceWord]) hd hp hopen
  | fenceNow w n i hi hd hp hopen =>
    refine gives_of_finish (len := 3) ?_ rfl hs (sameCourse_endFence { s with seq := s.seq + 1 } ..)
    rw [fenceWord_exec hi, fence_first n hd hp, hopen]
    rfl
  | qfence w => exact gives_of_finish (len := 3) rfl rfl hs (sameCourse_modMe { s with seq := s.seq + 1 } _ rfl)
  | pref w a len ha hlen =>
    refine gives_of_finish (len := 3) (r := .ok _) ?_ rfl hs (sameCourse_of_eq (prefetch_keeps s _).2)
    simp only [exec, execPref, ha, hlen]
    rfl
  | prefDropped w t ha hlen =>
    obtain ⟨len, hlen⟩ := hlen
    refine gives_of_finish (len := 3) (r := .ok s) ?_ rfl hs (Ctx.sameCourse_refl _)
    simp only [exec, execPref, ha, hlen]
    rfl

/-- Settles O14: past its checks a transfer only claims its destinations, and the words that complete at once change nothing that is read. -/
theorem transfers : Obligations.Transfers :=
  ⟨transfersIssue, fun _ _ _ h hs => ⟨gives_of_atOnce h hs, (sameReads_of_atOnce h).sameBytes⟩⟩

end Sys2Proof.Claims
end

section
/-! PROOFS. FENCE waits and answers (13 R200, R201, 21 R303): O15. -/

namespace Sys2Proof.Machine

/-! ### A completed word waits for nothing (11 R141) -/

/-- The context is about to issue a word or a header. -/
def Ctx.ready (e : Ctx) : Prop := e.phase = .body ∨ e.phase = .header

theorem State.phase_takeTrap (s : State) (c x : Nat) (pc : Parcel) (t : Trap) : (s.takeTrap c x pc t).ctx.phase = s.ctx.phase := by
  have hheld := State.held_takeTrap (ρ := Ctx.phase) (fun _ _ => rfl) (fun _ _ _ _ => rfl) s c x pc t s.cur.1 s.cur.2
  rw [State.ctx, State.me, State.cur_takeTrap]
  exact State.cx_of_held hheld

theorem State.ready_leaveTo (s : State) (a : Parcel) : (s.leaveTo a).ctx.ready := by
  rw [State.leaveTo, State.ctx_modCtx]
  exact .inr rfl

theorem State.ready_goto {s t : State} {a : Parcel} (h : s.goto a = .ok t) : t.ctx.ready := by
  unfold State.goto at h
  split at h
  · cases h
    rw [State.ctx_modCtx]
    exact .inl rfl
  · split at h <;> cases h
    · exact s.ready_leaveTo a
    · rw [Ctx.ready, State.phase_takeTrap]
      exact s.ready_leaveTo a

theorem State.ready_arrive {s t : State} {a : Parcel} (h : s.arrive a = .ok t) : t.ctx.ready := by
  unfold State.arrive at h
  split at h
  · cases h
    exact s.ready_leaveTo a
  · exact State.ready_goto h

theorem State.ready_preemptPoint {s : State} (h : s.ctx.ready) : s.preemptPoint.ctx.ready := by
  obtain ⟨b, hb⟩ := s.ctx_preemptPoint
  rw [hb]
  exact h

theorem State.ready_succeed {s : State} (nx : Parcel) (h : s.ctx.ready) : (s.succeed nx).ctx.ready := by
  simp only [State.succeed]
  split
  next t ht =>
    have hready : t.ctx.ready := by
      split at ht
      · exact State.ready_goto ht
      · exact State.ready_arrive ht
    split
    · exact State.ready_preemptPoint hready
    · exact hready
  next t ht =>
    rw [Ctx.ready, State.phase_takeTrap]
    exact h
  next => exact h

theorem State.ready_complete {s : State} (len : Nat) (h : s.ctx.ready) : (s.complete len).ctx.ready := by
  rw [State.complete, State.ctx_issuedWord]
  exact State.ready_succeed _ h

/-! ### What a fence's end writes -/

/-- The status that a fence ends with. -/
def State.fenceAnswer (s : State) (own : Nat) (f : FenceRec) : Word :=
  fenceStatus s.me (coveredQueues own f.mask) ((s.me.mq ++ s.me.accepting).any fun a =>
    a.isOpen && !a.doneAt f.scope && a.before own f.mask f.id f.cyc && a.op.writes)

theorem State.ready_endFence (s : State) (w : AForm) (own : Nat) (f : FenceRec) : (s.endFence w own f).ctx.ready := by
  rw [State.endFence, State.ctx_modCtx]
  exact .inl rfl

theorem State.getS_endFence (s : State) {w : AForm} {d : BitVec 6} (hd : w.dst = .s d) (own : Nat) (f : FenceRec) :
    (s.endFence w own f).ctx.getS d.toNat = s.fenceAnswer own f := by
  simp only [State.endFence, State.ctx_modCtx, hd, State.ctx_putOpnd_s]
  exact Ctx.getS_putS_same _ _ _

theorem SMap.get?_filter_key {α : Type} (p : Nat → Bool) (m : SMap α) (q : Nat) :
    SMap.get? (m.filter fun e => p e.1) q = if p q then SMap.get? m q else none := by
  induction m with
  | nil => simp [SMap.get?]
  | cons e m ih =>
    obtain ⟨k, v⟩ := e
    by_cases hq : q = k
    · subst hq
      by_cases hp : p q <;> simp [SMap.get?, hp, ih]
    · by_cases hp : p k <;> simp [SMap.get?, hp, hq, ih]

theorem State.fails_putOpnd (s : State) (o : Opnd) (v : Word) : (s.putOpnd o v).me.fails = s.me.fails := by
  cases o with
  | s i => rw [State.putOpnd, State.me_modCtx, State.me_modMe]; rfl
  | p i => rw [State.putOpnd, State.me_modCtx]; rfl
  | b i => rw [State.putOpnd, State.me_modCtx]; rfl
  | _ => rfl

theorem State.fails_fenceSync (s : State) (own : Nat) (f : FenceRec) : (s.fenceSync own f).me.fails = s.me.fails := by
  unfold State.fenceSync
  split
  · rfl
  · have hcl := congrArg Cluster.fails (s.cl_mapShown (fun j b v =>
      if j == s.cur.1 && b.before own f.mask f.id f.cyc then { v with seen := v.seen ++ [.cluster s.cur.1 f.id] } else v) s.cur.1)
    exact hcl

theorem State.fails_synced (s : State) (f : FenceRec) : (s.synced f).me.fails = s.me.fails := by
  unfold State.synced
  split <;> rfl

/-- A fence's end clears the failure records of the queues it covers. -/
theorem State.fails_endFence (s : State) (w : AForm) (own : Nat) (f : FenceRec) :
    (s.endFence w own f).me.fails = s.me.fails.filter fun e => !(coveredQueues own f.mask).contains e.1 := by
  have hmodCtx (t : State) (g : Ctx → Ctx) : (t.modCtx g).me.fails = t.me.fails := by
    rw [State.me_modCtx]
    rfl
  rw [State.endFence, hmodCtx, State.fails_putOpnd, State.fails_fenceSync, State.fails_synced, State.me_modMe]

theorem mem_coveredQueues {own : Nat} {mask : BitVec 6} {q : Nat} :
    q ∈ coveredQueues own mask ↔ q < 6 ∧ (q = own ∨ mask.getLsbD q = true) := by
  simp [coveredQueues]

/-! ### The bits of the status word (13 R201) -/

theorem statusWord_fields (b0 b1 b2 b3 : Bool) {m : Nat} (f : Nat) (hm : m ≤ 255) :
    let v := BitVec.ofNat 64 ((if b0 then 2 ^ 0 else 0) + (if b1 then 2 ^ 1 else 0) + (if b2 then 2 ^ 2 else 0) + (if b3 then 2 ^ 3 else 0) +
      m * 2 ^ 8 + f * 2 ^ 16)
    v.getLsbD 0 = b0 ∧ v.getLsbD 1 = b1 ∧ v.getLsbD 2 = b2 ∧ v.getLsbD 3 = b3 ∧ v.toNat / 2 ^ 8 % 2 ^ 8 = m := by
  have hflag (b : Bool) (i : Nat) : (if b then 2 ^ i else 0) = b.toNat * 2 ^ i := by cases b <;> simp
  have hbit (n i : Nat) (b : Bool) (hi : i < 64) (h : n / 2 ^ i % 2 = b.toNat) : (BitVec.ofNat 64 n).getLsbD i = b := by
    rw [BitVec.getLsbD_ofNat, decide_eq_true hi, Bool.true_and, Nat.testBit_eq_decide_div_mod_eq, h]
    cases b <;> rfl
  have h0 := b0.toNat_le
  have h1 := b1.toNat_le
  have h2 := b2.toNat_le
  have h3 := b3.toNat_le
  simp only [hflag]
  refine ⟨hbit _ 0 b0 (by decide) ?_, hbit _ 1 b1 (by decide) ?_, hbit _ 2 b2 (by decide) ?_, hbit _ 3 b3 (by decide) ?_, ?_⟩
  · omega
  · omega
  · omega
  · omega
  · rw [BitVec.toNat_ofNat]
    omega

/-- How many stores of the queues have failed, each once. -/
def Cluster.failures (k : Cluster) (qs : List Nat) : Nat := (qs.map fun q => (SMap.get FailRec.empty k.fails q).ids.length).sum
/-- A failure of the queues is of a kind. -/
def Cluster.failed (k : Cluster) (p : FailRec → Bool) (qs : List Nat) : Bool := qs.any fun q => p (SMap.get FailRec.empty k.fails q)

theorem Cluster.failed_iff {k : Cluster} {p : FailRec → Bool} {qs : List Nat} :
    k.failed p qs = true ↔ ∃ q ∈ qs, p (SMap.get FailRec.empty k.fails q) = true := List.any_eq_true

theorem fenceStatus_eq (k : Cluster) (qs : List Nat) (o : Bool) : ∃ f, fenceStatus k qs o =
    BitVec.ofNat 64 ((if k.failures qs == 0 && !o then 2 ^ 0 else 0) + (if k.failed FailRec.dead qs then 2 ^ 1 else 0) +
      (if k.failed FailRec.ref qs then 2 ^ 2 else 0) + (if k.failed FailRec.tmo qs then 2 ^ 3 else 0) + min (k.failures qs) 255 * 2 ^ 8 +
      f * 2 ^ 16) := by
  simp only [fenceStatus, List.map_map, List.any_map]
  exact ⟨_, rfl⟩

end Sys2Proof.Machine

namespace Sys2Proof.Claims
open Sys2Proof.Machine

/-- R200, R303: a fence that something it covers holds waits. -/
theorem fencesWait : FencesWait := by
  intro w s n i hi hd
  rw [fenceWord_exec hi]
  refine ⟨fun hp hopen => ?_, fun f hp hopen => ?_⟩
  · rw [fence_first n hd hp, hopen]
    rfl
  · rw [fence_again n hd hp, hopen]
    rfl

/-- R200, R201: a fence that nothing holds any more answers with its status. -/
theorem fencesAnswer : FencesAnswer := by
  intro w s n i d f hi hdst hd hp hopen hs
  let u := s.endFence w (queOf s.cur.2) f
  have hexec : exec i s = .next (u.complete 3) := by
    rw [fenceWord_exec hi, fence_again n hd hp, hopen]
    rfl
  have hseq : OnlySequencing u (u.complete 3) := .complete (hs.of_same (sameCourse_endFence ..))
  have hready : (u.complete 3).ctx.ready := State.ready_complete 3 (State.ready_endFence ..)
  refine ⟨_, _, hexec, fun hf => ?_, (hseq.getS _).trans (State.getS_endFence s hdst _ f), ?_⟩
  · rcases hready with h | h <;> rw [hf] at h <;> cases h
  · simp only [List.any_eq_true, Bool.and_eq_true, Bool.not_eq_true']
    exact exists_congr fun a => and_congr_right fun _ =>
      ⟨fun ⟨⟨⟨ho, hn⟩, hb⟩, hw⟩ => ⟨ho, hn, hw, hb⟩, fun ⟨ho, hn, hw, hb⟩ => ⟨⟨⟨ho, hn⟩, hb⟩, hw⟩⟩

/-- R201: the fields of a fence's status, and the failures counted anew. -/
theorem fenceStatus_fields : FenceStatus := by
  refine ⟨fun k qs o => ?_, fun s w own f q => ?_⟩
  · obtain ⟨first, hv⟩ := fenceStatus_eq k qs o
    obtain ⟨h0, h1, h2, h3, hn⟩ := statusWord_fields (k.failures qs == 0 && !o) (k.failed FailRec.dead qs) (k.failed FailRec.ref qs)
      (k.failed FailRec.tmo qs) first (Nat.min_le_right (k.failures qs) 255)
    rw [← hv] at h0 h1 h2 h3 hn
    refine ⟨?_, ?_, ?_, ?_, hn⟩
    · rw [h0, Bool.and_eq_true, beq_iff_eq, Bool.not_eq_true']
      rfl
    · rw [h1, Cluster.failed_iff]
    · rw [h2, Cluster.failed_iff]
    · rw [h3, Cluster.failed_iff]
  · rw [State.fails_endFence, SMap.get?_filter_key fun k => !(coveredQueues own f.mask).contains k]
    by_cases hq : q ∈ coveredQueues own f.mask
    · rw [if_pos (mem_coveredQueues.1 hq), if_neg (by simpa using hq)]
    · rw [if_neg (mt mem_coveredQueues.2 hq), if_pos (by simpa using hq)]

/-- Settles O15: a fence waits by fenceOpen, answers by endFence, and its status word is a sum of flags and fields. -/
theorem fences : Obligations.Fences := ⟨fencesWait, fencesAnswer, fenceStatus_fields⟩

end Sys2Proof.Claims
end

section
/-! PROOFS. Transfers are accepted, and queues in memory answer at their home (13 R181, R182, R199, R203, R204): O16. -/

namespace Sys2Proof.Machine

/-! ### Acceptance (13 R182, R199) -/

section
variable {c x : Nat} {far : FarMap} {s : State} {accs : List Access} {undo : List (Opnd × Option Hold)} {pops : List Opnd} {g : Bool}

theorem foldAcc_farFail_of_near (hw : ∀ a ∈ accs, ∀ p ∈ a.pieces ++ a.sources, s.isFar p.pa = false) :
    foldAcc (fun s a => s.farFail c far a) s accs = (s, accs) := by
  induction accs with
  | nil => rfl
  | cons a as ih =>
    simp only [foldAcc, farFail_of_near (hw a (List.mem_cons_self ..)), ih fun b hb => hw b (List.mem_cons_of_mem a hb)]
    rfl

theorem any_dead_of_plain (ho : ∀ a ∈ accs, Claims.plainOp a.op = true ∧ a.fail ≠ some .deadlink)
    (hw : ∀ a ∈ accs, ∀ p ∈ a.pieces ++ a.sources, s.deadPath c p.pa = false) :
    (accs.any fun a => s.accessDead c a || a.fail == some .deadlink) = false := by
  refine List.any_eq_false.2 fun a ha => ?_
  rw [accessDead_of_plain (ho a ha).1 (hw a ha), beq_false_of_ne (ho a ha).2]
  exact Bool.false_ne_true

/-- Accesses of this module over live links, none of which their home answers for itself: they trap, or enter their queue. -/
theorem exec_plainAccepted (hp : ((s.cl c).cx x).phase = .accept accs false undo pops)
    (ho : ∀ a ∈ accs, Claims.plainOp a.op = true ∧ a.fail ≠ some .deadlink)
    (hw : ∀ a ∈ accs, ∀ p ∈ a.pieces ++ a.sources, s.deadPath c p.pa = false ∧ s.isFar p.pa = false) :
    exec (.accessAccepted c x far) s = .next (match s.acceptTrap c x accs far with
      | some t => s.trapXfer c x accs undo t
      | none => s.enterQueue c x accs pops) := by
  have hdead := any_dead_of_plain ho fun a ha p hq => (hw a ha p hq).1
  have hfold : foldAcc (fun s a => s.farFail c far a) s accs = (s, accs) := foldAcc_farFail_of_near fun a ha p hq => (hw a ha p hq).2
  have hhead {o : MemOp} (h : accs.head?.map Access.op = some o) : Claims.plainOp o = true := by
    obtain ⟨a, ha, rfl⟩ := Option.map_eq_some_iff.1 h
    exact (ho a (List.mem_of_head? ha)).1
  change execAccessAccepted c x far s = _
  simp only [execAccessAccepted, hp, hdead, Bool.false_eq_true, if_false]
  split
  next hop => exact nomatch hhead hop
  next hop => exact nomatch hhead hop
  next hop => exact nomatch hhead hop
  next =>
    cases s.acceptTrap c x accs far with
    | some t => rfl
    | none => simp only [hfold]

/-- A group store, each of whose destinations permits it. -/
theorem groupAnswers_permitted (h : ∀ a ∈ accs, s.roAt [a] [] = none ∧ s.refusedAt c x [a] [] = none) :
    s.groupAnswers c x accs undo pops = s.enterQueue c x accs pops := by
  have hro : (accs.findSome? fun a => s.roAt [a] []) = none := List.findSome?_eq_none_iff.2 fun a ha => (h a ha).1
  have hbad : (accs.filterMap fun a => (s.refusedAt c x [a] []).map fun p => (a, p)) = [] :=
    List.filterMap_eq_nil_iff.2 fun a ha => by rw [(h a ha).2]; rfl
  have hgood : (accs.filter fun a => (s.refusedAt c x [a] []).isNone) = accs := List.filter_eq_self.2 fun a ha => by rw [(h a ha).2]; rfl
  simp only [State.groupAnswers, hro, hbad, hgood]

end

/-! ### What an accepted word leaves -/

theorem State.p_accepted (s : State) (c x : Nat) (pops : List Opnd) (d y : Nat) :
    (s.accepted c x pops).held Ctx.p d y = s.held Ctx.p d y :=
  (State.p_finishWord _ c x 3 d y).trans (State.held_modCl c (fun _ => rfl) (fun _ => rfl) fun _ => rfl)

theorem State.cl_markXstIf (s : State) (c : Nat) (b : Bool) (d : Nat) : (s.markXstIf c b).cl d = s.cl d := by
  unfold State.markXstIf State.modTaskOn
  split
  · split <;> rfl
  · rfl

/-- What a refused transfer gives back are holds and queue entries. -/
theorem Cluster.undo1_keeps (k : Cluster) (x : Nat) (ids : List Nat) (u : Opnd × Option Hold) :
    (k.undo1 x ids u).v = k.v ∧ (k.undo1 x ids u).mq = k.mq := by
  obtain ⟨o, v⟩ := u
  cases o <;> exact ⟨rfl, rfl⟩

theorem Cluster.undo_keeps (k : Cluster) (x : Nat) (ids : List Nat) (us : List (Opnd × Option Hold)) :
    (us.foldl (fun k u => k.undo1 x ids u) k).v = k.v ∧ (us.foldl (fun k u => k.undo1 x ids u) k).mq = k.mq :=
  List.foldlRecOn (motive := fun j : Cluster => j.v = k.v ∧ j.mq = k.mq) us _ ⟨rfl, rfl⟩ fun j hj u _ =>
    ⟨(j.undo1_keeps x ids u).1.trans hj.1, (j.undo1_keeps x ids u).2.trans hj.2⟩

theorem State.p_undo (s : State) (c x : Nat) (ids : List Nat) (us : List (Opnd × Option Hold)) (d y : Nat) :
    (s.modCl c fun k => us.foldl (fun k u => k.undo1 x ids u) k).held Ctx.p d y = s.held Ctx.p d y := by
  by_cases h : d = c
  · subst h
    obtain ⟨hv, hmq⟩ := (s.cl d).undo_keeps x ids us
    obtain ⟨g, hg⟩ := (s.cl d).cx_undo x ids us y
    rw [State.held, State.cl_modCl_same, hv, hmq, hg]
    rfl
  · rw [State.held, State.cl_modCl_ne _ _ h]
    rfl

theorem State.getP_of_held {s t : State} {c x : Nat} (h : t.held Ctx.p c x = s.held Ctx.p c x) (n : Nat) :
    ((t.cl c).cx x).getP n = ((s.cl c).cx x).getP n := by
  have hp : ((t.cl c).cx x).p = ((s.cl c).cx x).p := State.cx_of_held h
  rw [Ctx.getP, hp, ← Ctx.getP]

theorem State.getP_enterQueue (s : State) (c x : Nat) (accs : List Access) (pops : List Opnd) (n : Nat) :
    (((s.enterQueue c x accs pops).cl c).cx x).getP n = ((s.cl c).cx x).getP n := by
  rw [State.enterQueue, State.getP_of_held (State.p_accepted ..), State.cl_modCl_same, State.markXst, State.cl_markXstIf]
  rfl

/-- An access with something left to do stands in its queue. -/
theorem State.mem_mq_enterQueue (s : State) (c x : Nat) {a : Access} {accs : List Access} (pops : List Opnd) (ha : a ∈ accs)
    (hn : a.landsNothing = false) : a ∈ ((s.enterQueue c x accs pops).cl c).mq := by
  rw [State.enterQueue, State.mq_of_held (State.p_accepted _ c x pops c x), State.cl_modCl_same]
  refine List.mem_append_right _ (List.mem_filter.2 ⟨ha, ?_⟩)
  rw [hn, Bool.and_false]
  rfl

theorem State.put_eq_store (s : State) (m : Nat) {pa : Nat} (bs : List Byte) (h : isCfg pa = false) : s.put m pa bs = s.store pa bs := by
  rw [State.put, h]
  rfl

/-! ### The home of a queue (13 R204) -/

section
variable {s : State} {m c pa va : Nat} {asid : BitVec 8} {small : Bool} {far : FarMap} {d : QDesc}

/-- The checks of a descriptor before it is read: it lies in this module, may be accessed and written, and its word is good. -/
structure State.DescGood (s : State) (m pa : Nat) : Prop where
  near : s.isFar pa = false
  may : s.mayAccess m bitA pa = true
  plain : s.isRo pa = false
  good : s.badAt pa 64 = false

/-- The trap of a descriptor that is malformed, or of another entry size. -/
def paramTrap (va : Nat) : Trap := { cause := .param, info := some (BitVec.ofNat 64 va), tgt := 0xFF }

theorem State.queueAt_malformed (h : s.DescGood m pa) (src : Option (List Byte)) (hd : qdescOf (s.bytes pa 64) = none ∨
      ∃ d, qdescOf (s.bytes pa 64) = some d ∧ small = true ∧ d.esz ≠ 8) :
    s.queueAt m c asid va pa src small far = .trap (paramTrap va) := by
  simp only [State.queueAt, State.queueOn, State.farNone, h.near, h.may, h.plain, h.good, Bool.false_and, Bool.or_self, Bool.not_true,
    Bool.false_eq_true, if_false]
  rcases hd with hd | ⟨d, hd, hs, hsz⟩
  · simp only [hd]
    rfl
  · simp only [hd, hs, bne_iff_ne.2 hsz, Bool.and_self, if_true]
    rfl

theorem State.queueAt_stuck (h : s.DescGood m pa) (src : Option (List Byte)) (hd : qdescOf (s.bytes pa 64) = some d)
    (hsz : small = true → d.esz = 8) (hcount : d.count = if src.isSome then d.cap else 0) :
    s.queueAt m c asid va pa src small far = .not := by
  have hfit : (small && d.esz != 8) = false := by
    cases small
    · rfl
    · rw [hsz rfl]; rfl
  simp only [State.queueAt, State.queueOn, State.farNone, h.near, h.may, h.plain, h.good, Bool.false_and, Bool.or_self, Bool.not_true,
    Bool.false_eq_true, if_false, hd, hfit, if_pos hcount]

/-- The parts of an entry that its home takes or gives. -/
structure State.PartGood (s : State) (m pa : Nat) (push : Bool) (p : Piece × Bool × Bool) : Prop where
  plain : push = true → p.2.2 = false ∧ s.isRo p.1.pa = false
  near : s.isFar p.1.pa = false
  live : ∀ i ∈ s.path ((s.target pa).getD 12) p.1.pa, (s.link i).dead = false
  may : s.mayAccess m (if push then bitW else bitR) p.1.pa = true

theorem State.queueAt_goes {ps : List (Piece × Bool × Bool)} (h : s.DescGood m pa) (src : Option (List Byte))
    (hd : qdescOf (s.bytes pa 64) = some d) (hsz : small = true → d.esz = 8) (hcount : d.count ≠ if src.isSome then d.cap else 0)
    (hps : s.slotParts c asid d src.isSome = .ok ps) (hgood : ∀ p ∈ ps, s.PartGood m pa src.isSome p) :
    s.queueAt m c asid va pa src small far = match src with
      | some bs => .done ((ps.foldl (fun s p => (s.put m p.1.pa ((bs.drop p.1.off).take p.1.len)).1) s).put m (pa + 24)
          (natBytes 8 ((d.tail + 1) % 2 ^ 64))).1 [] none
          ((ps.filter fun p => !(s.put m p.1.pa ((bs.drop p.1.off).take p.1.len)).2).map (·.1))
      | none => .done (s.put m (pa + 16) (natBytes 8 ((d.head + 1) % 2 ^ 64))).1 (ps.flatMap fun p => s.bytes p.1.pa p.1.len)
          ((ps.find? fun p => s.badAt p.1.pa p.1.len).map fun p => (BitVec.ofNat 64 p.1.va, s.targetCode p.1.pa)) [] := by
  have hfit : (small && d.esz != 8) = false := by
    cases small
    · rfl
    · rw [hsz rfl]; rfl
  have hro : (ps.find? fun p => src.isSome && (p.2.2 || s.isRo p.1.pa || (s.isFar p.1.pa && far.at p.1.pa == .readOnly))) = none := by
    refine List.find?_eq_none.2 fun p hp => ?_
    have hg := hgood p hp
    cases hsrc : src.isSome
    · simp
    · simp [hg.plain hsrc, hg.near]
  have hlive : (ps.find? fun p => (s.path ((s.target pa).getD 12) p.1.pa).any fun i => (s.link i).dead) = none := by
    refine List.find?_eq_none.2 fun p hp => ?_
    rw [List.any_eq_false.2 fun i hi => by rw [(hgood p hp).live i hi]; exact Bool.false_ne_true]
    exact Bool.false_ne_true
  have hmay : (ps.find? fun p => if s.isFar p.1.pa then far.at p.1.pa == .refused else
      !s.mayAccess m (if src.isSome then bitW else bitR) p.1.pa) = none := by
    refine List.find?_eq_none.2 fun p hp => ?_
    simp [(hgood p hp).near, (hgood p hp).may]
  have hnear : (ps.find? fun p => s.farNone far p.1.pa) = none := by
    refine List.find?_eq_none.2 fun p hp => ?_
    simp [State.farNone, (hgood p hp).near]
  have hfar : s.farNone far pa = false := by rw [State.farNone, h.near, Bool.false_and]
  simp only [State.queueAt, State.queueOn, h.near, h.may, h.plain, h.good, hfar, Bool.false_and, Bool.or_self, Bool.not_true,
    Bool.false_eq_true, if_false, hd, hfit, if_neg hcount, hps, hro, hlive, hmay, hnear]
  cases src <;> rfl

end

end Sys2Proof.Machine

namespace Sys2Proof.Claims
open Sys2Proof.Machine

/-- R181, R182, R199: what acceptance comes to. -/
theorem accessesEnter : AccessesEnter := by
  intro c x far g s accs undo pops hp ho hw
  refine ⟨?_, ?_, ?_, ?_⟩
  · rintro rfl hro href
    rw [exec_plainAccepted hp ho hw, State.acceptTrap, hro, href]
    rfl
  · rintro p rfl hro
    have htrap : s.acceptTrap c x accs far = some (s.trapAt .roWrite p) := by rw [State.acceptTrap, hro]
    refine ⟨_, by rw [exec_plainAccepted hp ho hw, htrap], ?_⟩
    exact trapped_trapXfer_info accs undo (t := s.trapAt .roWrite p) rfl nofun
  · rintro p rfl hro href
    have htrap : s.acceptTrap c x accs far = some (s.trapAt .refused p) := by rw [State.acceptTrap, hro, href]; rfl
    obtain ⟨i, hi, ht, hf⟩ := trapped_trapXfer_refused (s := s) (c := c) (x := x) (t := s.trapAt .refused p) accs undo rfl rfl
    rw [hi _ rfl] at ht
    exact ⟨_, by rw [exec_plainAccepted hp ho hw, htrap], ht, hf⟩
  · rintro rfl h
    have hdead := any_dead_of_plain ho fun a ha p hq => (hw a ha p hq).1
    change execAccessAccepted c x far s = _
    simp only [execAccessAccepted, hp, hdead, Bool.false_eq_true, if_false, if_true, groupAnswers_permitted h]

/-! ### Queues in memory (13 R203, R204) -/

section
variable {s : State} {c x pa : Nat} {far : FarMap} {a : Access} {undo : List (Opnd × Option Hold)} {pops : List Opnd} {push : Bool}
  {p : BitVec 3} {small : Bool}

theorem AtHome.descGood (h : AtHome s c x a pa undo pops push) : s.DescGood (masterOf c x) pa := by
  obtain ⟨-, hfar, -, -, hro, hbad⟩ := h.near
  exact ⟨hfar, h.may, hro, hbad⟩

/-- The access with the entry it touches differs in its pieces alone, of which the descriptor stays the first. -/
theorem AtHome.withSlot (h : AtHome s c x a pa undo pops push) :
    ∃ q qs, s.withSlot c a push = { a with pieces := q :: qs } ∧ q.pa = pa := by
  obtain ⟨q, hq, hpa⟩ := h.placed
  have hself : a = { a with pieces := [q] } := by rw [← hq]
  unfold State.withSlot
  simp only [hq]
  split
  · split
    · exact ⟨q, _, rfl, hpa⟩
    · exact ⟨q, [], hself, hpa⟩
  · exact ⟨q, [], hself, hpa⟩

theorem AtHome.ready (h : AtHome s c x a pa undo pops push) : ([a].any fun a => s.accessDead c a || a.fail == some .deadlink) = false := by
  obtain ⟨hdead, hfail, -⟩ := h.live
  rw [List.any_cons, hdead, beq_false_of_ne hfail]
  rfl

theorem exec_push {bs : List Byte} (h : AtHome s c x a pa undo pops true) (hop : a.op = .qpush p bs small) :
    exec (.accessAccepted c x far) s = .next (s.queueAnswer c x (s.withSlot c a true) undo pops p (some bs) small far) := by
  change execAccessAccepted c x far s = _
  simp only [execAccessAccepted, h.phase, h.ready, List.head?_cons, Option.map_some, hop, h.turn, Bool.not_true, Bool.false_eq_true, if_false]

theorem exec_pop {o : Nat} (h : AtHome s c x a pa undo pops false) (hop : a.op = .qpop p small o) :
    exec (.accessAccepted c x far) s = .next (s.queueAnswer c x (s.withSlot c a false) undo pops p none small far) := by
  change execAccessAccepted c x far s = _
  simp only [execAccessAccepted, h.phase, h.ready, List.head?_cons, Option.map_some, hop, h.turn, Bool.not_true, Bool.false_eq_true, if_false]

variable {src : Option (List Byte)} {d : QDesc}

/-- A malformed descriptor, or one of another entry size than the register's. -/
theorem AtHome.answer_malformed (h : AtHome s c x a pa undo pops push) (hd : qdescOf (s.bytes pa 64) = none ∨
    ∃ d, qdescOf (s.bytes pa 64) = some d ∧ small = true ∧ d.esz ≠ 8) :
    s.queueAnswer c x (s.withSlot c a push) undo pops p src small far = s.trapXfer c x [s.withSlot c a push] undo (paramTrap a.va) := by
  obtain ⟨q, qs, hslot, hpa⟩ := h.withSlot
  simp only [State.queueAnswer, hslot, List.head?_cons, Option.map_some, Option.getD_some, hpa, State.queueAt_malformed h.descGood src hd]

/-- A full queue's push, or an empty one's pop. -/
theorem AtHome.answer_stuck (h : AtHome s c x a pa undo pops push) (hd : qdescOf (s.bytes pa 64) = some d)
    (hsz : small = true → d.esz = 8) (hcount : d.count = if src.isSome then d.cap else 0) :
    s.queueAnswer c x (s.withSlot c a push) undo pops p src small far =
      ((s.modCx c x fun e => e.putP p.toNat false).modCl c fun k => undo.foldl (fun k u => k.undo1 x [a.id] u) k).accepted c x pops := by
  obtain ⟨q, qs, hslot, hpa⟩ := h.withSlot
  simp only [State.queueAnswer, hslot, List.head?_cons, Option.map_some, Option.getD_some, hpa,
    State.queueAt_stuck h.descGood src hd hsz hcount]

/-- The home has no cause to refuse a part of the entry. -/
theorem SlotGood.partGood {ps : List (Piece × Bool × Bool)} (h : SlotGood s c x pa push ps) : ∀ p ∈ ps, s.PartGood (masterOf c x) pa push p :=
  fun p hp => by
    obtain ⟨hplain, hnear, -, hlive, hmay⟩ := h p hp
    exact ⟨hplain, hnear, hlive, hmay⟩

theorem isCfg_desc (h : pa % 64 = 0) (hc : isCfg pa = false) {n : Nat} (hn : n < 64) : isCfg (pa + n) = false := by
  simp only [isCfg, beq_eq_false_iff_ne] at hc ⊢
  omega

/-- A push that finds room: its entry, then TAIL. -/
theorem AtHome.answer_push {bs : List Byte} {ps : List (Piece × Bool × Bool)} (h : AtHome s c x a pa undo pops true)
    (hd : qdescOf (s.bytes pa 64) = some d) (hsz : small = true → d.esz = 8) (hroom : d.count ≠ d.cap)
    (hps : s.slotParts c a.asid d true = .ok ps) (hgood : SlotGood s c x pa true ps) :
    ∃ (u : State) (b : Bool), s.queueAnswer c x (s.withSlot c a true) undo pops p (some bs) small far =
        ((u.modCx c x fun e => e.putP p.toNat true).markXstIf c b).accepted c x pops ∧
      u.mem = ((ps.foldl (fun s p => (s.store p.1.pa ((bs.drop p.1.off).take p.1.len)).1) s).storeNat (pa + 24) 8
        ((d.tail + 1) % 2 ^ 64)).mem := by
  obtain ⟨q, qs, hslot, hpa⟩ := h.withSlot
  obtain ⟨hal, -, hcfg, -⟩ := h.near
  have hentry : ps.foldl (fun s p => (s.put (masterOf c x) p.1.pa ((bs.drop p.1.off).take p.1.len)).1) s =
      ps.foldl (fun s p => (s.store p.1.pa ((bs.drop p.1.off).take p.1.len)).1) s :=
    List.foldl_ext _ _ _ fun t p hp => by rw [State.put_eq_store _ _ _ (hgood p hp).2.2.1]
  have htail : isCfg (pa + 24) = false := isCfg_desc hal hcfg (by decide)
  simp only [State.queueAnswer, hslot, List.head?_cons, Option.map_some, Option.getD_some, hpa,
    State.queueAt_goes h.descGood (some bs) hd hsz hroom hps hgood.partGood, Option.isSome_some, if_true, hentry,
    State.put_eq_store _ _ _ htail]
  refine ⟨_, _, rfl, ?_⟩
  rw [State.mem_foldl _ _ _ fun _ _ => State.mem_eccStore _ _ _ _, State.mem_noteSync]
  rfl

/-- A pop that finds an entry: its bytes, and HEAD. -/
theorem AtHome.answer_pop {ps : List (Piece × Bool × Bool)} (h : AtHome s c x a pa undo pops false)
    (hd : qdescOf (s.bytes pa 64) = some d) (hsz : small = true → d.esz = 8) (hsome : d.count ≠ 0)
    (hps : s.slotParts c a.asid d false = .ok ps) (hgood : SlotGood s c x pa false ps) (hbad : ∀ q ∈ ps, s.badAt q.1.pa q.1.len = false) :
    ∃ (u : State) (b : Bool), s.queueAnswer c x (s.withSlot c a false) undo pops p none small far =
        ((u.modCx c x fun e => e.putP p.toNat true).markXstIf c b).enterQueue c x
          [{ a with pieces := [], data := keepBytes [] 0 (ps.flatMap fun q => s.bytes q.1.pa q.1.len), err := none }] pops ∧
      u.mem = (s.storeNat (pa + 16) 8 ((d.head + 1) % 2 ^ 64)).mem := by
  obtain ⟨q, qs, hslot, hpa⟩ := h.withSlot
  obtain ⟨hal, -, hcfg, -⟩ := h.near
  have hhead : isCfg (pa + 16) = false := isCfg_desc hal hcfg (by decide)
  have hwhole : (ps.find? fun p => s.badAt p.1.pa p.1.len) = none :=
    List.find?_eq_none.2 fun p hp => by rw [hbad p hp]; exact Bool.false_ne_true
  simp only [State.queueAnswer, hslot, List.head?_cons, Option.map_some, Option.getD_some, hpa,
    State.queueAt_goes h.descGood none hd hsz hsome hps hgood.partGood, Option.isSome_none, Bool.false_eq_true, if_false,
    State.put_eq_store _ _ _ hhead, hwhole, Option.map_none]
  refine ⟨_, _, rfl, ?_⟩
  rw [List.foldl_nil, State.mem_noteSync]
  rfl

/-- What a queue's refusal for want of room or of an entry leaves: the predicate is 0. -/
theorem stuck_leaves (hp : p ≠ 0) (ids : List Nat) :
    let t := ((s.modCx c x fun e => e.putP p.toNat false).modCl c fun k => undo.foldl (fun k u => k.undo1 x ids u) k).accepted c x pops
    ((t.cl c).cx x).getP p.toNat = false ∧ t.mem = s.mem ∧ ∀ n, (t.cl c).getV n = (s.cl c).getV n := by
  have hheld := (State.p_accepted ((s.modCx c x fun e => e.putP p.toNat false).modCl c fun k =>
    undo.foldl (fun k u => k.undo1 x ids u) k) c x pops c x).trans (State.p_undo _ c x ids undo c x)
  refine ⟨?_, ?_, fun n => ?_⟩
  · rw [State.getP_of_held hheld, State.cx_modCx_same, Ctx.getP_putP _ _ hp p.isLt, if_pos rfl]
  · rw [State.mem_accepted]
    rfl
  · rw [Cluster.getV, State.v_of_held hheld, State.modCx, State.cl_modCl_same]
    rfl

end

/-- R204: a push. -/
theorem push_answers (s : State) (c x pa : Nat) (far : FarMap) (a : Access) (undo : List (Opnd × Option Hold)) (pops : List Opnd)
    (p : BitVec 3) (bs : List Byte) (small : Bool) (d : QDesc) (h : AtHome s c x a pa undo pops true) (hop : a.op = .qpush p bs small)
    (hp : p ≠ 0) (hd : qdescOf (s.bytes pa 64) = some d) (hsz : small = true → d.esz = 8) :
    (d.count = d.cap →
      ∃ t, exec (.accessAccepted c x far) s = .next t ∧ ((t.cl c).cx x).getP p.toNat = false ∧ t.mem = s.mem) ∧
    (∀ ps, d.count ≠ d.cap → s.slotParts c a.asid d true = .ok ps → SlotGood s c x pa true ps →
      ∃ t, exec (.accessAccepted c x far) s = .next t ∧ ((t.cl c).cx x).getP p.toNat = true ∧
        t.mem = ((ps.foldl (fun s p => (s.store p.1.pa ((bs.drop p.1.off).take p.1.len)).1) s).storeNat (pa + 24) 8
          ((d.tail + 1) % 2 ^ 64)).mem) := by
  refine ⟨fun hfull => ?_, fun ps hroom hps hgood => ?_⟩
  · obtain ⟨hget, hmem, -⟩ := stuck_leaves (s := s) (c := c) (x := x) (undo := undo) (pops := pops) hp [a.id]
    exact ⟨_, by rw [exec_push h hop, h.answer_stuck (src := some bs) hd hsz hfull], hget, hmem⟩
  · obtain ⟨u, b, hans, hmem⟩ := h.answer_push (undo := undo) (pops := pops) (p := p) (far := far) hd hsz hroom hps hgood
    refine ⟨_, by rw [exec_push h hop, hans], ?_, ?_⟩
    · rw [State.getP_of_held (State.p_accepted ..), State.cl_markXstIf, State.cx_modCx_same, Ctx.getP_putP_same]
    · rw [State.mem_accepted, State.mem_markXstIf]
      exact hmem

/-- R204: a pop. -/
theorem pop_answers (s : State) (c x pa : Nat) (far : FarMap) (a : Access) (undo : List (Opnd × Option Hold)) (pops : List Opnd)
    (p : BitVec 3) (small : Bool) (o : Nat) (d : QDesc) (h : AtHome s c x a pa undo pops false) (hop : a.op = .qpop p small o)
    (hp : p ≠ 0) (hd : qdescOf (s.bytes pa 64) = some d) (hsz : small = true → d.esz = 8) :
    (d.count = 0 →
      ∃ t, exec (.accessAccepted c x far) s = .next t ∧ ((t.cl c).cx x).getP p.toNat = false ∧ t.mem = s.mem ∧
        ∀ n, (t.cl c).getV n = (s.cl c).getV n) ∧
    (∀ ps, d.count ≠ 0 → s.slotParts c a.asid d false = .ok ps → SlotGood s c x pa false ps →
      (∀ q ∈ ps, s.badAt q.1.pa q.1.len = false) →
      ∃ t b, exec (.accessAccepted c x far) s = .next t ∧ ((t.cl c).cx x).getP p.toNat = true ∧
        t.mem = (s.storeNat (pa + 16) 8 ((d.head + 1) % 2 ^ 64)).mem ∧
        b ∈ (t.cl c).mq ∧ b.id = a.id ∧ b.op = a.op ∧ b.err = none ∧
        b.data = keepBytes [] 0 (ps.flatMap fun q => s.bytes q.1.pa q.1.len)) := by
  refine ⟨fun hempty => ?_, fun ps hsome hps hgood hbad => ?_⟩
  · obtain ⟨hget, hmem, hv⟩ := stuck_leaves (s := s) (c := c) (x := x) (undo := undo) (pops := pops) hp [a.id]
    exact ⟨_, by rw [exec_pop h hop, h.answer_stuck (src := none) hd hsz hempty], hget, hmem, hv⟩
  · obtain ⟨u, b, hans, hmem⟩ := h.answer_pop (undo := undo) (pops := pops) (p := p) (far := far) hd hsz hsome hps hgood hbad
    obtain ⟨-, -, hlanded⟩ := h.live
    refine ⟨_, { a with pieces := [], data := keepBytes [] 0 (ps.flatMap fun q => s.bytes q.1.pa q.1.len), err := none },
      by rw [exec_pop h hop, hans], ?_, ?_, ?_, rfl, rfl, rfl, rfl⟩
    · rw [State.getP_enterQueue, State.cl_markXstIf, State.cx_modCx_same, Ctx.getP_putP_same]
    · rw [State.mem_enterQueue, State.mem_markXstIf]
      exact hmem
    · refine State.mem_mq_enterQueue _ c x pops (List.mem_singleton_self _) ?_
      simp only [Access.landsNothing, hop, hlanded]

/-- R204: queues in memory. -/
theorem memoryQueues : MemoryQueues := by
  refine ⟨push_answers, pop_answers, fun s c x pa far a undo pops push p bs small o h hop hd => ?_⟩
  have hanswer (src : Option (List Byte)) := h.answer_malformed (undo := undo) (pops := pops) (p := p) (far := far) (src := src) hd
  cases push with
  | true => exact ⟨_, by rw [exec_push h hop, hanswer], trapped_trapXfer_info _ undo (t := paramTrap a.va) rfl nofun⟩
  | false => exact ⟨_, by rw [exec_pop h hop, hanswer], trapped_trapXfer_info _ undo (t := paramTrap a.va) rfl nofun⟩

/-- Settles O16: acceptance is decided by acceptTrap, and a queue's home by queueAt. -/
theorem transfersAccepted : Obligations.TransfersAccepted := ⟨accessesEnter, memoryQueues⟩

end Sys2Proof.Claims
end

section
/-! PROOFS. Stores and atomics performed at their home, and stores shown before it (13 R186, R195, 21 R294, R315): O21. -/

namespace Sys2Proof.Machine

/-! ### The bytes that a store leaves (13 R186, 21 R315) -/

theorem get_memWriteIf_in (keep : Nat → Bool) (bs : List Byte) (m : List Host.Cell) (a : Nat) {i : Nat} (h : i < bs.length) :
    SMap.get 0 (memWriteIf keep m a bs) (a + i) = if keep (a + i) then bs.getD i 0 else SMap.get 0 m (a + i) := by
  induction bs generalizing m a i with
  | nil => exact absurd h (Nat.not_lt_zero i)
  | cons b bs ih =>
    rw [memWriteIf]
    cases i with
    | zero =>
      rw [get_memWriteIf_out _ _ _ _ _ (.inl (by omega))]
      by_cases hk : keep a
      · rw [if_pos hk, Nat.add_zero, if_pos hk]
        exact SMap.get_put_same _ _ _ _
      · rw [if_neg hk, Nat.add_zero, if_neg hk]
    | succ i =>
      have hkept : SMap.get 0 (if keep a then memPut m a b else m) (a + (i + 1)) = SMap.get 0 m (a + (i + 1)) := by
        split
        · exact SMap.get_put_ne _ _ _ (by omega)
        · rfl
      have hnext : a + (i + 1) = a + 1 + i := by omega
      rw [hnext] at hkept ⊢
      rw [ih _ _ (Nat.lt_of_succ_lt_succ h), hkept, List.getD_cons_succ]

theorem State.isMem_iff {s : State} {pa : Nat} :
    s.isMem pa = true ↔ isWin pa = false ∧ s.isFar pa = false ∧ isCfg pa = false ∧ s.privAt pa = none := by
  simp only [State.isMem, Bool.and_eq_true, Bool.not_eq_true', Option.isNone_iff_eq_none, and_assoc]

/-- A byte of memory proper is the byte of the table. -/
theorem State.byte_of_isMem {s : State} {pa : Nat} (h : s.isMem pa = true) : s.byte pa = SMap.get 0 s.mem pa := by
  obtain ⟨hwin, hfar, hcfg, hpriv⟩ := State.isMem_iff.1 h
  simp only [State.byte, hwin, hfar, hcfg, hpriv, Bool.false_eq_true, if_false]

theorem State.byte_withMem {s : State} {pa : Nat} (m : List Host.Cell) (b : SMap Bool) (h : s.isMem pa = true) :
    ({ s with mem := m, bad := b } : State).byte pa = SMap.get 0 m pa := State.byte_of_isMem (s := { s with mem := m, bad := b }) h

/-- Any other byte does not come from there. -/
theorem State.byte_of_not_isMem {s : State} {m : List Host.Cell} {b : SMap Bool} {pa : Nat} (h : ¬s.isMem pa = true) :
    ({ s with mem := m, bad := b } : State).byte pa = s.byte pa := by
  unfold State.byte
  split
  · rfl
  next hwin =>
    split
    next hfar => exact (if_pos hfar).symm
    next hfar =>
      have hnear : ¬s.isFar pa = true := hfar
      rw [if_neg hnear]
      split
      · rfl
      next hcfg =>
        have hpriv : s.privAt pa ≠ none := fun hp => h (State.isMem_iff.2 ⟨Bool.eq_false_iff.2 hwin, Bool.eq_false_iff.2 hfar,
          Bool.eq_false_iff.2 hcfg, hp⟩)
        obtain ⟨n, hn⟩ := Option.ne_none_iff_exists'.1 hpriv
        have hn' : ({ s with mem := m, bad := b } : State).privAt pa = some n := hn
        simp only [hn, hn']
        rfl

section
variable {s : State} {pa : Nat} {bs : List Byte}

theorem isCfg_of_isMem (h : s.isMem pa = true) : isCfg pa = false := by
  obtain ⟨-, -, hcfg, -⟩ := State.isMem_iff.1 h
  exact hcfg

theorem isWin_of_isMem (h : s.isMem pa = true) : isWin pa = false := by
  exact (State.isMem_iff.1 h).1

/-- The module once bytes are written from an address up, but those of read-only granules; b lists the uncorrectable units. -/
def State.stored (s : State) (pa : Nat) (bs : List Byte) (b : SMap Bool) : State :=
  { s with mem := memWriteIf (fun a => !s.isRo a) s.mem pa bs, bad := b }

/-- A store over good units: what is not read-only is written. -/
theorem State.store_good (hm : s.isMem pa = true) (hg : s.badAt pa bs.length = false) :
    ∃ b, s.store pa bs = (s.stored pa bs b, true) := by
  have hpart : (s.bad.filter fun u => decide (u.1 * 8 < pa + bs.length) && decide (pa < u.1 * 8 + 8) &&
      !(decide (pa ≤ u.1 * 8) && decide (u.1 * 8 + 8 ≤ pa + bs.length))) = [] := by
    rw [State.badAt, isWin_of_isMem hm, if_neg Bool.false_ne_true] at hg
    refine List.filter_eq_nil_iff.2 fun u hu => ?_
    rw [Bool.eq_false_iff.2 (List.any_eq_false.1 hg u hu), Bool.false_and]
    exact Bool.false_ne_true
  have hkeep : (fun a => !(([] : SMap Bool).any fun u => u.1 == a / 8) && !s.isRo a) = fun a => !s.isRo a := rfl
  simp only [State.store, hm, Bool.not_true, Bool.false_eq_true, if_false, hpart, hkeep]
  exact ⟨_, rfl⟩

section
variable {b : SMap Bool}

theorem State.byte_stored_in {i : Nat} (hi : i < bs.length) (hm : s.isMem (pa + i) = true) :
    (s.stored pa bs b).byte (pa + i) =
      if s.isRo (pa + i) then s.byte (pa + i) else bs.getD i 0 := by
  rw [State.byte_of_isMem hm, State.stored, State.byte_withMem _ _ hm, get_memWriteIf_in _ _ _ _ hi]
  cases s.isRo (pa + i) <;> rfl

theorem State.byte_stored_out {x : Nat} (hx : ¬(pa ≤ x ∧ x < pa + bs.length)) :
    (s.stored pa bs b).byte x = s.byte x := by
  by_cases hm : s.isMem x = true
  · rw [State.byte_of_isMem hm, State.stored, State.byte_withMem _ _ hm, get_memWriteIf_out _ _ _ _ _ (by omega)]
  · exact State.byte_of_not_isMem hm

end

end

/-! ### An access is performed (21 R294) -/

theorem State.sameReads_noteSync (s : State) (c : Nat) (a : Access) (g : Nat) : s.SameReads (s.noteSync c a g) := by
  have hacq (p : Nat → Access → Shown → Bool) (y : Seer) : s.SameReads (if a.acq then s.noteSeen p y else s) := by
    split
    · exact .mapShown s _
    · exact .refl s
  unfold State.noteSync
  dsimp only
  split
  · exact (hacq _ _).trans (.mapShown _ _)
  · exact hacq _ _

/-- The access with a number stands in the queue as long as its order alone is noted. -/
theorem Cluster.access_mapShown (k : Cluster) (f : Access → Shown → Shown) (n : Nat) :
    ((k.mapShown f).access n).isSome = (k.access n).isSome := by
  simp only [Cluster.access, Cluster.mapShown, List.find?_map, Option.isSome_map]
  congr 2
  funext b
  simp only [Function.comp]
  split <;> rfl

theorem State.access_noteSync (s : State) (c : Nat) (a : Access) (g d n : Nat) :
    (((s.noteSync c a g).cl d).access n).isSome = ((s.cl d).access n).isSome := by
  have hacq (p : Nat → Access → Shown → Bool) (y : Seer) :
      (((if a.acq then s.noteSeen p y else s).cl d).access n).isSome = ((s.cl d).access n).isSome := by
    split
    · rw [State.noteSeen, State.cl_mapShown, Cluster.access_mapShown]
    · rfl
  unfold State.noteSync
  dsimp only
  split
  · rw [State.cl_mapShown, Cluster.access_mapShown]
    exact hacq _ _
  · exact hacq _ _

theorem Cluster.access_id {k : Cluster} {n : Nat} {a : Access} (h : k.access n = some a) : a.id = n := by
  have hid := List.find?_some h
  exact beq_iff_eq.1 hid

/-- An access that has something left to do is kept as it then stands. -/
theorem Cluster.access_keepAccess {k : Cluster} {b : Access} (hk : (k.access b.id).isSome = true)
    (hb : (b.pieces.isEmpty && b.landsNothing) = false) : (k.keepAccess b).access b.id = some b := by
  obtain ⟨a, ha⟩ := Option.isSome_iff_exists.1 hk
  have hmap : ((fun x : Access => x.id == b.id) ∘ fun x => if x.id == b.id then b else x) = fun x => x.id == b.id := by
    funext x
    by_cases hx : x.id = b.id <;> simp [hx]
  have hself : (fun x : Access => if x.id == b.id then b else x) a = b := by simp [Cluster.access_id ha]
  rw [Cluster.keepAccess, hb, if_neg Bool.false_ne_true, Cluster.access, List.find?_map, hmap]
  exact (congrArg (Option.map _) ha).trans (congrArg some hself)

/-- The bytes of an access that is performed are those its home then has, and its queue keeps it. -/
theorem exec_performed {c n sc : Nat} {s u : State} {a b : Access} {p : Piece} {rest : List Piece} (hsc : sc = 0 ∨ 11 < sc)
    (ha : (s.cl c).access n = some a) (hop : ∀ r bs q, a.op ≠ .qpush r bs q) (hop' : ∀ r q o, a.op ≠ .qpop r q o)
    (hp : a.pieces = p :: rest) (hf : a.fail ≠ some .deadlink) (hm : s.mayPerform c a = true) (hd : s.deadPath c p.pa = false)
    (hhome : s.pieceHome c a = (u, b)) (hcl : u.clusters = s.clusters) (hid : b.id = a.id) :
    ∃ t, exec (.accessPerformed c ⟨n, sc⟩) s = .next t ∧ u.SameReads t ∧
      ((b.pieces.isEmpty && b.landsNothing) = false → (t.cl c).access n = some b) := by
  have hat : decide (0 < sc ∧ sc < 12) = false := decide_eq_false (by omega)
  have hgo : (a.pieces.isEmpty || a.fail == some .deadlink || !s.mayPerform c a ||
      (a.pieces.head?.map fun p => s.deadPath c p.pa).getD false) = false := by
    rw [hp, beq_false_of_ne hf, hm, List.head?_cons, Option.map_some, Option.getD_some, hd]
    rfl
  have hpiece : s.performPiece c a = (if a.acq || a.rel then u.noteSync c a (p.pa / 64) else u, b) := by
    simp only [State.performPiece, hp, hhome]
  refine ⟨(if a.acq || a.rel then u.noteSync c a (p.pa / 64) else u).modCl c fun k => k.keepAccess b, ?_, ?_, fun hkeep => ?_⟩
  · change execAccessPerformed c ⟨n, sc⟩ s = _
    simp only [execAccessPerformed, ha, hat, hgo, hpiece, Bool.false_eq_true, if_false]
  · refine State.SameReads.trans ?_ (.modCl _ c _)
    split
    · exact u.sameReads_noteSync ..
    · exact .refl u
  · have hn : b.id = n := hid.trans (Cluster.access_id ha)
    subst hn
    rw [State.cl_modCl_same]
    refine Cluster.access_keepAccess ?_ hkeep
    have hu : ((u.cl c).access b.id).isSome = true := by
      rw [State.cl_congr hcl, ha]
      rfl
    split
    · rw [State.access_noteSync, hu]
    · exact hu

/-! ### The pieces of stores and atomics at their home -/

section
variable {c : Nat} {s : State} {a : Access} {p : Piece} {rest : List Piece}

theorem lateRefused_not {m : Nat} {bit : BitVec 4} (h : a.fail ≠ some .timeout ∨ s.mayAccess m bit p.pa = true) :
    s.lateRefused m a bit p = false := by
  rcases h with h | h
  · rw [State.lateRefused, beq_false_of_ne h, Bool.false_and, Bool.false_and]
  · rw [State.lateRefused, h, Bool.not_true, Bool.and_false]

theorem pieceHome_store {bs : List Byte} (hop : a.op = .store bs) (hp : a.pieces = p :: rest)
    (hlate : a.fail ≠ some .timeout ∨ s.mayAccess (masterOf c a.x) bitW p.pa = true) (hm : s.isMem p.pa = true)
    (hg : s.badAt p.pa ((bs.drop p.off).take p.len).length = false) : ∃ b, s.pieceHome c a =
      (s.stored p.pa ((bs.drop p.off).take p.len) b, { a with pieces := rest }) := by
  obtain ⟨b, hb⟩ := State.store_good hm hg
  refine ⟨b, ?_⟩
  simp only [State.pieceHome, hp, hop, lateRefused_not hlate, State.put_eq_store _ _ _ (isCfg_of_isMem hm), hb, Bool.false_eq_true, if_false,
    if_true]

theorem pieceHome_atom {d : Option (BitVec 6)} {op : Nat} {ty : Ty} {x y : Word} (hop : a.op = .atom d op ty x y) (hp : a.pieces = p :: rest)
    (hlate : a.fail ≠ some .timeout ∨ s.mayAccess (masterOf c a.x) bitA p.pa = true) (hm : s.isMem p.pa = true)
    (hg : s.badAt p.pa p.len = false) : ∃ b, s.pieceHome c a =
      (s.stored p.pa (natBytes p.len (atomNew op ty (bytesNat (s.bytes p.pa p.len)) x.toNat y.toNat)) b,
        { a with pieces := rest, data := keepBytes a.data 0 (natBytes p.len (bytesNat (s.bytes p.pa p.len))) }) := by
  obtain ⟨b, hb⟩ := State.store_good (bs := natBytes p.len (atomNew op ty (bytesNat (s.bytes p.pa p.len)) x.toNat y.toNat)) hm
    (by rw [length_natBytes]; exact hg)
  refine ⟨b, ?_⟩
  simp only [State.pieceHome, hp, hop, lateRefused_not hlate, hg, State.put_eq_store _ _ _ (isCfg_of_isMem hm), hb, Bool.false_eq_true,
    if_false]

end

/-! ### Bytes as numbers -/

theorem map_range_eq {bs : List Byte} {n : Nat} (hl : bs.length = n) {f : Nat → Byte} (h : ∀ i, i < n → f i = bs.getD i 0) :
    (List.range n).map f = bs := by
  refine List.ext_getElem (by simp [hl]) fun i hi hj => ?_
  rw [List.getElem_map, List.getElem_range, h i (hl ▸ hj), List.getD_eq_getElem _ _ hj]

/-- What a table of kept bytes holds: those of the list from an offset on, and what it held elsewhere. -/
theorem get_kept (bs : List Byte) (m : SMap Byte) (k j : Nat) :
    SMap.get 0 ((bs.zipIdx k).foldl (fun m b => SMap.put 0 m (0 + b.2) b.1) m) j =
      if k ≤ j ∧ j < k + bs.length then bs.getD (j - k) 0 else SMap.get 0 m j := by
  induction bs generalizing m k with
  | nil => rw [if_neg (by simp only [List.length_nil]; omega)]; rfl
  | cons b bs ih =>
    rw [List.zipIdx_cons, List.foldl_cons, ih]
    by_cases hj : j = k
    · subst hj
      rw [if_neg (by omega), if_pos (by simp), Nat.zero_add, SMap.get_put_same, Nat.sub_self]
      rfl
    · rw [Nat.zero_add, SMap.get_put_ne _ _ _ hj]
      by_cases hin : k + 1 ≤ j ∧ j < k + 1 + bs.length
      · have hsub : j - k = j - (k + 1) + 1 := by omega
        rw [if_pos hin, if_pos (by rw [List.length_cons]; omega), hsub, List.getD_cons_succ]
      · rw [if_neg hin, if_neg (by rw [List.length_cons]; omega)]

theorem sliceNat_keepBytes (m : SMap Byte) (bs : List Byte) : sliceNat (keepBytes m 0 bs) 0 bs.length = bytesNat bs := by
  refine congrArg bytesNat (map_range_eq rfl fun i hi => ?_)
  rw [keepBytes, Nat.zero_add, get_kept, if_pos (by omega), Nat.sub_zero]

theorem bytesNat_lt (bs : List Byte) : bytesNat bs < 256 ^ bs.length := by
  induction bs with
  | nil => decide
  | cons b bs ih =>
    have hb := b.isLt
    rw [bytesNat, List.length_cons, Nat.pow_succ]
    omega

/-- A value that is written stands in the table. -/
theorem SMap.self_mem_set {α : Type} (m : SMap α) (k : Nat) (v : α) : (k, v) ∈ SMap.set m k v := by
  induction m with
  | nil => exact List.mem_singleton_self _
  | cons e m ih =>
    rw [SMap.set]
    split
    · exact List.mem_cons_self ..
    · split
      · exact List.mem_cons_self ..
      · exact List.mem_cons_of_mem _ ih

end Sys2Proof.Machine

namespace Sys2Proof.Claims
open Sys2Proof.Machine

/-- R186, R294, R315: a piece of a store. -/
theorem storePerformed : StorePerformed := by
  intro c n sc s a bs p rest hsc ha hop hp hf hm hlate hd hmem hg hpos hlen
  have hl : ((bs.drop p.off).take p.len).length = p.len := by
    rw [List.length_take, List.length_drop]
    omega
  have hmem0 : s.isMem p.pa = true := hmem 0 hpos
  obtain ⟨b, hhome⟩ := pieceHome_store (c := c) hop hp hlate hmem0 (by rw [hl]; exact hg)
  obtain ⟨t, ht, hreads, -⟩ := exec_performed hsc ha (by simp [hop]) (by simp [hop]) hp hf hm hd hhome rfl rfl
  refine ⟨t, ht, fun i hi => ?_, fun pa hpa => ?_⟩
  · rw [hreads.sameBytes, State.byte_stored_in (by rw [hl]; exact hi) (hmem i hi)]
    simp only [List.getD_eq_getElem?_getD, List.getElem?_take, List.getElem?_drop, if_pos hi]
  · rw [hreads.sameBytes, State.byte_stored_out (by rw [hl]; exact hpa)]

/-! ### Atomics (13 R195) -/

/-- What an atomic lands: the value that it found, extended. -/
theorem landings_atom {a : Access} {r : BitVec 6} {op : Nat} {ty : Ty} {x y : Word} {n : Nat} {bs : List Byte} {old : Nat}
    (hop : a.op = .atom (some r) op ty x y) (herr : a.err = none) (hdata : a.data = keepBytes [] 0 bs) (hbs : bs.length = n)
    (hn : n = ty.width / 8) (hold : bytesNat bs = old) : a.landings = [(.s r, .write
      ((if ty = .i32 then BitVec.ofInt 64 (sgn 32 old) else BitVec.ofNat 64 old).setWidth 2048) (BitVec.allOnes 2048) none)] := by
  have hslice : sliceNat a.data 0 (ty.width / 8) = old := by
    rw [hdata, ← hn, ← hbs, sliceNat_keepBytes, hold]
  have hext : extendTo64 (ty == .i32) (ty.width / 8) old = if ty = .i32 then BitVec.ofInt 64 (sgn 32 old) else BitVec.ofNat 64 old := by
    by_cases hty : ty = .i32
    · subst hty
      rfl
    · rw [extendTo64, beq_false_of_ne hty, if_neg hty]
      rfl
  simp only [Access.landings, hop, herr, hslice, hext]
  rfl

/-- R195, R294, R315: an atomic. -/
theorem atomicPerformed : AtomicPerformed := by
  intro c n sc s a d op ty x y p old hsc ha hop hp hf hm hlate hd hlen hsize hmem hg hold
  have hpos : 0 < p.len := by omega
  have hnew : (natBytes p.len (atomNew op ty old x.toNat y.toNat)).length = p.len := length_natBytes ..
  obtain ⟨b, hhome⟩ := pieceHome_atom (c := c) hop hp hlate (hmem 0 hpos) hg
  rw [← hold] at hhome
  obtain ⟨t, ht, hreads, hkeep⟩ := exec_performed hsc ha (by simp [hop]) (by simp [hop]) hp hf hm hd hhome rfl rfl
  have hin (i : Nat) (hi : i < p.len) : t.byte (p.pa + i) =
      if s.isRo (p.pa + i) then s.byte (p.pa + i) else (natBytes p.len (atomNew op ty old x.toNat y.toNat)).getD i 0 := by
    rw [hreads.sameBytes, State.byte_stored_in (by rw [hnew]; exact hi) (hmem i hi)]
  refine ⟨t, ht, fun hro => ?_, fun hro => ?_, ?_, fun pa hpa => ?_⟩
  · have hbytes : t.bytes p.pa p.len = natBytes p.len (atomNew op ty old x.toNat y.toNat) :=
      map_range_eq hnew fun i hi => by rw [hin i hi, hro i hi]; rfl
    rw [hbytes, bytesNat_natBytes, Nat.pow_mul]
  · exact List.map_congr_left fun i hi => by rw [hin i (List.mem_range.1 hi), hro i (List.mem_range.1 hi)]; rfl
  · rintro r rfl hdata herr
    have hlands : (({ a with pieces := [], data := keepBytes a.data 0 (natBytes p.len old) } : Access).pieces.isEmpty &&
        ({ a with pieces := [], data := keepBytes a.data 0 (natBytes p.len old) } : Access).landsNothing) = false := by
      simp only [Access.landsNothing, hop]
      rfl
    have hlt : old < 256 ^ p.len := by
      have hl : (s.bytes p.pa p.len).length = p.len := by rw [State.bytes, List.length_map, List.length_range]
      have hlt := bytesNat_lt (s.bytes p.pa p.len)
      rwa [hl, ← hold] at hlt
    refine ⟨_, hkeep hlands, rfl, landings_atom (bs := natBytes p.len old) hop herr (by rw [hdata]) (length_natBytes ..) hlen ?_⟩
    rw [bytesNat_natBytes, Nat.mod_eq_of_lt hlt]
  · rw [hreads.sameBytes, State.byte_stored_out (by rw [hnew]; exact hpa)]

/-- R195: the value of each operation. -/
theorem atomicValues : AtomicValues := by
  intro ty a b c ha hb hc
  refine ⟨rfl, rfl, rfl, rfl, ?_, ?_, rfl, rfl, rfl, rfl⟩
  · simp only [atomNew]
    split
    · omega
    · omega
  · simp only [atomNew]
    split
    · omega
    · omega

/-! ### A store that is shown (21 R294) -/

/-- A store as it stands once it is performed at a scope. -/
def shownAt (s : State) (a : Access) (sc : Nat) : Access :=
  { a with vis := some { a.vis.getD { scope := sc, order := s.seq, rels := [], seen := [] } with scope := sc } }

theorem doneAt_shownAt {s : State} {a : Access} {sc : Nat} {bs : List Byte} (hop : a.op = .store bs) : (shownAt s a sc).doneAt sc = true := by
  simp only [Access.doneAt, shownAt, hop, Nat.le_refl, decide_true, Bool.or_true]

theorem show_facts {s : State} {c sc : Nat} {a : Access} (h : s.mayShow c a sc = true) :
    (∃ bs, a.op = .store bs) ∧ 1 ≤ sc ∧ sc ≤ 11 ∧ a.fail = none ∧ a.pieces.isEmpty = false := by
  simp only [State.mayShow, Bool.and_eq_true, decide_eq_true_eq, Option.isNone_iff_eq_none, Bool.not_eq_true'] at h
  obtain ⟨⟨⟨⟨⟨⟨hop, hlo⟩, hhi⟩, hfail⟩, hdone⟩, -⟩, -⟩ := h
  refine ⟨?_, hlo, hhi, hfail, (Bool.or_eq_false_iff.1 hdone).1⟩
  split at hop
  next bs hbs => exact ⟨bs, hbs⟩
  next => exact nomatch hop

/-- What is shown at a scope holds back the readers in it. -/
theorem heldFor_shown {t : State} {c sc : Nat} {b : Access} {v : Shown} {sees : Nat → Nat → Bool} {meets : Access → Shown → Bool}
    (hc : (c, t.cl c) ∈ t.clusters) (hb : b ∈ (t.cl c).mq) (hlive : b.live = true) (hv : b.vis = some v) (hsc : v.scope = sc)
    (hsees : sees sc c = true) (hmeets : meets b v = true) : t.heldFor sees meets = true := by
  refine List.any_eq_true.2 ⟨_, hc, List.any_eq_true.2 ⟨b, hb, ?_⟩⟩
  simp only [hlive, hv, hsc, hsees, hmeets, Bool.and_self]

/-- R294: a store that is shown before its home performs it. -/
theorem storeShown : StoreShown := by
  intro c n sc s a ha hshow
  obtain ⟨⟨bs, hop⟩, hlo, hhi, hfail, hpieces⟩ := show_facts hshow
  have hat : decide (0 < sc ∧ sc < 12) = true := decide_eq_true (by omega)
  have hkeep : ((shownAt s a sc).pieces.isEmpty && (shownAt s a sc).landsNothing) = false := by
    have hsame : (shownAt s a sc).pieces.isEmpty = false := hpieces
    rw [hsame, Bool.false_and]
  have hcl : (s.show c a sc).cl c = (s.cl c).keepAccess (shownAt s a sc) :=
    State.cl_modCl_same s c fun k => k.keepAccess (shownAt s a sc)
  have haid : a.id = n := Cluster.access_id ha
  have hid : (shownAt s a sc).id = n := haid
  have hacc : ((s.show c a sc).cl c).access n = some (shownAt s a sc) := by
    subst hid
    rw [hcl]
    exact Cluster.access_keepAccess (by rw [ha]; rfl) hkeep
  have hin : (c, (s.show c a sc).cl c) ∈ (s.show c a sc).clusters := by
    rw [hcl]
    exact SMap.self_mem_set ..
  have hmq : shownAt s a sc ∈ ((s.show c a sc).cl c).mq := List.mem_of_find?_eq_some hacc
  have hlive : (shownAt s a sc).live = true := by
    simp only [Access.live, Access.isOpen, shownAt, hpieces, hfail]
    rfl
  have hheld {sees : Nat → Nat → Bool} {meets : Access → Shown → Bool} (hsees : sees sc c = true)
      (hmeets : ∀ v, meets (shownAt s a sc) v = true) : (s.show c a sc).heldFor sees meets = true :=
    heldFor_shown hin hmq hlive rfl rfl hsees (hmeets _)
  refine ⟨s.show c a sc, shownAt s a sc, ?_, (State.SameReads.withClusters s _ _).sameBytes, hacc, doneAt_shownAt hop, rfl, rfl,
    fun j hj => State.cl_modCl_ne s (fun k => k.keepAccess (shownAt s a sc)) hj, fun j r hj hr _ => ?_, fun j x hj hx hvis hmeets => ?_⟩
  · change execAccessPerformed c ⟨n, sc⟩ s = _
    simp only [execAccessPerformed, ha, hat, hshow, if_true]
  · refine hheld hj fun v => List.any_eq_true.2 ⟨r.pa / 64, ?_, beq_self_eq_true _⟩
    exact List.mem_map.2 ⟨r, List.mem_append_left _ hr, rfl⟩
  · have hlater : ∀ v : Shown, ((shownAt s a sc).id != x.id && x.meets (shownAt s a sc) && v.first x) = true := fun v => by
      have hfirst : v.first x = true := by rw [Shown.first, hvis]
      have hgran : x.meets (shownAt s a sc) = x.meets a := rfl
      rw [hfirst, hgran, hmeets, Bool.and_true, Bool.and_true, bne_iff_ne]
      exact Ne.symm hx
    rw [State.mayPerform, hheld (sees := fun sc i => inScope sc i j) hj hlater, Bool.not_true, Bool.and_false]

/-- Settles O21: a piece is one store at its home, and a shown store is one change of its record. -/
theorem accessesPerformed : Obligations.AccessesPerformed := ⟨storePerformed, storeShown, atomicPerformed, atomicValues⟩

end Sys2Proof.Claims
end

section
/-! PROOFS. What VTOPK takes is the first K of its elements in order (05 R80, 15 R238, R239): O25. -/

namespace Sys2Proof.Machine

/-! ### Ranks and the order of R239 -/

/-- The rank of a value as a pair of a class and a number: NaN, −∞, the finite values, +∞ (R80). -/
def XR.rank : XR → Nat ×ₗ Rat
  | .nan => toLex (0, 0)
  | .inf true => toLex (1, 0)
  | .num _ q => toLex (2, q)
  | .inf false => toLex (3, 0)

theorem XR.rankLt_iff {x y : XR} : x.rankLt y = true ↔ x.rank < y.rank := by
  rcases x with _ | (_ | _) | _ <;> rcases y with _ | (_ | _) | _ <;> simp [XR.rankLt, XR.rank, Prod.Lex.lt_iff]

/-- The rank of an element's value, an integer's being the number itself (R238). -/
def TopE.rank (t : Ty) (e : TopE) : Nat ×ₗ Rat := if t.isInt then toLex (2, (t.toInt e.val : Rat)) else (t.fmt.decode e.val).rank

/-- What the order compares: the rank, the higher first, then the index, then the position. -/
def TopE.key (t : Ty) (e : TopE) : (Nat ×ₗ Rat)ᵒᵈ ×ₗ Nat ×ₗ Nat := toLex (OrderDual.toDual (e.rank t), toLex (e.idx, e.pos))

theorem TopE.key_lt_iff {t : Ty} {e f : TopE} : e.key t < f.key t ↔
    f.rank t < e.rank t ∨ e.rank t = f.rank t ∧ (e.idx < f.idx ∨ e.idx = f.idx ∧ e.pos < f.pos) := by
  simp only [TopE.key, Prod.Lex.toLex_lt_toLex, OrderDual.toDual_lt_toDual, EmbeddingLike.apply_eq_iff_eq]

theorem topBefore_iff {t : Ty} {e f : TopE} : topBefore t e f = true ↔ e.key t < f.key t := by
  have hrank (a b : TopE) : (if t.isInt then decide (t.toInt a.val < t.toInt b.val)
      else (t.fmt.decode a.val).rankLt (t.fmt.decode b.val)) = decide (a.rank t < b.rank t) := by
    by_cases hint : t.isInt = true
    · simp [TopE.rank, hint, Prod.Lex.lt_iff]
    · simp only [TopE.rank, hint, Bool.false_eq_true, if_false, ← XR.rankLt_iff, Bool.decide_eq_true]
  simp only [topBefore, hrank, TopE.key_lt_iff, Bool.or_eq_true, Bool.and_eq_true, Bool.not_eq_true', decide_eq_true_eq,
    decide_eq_false_iff_not]
  rcases lt_trichotomy (e.rank t) (f.rank t) with h | h | h
  · simp only [h, h.not_gt, h.ne, not_true_eq_false, false_and]
  · simp only [h, lt_irrefl, not_false_eq_true, true_and]
  · simp only [h, true_or]

theorem topBefore_trans {t : Ty} {e f g : TopE} (hef : topBefore t e f = true) (hfg : topBefore t f g = true) : topBefore t e g = true :=
  topBefore_iff.2 ((topBefore_iff.1 hef).trans (topBefore_iff.1 hfg))

/-- Of two elements at different positions one goes before the other. -/
theorem topBefore_of_not {t : Ty} {e f : TopE} (hpos : e.pos ≠ f.pos) (h : ¬topBefore t e f = true) : topBefore t f e = true := by
  have hkey : e.key t ≠ f.key t := fun heq => hpos (congrArg (fun k => (ofLex (ofLex k).2).2) heq)
  rw [topBefore_iff] at h ⊢
  exact lt_of_le_of_ne (not_lt.1 h) hkey.symm

/-! ### Insertion -/

/-- Insertion is the library's, in the order of the rule. -/
theorem topInsert_eq_orderedInsert (t : Ty) (e : TopE) (l : List TopE) :
    topInsert t e l = l.orderedInsert (fun a b => topBefore t a b = true) e := by
  induction l with
  | nil => rfl
  | cons f fs ih => rw [topInsert, List.orderedInsert_cons, ih]

theorem topInsert_perm (t : Ty) (e : TopE) (l : List TopE) : (topInsert t e l).Perm (e :: l) := by
  rw [topInsert_eq_orderedInsert]
  exact List.perm_orderedInsert ..

/-- A list in order stays in order when an element at another position enters it. -/
theorem topInsert_pairwise {t : Ty} {e : TopE} {l : List TopE} (hl : l.Pairwise fun a b => topBefore t a b = true)
    (he : ∀ f ∈ l, e.pos ≠ f.pos) : (topInsert t e l).Pairwise fun a b => topBefore t a b = true := by
  induction l with
  | nil => exact List.pairwise_singleton ..
  | cons f fs ih =>
    obtain ⟨hf, hfs⟩ := List.pairwise_cons.1 hl
    rw [topInsert]
    split
    next hbefore =>
      refine List.pairwise_cons.2 ⟨fun x hx => ?_, hl⟩
      rcases List.mem_cons.1 hx with rfl | hx
      · exact hbefore
      · exact topBefore_trans hbefore (hf x hx)
    next hafter =>
      refine List.pairwise_cons.2 ⟨fun x hx => ?_, ih hfs fun x hx => he x (List.mem_cons_of_mem _ hx)⟩
      rcases List.mem_cons.1 ((topInsert_perm t e fs).mem_iff.1 hx) with rfl | hx
      · exact topBefore_of_not (he f List.mem_cons_self) hafter
      · exact hf x hx

/-- What an insertion puts first among k does not depend on what stood past k. -/
theorem take_topInsert_take (t : Ty) (e : TopE) (k : Nat) (l : List TopE) :
    (topInsert t e (l.take k)).take k = (topInsert t e l).take k := by
  induction l generalizing k with
  | nil => rw [List.take_nil]
  | cons f fs ih =>
    cases k with
    | zero => rw [List.take_zero, List.take_zero]
    | succ k =>
      rw [List.take_succ_cons, topInsert, topInsert]
      split
      · cases k <;> simp [List.take_take]
      · rw [List.take_succ_cons, List.take_succ_cons, ih]

/-! ### The whole list in order -/

/-- A list's elements, inserted one by one. -/
def topSort (t : Ty) (l : List TopE) : List TopE := l.foldl (fun a e => topInsert t e a) []

theorem topSort_concat (t : Ty) (l : List TopE) (e : TopE) : topSort t (l ++ [e]) = topInsert t e (topSort t l) := List.foldl_concat ..

theorem topSort_perm (t : Ty) (l : List TopE) : (topSort t l).Perm l := by
  induction l using List.reverseRecOn with
  | nil => exact List.Perm.refl _
  | append_singleton l e ih =>
    rw [topSort_concat]
    exact (topInsert_perm ..).trans ((ih.cons e).trans (List.perm_append_singleton e l).symm)

theorem topSort_pairwise {t : Ty} {l : List TopE} (h : (l.map (·.pos)).Nodup) :
    (topSort t l).Pairwise fun a b => topBefore t a b = true := by
  induction l using List.reverseRecOn with
  | nil => exact List.Pairwise.nil
  | append_singleton l e ih =>
    rw [List.map_append, List.nodup_append] at h
    obtain ⟨hl, -, hne⟩ := h
    rw [topSort_concat]
    refine topInsert_pairwise (ih hl) fun f hf => ?_
    exact (hne f.pos (List.mem_map_of_mem ((topSort_perm t l).mem_iff.1 hf)) e.pos (by simp)).symm

/-- What VTOPK keeps as it goes is the front of all it has seen. -/
theorem topK_eq_take (t : Ty) (k : Nat) (l : List TopE) : topK t k l = (topSort t l).take k := by
  induction l using List.reverseRecOn with
  | nil => exact List.take_nil.symm
  | append_singleton l e ih =>
    have hstep : topK t k (l ++ [e]) = (topInsert t e (topK t k l)).take k := List.foldl_concat ..
    rw [hstep, ih, take_topInsert_take, topSort_concat]

end Sys2Proof.Machine

namespace Sys2Proof.Claims
open Sys2Proof.Machine

/-- Settles O25: what VTOPK takes is the front of the whole list in order. -/
theorem topKOrder : Obligations.TopKOrder := by
  unfold Obligations.TopKOrder
  intro t k l hl
  have hsorted := topSort_pairwise (t := t) hl
  have hperm := topSort_perm t l
  rw [topK_eq_take]
  refine ⟨?_, hsorted.sublist (List.take_sublist ..), fun e he => hperm.mem_iff.1 (List.mem_of_mem_take he), fun e he hout f hf => ?_⟩
  · rw [List.length_take, hperm.length_eq]
  · have hrest : e ∈ (topSort t l).drop k :=
      (List.mem_append.1 (List.take_append_drop k _ ▸ hperm.mem_iff.2 he)).resolve_left hout
    rw [← List.take_append_drop k (topSort t l)] at hsorted
    exact (List.pairwise_append.1 hsorted).2.2 f hf e hrest

end Sys2Proof.Claims
end

section
/-! PROOFS. Vector words compute element by element (15 R209 to R213): what `elements` and the mask of a word answer. -/

namespace Sys2Proof.Machine

/-! ### Elements of a result, and the flags they raise (15 R211, R213) -/

/-- The elements of a type fill a register (R209). -/
theorem Ty.width_mul_count (t : Ty) : t.width * (2048 / t.width) = 2048 := by
  cases t <;> rfl

/-- A result holds the values of the elements that are computed, and zero in the others. -/
theorem elemOf_elements {ew : Nat} (hew : ew * (2048 / ew) = 2048) (on : Nat → Bool) (f : Nat → Nat × Flags) {e : Nat}
    (he : e < 2048 / ew) : elemOf ew e (elements ew on f).1.toNat = if on e then (f e).1 % 2 ^ ew else 0 := by
  have hval := elemOf_ofNat_packElems (fun i => (if on i then f i else (0, 0)).1) hew he
  rw [elements, List.map_map]
  refine hval.trans ?_
  split
  · rfl
  · exact Nat.zero_mod _

theorem getLsbD_foldl_or (l : List (Nat × Flags)) (fl : Flags) (b : Nat) :
    (l.foldl (fun a r => a ||| r.2) fl).getLsbD b = true ↔ fl.getLsbD b = true ∨ ∃ r ∈ l, r.2.getLsbD b = true := by
  induction l generalizing fl with
  | nil => simp
  | cons r l ih =>
    rw [List.foldl_cons, ih, BitVec.getLsbD_or, Bool.or_eq_true, or_assoc]
    simp only [List.mem_cons, exists_eq_or_imp]

/-- The flags of a result are those of the elements that are computed. -/
theorem flag_elements (ew : Nat) (on : Nat → Bool) (f : Nat → Nat × Flags) (b : Nat) :
    (elements ew on f).2.getLsbD b = true ↔ ∃ e, e < 2048 / ew ∧ on e = true ∧ (f e).2.getLsbD b = true := by
  have hraised (e : Nat) : (if on e then f e else (0, 0)).2.getLsbD b = true ↔ on e = true ∧ (f e).2.getLsbD b = true := by
    split
    next h => exact (and_iff_right h).symm
    next h => exact iff_of_false (by simp) fun hon => h hon.1
  rw [elements, getLsbD_foldl_or, or_iff_right (by simp)]
  simp only [List.mem_map, List.mem_range, exists_exists_and_eq_and, hraised]

/-- A mask made from conditions holds each. -/
theorem getLsbD_bitsOf {n : Nat} (hn : n ≤ 256) (f : Nat → Bool) {i : Nat} (hi : i < n) :
    (BitVec.ofNat 256 (bitsOf ((List.range n).map f))).getLsbD i = f i := by
  have hel := elemOf_packElems 1 (((List.range n).map f).map fun b => if b then 1 else 0) i
  rw [List.getD_eq_getElem _ _ (by simpa using hi), List.getElem_map, List.getElem_map, List.getElem_range, elemOf_eq_div, Nat.one_mul,
    Nat.pow_one] at hel
  rw [BitVec.getLsbD_ofNat, decide_eq_true (by omega), Bool.true_and, Nat.testBit_eq_decide_div_mod_eq, bitsOf, hel]
  cases f i <;> rfl

/-! ### Operations on one element, as the rules state them -/

theorem xor_lowOnes {w a : Nat} (ha : a < 2 ^ w) : a ^^^ (2 ^ w - 1) = 2 ^ w - 1 - a := by
  have h := congrArg BitVec.toNat (BitVec.xor_allOnes (x := BitVec.ofNatLT a ha))
  rwa [BitVec.toNat_xor, BitVec.toNat_not, BitVec.toNat_allOnes, BitVec.toNat_ofNatLT] at h

theorem bitVec_sub_and {w : Nat} (x y : BitVec w) : x - (x &&& y) = x &&& ~~~y := by
  have hdisj : (x &&& ~~~y) &&& (x &&& y) = 0#w := by ext i; grind
  have hsum : (x &&& ~~~y) + (x &&& y) = x := by
    rw [BitVec.add_eq_or_of_and_eq_zero _ _ hdisj]
    ext i
    grind
  calc x - (x &&& y) = (x &&& ~~~y) + (x &&& y) - (x &&& y) := by rw [hsum]
    _ = x &&& ~~~y := BitVec.add_sub_cancel ..

/-- The bits of an element that another does not have (R222). -/
theorem sub_and_eq {w a b : Nat} (ha : a < 2 ^ w) (hb : b < 2 ^ w) : a - (a &&& b) = a &&& (b ^^^ (2 ^ w - 1)) := by
  have h := congrArg BitVec.toNat (bitVec_sub_and (BitVec.ofNatLT a ha) (BitVec.ofNatLT b hb))
  rw [BitVec.toNat_sub_of_le, BitVec.toNat_and, BitVec.toNat_and, BitVec.toNat_not, BitVec.toNat_ofNatLT, BitVec.toNat_ofNatLT] at h
  · rw [h, xor_lowOnes hb]
  · rw [BitVec.le_def, BitVec.toNat_and]
    exact Nat.and_le_left

theorem clzNat_eq_sub_size (w x : Nat) : clzNat w x = w - x.size := by
  unfold clzNat
  split
  next h => rw [h, Nat.size_zero, Nat.sub_zero]
  next h =>
    have hsize : x.size = x.log2 + 1 :=
      Nat.le_antisymm (Nat.size_le.2 ((Nat.log2_lt h).1 (Nat.lt_succ_self _))) (Nat.lt_size.2 (Nat.log2_self_le h))
    omega

theorem popNat_eq_countP (w x : Nat) : popNat w x = (List.range w).countP fun i => x.testBit i := List.countP_eq_length_filter.symm

theorem dot4_eq (f g : Nat → Int) (l : Nat) : dot4 f g l =
    f (4 * l) * g (4 * l) + f (4 * l + 1) * g (4 * l + 1) + f (4 * l + 2) * g (4 * l + 2) + f (4 * l + 3) * g (4 * l + 3) := by
  simp only [dot4, List.range, List.range.loop, List.map_cons, List.map_nil, List.sum_cons, List.sum_nil]
  ring_nf

end Sys2Proof.Machine

namespace Sys2Proof.Claims
open Sys2Proof.Machine

/-! ### Words that compute elements -/

theorem sameCourse_popsResultV (s : State) (qs : List Opnd) (lat : Nat) (d : Opnd) (val mask : VWord) (b : Option Bind) (fl : Flags) :
    Ctx.sameCourse s.ctx ((s.pops qs).resultV lat d val mask b fl).ctx := (sameCourse_pops s qs).trans (sameCourse_resultV ..)

/-- An instruction computes its elements: what VectorElements says of one. -/
def Computes (i : Instr) (s : State) (u : VWord → Flags → State) (ew : Nat) (on : Nat → Bool) (f : Nat → Nat × Flags) : Prop :=
  ∃ v fl, Gives i s (u v fl) ∧
    (∀ e, e < 2048 / ew → elemOf ew e v.toNat = if on e then (f e).1 % 2 ^ ew else 0) ∧
    ∀ b, b < 7 → (fl.getLsbD b = true ↔ ∃ e, e < 2048 / ew ∧ on e = true ∧ (f e).2.getLsbD b = true)

section
variable {i : Instr} {s : State} {w : AForm} {lat : Option Nat} {ew : Nat} {qs : List Opnd} {a b : VWord} {m : MWord} {d : Opnd}
  {u : VWord → Flags → State} {on : Nat → Bool} {f : Nat → Nat × Flags}

/-- A word that completes with what the model's element-wise body answers. -/
theorem computes_of_elements {r : Chk State} (he : exec i s = finish s 3 r)
    (hr : r = .ok (u (elements ew on f).1 (elements ew on f).2)) (hew : ew * (2048 / ew) = 2048) (hs : Straight s 3)
    (hu : ∀ v fl, Ctx.sameCourse s.ctx (u v fl).ctx) : Computes i s u ew on f :=
  ⟨_, _, gives_of_finish he hr hs (hu ..), fun _ hlt => elemOf_elements hew on f hlt, fun b _ => flag_elements ew on f b⟩

/-- A long-latency word that pops its sources. -/
theorem computes_long {r : Chk State} {mask : VWord} (he : exec i s = finish s 3 r)
    (hr : r = .ok ((s.pops qs).resultLong d (elements ew on f).1 mask (elements ew on f).2)) (hew : ew * (2048 / ew) = 2048)
    (hs : Straight s 3) : Computes i s (fun v fl => (s.pops qs).resultLong d v mask fl) ew on f :=
  computes_of_elements he hr hew hs fun _ _ => (sameCourse_pops s qs).trans (sameCourse_resultLong ..)

variable (hm : s.vMask w = .ok m) (hd : s.dstV w.dst = .ok d) (hs : Straight s 3)
include hm hd hs

/-- A word that runs the shared body of the element-wise words. -/
theorem computes_vec {reads : Chk (Nat → Nat × Flags)} (g : Nat → Nat × Flags) (he : exec i s = s.vec w lat ew qs reads)
    (hr : reads = .ok g) (hew : ew * (2048 / ew) = 2048) (hg : ∀ e, g e = f e) :
    Computes i s (lanesTo s w lat ew qs m d) ew m.getLsbD f := by
  obtain rfl : g = f := funext hg
  refine computes_of_elements he ?_ hew hs fun _ _ => (sameCourse_pops s qs).trans (sameCourse_resultAs ..)
  rw [hr, hm, hd]
  rfl

theorem computes_vec1 (g : VWord → Nat → Nat × Flags) (he : exec i s = s.vec1 w lat g)
    (ha : s.srcV w.sa 2 (ftBit w 2) = .ok a) (hg : ∀ e, g a e = f e) :
    Computes i s (lanesTo s w lat w.ty.width [w.sa] m d) w.ty.width m.getLsbD f :=
  computes_vec hm hd hs (g a) he (by rw [ha]; rfl) (Ty.width_mul_count _) hg

theorem computes_vec2 (g : VWord → VWord → Nat → Nat × Flags) (he : exec i s = s.vec2 w lat g)
    (ha : s.srcV w.sa 2 (ftBit w 2) = .ok a) (hb : s.srcV w.sb 3 (ftBit w 3) = .ok b) (hg : ∀ e, g a b e = f e) :
    Computes i s (lanesTo s w lat w.ty.width [w.sa, w.sb] m d) w.ty.width m.getLsbD f :=
  computes_vec hm hd hs (g a b) he (by rw [ha, hb]; rfl) (Ty.width_mul_count _) hg

end

/-! ### The operations, element by element -/

section
variable (ty : Ty) (a b : VWord) (e : Nat)

theorem minMax_int {isMax : Bool} (h : ty.isInt = true) : minMax isMax ty a b e =
    (toBits ty.width (if isMax then max (intAt ty a e) (intAt ty b e) else min (intAt ty a e) (intAt ty b e)), 0) := if_pos h

theorem minMax_float {isMax : Bool} (h : ty.isInt = false) : minMax isMax ty a b e =
    ((roundTo ty.fmt rne (if isMax then (fltAt ty a e).rankMax (fltAt ty b e) else (fltAt ty a e).rankMin (fltAt ty b e))).1, 0) :=
  if_neg (Bool.eq_false_iff.1 h)

end

/-- VILV takes the elements of B where the parity of the place says so (R240). -/
theorem ite_odd (i : Nat) (a b : VWord) : (if i % 2 == 1 then b else a) = if i % 2 = 0 then a else b := by
  rcases Nat.mod_two_eq_zero_or_one i with h | h
  all_goals
    rw [h]
    rfl

/-- The accumulator of VIMAC and VTMAC is their destination (R221). -/
theorem accum_eq {s : State} {w : AForm} {d : Opnd} {acc : VWord} (hd : s.dstV w.dst = .ok d)
    (hacc : s.srcPhys (regIdx d) 1 false = .ok acc) : s.accum w = .ok acc := by
  rw [State.accum, hd]
  exact hacc

/-- VIMAC reads two sources and its accumulator; its elements have the width of its form. -/
theorem computes_vimac {s : State} {w : AForm} {a b m d acc} {ew : Nat} {f : Nat → Nat × Flags}
    (ha : s.srcV w.sa 2 (ftBit w 2) = .ok a) (hb : s.srcV w.sb 3 (ftBit w 3) = .ok b) (hm : s.vMask w = .ok m)
    (hd : s.dstV w.dst = .ok d) (hacc : s.srcPhys (regIdx d) 1 false = .ok acc) (hs : Straight s 3)
    (hw : (if w.sub = 0 then w.ty.width else 32) = ew) (hew : ew * (2048 / ew) = 2048)
    (hf : ∀ i, (if w.sub = 0 then w.ty.fromInt (satOf w.md) (intAt w.ty acc i + intAt w.ty a i * intAt w.ty b i)
      else Ty.i32.fromInt (satOf w.md) (intAt .i32 acc i + dot4 (intAt w.ty a) (intAt w.ty b) i)) = f i) :
    Computes (.vimac w) s (lanesTo s w (some 4) ew [w.sa, w.sb] m d) ew m.getLsbD f := by
  subst hw
  exact computes_vec hm hd hs _ rfl (by rw [ha, hb, accum_eq hd hacc]; rfl) hew hf

/-- A vector source is a v register or a queue register. -/
theorem srcV_operand {s : State} {o : Opnd} {pos : Nat} {ft : Bool} {v : VWord} (h : s.srcV o pos ft = .ok v) :
    (∃ i, o = .v i) ∨ ∃ p i, o = .q p i := by
  cases o with
  | v i => exact .inl ⟨i, rfl⟩
  | q p i => exact .inr ⟨p, i, rfl⟩
  | s | k | vm | p | b | null => cases h

/-- A step of R219 rounds once, and keeps the flags raised before it. -/
theorem stepR_eq (m : RMode) (x : XR × Flags) (fl : Flags) : stepR m x fl = step32 m x.1 (x.2 ||| fl) :=
  congrArg (Prod.mk _) (BitVec.or_assoc ..)

/-- Each word that computes elements runs the shared body with the rule's function of an element. -/
theorem computes_of_isElements {i : Instr} {s : State} {u : VWord → Flags → State} {ew : Nat} {on : Nat → Bool} {f : Nat → Nat × Flags}
    (h : Elements s i u ew on f) (hs : Straight s 3) : Computes i s u ew on f := by
  cases h with
  | vadd w a b m d ha hb hm hd | vsub w a b m d ha hb hm hd | vmul w a b m d ha hb hm hd | vdiv w a b m d ha hb hm hd
  | viadd w a b m d ha hb hm hd | visub w a b m d ha hb hm hd | vperm w a b m d ha hb hm hd | vsld w a b m d ha hb hm hd =>
    exact computes_vec2 hm hd hs _ rfl ha hb fun _ => rfl
  | vabs w a m d ha hm hd | vrcp w a m d ha hm hd | vrsq w a m d ha hm hd | vexp w a m d ha hm hd | vlog w a m d ha hm hd
  | vact w a m d ha hm hd | vxpose w a m d ha hm hd => exact computes_vec1 hm hd hs _ rfl ha fun _ => rfl
  | vfma w a b c m d ha hb hc hm hd => exact computes_vec hm hd hs _ rfl (by rw [ha, hb, hc]; rfl) w.ty.width_mul_count fun _ => rfl
  | vminI w a b m d ha hb hm hd hint | vmaxI w a b m d ha hb hm hd hint =>
    exact computes_vec2 hm hd hs _ rfl ha hb fun _ => minMax_int _ _ _ _ hint
  | vminF w a b m d ha hb hm hd hint | vmaxF w a b m d ha hb hm hd hint =>
    exact computes_vec2 hm hd hs _ rfl ha hb fun _ => minMax_float _ _ _ _ hint
  | vimul w a b m d ha hb hm hd =>
    refine computes_vec2 hm hd hs _ rfl ha hb fun _ => ?_
    rw [Nat.cast_pow]
    rfl
  | vimac w a b m d acc ha hb hm hd hacc hsub =>
    exact computes_vimac ha hb hm hd hacc hs (if_pos hsub) w.ty.width_mul_count fun _ => if_pos hsub
  | vimacDot w a b m d acc ha hb hm hd hacc hsub =>
    refine computes_vimac ha hb hm hd hacc hs (if_neg hsub) rfl fun e => ?_
    rw [if_neg hsub, dot4_eq]
    rfl
  | vtmac w a b m d acc ha hb hm hd hacc =>
    refine computes_vec hm hd hs _ rfl (by rw [ha, hb, accum_eq hd hacc]; rfl) rfl fun e => ?_
    rw [dot4_eq]
    rfl
  | vbitTwo w a b m d ha hsb hb hm hd hsub =>
    refine computes_vec hm hd hs _ rfl (by simp only [ha, if_neg hsb, hb, ok_bind]; rfl) w.ty.width_mul_count fun e => ?_
    generalize w.sub.toNat = sub at hsub ⊢
    match sub, hsub with
    | 0, _ | 1, _ | 2, _ => rfl
    | 3, _ => exact congrArg (·, 0) (sub_and_eq (elemOf_lt ..) (elemOf_lt ..))
  | vbitOne w a m d ha hsb hm hd hsub =>
    refine computes_vec hm hd hs _ rfl (by simp only [ha, if_pos hsb, ok_bind]; rfl) w.ty.width_mul_count fun e => ?_
    generalize w.sub.toNat = sub at hsub ⊢
    match sub, hsub with
    | 4, _ => exact congrArg (·, 0) (xor_lowOnes (elemOf_lt ..)).symm
    | 5, _ => exact congrArg (·, 0) (popNat_eq_countP ..)
    | _ + 6, _ => exact congrArg (·, 0) (clzNat_eq_sub_size ..)
  | vshImm w a m d ha hsb hm hd =>
    exact computes_vec hm hd hs _ rfl (by rw [ha, hsb]; rfl) w.ty.width_mul_count fun _ => rfl
  | vshS w a x m d ha hsb hx hm hd =>
    obtain ⟨i, hsb⟩ := hsb
    rw [hsb] at hx
    exact computes_vec hm hd hs _ rfl (by simp only [ha, hsb, hx, ok_bind]; rfl) w.ty.width_mul_count fun _ => rfl
  | vshV w a b m d ha hb hm hd =>
    refine computes_vec hm hd hs _ rfl ?_ w.ty.width_mul_count fun _ => rfl
    rcases srcV_operand hb with ⟨i, hsb⟩ | ⟨p, i, hsb⟩
    all_goals
      rw [hsb] at hb
      simp only [ha, hsb, hb, ok_bind]
      rfl
  | vsel w a b c m d ha hb hc hm hd =>
    exact computes_vec hm hd hs _ rfl (by rw [ha, hb, hc]; rfl) w.ty.width_mul_count fun _ => rfl
  | vdq w a k m d ha hm hd => exact computes_vec hm hd hs _ rfl (by rw [ha]; rfl) w.ty.width_mul_count fun _ => rfl
  | vbcstS w x m d hsa hx hm hd =>
    obtain ⟨i, hsa⟩ := hsa
    rw [hsa] at hx
    exact computes_vec hm hd hs _ rfl (by simp only [hsa, hx, ok_bind]; rfl) w.ty.width_mul_count fun _ => rfl
  | vbcstV w a m d ha hm hd =>
    refine computes_vec hm hd hs _ rfl ?_ w.ty.width_mul_count fun _ => rfl
    rcases srcV_operand ha with ⟨i, hsa⟩ | ⟨p, i, hsa⟩
    all_goals
      rw [hsa] at ha
      simp only [hsa, ha, ok_bind]
      rfl
  | vilv w a b m d ha hb hm hd =>
    refine computes_vec2 hm hd hs _ rfl ha hb fun _ => ?_
    generalize w.sub.toNat = sub
    match sub with
    | 0 | 1 => simp only [ilvFrom, ite_odd]
    | 2 | _ + 3 =>
      simp only [ilvFrom]
      split
      · rfl
      · rfl
  | vimm w d hd => exact computes_of_elements rfl (by rw [hd]; rfl) w.ty.width_mul_count hs fun _ _ => sameCourse_resultV ..
  | vcvt w a m d t ha hm hd ht hle =>
    refine computes_of_elements rfl ?_ w.ty.width_mul_count hs fun _ _ => sameCourse_popsResultV ..
    simp only [ha, hm, hd, ht, hle, hle.not_gt, Nat.max_eq_right, if_false, Option.getD_some, decide_true, Bool.true_or,
      Bool.true_and, ok_bind, pure_eq_ok]
    rfl
  | vcvtNarrow w a m d t ha hm hd ht hlt =>
    refine computes_of_elements rfl ?_ w.ty.width_mul_count hs fun _ _ => sameCourse_popsResultV ..
    simp only [ha, hm, hd, ht, hlt, hlt.not_ge, Nat.max_eq_left hlt.le, if_true, Option.getD_some, decide_false, Bool.false_or,
      ok_bind, pure_eq_ok]
    rfl
  | vred w a m d ha hm hd => exact computes_long rfl (by rw [ha, hm, hd]; rfl) w.ty.width_mul_count hs
  | vscan w a m d ha hm hd =>
    refine computes_long rfl ?_ w.ty.width_mul_count hs
    simp only [ha, hm, hd, ok_bind, pure_eq_ok]
    generalize w.sub.toNat = sub
    match sub with
    | 0 | 1 | _ + 2 => rfl
  | vstat w a d ha hd => exact computes_long rfl (by simp only [ha, hd, ok_bind, pure_eq_ok]) rfl hs
  | vsmx w a c m d ha hc hm hd =>
    exact computes_long rfl (by simp only [ha, hc, hm, hd, ok_bind, pure_eq_ok, smxAt, stepR_eq, BitVec.ofNat_eq_ofNat, BitVec.or_zero])
      rfl hs
  | vrope w a b c m d pm ha hb hc hm hd hpm =>
    subst hpm
    refine computes_long rfl ?_ rfl hs
    -- The kernel would evaluate the cosine and sine of a symbolic angle, so the function is an unknown one here.
    obtain ⟨cs, hcs⟩ : ∃ cs, cs = cosSin := ⟨_, rfl⟩
    unfold ropeAt
    rw [← hcs]
    simp only [ha, hb, hc, hm, hd, ok_bind, pure_eq_ok, stepR_eq, BitVec.ofNat_eq_ofNat, BitVec.or_zero, BitVec.zero_or]
  | vqnt8 w a m d hty ha hm hd =>
    have hb4 : w.ty ≠ .b4 := by rcases hty with h | h <;> rw [h] <;> nofun
    have h8 : w.ty.width = 8 := by rcases hty with h | h <;> rw [h] <;> rfl
    refine computes_of_elements rfl ?_ rfl hs fun _ _ => sameCourse_popsResultV ..
    simp only [ha, hm, hd, if_neg hb4, h8, ok_bind, pure_eq_ok, Nat.reducePow, Nat.reduceSub, Nat.reduceDiv]

/-- Settles O24: each word runs the element-wise body (elemOf_elements, flag_elements) with the rule's function. -/
theorem vectorElements : Obligations.VectorElements := by
  unfold Obligations.VectorElements
  intro i s u ew on f h hs
  exact computes_of_isElements h hs

end Sys2Proof.Claims
end

section
/-! PROOFS. Moves, masks, modes, VTOPK and the words that read whole registers (15 R210, R211, R225 to R243): O26. -/

namespace Sys2Proof.Claims
open Sys2Proof.Machine

/-! ### Results of the words that are not element-wise -/

/-- A byte of weights is legal below 243 (R73). -/
theorem decodeT3_legal (b : Nat) : (decodeT3 b).2 = decide (b < 243) := by
  unfold decodeT3
  split
  next h => exact (decide_eq_false (Nat.not_lt.2 h)).symm
  next h => exact (decide_eq_true (Nat.not_le.1 h)).symm

/-- The ones of a mask (R227). -/
theorem popNat_mask (a : MWord) : popNat 256 a.toNat = (List.range 256).countP fun j => a.getLsbD j := popNat_eq_countP ..

theorem sameCourse_resultVM (s : State) (d : Opnd) (m : MWord) (fl : Flags) : Ctx.sameCourse s.ctx (s.resultVM d m fl).ctx :=
  sameCourse_lands ..

/-- A reservation of a queue register, and the push that fills it. -/
theorem sameCourse_push (s : State) (i lat : Nat) (d : Opnd) (e : QEnt) :
    Ctx.sameCourse s.ctx (({ s with seq := s.seq + 1 }.reserve i s.seq).lands lat d (.push s.seq e) 0).ctx :=
  (sameCourse_reserve { s with seq := s.seq + 1 } i s.seq).trans (sameCourse_lands ..)

/-- A bank that can be written is on, whatever operand asks (07 R104). -/
theorem bank_ok_of_ok {k : Cluster} {n p : Nat} (h : k.bank n p = .ok ()) (q : Nat) : k.bank n q = .ok () := by
  simp only [Cluster.bank] at h ⊢
  split at h
  next => cases h
  next hon =>
    rw [if_neg hon]
    exact h

/-- A v register that can be a destination can be one at any position. -/
theorem dstPhys_ok_of_ok {s : State} {n p : Nat} (h : s.dstPhys n p = .ok ()) (q : Nat) : s.dstPhys n q = .ok () := by
  cases hbank : s.me.bank n p with
  | error e =>
    rw [State.dstPhys, hbank] at h
    cases h
  | ok _ =>
    rw [State.dstPhys, hbank] at h
    rw [State.dstPhys, bank_ok_of_ok hbank q]
    exact h

/-! ### VectorMoves -/

/-- The words of VecWord that are three parcels long: the checks of each pass, and it leaves what its rule says. -/
theorem gives_of_vecWord {i : Instr} {s u : State} (h : VecWord s i u) (hi : ∀ w, i ≠ .vtopk w) (hs : Straight s 3) : Gives i s u := by
  cases h with
  | vcmp w a b m ha hb hm hd =>
    exact gives_of_finish (i := .vcmp w) rfl (by rw [ha, hb, hm, hd]; rfl) hs ((sameCourse_pops ..).trans (sameCourse_resultVM ..))
  | vmskCount w a b j ha hb hdst hd =>
    rw [hdst] at hd ⊢
    refine gives_of_finish (i := .vmsk w) rfl ?_ hs (sameCourse_resultS ..)
    simp only [ha, hb, hdst, hd, popNat_mask, ok_bind, pure_eq_ok]
  | vmskAnd w a b j ha hb hdst hd hsub | vmskOr w a b j ha hb hdst hd hsub | vmskXor w a b j ha hb hdst hd hsub
  | vmskAndn w a b j ha hb hdst hd hsub | vmskNot w a b j ha hb hdst hd hsub | vmskFirst w a b j ha hb hdst hd hsub =>
    rw [hdst] at hd ⊢
    refine gives_of_finish (i := .vmsk w) rfl ?_ hs (sameCourse_resultVM ..)
    simp only [ha, hb, hdst, hd, hsub, ok_bind, pure_eq_ok]
    rfl
  | vmskBelow w a b j ha hb hdst hd hsub =>
    rw [hdst] at hd ⊢
    refine gives_of_finish (i := .vmsk w) rfl ?_ hs (sameCourse_resultVM ..)
    simp only [ha, hb, hdst, hd, ok_bind, pure_eq_ok]
    generalize w.sub.toNat = sub at hsub ⊢
    match sub, hsub with
    | _ + 6, _ => rfl
  | vrnd w => exact gives_of_finish (i := .vrnd w) rfl rfl hs (sameCourse_lands ..)
  | vqnt w a k m d ha hty hk hm hd =>
    refine gives_of_finish (i := .vqnt w) rfl ?_ hs (sameCourse_popsResultV ..)
    simp only [ha, hty, hk, hm, hd, if_true, Ty.width, ok_bind, pure_eq_ok, Nat.reducePow, Nat.reduceSub, Nat.reduceDiv]
  | vunp3 w a d j ha hd hsc hk =>
    refine gives_of_finish (i := .vunp3 w) rfl ?_ hs ((sameCourse_resultV ..).trans (sameCourse_resultVM ..))
    rw [hsc] at hk ⊢
    simp only [ha, hd, hk, List.flatMap_map, List.map_map, List.all_map, Function.comp_def, decodeT3_legal, ok_bind, pure_eq_ok]
  | vunp3None w a d ha hd hsc =>
    refine gives_of_finish (i := .vunp3 w) rfl ?_ hs (sameCourse_resultV ..)
    simp only [ha, hd, hsc, List.flatMap_map, List.all_map, Function.comp_def, decodeT3_legal, ok_bind, pure_eq_ok]
    rfl
  | vmovsOut w a j ha hdst hd =>
    rw [hdst] at hd ⊢
    refine gives_of_finish (i := .vmovs w) rfl ?_ hs ((sameCourse_pops ..).trans (sameCourse_resultS ..))
    simp only [ha, hdst, hd, ok_bind, pure_eq_ok]
    rfl
  | vmovsIn w x d hdst hx hd =>
    refine gives_of_finish (i := .vmovs w) rfl ?_ hs (sameCourse_resultV ..)
    split
    next j hj => exact absurd hj (hdst j)
    next => simp only [hx, hd, ok_bind, pure_eq_ok]
  | vmovV w a j d n hsa hdst ha hd =>
    rw [hsa] at ha
    rw [hdst] at hd
    refine gives_of_finish (i := .vmov w) rfl ?_ hs (sameCourse_resultV ..)
    simp only [hsa, hdst, ha, hd, ok_bind, pure_eq_ok]
  | vmovVM w m j hdst hm hd =>
    rw [hdst] at hd ⊢
    refine gives_of_finish (i := .vmov w) rfl ?_ hs (sameCourse_resultVM ..)
    simp only [hdst, hm, hd, ok_bind, pure_eq_ok]
  | vmovQ w a j n hdst hsa hty ha hd =>
    refine gives_of_finish (i := .vmov w) rfl ?_ hs (sameCourse_push ..)
    simp only [hdst, State.vmovPush, if_neg hty, ha, hd, beq_false_of_ne hty, ok_bind, pure_eq_ok]
  | vmovQB4 w a k j n hdst hsa hty ha hd =>
    refine gives_of_finish (i := .vmov w) rfl ?_ hs (sameCourse_push ..)
    rw [hsa] at ha
    simp only [hdst, State.vmovPush, hsa, hty, if_true, ha, hd, regIdx, beq_self_eq_true, ok_bind, pure_eq_ok]
  | vmovFromQ w a p j n hsa hdst hty ha d hd hk =>
    rw [hsa] at ha ⊢
    rw [hdst] at hd
    refine gives_of_finish (i := .vmov w) rfl ?_ hs (sameCourse_popsResultV ..)
    simp only [hsa, hdst, if_neg hty, ha, hd, hk, ok_bind, pure_eq_ok]
  | vmovFromQB4 w a k p j n hsa hdst hty ha d hd hk =>
    rw [hsa] at ha ⊢
    rw [hdst] at hd
    refine gives_of_finish (i := .vmov w) rfl ?_ hs
      ((((sameCourse_pops ..).trans (sameCourse_lands ..)).trans (sameCourse_resultV ..)).trans (sameCourse_lands ..))
    simp only [hsa, hdst, hty, if_true, ha, hd, hk, ok_bind, pure_eq_ok]
  | vtopk w => exact absurd rfl (hi w)

/-- VTOPK, whose indices are generated or read from a run (R238). -/
theorem gives_vtopk {w : PForm} {s u : State} (h : VecWord s (.vtopk w) u) (hs : Straight s 15) : Gives (.vtopk w) s u := by
  cases h with
  | vtopk _ fs run ix d hp hrun hix hd hphys =>
    refine gives_of_finish (i := .vtopk w) rfl ?_ hs ((sameCourse_resultLong ..).trans (sameCourse_resultLong ..))
    have hphys3 := dstPhys_ok_of_ok hphys 3
    rcases hix with ⟨heven, rfl⟩ | ⟨hodd, hix⟩
    · simp only [hp, hrun, heven, hd, hphys3, beq_iff_eq, Nat.zero_ne_one, if_false, ok_bind, pure_eq_ok]
    · simp only [hp, hrun, hodd, hix, hd, hphys3, beq_self_eq_true, if_true, ok_bind, pure_eq_ok]

theorem vectorMoves : VectorMoves :=
  ⟨fun _ _ _ h hi hs => gives_of_vecWord h hi hs, fun _ _ _ h hs => gives_vtopk h hs, fun k l m hl => by rw [Cluster.land1, hl]⟩

/-! ### LongVectorWords -/

/-- An element that a word does not compute is zero. -/
theorem elemOf_eq_zero_of_off {v : VWord} {ew e : Nat} {on : Nat → Bool} {f : Nat → Nat × Flags} (hlt : e < 2048 / ew)
    (hv : ∀ e, e < 2048 / ew → elemOf ew e v.toNat = if on e then (f e).1 % 2 ^ ew else 0) (hoff : on e = false) :
    elemOf ew e v.toNat = 0 := by
  rw [hv e hlt, hoff]
  rfl

theorem longVectorWords : LongVectorWords := by
  refine ⟨fun w s a c m d ha hc hm hd hs => ?_, fun w s a b c m d ha hb hc hm hd hs => ?_, fun w s a m d hty ha hm hd hs => ?_⟩
  · obtain ⟨v, fl, hgives, hv, -⟩ := computes_of_isElements (.vsmx w a c m d ha hc hm hd) hs
    exact ⟨v, fl, hgives, fun e he hoff => elemOf_eq_zero_of_off he hv hoff⟩
  · obtain ⟨v, fl, hgives, hv, -⟩ := computes_of_isElements (.vrope w a b c m d _ ha hb hc hm hd rfl) hs
    exact ⟨v, fl, _, hgives, fun e he => getLsbD_bitsOf (by decide) (fun i => m.getLsbD (i / 2 * 2)) he,
      fun e he hoff => elemOf_eq_zero_of_off he hv hoff⟩
  · obtain ⟨v, fl, hgives, hv, -⟩ := computes_of_isElements (.vqnt8 w a m d hty ha hm hd) hs
    refine ⟨v, fl, _, hgives, fun e he hlo hhi hon => ⟨?_, ?_⟩, fun e he hout => ?_⟩
    · refine (hv e he).trans (if_pos ?_)
      simp only [hlo, hhi, hon, decide_true, Bool.and_self]
    · rw [elemOf_ofNat_packElems _ rfl he, decide_eq_true hlo, decide_eq_true hhi, hon]
      rfl
    · rw [elemOf_ofNat_packElems _ rfl he, ← Bool.decide_and, decide_eq_false hout]
      rfl

/-- Settles O26: gives_of_vecWord has a case for each word and form, gives_vtopk is VTOPK, and the long words compute elements as O24 says. -/
theorem vectorMovesAndLongWords : Obligations.VectorMovesAndLongWords := by
  unfold Obligations.VectorMovesAndLongWords
  exact ⟨vectorMoves, longVectorWords⟩

end Sys2Proof.Claims
end

section
/-! PROOFS. The M engine's words: set-up, drains, mode and status (17 R255 to R259, R265 to R271): O27. -/

namespace Sys2Proof.Machine

/-! ### Changes of an M engine -/

/-- A change of an M engine leaves every context as it is. -/
theorem State.ctx_modM (s : State) (c : Nat) (f : MEng → MEng) : (s.modM c f).ctx = s.ctx := by
  by_cases h : c = s.cur.1
  · subst h
    exact State.ctx_modMe s (fun k => { k with m := f k.m }) rfl
  · exact s.ctx_modCl_ne _ h

theorem sameCourse_modM (s : State) (c : Nat) (f : MEng → MEng) : Ctx.sameCourse s.ctx (s.modM c f).ctx := by
  rw [State.ctx_modM]
  exact Ctx.sameCourse_refl _

theorem sameCourse_modSet (s : State) (f : MSet → MSet) : Ctx.sameCourse s.ctx (s.modSet f).ctx := sameCourse_modM ..

theorem sameCourse_emptied (rs : List Nat) (s : State) : Ctx.sameCourse s.ctx (Claims.emptied s rs).ctx := by
  induction rs generalizing s with
  | nil => exact Ctx.sameCourse_refl _
  | cons r rs ih => exact (sameCourse_empties s _).trans (ih _)

/-! ### Commands on a bank (17 R251, R265) -/

/-- With no dropped nest that is asked for, none is reported. -/
theorem State.reportDrop_none {s : State} {p : Drop → Bool} (h : ∀ d ∈ s.me.m.drop, p d = false) : s.reportDrop p = none := by
  have hfind : s.me.m.drop.find? p = none := List.find?_eq_none.2 fun d hd => by rw [h d hd]; exact Bool.false_ne_true
  rw [State.reportDrop, hfind]

/-- A command on a bank that no nest is queued for, and of which no drop is to be reported, runs. -/
theorem State.bankCmd_free {s : State} {bank : Nat} (hb : s.me.m.bankBusy bank = false) (hd : ∀ d ∈ s.me.m.drop, d.bank ≠ bank)
    (r : Chk State) : s.bankCmd bank r = finish s 3 r := by
  have hnone : (s.reportDrop fun d => d.bank == bank) = none := State.reportDrop_none fun d hm => beq_false_of_ne (hd d hm)
  simp only [State.bankCmd, hb, hnone, Bool.false_eq_true, if_false]

/-! ### The group record (17 R259) -/

/-- Fields that a Form P word issues with are within its limits (09 R122). -/
theorem State.parLimits_of_params {s : State} {i : Instr} {p : BitVec 384} {fs : List Nat} (h : s.params i p = .ok fs) :
    parLimits i fs = true := by
  unfold State.params at h
  dsimp only at h
  split at h
  · cases h
  · cases hv : s.substFrom (subMask ((parFields p).getD 0 0)) 0 (parFields p) with
    | error e => rw [hv] at h; cases h
    | ok vs =>
      rw [hv, ok_bind] at h
      split at h
      next hl => cases h; exact hl
      next => cases h

/-- The record lies in the cluster's SRAM. -/
theorem mgrp_record_fits {w : PForm} {fs : List Nat} (h : parLimits (.mgrp w) fs = true) : fs.getD 1 0 + 8 * fs.getD 2 0 ≤ 2 ^ 22 :=
  of_decide_eq_true (List.all_eq_true.1 h ([1, 2], decide (fs.getD 1 0 + 8 * fs.getD 2 0 ≤ 2 ^ 22)) (by simp [parChecks]))

/-- A span that shares no byte with a list of units has no byte that does. -/
theorem units_byte {us : SMap Bool} {a n i : Nat} (hi : i < n)
    (h : (us.any fun u => decide (u.1 * 8 < a + n) && decide (a < u.1 * 8 + 8)) = false) :
    (us.any fun u => decide (u.1 * 8 < a + i + 1) && decide (a + i < u.1 * 8 + 8)) = false := by
  simp only [List.any_eq_false, Bool.and_eq_true, decide_eq_true_eq] at h ⊢
  intro u hu
  have hspan := h u hu
  omega

/-- A span within 2^32 bytes from such a boundary lies in memory or in one window: if none of its units is uncorrectable, each byte reads. -/
theorem State.badAt_byte {s : State} {pa n i : Nat} (h : s.badAt pa n = false) (hi : i < n) (hspan : pa % 2 ^ 32 + n ≤ 2 ^ 32) :
    s.badAt (pa + i) 1 = false := by
  have hwin : isWin (pa + i) = isWin pa := decide_eq_decide.2 (by unfold winBase; omega)
  have hdie : (pa + i - winBase) / 2 ^ 32 = (pa - winBase) / 2 ^ 32 := by unfold winBase; omega
  have hoff : 0x100 + (pa + i) % 2 ^ 32 = 0x100 + pa % 2 ^ 32 + i := by omega
  unfold State.badAt at h ⊢
  rw [hwin, hdie, hoff]
  cases hw : isWin pa with
  | false =>
    rw [hw] at h
    exact units_byte hi h
  | true =>
    rw [hw, if_pos rfl] at h
    rw [if_pos rfl]
    split at h
    next => exact units_byte hi h
    next => rfl

/-- A cluster's SRAM begins low enough in its die's 2^32 bytes for an offset within it. -/
theorem State.here_sram_mod (s : State) (c : Nat) {x : Nat} (h : x ≤ 2 ^ 22) :
    s.here (sramBase c + x) % 2 ^ 32 = localOf c * 2 ^ 22 + x := by
  have hl := localOf_lt c
  unfold State.here sramBase
  omega

end Sys2Proof.Machine

namespace Sys2Proof.Claims
open Sys2Proof.Machine

/-- The eight format bytes of MFMT (17 R257). -/
theorem fmtBytes_ok {a : Word} (h : ∀ g, g < 8 → fmtByteOk (elemOf 8 g a.toNat) = true) :
    ((List.range 8).all fun g => fmtByteOk (fmtByte a g)) = true := List.all_eq_true.2 fun g hg => h g (List.mem_range.1 hg)

/-- Reading a group record (17 R259): nothing that R259 has it wait for is left, and each byte of the record can be read. -/
theorem gives_mgrp {w : PForm} {fs : List Nat} {s : State} (hp : s.params (.mgrp w) w.par = .ok fs)
    (hh : s.mHold s.cur.1 s.cycle.toNat = false) (hr : fs.getD 2 0 = 0 ∨ s.mReads s.cur.1 = true)
    (hn : ∀ n ∈ s.me.m.nests, n.spans.any (shareGranule (fs.getD 1 0, fs.getD 1 0 + 8 * fs.getD 2 0 - 1)) = false)
    (hb : s.badAt (s.here (sramBase s.cur.1 + fs.getD 1 0)) (8 * fs.getD 2 0) = false) (hs : Straight s 15) :
    Gives (.mgrp w) s
      (s.modSet fun m => { m with grp := entriesAt s (s.here (sramBase s.cur.1 + fs.getD 1 0)) (fs.getD 2 0) }) := by
  have hfits := mgrp_record_fits (State.parLimits_of_params hp)
  have hany : (s.me.m.nests.any fun n => n.spans.any (shareGranule (fs.getD 1 0, fs.getD 1 0 + 8 * fs.getD 2 0 - 1))) = false :=
    List.any_eq_false.2 fun n hm => by rw [hn n hm]; exact Bool.false_ne_true
  have hread : ¬(0 < fs.getD 2 0 ∧ (!s.mReads s.cur.1) = true) := by
    rintro ⟨hpos, hno⟩
    rcases hr with h0 | hyes
    · omega
    · rw [hyes] at hno
      exact nomatch hno
  have hfind : ((List.range (8 * fs.getD 2 0)).find? fun i => s.badAt (s.here (sramBase s.cur.1 + fs.getD 1 0) + i) 1) = none := by
    refine List.find?_eq_none.2 fun i hi => ?_
    have hl := localOf_lt s.cur.1
    rw [State.badAt_byte hb (List.mem_range.1 hi) (by rw [State.here_sram_mod _ _ (by omega)]; omega)]
    exact Bool.false_ne_true
  refine gives_of_finish (i := .mgrp w) rfl ?_ hs (sameCourse_modSet ..)
  simp only [hp, ok_bind, waitIf_ok (Bool.or_eq_false_iff.2 ⟨hh, hany⟩), if_neg hread, hfind]
  rfl

/-- MSTAT and MSTAT.clr; .w where the queue is empty and no drop is left to report (17 R271). -/
theorem gives_mstat {w : AForm} {s : State} (hd : s.dstS w.dst = .ok ())
    (hq : w.sub.getLsbD 0 = true → s.me.m.busy = false ∧ s.me.m.drop = []) (hs : Straight s 3) :
    Gives (.mstat w) s ((if w.sub.getLsbD 1 then s.modM s.cur.1 MEng.clearFlags else s).putOpnd w.dst s.me.m.status) := by
  have hbusy : (w.sub.getLsbD 0 && s.me.m.busy) = false := by
    cases hw : w.sub.getLsbD 0 with
    | false => rfl
    | true => exact (hq hw).1
  have hdrop : (if w.sub.getLsbD 0 then s.reportDrop (fun _ => true) else none) = none := by
    split
    next hw => exact State.reportDrop_none fun d hm => absurd hm (by rw [(hq hw).2]; exact List.not_mem_nil)
    next => rfl
  have he : exec (.mstat w) s = finish s 3 (do
      s.dstS w.dst
      let t := if w.sub.getLsbD 1 then s.modM s.cur.1 MEng.clearFlags else s
      pure (t.putOpnd w.dst s.me.m.status)) := by
    change execMstat w s = _
    simp only [execMstat, hbusy, hdrop, Bool.false_eq_true, if_false]
  refine gives_of_finish he (by rw [hd]; rfl) hs (Ctx.sameCourse.trans ?_ (sameCourse_putOpnd ..))
  split
  · exact sameCourse_modM ..
  · exact Ctx.sameCourse_refl _

/-- The words of MatrixWord: the checks of each pass, and it leaves what its rule says. -/
theorem gives_of_matrixWord {i : Instr} {n : Nat} {s u : State} (h : MatrixWord s i n u) (hs : Straight s n) : Gives i s u := by
  cases h with
  | msrc w a r c ha hr hc => exact gives_of_finish (i := .msrc w) rfl (by rw [ha, hr, hc]; rfl) hs (sameCourse_modSet ..)
  | mbselWin w => exact gives_of_finish (i := .mbselWin w) rfl rfl hs (sameCourse_modSet ..)
  | mbselScr w a b c ha hb hc hmod hlo hhi =>
    have hw : (b.toNat % 32 != 0 || decide (b.toNat < 256) || decide (8192 < b.toNat)) = false := by
      rw [hmod, decide_eq_false (Nat.not_lt.2 hlo), decide_eq_false (Nat.not_lt.2 hhi)]
      rfl
    exact gives_of_finish (i := .mbselScr w) rfl (by rw [ha, hb, hc]; simp only [ok_bind, trapIf_ok hw]; rfl) hs (sameCourse_modSet ..)
  | mfmt w a ha hf =>
    refine gives_of_finish (i := .mfmt w) rfl ?_ hs (sameCourse_modSet ..)
    simp only [ha, ok_bind, fmtBytes_ok hf]
    rfl
  | mnest w fs hp => exact gives_of_finish (i := .mnest w) rfl (by rw [hp]; rfl) hs (sameCourse_modSet ..)
  | mgrp w fs hp hh hr hn hb => exact gives_mgrp hp hh hr hn hb hs
  | mzero w hb hd =>
    exact gives_of_finish (i := .mzero w) (State.bankCmd_free hb hd _) rfl hs (sameCourse_modM { s with seq := s.seq + 1 } ..)
  | mdrain w hb hd hrun =>
    refine gives_of_finish (i := .mdrain w) (State.bankCmd_free hb hd _) (by dsimp only; rw [hrun]; rfl) hs ?_
    exact (sameCourse_emptied _ s).trans (sameCourse_modM { emptied s _ with seq := s.seq + 1 } ..)
  | mload w vs hb hd hrun =>
    exact gives_of_finish (i := .mload w) (State.bankCmd_free hb hd _) (by rw [hrun]; rfl) hs (sameCourse_modM { s with seq := s.seq + 1 } ..)
  | mrnd w => exact gives_of_finish (i := .mrnd w) rfl rfl hs (sameCourse_lands ..)
  | mstat w hd hq => exact gives_mstat hd hq hs

/-- Settles O27: gives_of_matrixWord has a case for each word; a landing of MRND is read off land1. -/
theorem matrixWords : Obligations.MatrixWords := by
  unfold Obligations.MatrixWords
  exact ⟨fun _ _ _ _ => gives_of_matrixWord, fun k l m hl => by rw [Cluster.land1, hl]⟩

end Sys2Proof.Claims
end

section
/-! PROOFS. MGO and MGO.grp: queued, missed, waiting, trapped and refused (17 R252, R260, R264, 23 R323, 01 R26): O28. -/

namespace Sys2Proof.Machine

/-! ### A missed task (23 R323) -/

theorem State.agents_missTask (s : State) (c : Nat) (g : Gen) (why : Nat) : (s.missTask c g why).agents = s.agents := by
  unfold State.missTask
  split
  · rfl
  · exact State.agents_ite rfl (State.agents_modTaskOn ..)

/-! ### What the trap of a refusal leaves of the M engine -/

theorem State.nearly.m {s t : State} (h : State.nearly s t) (c : Nat) : (t.cl c).m = (s.cl c).m := by
  have hm := congrArg Cluster.m (h.cl c).rest
  exact hm

theorem State.m_modCl (s : State) (c d : Nat) {f : Cluster → Cluster} (hf : ∀ k, (f k).m = k.m) : ((s.modCl c f).cl d).m = (s.cl d).m := by
  by_cases h : d = c
  · subst h
    rw [State.cl_modCl_same, hf]
  · rw [State.cl_modCl_ne _ _ h]

theorem State.m_takeTrap_refused (s : State) (c x : Nat) (pc : Parcel) {t : Trap} {i : BitVec 64} (hr : t.cause = .refused)
    (ha : t.agent = none) (hi : t.info = some i) (d : Nat) : ((s.takeTrap c x pc t).cl d).m = (s.cl d).m := by
  have ht : s.takeTrap c x pc t =
      ((s.refuse c x t.tgt i.toNat pc.toNat).modCx c x fun e => e.trappedBy t pc i).escalate c x t := by
    simp only [State.takeTrap, hi, hr, ha, if_true, true_or, Ctx.trappedBy]
  calc ((s.takeTrap c x pc t).cl d).m
    _ = (((s.refuse c x t.tgt i.toNat pc.toNat).modCx c x fun e => e.trappedBy t pc i).cl d).m := by
      rw [ht]
      exact (State.nearly_escalate ..).m d
    _ = ((s.refuse c x t.tgt i.toNat pc.toNat).cl d).m := State.m_modCl _ c d fun _ => rfl
    _ = (s.cl d).m := (s.nearly_refuse ..).m d

end Sys2Proof.Machine

namespace Sys2Proof.Claims
open Sys2Proof.Machine

/-- A nest on the window for a keyed task that does not hold its generation (17 R264). -/
def nestMissed (s : State) (w : AForm) (grp : Bool) : Bool :=
  match (nestOf s w grp).gen, s.taskOn s.cur.1 with
  | some g, some t => recKeyed t.rcd && !t.isHolder g
  | _, _ => false

section
variable {w : AForm} {s : State} {grp : Bool}

/-- MGO waits for room, makes its checks, and then misses its task or has its reads accepted and queues its nest. -/
theorem mgo_eq (w : AForm) (s : State) (grp : Bool) : s.mgo w grp = finish s 3 (do
    waitIf (decide (4 ≤ s.me.m.nests.length))
    nestChecks s grp
    match nestMissed s w grp, (nestOf s w grp).gen with
    | true, some g => pure ((s.modM s.cur.1 MEng.setMiss).missTask s.cur.1 g 1)
    | _, _ => do
      s.mAccepts s.me.m.set
      pure (queued s w grp)) := rfl

theorem nestMissed_eq_true {g : Gen} {t : Task} (hg : (nestOf s w grp).gen = some g) (ht : s.taskOn s.cur.1 = some t)
    (hk : recKeyed t.rcd = true) (hh : t.isHolder g = false) : nestMissed s w grp = true := by
  simp only [nestMissed, hg, ht, hk, hh, Bool.not_false, Bool.and_self]

theorem nestMissed_eq_false
    (h : ∀ g t, (nestOf s w grp).gen = some g → s.taskOn s.cur.1 = some t → recKeyed t.rcd = true → t.isHolder g = true) :
    nestMissed s w grp = false := by
  unfold nestMissed
  split
  next g t hg ht =>
    cases hk : recKeyed t.rcd with
    | false => rfl
    | true => rw [h g t hg ht hk]; rfl
  next => rfl

theorem mgo_waits (hlen : 4 ≤ s.me.m.nests.length) : s.mgo w grp = .next s.waits := by
  rw [mgo_eq, decide_eq_true hlen]
  rfl

variable (hlen : s.me.m.nests.length < 4)
include hlen

theorem mgo_fails {e : Stop} (hc : nestChecks s grp = .error e) : s.mgo w grp = .next (s.stopped e) := by
  rw [mgo_eq, waitIf_ok (decide_eq_false (Nat.not_le.2 hlen)), hc]
  rfl

variable (hc : nestChecks s grp = .ok ())
include hc

theorem mgo_misses {g : Gen} (hg : (nestOf s w grp).gen = some g) (hm : nestMissed s w grp = true) :
    s.mgo w grp = finish s 3 (.ok ((s.modM s.cur.1 MEng.setMiss).missTask s.cur.1 g 1)) := by
  rw [mgo_eq, waitIf_ok (decide_eq_false (Nat.not_le.2 hlen)), hc, hm, hg]
  rfl

theorem mgo_refused (hm : nestMissed s w grp = false) (hr : s.mReads s.cur.1 = false) : s.mgo w grp = .next (s.trapHere
    { cause := .refused, info := some (ownSramVa + s.me.m.set.abase), tgt := s.targetCode (s.here (sramBase s.cur.1)) }) := by
  have hacc : s.mAccepts s.me.m.set = .error (.trap
      { cause := .refused, info := some (ownSramVa + s.me.m.set.abase), tgt := s.targetCode (s.here (sramBase s.cur.1)) }) :=
    if_neg (by rw [hr]; exact Bool.false_ne_true)
  rw [mgo_eq, waitIf_ok (decide_eq_false (Nat.not_le.2 hlen)), hc, hm, hacc]
  rfl

end

/-- The trap of a refused MGO (01 R26): its registers, the freeze, and the M engine as it was. -/
theorem trapHere_refused (s : State) {t : Trap} {i : BitVec 64} (hr : t.cause = .refused) (ha : t.agent = none) (hi : t.info = some i) :
    Trapped (s.trapHere t) s.cur.1 s.cur.2 .refused t.opnd s.ctx.pc i ∧ (s.trapHere t).frozen s.cur.1 = true ∧
      (s.trapHere t).me.m = s.me.m := by
  obtain ⟨j, hj, htrap, hfrz⟩ := trapped_takeTrap_refused (s := s) (c := s.cur.1) (x := s.cur.2) s.ctx.pc hr ha
  obtain rfl : j = i := hj i hi
  refine ⟨trapped_used htrap, hfrz, ?_⟩
  rw [State.trapHere, State.used, State.me_modMe, State.me, State.cur_takeTrap]
  exact s.m_takeTrap_refused _ _ _ hr ha hi _

/-- Settles O28: mgo_eq is MGO's course, of which each clause takes one branch. -/
theorem matrixNests : Obligations.MatrixNests := by
  unfold Obligations.MatrixNests
  rintro w s grp i rfl
  rw [exec_mgo]
  refine ⟨fun hlen hc hr hk hs => ?_, fun g t hlen hc hg ht hkeyed hh hs => ?_, fun hlen hc hr hk => ?_, mgo_waits, fun d hlen hc => ?_⟩
  · exact gives_of_finish ((exec_mgo w s grp).trans (mgo_queues hlen hc hr hk)) rfl hs (sameCourse_queued s w grp)
  · have he := mgo_misses hlen hc hg (nestMissed_eq_true hg ht hkeyed hh)
    refine gives_of_finish ((exec_mgo w s grp).trans he) rfl hs ?_
    exact (sameCourse_modM ..).trans (State.sameCourse_of_agents (State.agents_missTask ..))
  · exact ⟨_, mgo_refused hlen hc (nestMissed_eq_false hk) hr, trapHere_refused s rfl rfl rfl⟩
  · exact ⟨_, mgo_fails hlen hc, trapped_trapHere s rfl nofun⟩

end Sys2Proof.Claims
end

section
/-! PROOFS. Nests and drains step by step (17 R251, R261 to R263, R266 to R269): O30. -/

namespace Sys2Proof.Machine

/-! ### A table after a list of writes -/

section
variable {α β γ : Type} [DecidableEq α] (d : α) (key : β → Nat) (val : β → α) (op : γ → β → γ)

/-- Writes of other keys leave a key alone. -/
theorem SMap.get_foldl_put_ne (l : List β) (a : SMap α × γ) {k : Nat} (h : k ∉ l.map key) :
    SMap.get d (l.foldl (fun a x => (SMap.put d a.1 (key x) (val x), op a.2 x)) a).1 k = SMap.get d a.1 k := by
  induction l generalizing a with
  | nil => rfl
  | cons x l ih =>
    obtain ⟨hx, hl⟩ := List.ne_and_not_mem_of_not_mem_cons h
    rw [List.foldl_cons, ih _ hl, SMap.get_put_ne _ _ _ hx]

/-- Of writes to different keys each one stands. -/
theorem SMap.get_foldl_put_of_mem (l : List β) (a : SMap α × γ) (h : (l.map key).Nodup) {x : β} (hx : x ∈ l) :
    SMap.get d (l.foldl (fun a x => (SMap.put d a.1 (key x) (val x), op a.2 x)) a).1 (key x) = val x := by
  induction l generalizing a with
  | nil => exact absurd hx List.not_mem_nil
  | cons y l ih =>
    obtain ⟨hy, hl⟩ := List.nodup_cons.1 h
    rw [List.foldl_cons]
    rcases List.mem_cons.1 hx with rfl | hmem
    · rw [SMap.get_foldl_put_ne d key val op l _ hy, SMap.get_put_same]
    · exact ih _ hl hmem

end

/-! ### A step of a nest (17 R261, R262) -/

section
variable (s : State) (c : Nat) (n : Nest)

/-- What a step of a nest makes of the accumulator of one of its cells, and the flags it raises. -/
def State.contributed (x : Nat × Nat × Nat × Nat) : Nat × Flags :=
  contribution (modeOfCode n.mode.toNat) n.set.afmt.code (fmtByte n.fmts x.2.2.2 % 32) (SMap.get 0 (s.cl c).m.acc x.1).toNat
    (s.chunkA c n.set (chunkBytes ((mClass n.set.afmt.code).getD 0)) x.2.1)
    (s.chunkB c n.set (chunkBytes ((mClass n.set.afmt.code).getD 0)) x.2.2.1)

/-- The accumulators after a step: each cell's contribution, made of what all of them held before it. -/
theorem State.acc_runStep : ((s.runStep c n).cl c).m.acc = (n.cells.foldl (fun (a : SMap (BitVec 32) × Flags) x =>
    (SMap.put 0 a.1 x.1 (BitVec.ofNat 32 (s.contributed c n x).1), a.2 ||| (s.contributed c n x).2)) ((s.cl c).m.acc, 0)).1 := by
  rw [State.runStep, State.cl_modCl_same]
  rfl

theorem State.cx_runStep (x : Nat) : ((s.runStep c n).cl c).cx x = (s.cl c).cx x := by
  rw [State.runStep, State.cl_modCl_same]
  rfl

end

/-! ### NEST_STEP of a nest that holds a generation (17 R263) -/

section
variable {c : Nat} {s : State} {n : Nest} {ns : List Nest} {g : Gen} (hn : (s.cl c).m.nests = n :: ns) (hr : n.running = true)
  (hlt : n.step < n.total)
include hn hr hlt

theorem Cluster.stepping_head : (s.cl c).stepping = some n := by
  simp only [Cluster.stepping, hn, hr, decide_eq_true hlt, Bool.and_self, if_true]

variable (hh : s.mHold c n.cyc = false) (hg : n.gen = some g)
include hh hg

theorem exec_nestStep_held (hnow : s.genNow (dieOf c) = some g)
    (hw : s.windowBad c (n.cells.map fun x => (x.2.2.1, chunkBytes ((mClass n.set.afmt.code).getD 0)))
      (decide (mClass n.set.afmt.code = some 0)) = false) : exec (.nestStep c) s = .next (s.runStep c n) := by
  change execNestStep c s = _
  simp only [execNestStep, Cluster.stepping_head hn hr hlt, hh, hg, hnow, hw, ne_eq, not_true_eq_false, Bool.false_eq_true, if_false]

theorem exec_nestStep_dropped (hnow : s.genNow (dieOf c) ≠ some g) (hk : recKeyed (s.cl c).rec0 = false) :
    exec (.nestStep c) s = .next ((s.modM c fun m => m.endNest n).modM c fun m => { m with
      drop := m.drop ++ [{ id := n.id, bank := n.bank, pc := n.pc, tag := g.tag }] }) := by
  have hkeyed : recKeyed ((s.modM c fun m => m.endNest n).cl c).rec0 = false := by
    rw [State.modM, State.cl_modCl_same]
    exact hk
  change execNestStep c s = _
  simp only [execNestStep, Cluster.stepping_head hn hr hlt, hh, hg, hnow, hkeyed, ne_eq, not_false_eq_true, Bool.false_eq_true, if_false,
    if_true]

end

/-! ### Rows of drains, loads and zeroings (17 R266 to R269) -/

theorem exec_rowLands_none {c : Nat} {s : State} (h : ∀ v ∈ (s.cl c).m.movers, s.cycle.toNat < v.cyc + 1 + v.done) :
    exec (.mdrainRowLands c) s = .next s := by
  have hdue : (s.cl c).dueMover s.cycle.toNat = none :=
    List.find?_eq_none.2 fun v hv hd => absurd (of_decide_eq_true hd) (Nat.not_le.2 (h v hv))
  change execMdrainRowLands c s = _
  simp only [execMdrainRowLands, hdue]

/-- Zeroing rows removes the entries of the rows, and those alone. -/
theorem MEng.acc_foldl_zeroRow (l : List Nat) (m : MEng) (bank row : Nat) : (l.foldl (fun m i => m.zeroRow bank (row + i)) m).acc =
    m.acc.filter fun e => l.all fun i => e.1 / 256 != bank * 128 + (row + i) := by
  induction l generalizing m with
  | nil => exact (List.filter_eq_self.2 fun _ _ => rfl).symm
  | cons i l ih =>
    rw [List.foldl_cons, ih, MEng.zeroRow, List.filter_filter]
    refine List.filter_congr fun e _ => ?_
    rw [List.all_cons, Bool.and_comm]

theorem accKey_row (bank row : Nat) {col : Nat} (h : col < 256) : accKey bank row col / 256 = bank * 128 + row := by
  unfold accKey
  omega

section
variable {k : Cluster} {v : Mover} (hv : v.atOnce = true) (due : Nat)
include hv

/-- Every row of an MZERO is zero once it has been carried out. -/
theorem Cluster.get_moveRow_atOnce {i col : Nat} (hi : i < v.n) (hcol : col < 256) :
    SMap.get 0 (k.moveRow v due).m.acc (accKey v.bank (v.row0 + i) col) = 0 := by
  rw [Cluster.moveRow, if_pos hv]
  refine SMap.get_of_not_mem 0 _ fun e he hkey => ?_
  rw [MEng.acc_foldl_zeroRow] at he
  have hrow := List.all_eq_true.1 (List.mem_filter.1 he).2 i (List.mem_range.2 hi)
  rw [hkey, accKey_row _ _ hcol, bne_self_eq_false] at hrow
  exact Bool.false_ne_true hrow

/-- An MZERO leaves with its rows. -/
theorem Cluster.movers_moveRow_atOnce : ∀ y ∈ (k.moveRow v due).m.movers, y.id ≠ v.id := by
  rw [Cluster.moveRow, if_pos hv]
  exact fun y hy => bne_iff_ne.1 (List.mem_filter.1 hy).2

end

end Sys2Proof.Machine

namespace Sys2Proof.Claims
open Sys2Proof.Machine

theorem nestSteps : NestSteps := by
  refine fun s c n hnd => ⟨fun x hx => ?_, fun k hk => ?_, rfl, s.cx_runStep c n, fun j hj => State.cl_modCl_ne _ _ hj⟩
  · rw [State.acc_runStep]
    exact SMap.get_foldl_put_of_mem _ _ _ (fun f x => f ||| (s.contributed c n x).2) _ _ hnd hx
  · rw [State.acc_runStep]
    exact SMap.get_foldl_put_ne _ _ _ (fun f x => f ||| (s.contributed c n x).2) _ _ hk

theorem matrixSteps : MatrixSteps := fun _ _ _ _ hn =>
  ⟨exec_nestStart hn, exec_nestStep hn, fun _ hr hlt => exec_nestStep_held hn hr hlt, fun _ hr hlt => exec_nestStep_dropped hn hr hlt,
    exec_nestEnd hn, fun _ _ => exec_rowLands, exec_rowLands_none,
    fun _ _ due _ _ hv hi hcol => ⟨Cluster.get_moveRow_atOnce hv due hi hcol, Cluster.movers_moveRow_atOnce hv due⟩⟩

/-- Settles O30: nestSteps reads the fold of a step's contributions, matrixSteps has a lemma for each course of the steps. -/
theorem nestsStep : Obligations.NestsStep := by
  unfold Obligations.NestsStep
  exact ⟨nestSteps, matrixSteps⟩

end Sys2Proof.Claims
end

section
/-! PROOFS. Merging two partial results gives the same bits in either order (05 R76, R80, 19 R281): O32. -/

namespace Sys2Proof.Machine

/-! ### Exact values and their signs (05 R65, R76, R80) -/

theorem XR.add_comm (rd : Rnd) (x y : XR) : XR.add rd x y = XR.add rd y x := by
  cases x with
  | nan => cases y <;> rfl
  | inf a => cases y with
    | inf b =>
      by_cases h : a = b
      · rw [h]
      · simp only [XR.add, if_neg h, if_neg (Ne.symm h)]
    | _ => rfl
  | num z q => cases y with
    | num z' q' =>
      simp only [XR.add, Rat.add_comm q' q]
      split
      next hs =>
        have hzero : q = 0 ↔ q' = 0 := by constructor <;> intro h <;> simpa [h] using hs
        by_cases hz : z = z'
        · subst hz
          simp only [hzero]
        · rw [beq_false_of_ne hz, beq_false_of_ne (Ne.symm hz), Bool.and_false, Bool.and_false]
          rfl
      next => rfl
    | _ => rfl

/-- A value whose sign is that of its number, where the number has one. -/
def XR.signed : XR → Prop
  | .num z q => q ≠ 0 → z = decide (q < 0)
  | _ => True

theorem pow2_pos (e : Int) : 0 < pow2 e := by
  cases e with
  | ofNat n => exact Nat.cast_pos.2 (Nat.two_pow_pos n)
  | negSucc n =>
    rw [pow2, Rat.mkRat_eq_div]
    have hpow : (0 : Rat) < ((2 ^ (n + 1) : Nat) : Rat) := Nat.cast_pos.2 (Nat.two_pow_pos _)
    exact div_pos one_pos (by exact_mod_cast hpow)

/-- A sign times a magnitude is below zero for the negative sign alone. -/
theorem signed_magnitude {p : Prop} [Decidable p] (n : Nat) (e : Int) :
    (XR.num (decide p) ((if p then -1 else 1) * (n : Rat) * pow2 e)).signed := by
  have hx : (0 : Rat) ≤ (n : Rat) * pow2 e := mul_nonneg (Nat.cast_nonneg n) (pow2_pos e).le
  rw [mul_assoc]
  intro hne
  have hpos : 0 < (n : Rat) * pow2 e := lt_of_le_of_ne hx fun h => hne (by rw [← h, mul_zero])
  by_cases hp : p
  · simpa [hp] using hpos
  · simpa [hp] using hx

/-- What a bit pattern stands for is so signed. -/
theorem Fmt.signed_decode (f : Fmt) (b : Nat) : (f.decode b).signed := by
  unfold Fmt.decode
  dsimp only
  split
  · split <;> trivial
  split
  · trivial
  split
  · exact signed_magnitude _ _
  · exact signed_magnitude _ _

/-- The maximum by rank is the same from either side. -/
theorem XR.rankMax_comm {x y : XR} (hx : x.signed) (hy : y.signed) : x.rankMax y = y.rankMax x := by
  cases x with
  | nan => cases y <;> rfl
  | inf a => cases y with
    | nan => rfl
    | inf b => cases a <;> cases b <;> rfl
    | num z q => cases a <;> rfl
  | num z q => cases y with
    | nan => rfl
    | inf b => cases b <;> rfl
    | num z' q' =>
      rcases lt_trichotomy q q' with h | rfl | h
      · simp [XR.rankMax, XR.rankLt, h, h.le]
      · by_cases h0 : q = 0
        · simp [XR.rankMax, XR.rankLt, XR.isZero, h0, Bool.and_comm]
        · rw [hx h0, hy h0]
      · simp [XR.rankMax, XR.rankLt, h, h.le]

/-! ### Rows merged (19 R281) -/

theorem addR_comm (x y : XR) : addR x y = addR y x := by rw [addR, addR, XR.add_comm]

/-- A row, or one of two rows, holds a NaN. -/
def ARow.hasNan (x y : ARow) : Prop :=
  x32 x.m = .nan ∨ x32 y.m = .nan ∨ x32 x.l = .nan ∨ x32 y.l = .nan ∨ (x.acc ++ y.acc).any (fun e => decide (x32 e = .nan)) = true

/-- The weights of two rows whose maxima have this maximum. -/
def mergeWeights (ma mb mn : XR) : XR × XR := if mn = .inf true then (.num false 1, .num false 1) else (expR ma mn, expR mb mn)

/-- Two weighted numbers of a row added. -/
def weighted (w : XR × XR) (p q : Nat) : Nat := b32 (addR (mulR (x32 p) w.1) (mulR (x32 q) w.2))

open Classical in
theorem mergeRow_eq (x y : ARow) : mergeRow x y =
    if x.hasNan y then ARow.nan x.acc.length
    else
      let mn := (x32 x.m).rankMax (x32 y.m)
      let w := mergeWeights (x32 x.m) (x32 y.m) mn
      { m := b32 mn, l := weighted w x.l y.l, acc := (x.acc.zip y.acc).map fun p => weighted w p.1 p.2 } := by
  unfold mergeRow
  dsimp only
  exact if_congr Iff.rfl rfl rfl

theorem ARow.hasNan_comm (x y : ARow) : x.hasNan y ↔ y.hasNan x := by
  unfold ARow.hasNan
  rw [List.any_append, List.any_append, Bool.or_comm]
  tauto

theorem mergeWeights_comm (ma mb mn : XR) : mergeWeights ma mb mn = (mergeWeights mb ma mn).swap := by
  unfold mergeWeights
  split <;> rfl

theorem weighted_comm (w : XR × XR) (p q : Nat) : weighted w.swap p q = weighted w q p := congrArg b32 (addR_comm ..)

end Sys2Proof.Machine

namespace Sys2Proof.Claims
open Sys2Proof.Machine

/-- Settles O32: the maximum, the sums and the test for NaN are the same from either side. -/
theorem mergeCommutes : Obligations.MergeCommutes := by
  unfold Obligations.MergeCommutes
  intro x y hlen
  classical
  have hmax : (x32 x.m).rankMax (x32 y.m) = (x32 y.m).rankMax (x32 x.m) := XR.rankMax_comm (Fmt.signed_decode ..) (Fmt.signed_decode ..)
  rw [mergeRow_eq, mergeRow_eq]
  refine if_congr (x.hasNan_comm y) (by rw [hlen]) ?_
  dsimp only
  rw [hmax, mergeWeights_comm, ← List.zip_swap, List.map_map]
  simp only [weighted_comm]
  rfl

end Sys2Proof.Claims
end

section
/-! PROOFS. Pages are granted and moved (19 R287, R291, 25 R333, R337, R340, R341): O44. -/

namespace Sys2Proof.Machine

/-! ### The page allocator (25 R333, R336, R337) -/

@[simp] theorem ADie.descOf_setDesc_same (a : ADie) (i : Nat) (d : Desc) : (a.setDesc i d).descOf i = d := SMap.get_put_same ..

theorem ADie.descOf_setDesc_ne (a : ADie) {i j : Nat} (d : Desc) (h : j ≠ i) : (a.setDesc i d).descOf j = a.descOf j :=
  SMap.get_put_ne _ _ _ h

/-- What is taken of what was given back was given back within the horizon. -/
theorem takeBack_some {α : Type} {hor : Nat} {l : List (α × Nat)} {x : α} {r : List (α × Nat)} (h : takeBack hor l = some (x, r)) :
    ∃ n, (x, n) ∈ l ∧ n ≤ hor := by
  induction l generalizing r with
  | nil => cases h
  | cons e es ih =>
    rw [takeBack] at h
    split at h
    next hle =>
      cases h
      exact ⟨e.2, List.mem_cons_self, hle⟩
    next =>
      obtain ⟨⟨y, r'⟩, hy, heq⟩ := Option.map_eq_some_iff.1 h
      cases heq
      obtain ⟨n, hn, hle⟩ := ih hy
      exact ⟨n, List.mem_cons_of_mem _ hn, hle⟩

theorem Pool.take_some {p q : Pool} {hor size : Nat} {f : BitVec 52} (h : p.take hor size = some (q, f)) :
    (∃ n, (f, n) ∈ p.back ∧ n ≤ hor) ∨ (p.fresh < p.cap ∧ f = p.base + BitVec.ofNat 52 (p.fresh * size)) := by
  unfold Pool.take at h
  split at h
  next hback =>
    cases h
    exact .inl (takeBack_some hback)
  next =>
    split at h
    next hlt =>
      cases h
      exact .inr ⟨hlt, rfl⟩
    next => cases h

section
variable {a q : ADie} {lim now hor i : Nat} {pin : Bool}

/-- An allocator that is disabled, or initialising, grants nothing and evicts nothing. -/
theorem ADie.allocPage_off (h : a.en = false ∨ a.initing = true) : a.allocPage lim now hor pin = (a, none) := by
  have hoff : (!a.en || a.initing) = true := by
    rcases h with h | h
    · rw [h]; rfl
    · rw [h, Bool.or_true]
  simp only [ADie.allocPage, ADie.allocFrame, hoff, if_true]

/-- A page that is granted is the last that is written. -/
theorem ADie.allocPage_some (h : a.allocPage lim now hor pin = (q, some i)) :
    ∃ f, q.descOf i = { Desc.zero with addr := f, refc := 1, pinned := pin, node := 0xFFFFFFFF } := by
  unfold ADie.allocPage at h
  split at h
  · cases h
  next f _ =>
    split at h
    · cases h
      exact ⟨f, ADie.descOf_setDesc_same ..⟩
    · cases h

/-- A tree without nodes gives no frame back. -/
theorem ADie.allocPage_full (hn : a.nodes = []) (hf : a.hbm.free ≤ lim) : (a.allocPage lim now hor pin).2 = none := by
  have hframe : a.allocFrame 0 lim now hor = (a, none) := by
    unfold ADie.allocFrame
    split
    · rfl
    · rw [hn]
      exact if_pos hf
  rw [ADie.allocPage, hframe]

end

/-! ### The end of a move (25 R340, R341) -/

/-- A page that is counted, or in the tree, stays. -/
theorem ADie.settle_of_held {a : ADie} {i now : Nat} (h : (a.descOf i).refc ≠ 0 ∨ (a.descOf i).intree = true) : a.settle i now = a := by
  refine if_neg fun ⟨hrefc, hfree⟩ => ?_
  rcases h with h | h
  · exact h hrefc
  · rw [h] at hfree
    exact nomatch hfree

theorem ADie.pool_setPool (a : ADie) (t : Nat) (p : Pool) : (a.setPool t p).pool t = p := by
  unfold ADie.pool ADie.setPool
  by_cases h : t = 0
  · rw [if_pos h, if_pos h]
  · rw [if_neg h, if_neg h]

@[simp] theorem ADie.pool_goOn (a : ADie) (b : Bool) (t : Nat) : (a.goOn b).pool t = a.pool t := by
  unfold ADie.goOn
  split <;> rfl

/-- The copy engine goes on with the first of its moves, unless it is frozen. -/
theorem ADie.head_goOn {a : ADie} {b : Bool} {x : Move} (h : (a.goOn b).moves.head? = some x) :
    x.going = ((a.moves.head?.map Move.going).getD false || !b) := by
  unfold ADie.goOn at h
  split at h
  next m ms hm =>
    cases h
    rw [hm]
    rfl
  next hm =>
    rw [hm] at h
    cases h

section
variable (a : ADie) (m : Move) (ms : List Move) (now : Nat)

/-- A page that has moved: it stands in its new frame, at its new tier. -/
def Desc.movedBy (d : Desc) : Desc := { d with addr := m.frame, tier := if m.toIn then 0 else 1, out := false, rev := false }

/-- The A-die with that page's descriptor, and the moves that are left. -/
def ADie.withMoved : ADie := { a.setDesc m.page ((a.descOf m.page).movedBy m) with moves := ms }

@[simp] theorem ADie.descOf_withMoved (i : Nat) :
    (a.withMoved m ms).descOf i = (a.setDesc m.page ((a.descOf m.page).movedBy m)).descOf i := rfl

/-- The A-die at the end of a move of a page that stays: one descriptor has changed, and the old frame is back. -/
theorem ADie.endMove_eq (h : (a.descOf m.page).refc ≠ 0 ∨ (a.descOf m.page).intree = true) : a.endMove m ms now =
    (a.withMoved m ms).setPool (if m.toIn then 1 else 0) ((a.pool (if m.toIn then 1 else 0)).give (a.descOf m.page).addr now) := by
  refine ADie.settle_of_held (a := (a.withMoved m ms).setPool _ _) ?_
  rw [ADie.descOf_setPool, ADie.descOf_withMoved, ADie.descOf_setDesc_same]
  exact h

end

/-! ### The bytes of a moved page -/

theorem get_foldl_memPut_ne (l : List (Nat × Byte)) (m : List Host.Cell) {x : Nat} (h : ∀ e ∈ l, e.1 ≠ x) :
    SMap.get 0 (l.foldl (fun m b => memPut m b.1 b.2) m) x = SMap.get 0 m x := by
  induction l generalizing m with
  | nil => rfl
  | cons e l ih =>
    obtain ⟨he, hl⟩ := List.forall_mem_cons.1 h
    rw [List.foldl_cons, ih _ hl, get_memPut_ne _ _ he.symm]

/-- Of writes that agree on an address the value stands there. -/
theorem get_foldl_memPut_of_mem (l : List (Nat × Byte)) (m : List Host.Cell) {x : Nat} {v : Byte} (hv : (x, v) ∈ l)
    (h : ∀ e ∈ l, e.1 = x → e.2 = v) : SMap.get 0 (l.foldl (fun m b => memPut m b.1 b.2) m) x = v := by
  induction l generalizing m with
  | nil => cases hv
  | cons e l ih =>
    obtain ⟨he, hl⟩ := List.forall_mem_cons.1 h
    rw [List.foldl_cons]
    by_cases hmem : (x, v) ∈ l
    · exact ih _ hmem hl
    · obtain rfl : (x, v) = e := (List.mem_cons.1 hv).resolve_right hmem
      rw [get_foldl_memPut_ne, get_memPut]
      intro e hel hx
      exact hmem (by rwa [← hx, ← hl e hel hx])

/-- An entry of a canonical table is what its key reads. -/
theorem SMap.get_of_mem {α : Type} (d : α) {m : SMap α} (h : m.Pairwise fun a b => a.1 < b.1) {k : Nat} {v : α} (hv : (k, v) ∈ m) :
    SMap.get d m k = v := by
  induction m with
  | nil => cases hv
  | cons e m ih =>
    obtain ⟨hlt, hm⟩ := List.pairwise_cons.1 h
    rw [SMap.get]
    rcases List.mem_cons.1 hv with rfl | hmem
    · rw [if_pos rfl]
    · have hne : k ≠ e.1 := (hlt _ hmem).ne'
      rw [if_neg hne, ih hm hmem]

theorem SMap.get_filter_key {α : Type} (d : α) (p : Nat → Bool) (m : SMap α) {k : Nat} (h : p k = true) :
    SMap.get d (m.filter fun e => p e.1) k = SMap.get d m k := by
  induction m with
  | nil => rfl
  | cons e m ih =>
    by_cases hp : p e.1
    · rw [List.filter_cons_of_pos (p := fun e : Nat × α => p e.1) hp, SMap.get, SMap.get, ih]
    · have hne : k ≠ e.1 := fun hk => hp (hk ▸ h)
      rw [List.filter_cons_of_neg (p := fun e : Nat × α => p e.1) hp, ih, SMap.get, if_neg hne]

section
variable (s : State) (src dst size : Nat)

/-- A byte that a page's copy leaves: it is outside the new frame, or its granule is read-only. -/
def State.copyKeeps (x : Nat) : Bool := !(decide (dst ≤ x) && decide (x < dst + size)) || s.isRo x

/-- The cells that a page's copy writes. -/
def State.copiedCells : List (Nat × Byte) :=
  ((s.mem.filter fun b => decide (src ≤ b.1) && decide (b.1 < src + size)).map fun b => (dst + (b.1 - src), b.2)).filter fun b => !s.isRo b.1

theorem State.mem_copyPage : (s.copyPage src dst size).mem =
    (s.copiedCells src dst size).foldl (fun m b => memPut m b.1 b.2) (s.mem.filter fun b => s.copyKeeps dst size b.1) := rfl

variable {s src dst size}

theorem State.mem_copiedCells {e : Nat × Byte} : e ∈ s.copiedCells src dst size ↔
    ∃ b ∈ s.mem, src ≤ b.1 ∧ b.1 < src + size ∧ (dst + (b.1 - src), b.2) = e ∧ s.isRo e.1 = false := by
  simp only [State.copiedCells, List.mem_filter, List.mem_map, Bool.and_eq_true, decide_eq_true_eq, Bool.not_eq_true', and_assoc]
  constructor
  · rintro ⟨⟨b, hb, hlo, hhi, he⟩, hro⟩
    exact ⟨b, hb, hlo, hhi, he, hro⟩
  · rintro ⟨b, hb, hlo, hhi, he, hro⟩
    exact ⟨⟨b, hb, hlo, hhi, he⟩, hro⟩

/-- A byte outside the frame a page is copied to stays. -/
theorem State.get_copyPage_out {x : Nat} (h : x < dst ∨ dst + size ≤ x) :
    SMap.get 0 (s.copyPage src dst size).mem x = SMap.get 0 s.mem x := by
  have hkeep : s.copyKeeps dst size x = true := by
    have hout : ¬(dst ≤ x ∧ x < dst + size) := by omega
    rw [State.copyKeeps, ← Bool.decide_and, decide_eq_false hout]
    rfl
  rw [State.mem_copyPage, get_foldl_memPut_ne, SMap.get_filter_key _ _ _ hkeep]
  intro e he hx
  obtain ⟨b, -, hlo, hhi, rfl, -⟩ := State.mem_copiedCells.1 he
  dsimp only at hx
  omega

/-- A byte of a copied page is that of the old frame, unless its granule is read-only. -/
theorem State.get_copyPage_in (hwf : Memory.wf s.mem = true) {k : Nat} (hk : k < size) (hro : s.isRo (dst + k) = false) :
    SMap.get 0 (s.copyPage src dst size).mem (dst + k) = SMap.get 0 s.mem (src + k) := by
  have hsorted : s.mem.Pairwise fun a b => a.1 < b.1 := ((SMap.wf_iff 0 s.mem).1 hwf).1
  have hval : ∀ e ∈ s.copiedCells src dst size, e.1 = dst + k → e.2 = SMap.get 0 s.mem (src + k) := by
    intro e he hx
    obtain ⟨⟨a, v⟩, hb, hlo, hhi, rfl, -⟩ := State.mem_copiedCells.1 he
    dsimp only at hlo hhi hx ⊢
    obtain rfl : a = src + k := by omega
    exact (SMap.get_of_mem 0 hsorted hb).symm
  rw [State.mem_copyPage]
  by_cases hex : ∃ e ∈ s.copiedCells src dst size, e.1 = dst + k
  · obtain ⟨⟨a, v⟩, he, rfl⟩ := hex
    obtain rfl : v = SMap.get 0 s.mem (src + k) := hval _ he rfl
    exact get_foldl_memPut_of_mem _ _ he hval
  · have hnone : ∀ e ∈ s.copiedCells src dst size, e.1 ≠ dst + k := fun e he hx => hex ⟨e, he, hx⟩
    have hdrop : s.copyKeeps dst size (dst + k) = false := by
      have hin : dst ≤ dst + k ∧ dst + k < dst + size := by omega
      rw [State.copyKeeps, ← Bool.decide_and, decide_eq_true hin, hro]
      rfl
    rw [get_foldl_memPut_ne _ _ hnone, SMap.get_of_not_mem, SMap.get_of_not_mem]
    · rintro ⟨a, v⟩ hb rfl
      refine hnone (dst + k, v) (State.mem_copiedCells.2 ⟨_, hb, by dsimp only; omega, by dsimp only; omega, ?_, hro⟩) rfl
      dsimp only
      rw [Nat.add_sub_cancel_left]
    · intro e he hx
      rw [← hx, (List.mem_filter.1 he).2] at hdrop
      exact nomatch hdrop

end

/-- Ending a move changes no byte but by the page's copy. -/
theorem State.mem_moveEnded (s : State) (n : Nat) (m : Move) (ms : List Move) : (s.moveEnded n m ms).mem =
    (s.copyPage ((s.adie n).descOf m.page).addr.toNat m.frame.toNat (s.adie n).pageSize).mem := rfl

end Sys2Proof.Machine

namespace Sys2Proof.Claims
open Sys2Proof.Machine

/-- R287, R333, R337: pages granted. -/
theorem pageGrants : PageGrants := by
  refine ⟨fun a q lim now hor i pin h => ?_, fun _ _ _ _ _ => ADie.allocPage_off, fun _ _ _ _ _ => ADie.allocPage_full,
    fun _ _ _ _ _ => Pool.take_some⟩
  obtain ⟨f, hf⟩ := ADie.allocPage_some h
  rw [hf]
  exact ⟨rfl, rfl, rfl, rfl, rfl, rfl, rfl, rfl, rfl⟩

/-- A move that is not performed, or whose read waits for a store, does not end. -/
theorem tierMoveEnd_waits {s : State} {n : Nat} {m : Move} {ms : List Move} (hms : (s.adie n).moves = m :: ms)
    (h : m.going = false ∨ s.dieHeld (8 + n) = true) : exec (.tierMoveEnd n) s = .next s := by
  have hwait : (!m.going || s.dieHeld (8 + n)) = true := by
    rcases h with h | h
    · rw [h]; rfl
    · rw [h, Bool.or_true]
  change execTierMoveEnd n s = _
  simp only [execTierMoveEnd, hms, hwait, if_true]

/-- R291, R340, R341: the end of a move. -/
theorem tierMoveEnds : TierMoveEnds := by
  refine ⟨fun s n m ms => tierMoveEnd_waits, fun s n m ms hms hreqs hrev hstill hgoing hheld href hfree hstays => ?_⟩
  have hadie := s.adie_moveEnded n m ms
  have hend := (s.adie n).endMove_eq m ms s.seq hstays
  have hmoves : ((s.adie n).endMove m ms s.seq).moves = ms := by
    rw [hend, ADie.moves_setPool]
    rfl
  have hdesc (i : Nat) : ((s.moveEnded n m ms).adie n).descOf i =
      ((s.adie n).setDesc m.page (((s.adie n).descOf m.page).movedBy m)).descOf i := by
    rw [hadie, ADie.descOf_goOn, hend, ADie.descOf_setPool, ADie.descOf_withMoved]
  have hpage := (hdesc m.page).trans (ADie.descOf_setDesc_same ..)
  refine ⟨_, exec_tierMoveEnd hms hreqs hrev hstill hgoing hheld href, ?_, fun x hx => ?_, ?_, ?_, ?_, ?_, ?_, ?_, fun i hi => ?_,
    fun hwf k hk hro => ?_, fun x hx => ?_⟩
  · rw [hadie, ADie.atRest_goOn, hmoves]
  · rw [hadie] at hx
    rw [ADie.head_goOn hx, hmoves]
    rfl
  · rw [hpage]; rfl
  · rw [hpage]; rfl
  · rw [hpage]; rfl
  · rw [hpage]; rfl
  · rw [hpage]; rfl
  · rw [hadie, ADie.pool_goOn, hend, ADie.pool_setPool]
    rfl
  · rw [hdesc, ADie.descOf_setDesc_ne _ _ hi]
  · rw [State.mem_moveEnded, State.get_copyPage_in hwf hk hro]
  · rw [State.mem_moveEnded, State.get_copyPage_out hx]

/-- Settles O44: pageGrants reads the allocator's branches, tierMoveEnds the one descriptor, the pool and the bytes that a move's end
changes. -/
theorem pagesMove : Obligations.PagesMove := by
  unfold Obligations.PagesMove
  exact ⟨pageGrants, tierMoveEnds⟩

end Sys2Proof.Claims
end

section
/-! PROOFS. BMAP.ro reorders the viewers of a beam (19 R283, R284): O33. -/

namespace Sys2Proof.Machine

/-! ### Fields of a Beam Map entry (19 R283) -/

theorem beamRow_lt (e : BitVec 128) : beamRow e < 2 ^ 50 := Nat.mod_lt _ (by decide)
theorem beamSpare_lt (e : BitVec 128) : beamSpare e < 2 ^ 50 := Nat.mod_lt _ (by decide)
theorem beamNb_lt (e : BitVec 128) : beamNb e < 2 ^ 16 := Nat.mod_lt _ (by decide)
theorem beamAsid_lt (e : BitVec 128) : beamAsid e < 2 ^ 8 := Nat.mod_lt _ (by decide)

/-- The fields of an entry that is made are those it is made of. -/
theorem beamMake_fields {asid nb row spare : Nat} (fork : Bool) (ha : asid < 2 ^ 8) (hn : nb < 2 ^ 16) (hr : row < 2 ^ 50)
    (hs : spare < 2 ^ 50) :
    let e := beamMake asid nb row fork spare
    beamV e = true ∧ beamFork e = fork ∧ beamAsid e = asid ∧ beamNb e = nb ∧ beamRow e = row := by
  have hfork : (if fork then 2 ^ 126 else 0) = fork.toNat * 2 ^ 126 := by cases fork <;> simp
  have hf := fork.toNat_le
  have hnat : (beamMake asid nb row fork spare).toNat =
      2 ^ 127 + fork.toNat * 2 ^ 126 + asid * 2 ^ 116 + nb * 2 ^ 100 + spare * 2 ^ 50 + row := by
    rw [beamMake, hfork, BitVec.toNat_ofNat, Nat.mod_eq_of_lt (by omega)]
  have hbit (i : Nat) (b : Bool) (h : (beamMake asid nb row fork spare).toNat / 2 ^ i % 2 = b.toNat) :
      (beamMake asid nb row fork spare).getLsbD i = b := by
    rw [BitVec.getLsbD, Nat.testBit_eq_decide_div_mod_eq, h]
    cases b <;> rfl
  refine ⟨hbit 127 true ?_, hbit 126 fork ?_, ?_, ?_, ?_⟩
  · rw [hnat, Bool.toNat_true]
    omega
  · rw [hnat]
    omega
  · rw [beamAsid, bitsNat_eq_div (n := 2 ^ 8), hnat]
    omega
  · rw [beamNb, bitsNat_eq_div (n := 2 ^ 16), hnat]
    omega
  · rw [beamRow, bitsNat_eq_div (n := 2 ^ 50), hnat]
    omega

/-! ### Which viewers of a row are forked (19 R284) -/

theorem mem_distinct_foldl (l acc : List Nat) {x : Nat} :
    x ∈ l.foldl (fun a x => if a.contains x then a else a ++ [x]) acc ↔ x ∈ acc ∨ x ∈ l := by
  induction l generalizing acc with
  | nil => simp
  | cons y l ih =>
    rw [List.foldl_cons, ih]
    split
    next hc =>
      have hy : y ∈ acc := by simpa using hc
      constructor
      · rintro (h | h)
        · exact .inl h
        · exact .inr (List.mem_cons_of_mem _ h)
      · rintro (h | h)
        · exact .inl h
        · rcases List.mem_cons.1 h with rfl | h
          · exact .inl hy
          · exact .inr h
    next => simp [or_assoc]

theorem mem_distinct {l : List Nat} {x : Nat} : x ∈ distinct l ↔ x ∈ l := by
  rw [distinct, mem_distinct_foldl]
  simp

/-- An element of a rising list is not the first of it when a smaller one stands in it. -/
theorem mem_tail_of_sorted {l : List Nat} (h : l.Pairwise (· < ·)) {x : Nat} : x ∈ l.tail ↔ x ∈ l ∧ ∃ y ∈ l, y < x := by
  cases l with
  | nil => simp
  | cons a l =>
    obtain ⟨hlt, -⟩ := List.pairwise_cons.1 h
    rw [List.tail_cons]
    constructor
    · exact fun hx => ⟨List.mem_cons_of_mem a hx, a, List.mem_cons_self, hlt x hx⟩
    · rintro ⟨hx, y, hy, hyx⟩
      rcases List.mem_cons.1 hx with rfl | hx
      · rcases List.mem_cons.1 hy with rfl | hy
        · exact absurd hyx (Nat.lt_irrefl _)
        · exact absurd (hlt y hy) (by omega)
      · exact hx

/-- The beams that take a spare row, in the order of R284. -/
def spareOrder (views : List (Nat × Nat × Nat)) : List Nat :=
  (distinct (views.map (·.1))).flatMap fun r => ((List.range views.length).filter fun i => (views.getD i (0, 0, 0)).1 == r).tail

theorem mem_spareOrder {views : List (Nat × Nat × Nat)} {b : Nat} : b ∈ spareOrder views ↔
    b < views.length ∧ ∃ c, c < b ∧ (views.getD c (0, 0, 0)).1 = (views.getD b (0, 0, 0)).1 := by
  have hsorted (r : Nat) : ((List.range views.length).filter fun i => (views.getD i (0, 0, 0)).1 == r).Pairwise (· < ·) :=
    List.pairwise_lt_range.filter _
  simp only [spareOrder, List.mem_flatMap, mem_tail_of_sorted (hsorted _), List.mem_filter, List.mem_range, beq_iff_eq, mem_distinct]
  constructor
  · rintro ⟨r, -, ⟨hb, hr⟩, c, ⟨-, hc⟩, hlt⟩
    exact ⟨hb, c, hlt, hc.trans hr.symm⟩
  · rintro ⟨hb, c, hlt, hrow⟩
    refine ⟨_, ?_, ⟨hb, rfl⟩, c, ⟨by omega, hrow⟩, hlt⟩
    rw [List.getD_eq_getElem _ _ hb]
    exact List.mem_map_of_mem (List.getElem_mem hb)

/-- The place of a beam among those that take a spare row. -/
def spareRank (views : List (Nat × Nat × Nat)) (b : Nat) : Option Nat :=
  ((spareOrder views).zipIdx.find? fun o => o.1 == b).map (·.2)

theorem isSome_spareRank {views : List (Nat × Nat × Nat)} {b : Nat} : (spareRank views b).isSome = true ↔ b ∈ spareOrder views := by
  rw [spareRank, Option.isSome_map, List.find?_isSome]
  constructor
  · rintro ⟨o, ho, hb⟩
    rw [← beq_iff_eq.1 hb]
    exact List.fst_mem_of_mem_zipIdx ho
  · intro hb
    obtain ⟨k, hk, hget⟩ := List.getElem_of_mem hb
    exact ⟨(b, k), List.mem_zipIdx_iff_getElem?.2 (by rw [List.getElem?_eq_getElem hk, hget]), beq_self_eq_true b⟩

section
variable {short : Nat → Nat} {views : List (Nat × Nat × Nat)} {free : List Nat}

theorem forkEntries_eq : forkEntries short views free = views.zipIdx.map fun v =>
    match spareRank views v.2 with
    | none => beamMake v.1.2.2 v.1.2.1 v.1.1 false 0
    | some k => beamMake v.1.2.2 v.1.2.1 v.1.1 true (free.getD k (short v.2)) := rfl

@[simp] theorem length_forkEntries : (forkEntries short views free).length = views.length := by
  rw [forkEntries_eq, List.length_map, List.length_zipIdx]

/-- The entry of a beam: its view, forked when a beam before it views the same row. -/
theorem getD_forkEntries {b : Nat} (hb : b < views.length) (hfree : ∀ r ∈ free, r < 2 ^ 50) (hshort : ∀ b, short b < 2 ^ 50) :
    ∃ fork spare, (forkEntries short views free).getD b 0 =
        beamMake (views.getD b (0, 0, 0)).2.2 (views.getD b (0, 0, 0)).2.1 (views.getD b (0, 0, 0)).1 fork spare ∧
      spare < 2 ^ 50 ∧ (fork = true ↔ ∃ c, c < b ∧ (views.getD c (0, 0, 0)).1 = (views.getD b (0, 0, 0)).1) := by
  have hlen : b < (forkEntries short views free).length := by rw [length_forkEntries]; exact hb
  have hentry : (forkEntries short views free).getD b 0 =
      match spareRank views b with
      | none => beamMake (views.getD b (0, 0, 0)).2.2 (views.getD b (0, 0, 0)).2.1 (views.getD b (0, 0, 0)).1 false 0
      | some k => beamMake (views.getD b (0, 0, 0)).2.2 (views.getD b (0, 0, 0)).2.1 (views.getD b (0, 0, 0)).1 true
          (free.getD k (short b)) := by
    rw [List.getD_eq_getElem _ _ hlen, List.getD_eq_getElem _ _ hb]
    simp only [forkEntries_eq, List.getElem_map, List.getElem_zipIdx, Nat.zero_add]
  have hrank := (isSome_spareRank (views := views) (b := b)).trans mem_spareOrder
  rw [and_iff_right hb] at hrank
  rw [hentry]
  cases hr : spareRank views b with
  | none =>
    rw [hr] at hrank
    exact ⟨false, 0, rfl, by decide, hrank⟩
  | some k =>
    rw [hr] at hrank
    refine ⟨true, _, rfl, ?_, hrank⟩
    rw [List.getD_eq_getElem?_getD]
    cases hk : free[k]? with
    | none => exact hshort b
    | some r => exact hfree r (List.mem_of_getElem? hk)

end

/-! ### The Beam Map after counts and entries change -/

@[simp] theorem State.agents_modADie (s : State) (n : Nat) (f : ADie → ADie) : (s.modADie n f).agents = s.agents := rfl

theorem ADie.beam_setPool (a : ADie) (t : Nat) (p : Pool) : (a.setPool t p).beam = a.beam := by
  unfold ADie.setPool
  split <;> rfl

theorem ADie.beam_settle (a : ADie) (i now : Nat) : (a.settle i now).beam = a.beam := by
  have hgive : (a.giveBack i now).beam = a.beam := by
    unfold ADie.giveBack
    dsimp only
    split
    · rfl
    · exact a.beam_setPool ..
  unfold ADie.settle
  dsimp only
  split
  · exact hgive
  · rfl

theorem ADie.beam_unref (a : ADie) (i k now : Nat) : (a.unref i k now).beam = a.beam := ADie.beam_settle ..

/-- A change of an A-die that leaves its Beam Map leaves every entry. -/
theorem State.beam_modADie (s : State) (n : Nat) {f : ADie → ADie} (hf : ∀ a, (f a).beam = a.beam) (i : Nat) :
    (s.modADie n f).beam i = s.beam i := by
  have hme : (s.modADie n f).myA = s.myA := rfl
  rw [State.beam, State.beam, hme]
  by_cases h : s.myA = n
  · rw [h, State.adie_modADie_same, hf]
  · rw [State.adie_modADie_ne _ _ h]

theorem State.beam_setBeam (s : State) (i : Nat) (v : BitVec 128) (j : Nat) :
    (s.setBeam i v).beam j = if j = i then v else s.beam j := by
  have hme : (s.setBeam i v).myA = s.myA := rfl
  rw [State.beam, hme, State.setBeam, State.adie_modADie_same]
  split
  next h => rw [h, SMap.get_put_same]
  next h => rw [SMap.get_put_ne _ _ _ h, State.beam]

/-- Counts of pages change no entry of the Beam Map, and no context. -/
theorem State.applyDeltas_keeps (s : State) (ds : List (Nat × Int)) :
    (s.applyDeltas ds).agents = s.agents ∧ ∀ i, (s.applyDeltas ds).beam i = s.beam i := by
  unfold State.applyDeltas
  refine List.foldlRecOn (motive := fun t : State => t.agents = s.agents ∧ ∀ i, t.beam i = s.beam i) _ _ ⟨rfl, fun _ => rfl⟩ fun t ht p _ => ?_
  obtain ⟨hagents, hbeam⟩ := ht
  dsimp only
  split
  · exact ⟨hagents, fun i => (t.beam_modADie _ (fun a => a.beam_unref ..) i).trans (hbeam i)⟩
  · exact ⟨hagents, fun i => (t.beam_modADie _ (f := fun a => a.modDesc _ _) (fun _ => rfl) i).trans (hbeam i)⟩

/-- Entries written one after the other. -/
def State.putBeams (s : State) (i0 k : Nat) (es : List (BitVec 128)) : State :=
  (es.zipIdx k).foldl (fun s e => s.setBeam (i0 + e.2) e.1) s

theorem State.agents_putBeams (s : State) (i0 k : Nat) (es : List (BitVec 128)) : (s.putBeams i0 k es).agents = s.agents :=
  State.agents_foldl (fun _ _ => State.agents_modADie ..) _ s

theorem State.mem_putBeams (s : State) (i0 k : Nat) (es : List (BitVec 128)) : (s.putBeams i0 k es).mem = s.mem :=
  State.mem_foldl _ _ s fun _ _ => State.mem_setBeam ..

theorem State.beam_putBeams (s : State) (i0 k : Nat) (es : List (BitVec 128)) (i : Nat) : (s.putBeams i0 k es).beam i =
    if i0 + k ≤ i ∧ i < i0 + k + es.length then es.getD (i - (i0 + k)) 0 else s.beam i := by
  induction es generalizing s k with
  | nil => exact (if_neg (by simp only [List.length_nil]; omega)).symm
  | cons e es ih =>
    have hcons : s.putBeams i0 k (e :: es) = (s.setBeam (i0 + k) e).putBeams i0 (k + 1) es := rfl
    rw [hcons, ih, State.beam_setBeam, List.length_cons]
    rcases Nat.lt_trichotomy i (i0 + k) with h | rfl | h
    · rw [if_neg (by omega), if_neg (by omega), if_neg (by omega)]
    · rw [if_neg (by omega), if_pos rfl, if_pos (by omega), Nat.sub_self, List.getD_cons_zero]
    · have hsub : i - (i0 + k) = i - (i0 + (k + 1)) + 1 := by omega
      rw [hsub, List.getD_cons_succ, if_neg (by omega : ¬i = i0 + k)]
      exact if_congr (by omega) rfl rfl

/-! ### BMAP.ro -/

theorem shapeAIf_ok {b : Bool} {reason n : Nat} (h : b = false) : shapeAIf b reason n = .ok () := by
  rw [h]
  rfl

section
variable (s : State) (i0 n : Nat) (par : Nat → Nat)

/-- What the entries of BMAP.ro view: row and blocks of the parent, and their owner. -/
def State.childViews : List (Nat × Nat × Nat) :=
  (List.range n).map fun b => (beamRow (s.beam (i0 + par b)), beamNb (s.beam (i0 + par b)), beamAsid (s.beam (i0 + b)))

/-- The rows that BMAP.ro hands out: those that no child views, then the spare rows of the forks. -/
def State.spareRows : List Nat :=
  ascending ((distinct ((List.range n).map fun b => beamRow (s.beam (i0 + b)))).filter fun r =>
      !((List.range n).map fun b => beamRow (s.beam (i0 + par b))).contains r) ++
    ascending ((((List.range n).map fun b => s.beam (i0 + b)).filter beamFork).map beamSpare)

/-- The entries that BMAP.ro writes. -/
def State.newEntries : List (BitVec 128) :=
  forkEntries (fun b => (Config.freeInfo (s.free + b)).toNat % 2 ^ 50) (s.childViews i0 n par) (s.spareRows i0 n par)

/-- The module after BMAP.ro. -/
def State.reordered (ds : List (Nat × Int)) : State := ({ s with free := s.free + n }.applyDeltas ds).putBeams i0 0 (s.newEntries i0 n par)

variable {s i0 n par}

theorem spareRows_lt : ∀ r ∈ s.spareRows i0 n par, r < 2 ^ 50 := by
  intro r hr
  rcases List.mem_append.1 hr with h | h
  · obtain ⟨hold, -⟩ := List.mem_filter.1 (List.mem_mergeSort.1 h)
    obtain ⟨b, -, rfl⟩ := List.mem_map.1 (mem_distinct.1 hold)
    exact beamRow_lt _
  · obtain ⟨e, -, rfl⟩ := List.mem_map.1 (List.mem_mergeSort.1 h)
    exact beamSpare_lt e

theorem getD_childViews {b : Nat} (hb : b < n) : (s.childViews i0 n par).getD b (0, 0, 0) =
    (beamRow (s.beam (i0 + par b)), beamNb (s.beam (i0 + par b)), beamAsid (s.beam (i0 + b))) := by
  have hlen : b < (s.childViews i0 n par).length := by rw [State.childViews, List.length_map, List.length_range]; exact hb
  rw [List.getD_eq_getElem _ _ hlen]
  simp only [State.childViews, List.getElem_map, List.getElem_range]

/-- The entry that BMAP.ro writes for a beam. -/
theorem newEntries_fields {b : Nat} (hb : b < n) :
    let e := (s.newEntries i0 n par).getD b 0
    beamV e = true ∧ beamRow e = beamRow (s.beam (i0 + par b)) ∧ beamNb e = beamNb (s.beam (i0 + par b)) ∧
      beamAsid e = beamAsid (s.beam (i0 + b)) ∧
      (beamFork e = true ↔ ∃ c, c < b ∧ beamRow (s.beam (i0 + par c)) = beamRow (s.beam (i0 + par b))) := by
  have hlen : b < (s.childViews i0 n par).length := by rw [State.childViews, List.length_map, List.length_range]; exact hb
  obtain ⟨fork, spare, he, hspare, hfork⟩ := getD_forkEntries (short := fun b => (Config.freeInfo (s.free + b)).toNat % 2 ^ 50) hlen
    spareRows_lt fun _ => Nat.mod_lt _ (by decide)
  rw [getD_childViews hb] at he hfork
  obtain ⟨hv, hf, ha, hn, hr⟩ := beamMake_fields fork (beamAsid_lt (s.beam (i0 + b))) (beamNb_lt (s.beam (i0 + par b)))
    (beamRow_lt (s.beam (i0 + par b))) hspare
  dsimp only
  rw [State.newEntries, he]
  refine ⟨hv, hr, hn, ha, ?_⟩
  rw [hf, hfork]
  refine exists_congr fun c => and_congr_right fun hc => ?_
  rw [getD_childViews (by omega)]

theorem agents_reordered (ds : List (Nat × Int)) : (s.reordered i0 n par ds).agents = s.agents :=
  (State.agents_putBeams ..).trans (State.applyDeltas_keeps { s with free := s.free + n } ds).1

theorem mem_reordered (ds : List (Nat × Int)) : (s.reordered i0 n par ds).mem = s.mem :=
  (State.mem_putBeams ..).trans (State.mem_applyDeltas { s with free := s.free + n } ds)

theorem beam_reordered (ds : List (Nat × Int)) (i : Nat) : (s.reordered i0 n par ds).beam i =
    if i0 ≤ i ∧ i < i0 + n then (s.newEntries i0 n par).getD (i - i0) 0 else s.beam i := by
  have hlen : (s.newEntries i0 n par).length = n := by
    rw [State.newEntries, length_forkEntries, State.childViews, List.length_map, List.length_range]
  have h := ({ s with free := s.free + n }.applyDeltas ds).beam_putBeams i0 0 (s.newEntries i0 n par) i
  rw [hlen, (State.applyDeltas_keeps { s with free := s.free + n } ds).2] at h
  exact h

end

theorem getD_map_range {α : Type} {f : Nat → α} {n b : Nat} (d : α) (h : b < n) : ((List.range n).map f).getD b d = f b := by
  rw [List.getD_eq_getElem _ _ (by simpa using h), List.getElem_map, List.getElem_range]

theorem mem_zipIdx_map_range {α : Type} {f : Nat → α} {n k : Nat} {x : α × Nat} (h : x ∈ ((List.range n).map f).zipIdx k) :
    ∃ b, b < n ∧ f b = x.1 := by
  obtain ⟨b, hb, hx⟩ := List.mem_map.1 (List.fst_mem_of_mem_zipIdx h)
  exact ⟨b, List.mem_range.1 hb, hx⟩

/-- BMAP.ro past its checks. -/
theorem exec_bmapRo {w : AForm} {s : State} {e : Word} {pv : VWord} {n : Nat} {ds : List (Nat × Int)}
    (hn : n = w.imm.toNat % 64 + 1) (hold : s.aHold false = .ok ())
    (he : s.srcS w.sa 2 (ftBit w 2) = .ok e) (hpv : s.srcV w.sb 3 (ftBit w 3) = .ok pv) (hfits : e.toNat + n ≤ 256)
    (hviews : ∀ b, b < n → beamV (s.beam (e.toNat + b)) = true ∧ s.beamOther (s.beam (e.toNat + b)) = false ∧ elemOf 32 b pv.toNat < n)
    (hfrozen : s.copyFrozen s.myA = false)
    (hds : s.rowsPages (Claims.beamViews s e.toNat n fun b => elemOf 32 b pv.toNat)
      (distinct (((List.range n).map fun b => beamRow (s.beam (e.toNat + b))) ++
        (List.range n).map fun b => beamRow (s.beam (e.toNat + elemOf 32 b pv.toNat)))) = .ok ds) :
    exec (.bmapRo w) s = finish s 3 (.ok (s.reordered e.toNat n (fun b => elemOf 32 b pv.toNat) ds)) := by
  have hvalid : (((List.range n).map fun b => s.beam (e.toNat + b)).zipIdx.find? fun x => !beamV x.1 || s.beamOther x.1) = none := by
    refine List.find?_eq_none.2 fun x hx => ?_
    obtain ⟨b, hb, hxb⟩ := mem_zipIdx_map_range hx
    obtain ⟨hv, ho, -⟩ := hviews b hb
    rw [← hxb, hv, ho]
    exact Bool.false_ne_true
  have hparents : (((List.range n).map fun b => elemOf 32 b pv.toNat).zipIdx.find? fun p => decide (n ≤ p.1)) = none := by
    refine List.find?_eq_none.2 fun x hx => ?_
    obtain ⟨b, hb, hxb⟩ := mem_zipIdx_map_range hx
    obtain ⟨-, -, hlt⟩ := hviews b hb
    rw [← hxb, decide_eq_false (Nat.not_le.2 hlt)]
    exact Bool.false_ne_true
  have hkid {b : Nat} (hb : b ∈ List.range n) : ((List.range n).map fun b => s.beam (e.toNat + b)).getD
      (((List.range n).map fun b => elemOf 32 b pv.toNat).getD b 0) 0 = s.beam (e.toNat + elemOf 32 b pv.toNat) := by
    obtain ⟨-, -, hlt⟩ := hviews b (List.mem_range.1 hb)
    rw [getD_map_range _ (List.mem_range.1 hb), getD_map_range _ hlt]
  have hkids {α : Type} (f : BitVec 128 → α) : ((List.range n).map fun b => f (((List.range n).map fun b => s.beam (e.toNat + b)).getD
      (((List.range n).map fun b => elemOf 32 b pv.toNat).getD b 0) 0)) =
        (List.range n).map fun b => f (s.beam (e.toNat + elemOf 32 b pv.toNat)) := List.map_congr_left fun b hb => by rw [hkid hb]
  have hchild : ((List.range n).map fun b =>
      (beamRow (((List.range n).map fun b => s.beam (e.toNat + b)).getD (((List.range n).map fun b => elemOf 32 b pv.toNat).getD b 0) 0),
        beamNb (((List.range n).map fun b => s.beam (e.toNat + b)).getD (((List.range n).map fun b => elemOf 32 b pv.toNat).getD b 0) 0),
        beamAsid (((List.range n).map fun b => s.beam (e.toNat + b)).getD b 0))) =
      s.childViews e.toNat n fun b => elemOf 32 b pv.toNat :=
    List.map_congr_left fun b hb => by rw [hkid hb, getD_map_range _ (List.mem_range.1 hb)]
  unfold Claims.beamViews at hds
  change execBmapRo w s = _
  simp only [execBmapRo, hold, he, hpv, ok_bind, ← hn, shapeAIf_ok (decide_eq_false (Nat.not_lt.2 hfits)), hvalid, hparents,
    waitIf_ok hfrozen, hchild, hkids beamRow, hkids fun x => (beamRow x, beamNb x, true), List.map_map, Function.comp_def, hds]
  rfl

end Sys2Proof.Machine

namespace Sys2Proof.Claims
open Sys2Proof.Machine

/-- Settles O33: BMAP.ro writes one run of entries (beam_reordered), each with the fields of its parent's view (newEntries_fields). -/
theorem beamReorder : Obligations.BeamReorder := by
  unfold Obligations.BeamReorder
  intro w s e pv n ds hn hold he hpv hfits hviews hfrozen hds hs
  have hsame := State.sameCourse_of_agents (agents_reordered (s := s) (i0 := e.toNat) (n := n) (par := fun b => elemOf 32 b pv.toNat) ds)
  refine ⟨_, gives_of_finish (exec_bmapRo hn hold he hpv hfits hviews hfrozen hds) rfl hs hsame, mem_reordered ds, fun i hi => ?_,
    fun b hb => ?_⟩
  · rw [beam_reordered, if_neg (by omega)]
  · rw [beam_reordered, if_pos (by omega), Nat.add_sub_cancel_left]
    exact newEntries_fields hb

end Sys2Proof.Claims
end

section
/-! PROOFS. What performing accesses, pushing for a task and moving pages leave: every context of every cluster (13 R204, 19 R280, R291,
21 R294). -/

namespace Sys2Proof.Machine

/-- The contexts of every cluster, and whose turn it is. -/
def State.contexts (s : State) : (Nat → SMap Ctx) × Nat × Nat := (fun c => (s.cl c).ctx, s.cur)

theorem State.sameCourse_of_contexts {s t : State} (h : t.contexts = s.contexts) : Ctx.sameCourse s.ctx t.ctx := by
  obtain ⟨hctx, hcur⟩ := Prod.mk.inj h
  have hsame : t.ctx = s.ctx := by
    simp only [State.ctx, State.me, Cluster.cx, hcur]
    rw [congrFun hctx s.cur.1]
  rw [hsame]
  exact Ctx.sameCourse_refl _

theorem State.contexts_of_agents {s t : State} (h : t.agents = s.agents) : t.contexts = s.contexts := by
  obtain ⟨hcl, hcur⟩ := Prod.mk.inj h
  exact Prod.ext (funext fun c => congrArg Cluster.ctx (State.cl_congr hcl c)) hcur

@[simp] theorem State.contexts_ite (p : Prop) [Decidable p] (s t : State) :
    (if p then s else t).contexts = if p then s.contexts else t.contexts := apply_ite State.contexts p s t

@[simp] theorem State.contexts_fst_ite {β : Type} (p : Prop) [Decidable p] (x y : State × β) :
    (if p then x else y).1.contexts = if p then x.1.contexts else y.1.contexts := apply_ite (fun z : State × β => z.1.contexts) p x y

theorem State.contexts_foldl {α : Type} {f : State → α → State} (hf : ∀ s a, (f s a).contexts = s.contexts) (l : List α) (s : State) :
    (l.foldl f s).contexts = s.contexts := by
  induction l generalizing s with
  | nil => rfl
  | cons a l ih => exact (ih _).trans (hf s a)

theorem State.contexts_modCl (s : State) (c : Nat) {f : Cluster → Cluster} (hf : ∀ k, (f k).ctx = k.ctx) :
    (s.modCl c f).contexts = s.contexts := by
  refine Prod.ext (funext fun d => ?_) rfl
  by_cases h : d = c
  · subst h
    exact (congrArg Cluster.ctx (State.cl_modCl_same s d f)).trans (hf _)
  · exact congrArg Cluster.ctx (State.cl_modCl_ne _ _ h)

@[simp] theorem State.contexts_modADie (s : State) (n : Nat) (f : ADie → ADie) : (s.modADie n f).contexts = s.contexts := rfl
@[simp] theorem State.contexts_modRing (s : State) (d : Nat) (f : Ring → Ring) : (s.modRing d f).contexts = s.contexts := rfl
@[simp] theorem State.contexts_logEvent (s : State) (t : Nat) (e : List Byte) : (s.logEvent t e).contexts = s.contexts := rfl
@[simp] theorem State.contexts_logFault (s : State) (t : Nat) (r : Fault.Rec) : (s.logFault t r).contexts = s.contexts := rfl
@[simp] theorem State.contexts_aXst (s : State) : s.aXst.contexts = s.contexts := State.contexts_of_agents (State.agents_modTaskOn ..)
@[simp] theorem State.contexts_put (s : State) (m pa : Nat) (bs : List Byte) : (s.put m pa bs).1.contexts = s.contexts :=
  State.contexts_of_agents (State.agents_put ..)

/-! ### Accesses at their homes (21 R294) -/

@[simp] theorem State.contexts_refuse (s : State) (c x tgt va pc : Nat) : (s.refuse c x tgt va pc).contexts = s.contexts := by
  refine State.contexts_of_agents ?_
  unfold State.refuse
  dsimp only
  split <;> rfl

@[simp] theorem State.contexts_failStore (s : State) (c que id : Nat) (why : Fail) (tgt : Nat) :
    (s.failStore c que id why tgt).contexts = s.contexts := by
  unfold State.failStore
  exact State.contexts_modCl _ _ fun _ => rfl

@[simp] theorem State.contexts_eccStore (s : State) (c : Nat) (a : Access) (p : Piece) : (s.eccStore c a p).contexts = s.contexts :=
  State.contexts_failStore ..

@[simp] theorem State.contexts_mapShown (s : State) (f : Nat → Access → Shown → Shown) : (s.mapShown f).contexts = s.contexts := by
  refine Prod.ext (funext fun d => ?_) rfl
  have hd := congrArg Cluster.ctx (s.cl_mapShown f d)
  exact hd

@[simp] theorem State.contexts_noteSync (s : State) (c : Nat) (a : Access) (g : Nat) : (s.noteSync c a g).contexts = s.contexts := by
  simp [State.noteSync, State.noteSeen]

@[simp] theorem State.contexts_copyUnits (s : State) (m src dst n : Nat) : (s.copyUnits m src dst n).1.contexts = s.contexts := by
  induction n with
  | zero => rfl
  | succ n ih =>
    rw [State.copyUnits]
    dsimp only
    split
    · exact ih
    · rw [State.contexts_put, ih]

@[simp] theorem State.contexts_fillLine (s : State) (t pa : Nat) : (s.fillLine t pa).contexts = s.contexts := by
  unfold State.fillLine
  dsimp only
  split <;> rfl

@[simp] theorem State.contexts_pieceHome (s : State) (c : Nat) (a : Access) : (s.pieceHome c a).1.contexts = s.contexts := by
  unfold State.pieceHome
  split
  · rfl
  next p rest _ =>
    dsimp only
    split
    case h_1 => split <;> simp -- a store
    case h_2 => -- a copy
      split
      · rfl
      · split <;> simp
    case h_3 => -- an atomic
      split
      · simp
      · split <;> simp
    case h_4 => -- a reduction
      split
      · simp
      · split
        · split <;> simp
        · simp
    case h_5 => rfl
    case h_6 => simp

@[simp] theorem State.contexts_performAll (s : State) (c n : Nat) (a : Access) : (s.performAll c n a).1.contexts = s.contexts := by
  have hpiece (s : State) (a : Access) : (s.performPiece c a).1.contexts = s.contexts := by
    unfold State.performPiece
    split
    · rfl
    · simp
  induction n generalizing s a with
  | zero => rfl
  | succ n ih => exact (ih _ _).trans (hpiece s a)

theorem Cluster.ctx_keepAccess (k : Cluster) (a : Access) : (k.keepAccess a).ctx = k.ctx := by
  unfold Cluster.keepAccess
  split <;> rfl

@[simp] theorem State.contexts_seenBy (s : State) (u : Nat) : (s.seenBy u).contexts = s.contexts := by
  have hflush : s.flushShown.contexts = s.contexts := by
    refine State.contexts_foldl (fun s e => ?_) _ s
    split
    · exact (State.contexts_modCl _ _ fun k => k.ctx_keepAccess _).trans (State.contexts_performAll ..)
    · rfl
  rw [State.seenBy, State.contexts_ite, hflush, ite_self]

/-! ### Pushes that hardware makes (13 R204, 19 R280, R291) -/

/-- A queue operation that is done leaves the contexts. -/
def QRes.keeps (s : State) : QRes → Prop
  | .done t _ _ _ => t.contexts = s.contexts
  | _ => True

theorem QRes.keeps_ite {s : State} {p : Prop} [Decidable p] {a b : QRes} (ha : a.keeps s) (hb : b.keeps s) :
    (if p then a else b).keeps s := by
  split
  · exact ha
  · exact hb

theorem State.queueOn_keeps (s : State) (m : Nat) (place : QDesc → Except Nat (List (Piece × Bool × Bool))) (va pa : Nat)
    (src : Option (List Byte)) (small : Bool) (far : FarMap) : (s.queueOn m place va pa src small far).keeps s := by
  unfold State.queueOn
  refine QRes.keeps_ite trivial (QRes.keeps_ite trivial (QRes.keeps_ite trivial ?_))
  split -- the descriptor, where it is well formed
  · trivial
  refine QRes.keeps_ite trivial (QRes.keeps_ite trivial ?_)
  split -- the entry's parts, where they are mapped
  · trivial
  split -- read-only, cut off, refused or unbacked parts
  · trivial
  split
  · trivial
  split
  · trivial
  split
  · trivial
  split
  · exact (State.contexts_put ..).trans (State.contexts_foldl (fun _ _ => State.contexts_put ..) _ s)
  · exact State.contexts_put ..

theorem State.hwPush_keeps (s : State) (m c : Nat) (asid : BitVec 8) (va : Nat) (bs : List Byte) : (s.hwPush m c asid va bs).keeps s := by
  unfold State.hwPush
  refine QRes.keeps_ite trivial ?_
  split
  · trivial
  · exact QRes.keeps_ite trivial (QRes.keeps_ite trivial (State.queueOn_keeps ..))

@[simp] theorem State.contexts_pushFor (s : State) (m c : Nat) (asid : BitVec 8) (tid : BitVec 32) (va v : Nat) :
    (s.pushFor m c asid tid va v).1.contexts = s.contexts := by
  have hpush := State.hwPush_keeps (s.seenBy (if 0xA10 ≤ m then 8 + (m - 0xA10) else dieOf c)) m c asid va (natBytes 8 v)
  unfold State.pushFor
  dsimp only
  split
  next => exact State.contexts_seenBy ..
  next t _ _ bad hq =>
    rw [hq] at hpush
    exact (State.contexts_foldl (fun _ _ => State.contexts_logFault ..) bad t).trans (hpush.trans (State.contexts_seenBy ..))
  next => exact State.contexts_seenBy ..
  next => exact State.contexts_seenBy ..

/-! ### Requests for a tier (19 R280, R291) -/

@[simp] theorem State.contexts_pushDone (s : State) (n p : Nat) (moved : Bool) (rs : List TierReq) :
    (s.pushDone n p moved rs).contexts = s.contexts := by
  refine State.contexts_foldl (fun s r => ?_) rs s
  rw [State.contexts_ite, State.contexts_pushFor, ite_self]

@[simp] theorem State.contexts_doneInTurn (s : State) (n p : Nat) (r : TierReq) : (s.doneInTurn n p r).contexts = s.contexts := by
  simp [State.doneInTurn]

@[simp] theorem State.contexts_tierRequest (s : State) (own p : Nat) (r : TierReq) : (s.tierRequest own p r).1.contexts = s.contexts := by
  simp [State.tierRequest]

/-- A tier-miss leaves the contexts. -/
theorem State.contexts_tierMiss (s : State) (a : AEng) (own p blk : Nat) (d : Desc) :
    (s.tierMiss a own p blk d).1.contexts = s.contexts := by
  simp [State.tierMiss]

/-- Bits [5:3] of the outcome word of a tier-miss: a page comes in only when AUTOIN asks for one of tier 1. -/
theorem State.tierMiss_bits (s : State) (a : AEng) (own p blk : Nat) (d : Desc) : ∃ dropped started : Bool,
    (s.tierMiss a own p blk d).2 = (if dropped then 8 else 0) + (if started then 16 else 0) +
      (if (a.autoin && d.tier == 1) && !started then 32 else 0) ∧ (started = true → a.autoin = true ∧ d.tier = 1) := by
  unfold State.tierMiss
  dsimp only
  refine ⟨_, _, rfl, fun h => ?_⟩
  split at h
  next hauto => simpa using hauto
  next => exact nomatch h

end Sys2Proof.Machine
end

section
/-! PROOFS. The words of the A engine (19 R276 to R285, R287 to R292): O31. -/

namespace Sys2Proof.Machine

/-! ### The checks of the A engine's words (19 R272, R275, R283) -/

theorem trapIfInfo_ok {b : Bool} {c : Cause} {i : BitVec 64} {o : Nat} (h : b = false) : trapIfInfo b c i o = .ok () := by
  rw [h]
  rfl

theorem runIn_ok {i n : Nat} (h : i + n ≤ 512) : runIn i n = .ok () := shapeAIf_ok (decide_eq_false (Nat.not_lt.2 h))

section
variable {s : State} {i : Nat}

theorem State.beamCheck_ok {need : Bool} (hi : i < 256) (h : if beamV (s.beam i) then s.beamOther (s.beam i) = false else need = false) :
    s.beamCheck i need = .ok (s.beam i) := by
  have hown : (if beamV (s.beam i) then s.beamOther (s.beam i) else need) = false := by
    split at h
    next hv => rw [if_pos hv, h]
    next hv => rw [if_neg hv, h]
  rw [State.beamCheck, shapeAIf_ok (decide_eq_false (by omega)), ok_bind]
  dsimp only
  rw [shapeAIf_ok hown]
  rfl

theorem State.beamCheck_free (h : Claims.beamFree s i) : s.beamCheck i false = .ok (s.beam i) := by
  obtain ⟨hi, hown⟩ := h
  refine State.beamCheck_ok hi ?_
  split
  next hv => exact hown hv
  next => rfl

theorem State.beamCheck_valid (hi : i < 256) (hv : beamV (s.beam i) = true) (ho : s.beamOther (s.beam i) = false) :
    s.beamCheck i true = .ok (s.beam i) := State.beamCheck_ok hi (by rw [if_pos hv, ho])

end

/-- Bytes of a page that no store is shown for, and that the A-die's table lets the engine read. -/
theorem State.aPage_read {s : State} {m pa n : Nat} (hheld : s.readHeld s.cur.1 pa n = false)
    (h : s.isFar pa = true ∨ s.mayAccess m bitR pa = true) : s.aPage m false pa n = .ok () := by
  have hmay : (!s.isFar pa && !s.mayAccess m bitR pa) = false := by
    rcases h with h | h
    · rw [h]; rfl
    · rw [h, Bool.not_true, Bool.and_false]
  simp only [State.aPage, hheld, hmay, Bool.not_false, Bool.and_false, Bool.false_eq_true, if_false, ite_self]

/-! ### What the results of the A engine's words leave of their context -/

theorem sameCourse_foldl {α : Type} {f : State → α → State} (hf : ∀ s a, Ctx.sameCourse s.ctx (f s a).ctx) (l : List α) (s : State) :
    Ctx.sameCourse s.ctx (l.foldl f s).ctx := by
  induction l generalizing s with
  | nil => exact Ctx.sameCourse_refl _
  | cons a l ih => exact (hf s a).trans (ih _)

theorem sameCourse_landRun (s : State) (i : Nat) (vs : List (VWord × VWord)) (fl : Flags) :
    Ctx.sameCourse s.ctx (s.landRun i vs fl).ctx := sameCourse_foldl (fun s _ => sameCourse_resultLong s _ _ _ _) _ s

theorem sameCourse_outcomeIs (s : State) (w : AForm) (word : Nat) : Ctx.sameCourse s.ctx (Claims.outcomeIs s w word).ctx :=
  (sameCourse_putOpnd s _ _).trans (sameCourse_putOpnd _ _ _)

end Sys2Proof.Machine

namespace Sys2Proof.Claims
open Sys2Proof.Machine

/-! ### ASTEP (19 R278 to R280) -/

/-- The predicate of an ASTEP is that of its outcome word, whose low bits are 0 for a page that is included alone. -/
theorem outcome_eq {s : State} {w : AForm} {word : Nat} (h : word % 8 = 0 → word = 0) : s.outcome w word = outcomeIs s w word := by
  rw [State.outcome, outcomeIs, State.putPred]
  by_cases h0 : word = 0
  · rw [if_pos h0, h0]
    rfl
  · rw [if_neg h0, beq_false_of_ne fun hm => h0 (h hm)]
    rfl

section
variable {w : PForm} {s : State} {fs : List Nat} {a : AEng} {rows : List ARow} {pv : VWord} (h : stepReads s w fs a rows pv)
include h

theorem execAstep_absent (hp : stepPage pv fs = 0xFFFFFFFF) : exec (.astep w) s = finish s 15 (.ok (outcomeIs s w.head 1)) := by
  obtain ⟨hold, hfs, hq, hrows, hpv, hsc⟩ := h
  change elemOf 32 (fs.getD 2 0) pv.toNat = noPage at hp
  change execAstep w s = _
  simp only [execAstep, hold, hfs, hq, hrows, hpv, hsc, ok_bind, hp, if_true, outcome_eq (s := s) (w := w.head) (word := 1) (by decide)]
  rfl

variable {d : Desc} (hp : stepPage pv fs ≠ 0xFFFFFFFF) (hd : s.aDesc (stepPage pv fs) = .ok d)
include hp hd

/-- A page in the top tier (R279). -/
theorem execAstep_here (ht : d.tier = 0) : exec (.astep w) s = finish s 15
    (if d.seq.getLsbD 0 then .ok (outcomeIs s w.head 3) else do
      s.aPage s.aMaster false (slotPa a d a.kvh 0) (s.seenFill (stepPage pv fs) d * a.hb)
      s.aEcc (slotPa a d a.kvh 0) (s.seenFill (stepPage pv fs) d * a.hb)
      pure (outcomeIs (s.landRun (regIdx w.head.sa)
        (blockRegs a (attendTile a (fs.getD 3 0) (s.tile a (stepPage pv fs) d) rows))) w.head 0)) := by
  obtain ⟨hold, hfs, hq, hrows, hpv, hsc⟩ := h
  change elemOf 32 (fs.getD 2 0) pv.toNat ≠ noPage at hp
  change s.aDesc (elemOf 32 (fs.getD 2 0) pv.toNat) = .ok d at hd
  change execAstep w s = _
  simp only [execAstep, hold, hfs, hq, hrows, hpv, hsc, ok_bind, if_neg hp, hd, ht, ne_eq, not_true_eq_false, if_false,
    outcome_eq (s := s) (w := w.head) (word := 3) (by decide), outcome_eq (w := w.head) (word := 0) (fun _ => rfl)]
  rfl

/-- A page below it: the miss, whose effects stand unless an error in a page that comes in traps first (R280). -/
theorem execAstep_miss {t : State} {b : Nat} (ht : d.tier ≠ 0)
    (hfrozen : a.autoin = true → d.tier = 1 → s.copyFrozen (pageDie (stepPage pv fs)) = false)
    (hm : ({ s with seq := s.seq + 1 } : State).tierMiss a s.seq (stepPage pv fs) (fs.getD 3 0) d = (t, b))
    (hecc : b / 16 % 2 = 1 → s.aEcc d.addr.toNat (s.adie (pageDie (stepPage pv fs))).pageSize = .ok ()) :
    exec (.astep w) s = finish s 15 (.ok (outcomeIs t w.head (b + 2))) := by
  obtain ⟨hold, hfs, hq, hrows, hpv, hsc⟩ := h
  obtain ⟨dropped, started, hbits, -⟩ :=
    ({ s with seq := s.seq + 1 } : State).tierMiss_bits a s.seq (stepPage pv fs) (fs.getD 3 0) d
  rw [hm] at hbits
  have hword : (b + 2) % 8 = 0 → b + 2 = 0 := by
    intro h8
    dsimp only at hbits
    split at hbits <;> split at hbits <;> split at hbits <;> omega
  have hwait : (a.autoin && d.tier == 1 && s.copyFrozen (pageDie (stepPage pv fs))) = false := by
    cases ha : a.autoin with
    | false => rfl
    | true =>
      by_cases h1 : d.tier = 1
      · rw [hfrozen ha h1, Bool.and_false]
      · rw [beq_false_of_ne h1]
        rfl
  change elemOf 32 (fs.getD 2 0) pv.toNat ≠ noPage at hp
  unfold stepPage at hd hwait hm hecc
  change execAstep w s = _
  simp only [execAstep, hold, hfs, hq, hrows, hpv, hsc, ok_bind, if_neg hp, hd, if_pos ht, waitIf_ok hwait, hm, outcome_eq (s := t)
    (w := w.head) hword]
  split
  next hb =>
    rw [hecc hb]
    rfl
  next => rfl

end

/-! ### KVGATH (19 R285) -/

/-- KVGATH past its checks. -/
theorem exec_kvgath {w : PForm} {s : State} {fs : List Nat} {x : Word} {bv : VWord} {d : Opnd} {row len : Nat} {ps : List Piece}
    (hold : s.aHold false = .ok ()) (hfs : s.params (.kvgath w) w.par = .ok fs) (hx : s.srcS w.head.sa 2 (ftBit w.head 2) = .ok x)
    (hbv : s.srcV w.head.sb 3 (ftBit w.head 3) = .ok bv) (hd : s.dstV w.head.dst = .ok d) (hk : s.dstK w.head.sc = .ok ())
    (hrow : gatherRow s fs x row len) (hps : s.aReach s.aMaster (gatherParts row len bv) = .ok ps) :
    exec (.kvgath w) s = finish s 15 (.ok
      (if w.head.sc = .null then s.resultLong d (packV 32 ((List.range 64).map (gathered s ps))) fullV 0
       else (s.resultLong d (packV 32 ((List.range 64).map (gathered s ps))) fullV 0).resultLong w.head.sc
         ((BitVec.ofNat 256 (bitsOf (((List.range 64).map (gathered s ps)).map fun p => p != 0xFFFFFFFF))).setWidth 2048) fullV 0)) := by
  have hview : (if fs.getD 2 0 = 1 then do
      let e ← s.beamCheck x.toNat true
      pure (beamRow e * 64, beamNb e)
    else do
      checkAlign x 4
      pure (x.toNat, fs.getD 3 0) : Chk (Nat × Nat)) = .ok (row, len) := by
    rcases hrow with ⟨h1, hi, hv, ho, rfl, rfl⟩ | ⟨h0, hal, rfl, rfl⟩
    · rw [if_pos h1, State.beamCheck_valid hi hv ho]
      rfl
    · rw [if_neg (by omega), checkAlign_ok hal]
      rfl
  unfold gatherParts at hps
  change execKvgath w s = _
  simp only [execKvgath, hold, hfs, hx, hbv, hd, hk, ok_bind, hview, hps]
  rfl

/-! ### TIERIN and TIEROUT (19 R291) -/

theorem tierMove_grants {w : AForm} {s t : State} {x q : Word} {d : Desc} {toIn : Bool} {r : TierRes} (hold : s.aHold true = .ok ())
    (hx : s.srcS w.sa 2 (ftBit w 2) = .ok x) (hq : s.srcS w.sb 3 (ftBit w 3) = .ok q) (hd : s.aDesc (x.toNat % 2 ^ 32) = .ok d)
    (hr : ({ s with seq := s.seq + 1 } : State).tierRequest s.seq (x.toNat % 2 ^ 32)
      { queue := q, asid := s.me.asid s.cur.2, toIn := toIn, cl := s.cur.1 } = (t, r))
    (hfrozen : r ≠ .refused → s.copyFrozen (pageDie (x.toNat % 2 ^ 32)) = false)
    (hecc : r = .started → s.aEcc d.addr.toNat (s.adie (pageDie (x.toNat % 2 ^ 32))).pageSize = .ok ()) :
    s.tierMove w toIn = finish s 3 (.ok (t.putOpnd w.dst (if r = .refused then 0 else 1))) := by
  have hwait : (r != .refused && s.copyFrozen (pageDie (x.toNat % 2 ^ 32))) = false := by
    by_cases hne : r = .refused
    · rw [hne]; rfl
    · rw [hfrozen hne, Bool.and_false]
  have hpred : t.putPred w.dst (r != .refused) = t.putOpnd w.dst (if r = .refused then 0 else 1) := by
    rw [State.putPred]
    cases r <;> rfl
  simp only [State.tierMove, hold, hx, hq, ok_bind, hd, hr, waitIf_ok hwait, hpred]
  split
  next hs =>
    rw [hecc hs]
    rfl
  next => rfl

theorem sameCourse_tierRequest {s t : State} {own p : Nat} {q : TierReq} {r : TierRes} {d : Opnd} {v : Word}
    (h : ({ s with seq := s.seq + 1 } : State).tierRequest own p q = (t, r)) : Ctx.sameCourse s.ctx (t.putOpnd d v).ctx := by
  have hctx := ({ s with seq := s.seq + 1 } : State).contexts_tierRequest own p q
  rw [h] at hctx
  exact Ctx.sameCourse.trans (State.sameCourse_of_contexts (s := s) hctx) (sameCourse_putOpnd ..)

theorem sameCourse_tierMiss {s t : State} {a : AEng} {own p blk b word : Nat} {d : Desc} {w : AForm}
    (h : ({ s with seq := s.seq + 1 } : State).tierMiss a own p blk d = (t, b)) : Ctx.sameCourse s.ctx (outcomeIs t w word).ctx := by
  have hctx := ({ s with seq := s.seq + 1 } : State).contexts_tierMiss a own p blk d
  rw [h] at hctx
  exact Ctx.sameCourse.trans (State.sameCourse_of_contexts (s := s) hctx) (sameCourse_outcomeIs ..)

/-- A page comes in at a tier-miss only when AUTOIN asks for one of tier 1. -/
theorem tierMiss_started {s t : State} {a : AEng} {own p blk b : Nat} {d : Desc} (h : s.tierMiss a own p blk d = (t, b))
    (hb : b / 16 % 2 = 1) : a.autoin = true ∧ d.tier = 1 := by
  obtain ⟨dropped, started, hbits, hauto⟩ := s.tierMiss_bits a own p blk d
  rw [h] at hbits
  dsimp only at hbits
  refine hauto ?_
  cases started with
  | true => rfl
  | false => split at hbits <;> split at hbits <;> split at hbits <;> omega

theorem sameCourse_aAlloc {s t : State} {own : Nat} {pin : Bool} {r : Option Nat}
    (h : ({ s with seq := s.seq + 1 } : State).aAlloc own pin = (t, r)) : Ctx.sameCourse s.ctx t.ctx := by
  have hagents : (({ s with seq := s.seq + 1 } : State).aAlloc own pin).1.agents = s.agents := rfl
  rw [h] at hagents
  exact State.sameCourse_of_agents hagents

/-! ### BMAP (19 R283) -/

/-- The entry that BMAP.set makes, field by field. -/
theorem beamMake_new (asid nb : Nat) (row : Word) : beamMake asid nb (bitsNat row.toNat 55 6) false 0 =
    BitVec.ofNat 128 (2 ^ 127 + asid * 2 ^ 116 + nb * 2 ^ 100 + row.toNat / 64 % 2 ^ 50) := by
  have hrow : bitsNat row.toNat 55 6 = row.toNat / 64 % 2 ^ 50 := bitsNat_eq_div ..
  rw [beamMake, hrow, if_neg Bool.false_ne_true, Nat.zero_mul, Nat.add_zero, Nat.add_zero]

theorem beamWord_low (e : BitVec 128) : BitVec.ofNat 64 e.toNat = e.extractLsb' 0 64 := by
  refine BitVec.eq_of_toNat_eq ?_
  simp

theorem beamWord_high (e : BitVec 128) : BitVec.ofNat 64 (e.toNat / 2 ^ 64) = e.extractLsb' 64 64 := by
  refine BitVec.eq_of_toNat_eq ?_
  simp [Nat.shiftRight_eq_div_pow]

/-- The words of AWord: the checks of each pass, and it leaves what its rule says. -/
theorem gives_of_aWord {i : Instr} {n : Nat} {s u : State} (h : AWord s i n u) (hs : Straight s n) : Gives i s u := by
  cases h with
  | aqset w ea c bs vs hold he hc hlong hal hread hok hfits hrun =>
    refine gives_of_finish (i := .aqset w) rfl ?_ hs (sameCourse_modMe _ _ rfl)
    unfold queryOf at hfits hrun
    simp only [hold, he, hc, hread, ok_bind, checkEa_ok hlong, checkAlign_ok hal, hok, Bool.not_true, trapIf_ok, runIn_ok hfits, hrun]
    rfl
  | stepAbsent w fs a rows pv h hp => exact gives_of_finish (execAstep_absent h hp) rfl hs (sameCourse_outcomeIs ..)
  | stepRetry w fs a rows pv d h hp hd ht hodd =>
    exact gives_of_finish (execAstep_here h hp hd ht) (by rw [hodd]; rfl) hs (sameCourse_outcomeIs ..)
  | stepMiss w fs a rows pv d t b h hp hd ht hm =>
    have hnone : ¬(a.autoin = true ∧ d.tier = 1) := by
      rintro ⟨ha, h1⟩
      rcases ht with h2 | ⟨-, hoff⟩
      · omega
      · rw [ha] at hoff
        exact nomatch hoff
    have hstays : b / 16 % 2 ≠ 1 := fun hb => hnone (tierMiss_started hm hb)
    exact gives_of_finish (execAstep_miss h hp hd (by omega) (fun ha h1 => absurd ⟨ha, h1⟩ hnone) hm fun hb => absurd hb hstays) rfl hs
      (sameCourse_tierMiss hm)
  | stepMissAuto w fs a rows pv d t b h hp hd ht hauto hfrozen hm hecc =>
    exact gives_of_finish (execAstep_miss h hp hd (by omega) (fun _ _ => hfrozen) hm hecc) rfl hs (sameCourse_tierMiss hm)
  | stepIncluded w fs a rows pv d h hp hd ht heven hread =>
    obtain ⟨hpage, hecc⟩ : s.aPage s.aMaster false (slotPa a d a.kvh 0) (s.seenFill (stepPage pv fs) d * a.hb) = .ok () ∧
        s.aEcc (slotPa a d a.kvh 0) (s.seenFill (stepPage pv fs) d * a.hb) = .ok () := by
      rcases hread with h0 | ⟨hheld, hmay, hecc⟩
      · rw [h0, Nat.zero_mul]
        exact ⟨rfl, rfl⟩
      · exact ⟨State.aPage_read hheld hmay, hecc⟩
    refine gives_of_finish (execAstep_here h hp hd ht) ?_ hs ((sameCourse_landRun ..).trans (sameCourse_outcomeIs ..))
    rw [heven, if_neg Bool.false_ne_true, hpage, hecc]
    rfl
  | amerge w a xs ys hq hx hy hfits hrun =>
    exact gives_of_finish (i := .amerge w) rfl (by simp only [hq, hx, hy, ok_bind, runIn_ok hfits, hrun]; rfl) hs (sameCourse_landRun ..)
  | afin w a xs n hq hx hn hfits hrun =>
    subst hn
    exact gives_of_finish (i := .afin w) rfl (by simp only [hq, hx, ok_bind, runIn_ok hfits, hrun]; rfl) hs (sameCourse_landRun ..)
  | kvgath w fs x bv d row len ps hold hfs hx hbv hd hk hrow hps =>
    refine gives_of_finish (exec_kvgath hold hfs hx hbv hd hk hrow hps) rfl hs ?_
    split
    · exact sameCourse_resultLong ..
    · exact (sameCourse_resultLong ..).trans (sameCourse_resultLong ..)
  | pgallocYes w t p hold hd ht =>
    refine gives_of_finish (i := .pgalloc w) rfl (by simp only [hold, hd, ok_bind, ht]; rfl) hs ?_
    exact (sameCourse_aAlloc ht).trans ((sameCourse_putOpnd ..).trans (sameCourse_putOpnd ..))
  | pgallocNo w t hold hd ht =>
    refine gives_of_finish (i := .pgalloc w) rfl (by simp only [hold, hd, ok_bind, ht]; rfl) hs ?_
    exact (sameCourse_aAlloc ht).trans ((sameCourse_putOpnd ..).trans (sameCourse_putOpnd ..))
  | pgfree w x d hold hx hd hc hro =>
    refine gives_of_finish (i := .pgfree w) rfl ?_ hs (State.sameCourse_of_agents (State.agents_modADie ..))
    simp only [hold, hx, ok_bind, hd, trapIf_ok (beq_false_of_ne hc), hro, Bool.false_eq_true, if_false]
    rfl
  | seqrd w x d hold hx hdst hd =>
    exact gives_of_finish (i := .seqrd w) rfl (by simp only [hold, hx, hdst, ok_bind, hd]; rfl) hs (sameCourse_putOpnd ..)
  | pxlook w fs vs d chunks r hold hfs hfits hrun hd hsc hch hwalk hr =>
    subst hch hr
    refine gives_of_finish (i := .pxlook w) rfl (by simp only [hold, hfs, ok_bind, runIn_ok hfits, hrun, hd, hsc, hwalk]; rfl) hs ?_
    exact (sameCourse_resultLong (s.modADie s.myA _) _ _ _ _).trans (sameCourse_putOpnd ..)
  | pxins w c vs pv chunks path new r hold hc hlo hhi hfits hrun hpv hd hch hpath hnodes hnew hfull hr =>
    subst hch hpath hnew hr
    have hn : (decide (c.toNat % 2 ^ 32 < 1) || decide (2048 < c.toNat % 2 ^ 32)) = false := by
      rw [decide_eq_false (Nat.not_lt.2 hlo), decide_eq_false (Nat.not_lt.2 hhi)]
      rfl
    refine gives_of_finish (i := .pxins w) rfl ?_ hs ?_
    · simp only [hold, hc, ok_bind, trapIfInfo_ok hn, runIn_ok hfits, hrun, hpv, hd, hnodes, hfull]
      rfl
    · exact sameCourse_putOpnd (State.modADie { s with free := _ } s.myA _) _ _
  | pxrel w v n ps hold hv hn hle hps hmay =>
    refine gives_of_finish (i := .pxrel w) rfl ?_ hs (State.sameCourse_of_agents (State.agents_foldl (fun _ _ => State.agents_modADie ..) _ _))
    change _ = List.filter (fun p => p != noPage) _ at hps
    simp only [← hps, hold, hv, hn, ok_bind, trapIf_ok (decide_eq_false (Nat.not_lt.2 hle)), hmay]
    rfl
  | bmapSet w i row nb hi hrow hnb hfree hal =>
    refine gives_of_finish (i := .bmapSet w) rfl ?_ hs (State.sameCourse_of_agents (State.agents_modADie ..))
    simp only [hi, hrow, hnb, ok_bind, State.beamCheck_free hfree, checkAlign_ok hal, beamMake_new]
    rfl
  | bmapRdlo w i hi hd hfree =>
    refine gives_of_finish (i := .bmapRdlo w) rfl ?_ hs (sameCourse_putOpnd ..)
    simp only [hi, hd, ok_bind, State.beamCheck_free hfree, Bool.false_eq_true, if_false, beamWord_low]
    rfl
  | bmapRdhi w i hi hd hfree =>
    refine gives_of_finish (i := .bmapRdhi w) rfl ?_ hs (sameCourse_putOpnd ..)
    simp only [hi, hd, ok_bind, State.beamCheck_free hfree, if_true, beamWord_high]
    rfl
  | bmapClr w i hi hfree =>
    exact gives_of_finish (i := .bmapClr w) rfl (by simp only [hi, ok_bind, State.beamCheck_free hfree]; rfl) hs
      (State.sameCourse_of_agents (State.agents_modADie ..))
  | tierin w x q d t r hold hx hq hd hr hfrozen hecc =>
    exact gives_of_finish (i := .tierin w) (tierMove_grants hold hx hq hd hr hfrozen hecc) rfl hs (sameCourse_tierRequest hr)
  | tierout w x q d t r hold hx hq hd hr hfrozen hecc =>
    exact gives_of_finish (i := .tierout w) (tierMove_grants hold hx hq hd hr hfrozen hecc) rfl hs (sameCourse_tierRequest hr)

/-- Settles O31: gives_of_aWord has a case for each word and each outcome of an ASTEP. -/
theorem attentionWords : Obligations.AttentionWords := by
  unfold Obligations.AttentionWords
  exact fun _ _ _ _ => gives_of_aWord

end Sys2Proof.Claims
end

section
/-! PROOFS. KVAPP appends its token, or waits for the page (19 R283, R286): O34. -/

namespace Sys2Proof.Machine

/-! ### Checks that an append passes (19 R272, R275, R286) -/

section
variable {s : State} {p : Nat} {d : Desc}

theorem State.page_of_aDesc (h : s.aDesc p = .ok d) : d = s.page p := by
  unfold State.aDesc State.pageIn at h
  split at h
  next =>
    rw [ok_bind] at h
    cases hecc : s.aEcc ((s.adie (pageDie p)).privBase.toNat + 2 ^ 28 + 32 * pageIdx p) 32 with
    | error e => rw [hecc] at h; cases h
    | ok u =>
      rw [hecc] at h
      cases h
      rfl
  next => cases h

theorem State.me_of_query {a : AEng} (h : s.query = .ok a) : s.me.a = a := by
  unfold State.query at h
  split at h
  · exact Except.ok.inj h
  · cases h

theorem State.mayAppend_ok {slot : Nat} (hd : s.aDesc p = .ok d) (hro : d.ro = false) (hslot : slot = d.fill) :
    s.mayAppend p slot = .ok d := by
  have hfill : shapeAIf (slot != d.fill) 9 p = .ok () := shapeAIf_ok (by rw [hslot, bne_self_eq_false])
  rw [State.mayAppend, hd, ok_bind, hro, if_neg Bool.false_ne_true, hfill]
  rfl

end

/-! ### The number of the next access is not read by the checks of an append -/

section
variable (s : State) (n : Nat)

theorem State.pageIn_seq (p : Nat) : ({ s with seq := n } : State).pageIn p = s.pageIn p := rfl
theorem State.adie_seq (i : Nat) : ({ s with seq := n } : State).adie i = s.adie i := rfl
theorem State.aEcc_seq (pa k : Nat) : ({ s with seq := n } : State).aEcc pa k = s.aEcc pa k := rfl
theorem State.aPage_seq (m : Nat) (wr : Bool) (pa k : Nat) : ({ s with seq := n } : State).aPage m wr pa k = s.aPage m wr pa k := rfl

theorem State.aDesc_seq (p : Nat) : ({ s with seq := n } : State).aDesc p = s.aDesc p := by
  rw [State.aDesc, State.aDesc, State.pageIn_seq, State.adie_seq, State.aEcc_seq]

end

/-! ### What an append changes (19 R286) -/

section
variable (s : State)

/-- A change of an A-die that leaves its descriptors leaves every page. -/
theorem State.page_modADie (n : Nat) {f : ADie → ADie} (hf : ∀ a, (f a).desc = a.desc) (q : Nat) : (s.modADie n f).page q = s.page q := by
  rw [State.page, State.page]
  by_cases h : pageDie q = n
  · rw [h, State.adie_modADie_same, ADie.descOf, hf]
    rfl
  · rw [State.adie_modADie_ne _ _ h]

theorem State.page_modADies {f : Nat → ADie → ADie} (hf : ∀ n a, (f n a).desc = a.desc) (q : Nat) : (s.modADies f).page q = s.page q :=
  List.foldlRecOn (motive := fun t : State => t.page q = s.page q) _ _ rfl fun t ht n _ => (t.page_modADie n (hf n) q).trans ht

theorem State.agents_modADies (f : Nat → ADie → ADie) : (s.modADies f).agents = s.agents :=
  State.agents_foldl (fun _ _ => State.agents_modADie ..) _ s

theorem State.page_modPage_same (p : Nat) (f : Desc → Desc) : (s.modPage p f).page p = f (s.page p) := by
  rw [State.page, State.modPage, State.adie_modADie_same, ADie.modDesc, ADie.descOf_setDesc_same]
  rfl

theorem State.page_modPage_ne {p q : Nat} (f : Desc → Desc) (h : q ≠ p) (hq : q < 2 ^ 32) (hp : p < 2 ^ 32) :
    (s.modPage p f).page q = s.page q := by
  rw [State.page, State.page, State.modPage]
  by_cases hdie : pageDie q = pageDie p
  · have hidx : pageIdx q ≠ pageIdx p := by
      unfold pageDie at hdie
      unfold pageIdx
      omega
    rw [hdie, State.adie_modADie_same, ADie.modDesc, ADie.descOf_setDesc_ne _ _ hidx]
  · rw [State.adie_modADie_ne _ _ hdie]

theorem State.adies_modTaskOn (c : Nat) (f : Task → Task) : (s.modTaskOn c f).adies = s.adies := by
  unfold State.modTaskOn
  split <;> rfl

theorem adies_putOpnd (o : Opnd) (v : Word) : (s.putOpnd o v).adies = s.adies := by
  cases o <;> rfl

theorem State.page_congr {s t : State} (h : t.adies = s.adies) (q : Nat) : t.page q = s.page q := by
  rw [State.page, State.page, State.adie, State.adie, h]

end

/-- The module once a token's bytes stand in a slot: the page is full by one slot more, and the A-dies know who sees the token. -/
def State.tokenStored (s : State) (pg slot pa : Nat) (img : List Byte) (b : SMap Bool) : State :=
  ((s.stored pa img b).modPage pg fun d => { d with seq := d.seq + 2, fill := slot + 1 }).modADies fun n q => q.newToken (n == s.myA) pg slot

/-- The access that carries a token of n bytes through the A engine queue. -/
def State.tokenAccess (s : State) (pg slot pa n : Nat) : Access :=
  s.newAccess 0 (.token pg slot) pa [{ off := 0, va := pa, pa := pa, len := n }]

section
variable {s : State} {a : AEng} {pg slot : Nat} {img : List Byte}

/-- An append to memory whose units are good writes the token, advances the page, and enters the A engine queue. -/
theorem append_eq_tokenStored (hm : s.isMem (slotPa a (s.page pg) a.kvh slot) = true)
    (hg : s.badAt (slotPa a (s.page pg) a.kvh slot) img.length = false) : ∃ b x n, s.append a pg slot img =
      { (s.tokenStored pg slot (slotPa a (s.page pg) a.kvh slot) img b).aXst.modMe fun k => { k with mq := k.mq ++ [x] } with seq := n } := by
  obtain ⟨b, hb⟩ := State.store_good hm hg
  have hstore : s.aStore (slotPa a (s.page pg) a.kvh slot) (slotPa a (s.page pg) a.kvh slot) img true =
      s.stored (slotPa a (s.page pg) a.kvh slot) img b := by
    simp only [State.aStore, hb, if_true]
  refine ⟨b, s.tokenAccess pg slot (slotPa a (s.page pg) a.kvh slot) a.hb,
    (s.tokenStored pg slot (slotPa a (s.page pg) a.kvh slot) img b).aXst.seq + 1, ?_⟩
  simp only [State.append, hstore]
  rfl

variable {pa : Nat} {b : SMap Bool}

theorem State.mem_tokenStored : (s.tokenStored pg slot pa img b).mem = memWriteIf (fun x => !s.isRo x) s.mem pa img := by
  rw [State.tokenStored, State.mem_modADies]
  rfl

theorem State.agents_tokenStored : (s.tokenStored pg slot pa img b).agents = s.agents := State.agents_modADies ..

theorem State.page_tokenStored (q : Nat) : (s.tokenStored pg slot pa img b).page q =
    (s.modPage pg fun d => { d with seq := d.seq + 2, fill := slot + 1 }).page q := by
  rw [State.tokenStored, State.page_modADies _ (f := fun n q => q.newToken (n == s.myA) pg slot) fun _ _ => rfl]
  rfl

end

end Sys2Proof.Machine

namespace Sys2Proof.Claims
open Sys2Proof.Machine

/-! ### KVAPP and KVAPP.beam complete, or wait -/

theorem kvapp_later {w : AForm} {s t u : State} {beam : Bool} {r q : Append} (h : appendHas s t w beam r)
    (hl : t.appendNow t.me.a r = .ok (.later u q)) : s.kvapp w beam = .next (u.inPhase (.kvapp q)).used := by
  simp only [State.kvapp, appendOf_has h, hl]

theorem appendsComplete : AppendsComplete := by
  rintro w s t u beam r i hi h
  refine ⟨fun ok hd hs => kvapp_completes w s t u beam r i ok hi h hd hs, fun q hl => ?_⟩
  rw [hi, exec_kvapp, kvapp_later h hl]

/-! ### A token appended to a page that its task alone holds -/

section
variable {s : State} {i : Instr} {w : AForm} {x pos : Word} {a : AEng} {img : List Byte} {row p : Nat} {d : Desc}

/-- What such an append works with: nothing that it copies, forks or allocates. -/
structure PlainAppend (r : Append) (p slot : Nat) (img : List Byte) : Prop where
  page : r.page = p
  slot : r.slot = slot
  img : r.img = img
  copy : r.copy = none
  fork : r.fork = none

/-- What a KVAPP without a fork works with once it has read. -/
def plainAppend (s : State) (w : AForm) (beam : Bool) (entry : Option Nat) (pg row blk slot : Nat) (img : List Byte) : Append :=
  { id := s.seq, cyc := s.cycle.toNat, word := w, isBeam := beam, entry := entry, page := pg, copy := none, row := row, rowParts := none
    blk := blk, slot := slot, img := img, fork := none }

theorem readAppend_plain (hreads : appendReads s w x pos a img) (hrow : appendRow s w x i row)
    (hp : s.aEntry (row + 4 * (pos.toNat % 2 ^ 32 / 32)) = .ok p) (hpage : p ≠ 0xFFFFFFFF) (hd : s.aDesc p = .ok d) (hro : d.ro = false)
    (hslot : pos.toNat % 32 = d.fill) (hone : d.sharedPage = false) :
    ∃ beam r, i = (if beam then .kvappBeam w else .kvapp w) ∧ s.readAppend w beam = .ok (r, { s with seq := s.seq + 1 }) ∧
      PlainAppend r p d.fill img := by
  obtain ⟨hold, hx, hpos, hq, himg, hcap⟩ := hreads
  have hslot' : pos.toNat % 2 ^ 32 % 32 = d.fill := by omega
  have hcap' := shapeAIf_ok (reason := 10) (n := 0) (decide_eq_false (Nat.not_le.2 hcap))
  have hmay := State.mayAppend_ok hd hro hslot'
  have hnone : ¬p = noPage := hpage
  rcases hrow with ⟨rfl, hal, rfl⟩ | ⟨rfl, hi, hv, ho, hfork, rfl⟩
  · refine ⟨false, plainAppend s w false none p (x.toNat + 4 * (pos.toNat % 2 ^ 32 / 32)) (pos.toNat % 2 ^ 32 / 32) (pos.toNat % 2 ^ 32 % 32) img,
      rfl, ?_, ?_⟩
    · simp only [State.readAppend, hold, hx, hpos, hq, himg, ok_bind, hcap', checkAlign_ok hal, Bool.false_eq_true, if_false, pure_eq_ok, hp,
        if_neg hnone, hmay, hone]
      rfl
    · exact ⟨rfl, hslot', rfl, rfl, rfl⟩
  · refine ⟨true, plainAppend s w true (some x.toNat) p (beamRow (s.beam x.toNat) * 64 + 4 * (pos.toNat % 2 ^ 32 / 32)) (pos.toNat % 2 ^ 32 / 32)
      (pos.toNat % 2 ^ 32 % 32) img, rfl, ?_, ?_⟩
    · simp only [State.readAppend, hold, hx, hpos, hq, himg, ok_bind, hcap', State.beamCheck_valid hi hv ho, Bool.false_eq_true, if_false,
        if_true, pure_eq_ok, hfork, hp, if_neg hnone, hmay, hone]
      rfl
    · exact ⟨rfl, hslot', rfl, rfl, rfl⟩

theorem appendNow_plain {r : Append} (hr : PlainAppend r p d.fill img) (hpage : p ≠ 0xFFFFFFFF) (hd : s.aDesc p = .ok d)
    (hro : d.ro = false) (ht : d.tier = 0) (hone : d.sharedPage = false)
    (hok : s.aPage s.aMaster true (slotPa a d a.kvh d.fill) a.hb = .ok ()) :
    s.appendNow a r = .ok (.done (s.append a p d.fill img) true) := by
  obtain ⟨rfl, hslot, rfl, hcopy, hfork⟩ := hr
  have hforked : s.forked r = s := by
    unfold State.forked
    rw [hfork]
    split
    next h => cases h
    next => rfl
  have hdrop : s.dropCopy r = s := by rw [State.dropCopy, hcopy]
  have hnone : ¬r.page = noPage := hpage
  simp only [State.appendNow, hfork, hforked, hdrop, if_neg hnone, hslot, State.mayAppend_ok hd hro rfl, ok_bind, ht, hone, hok]
  rfl

/-- What KVAPP leaves of a token that it appends at once. -/
theorem gives_appended (hphase : s.ctx.phase = .body) (hreads : appendReads s w x pos a img) (hrow : appendRow s w x i row)
    (hp : s.aEntry (row + 4 * (pos.toNat % 2 ^ 32 / 32)) = .ok p) (hpage : p ≠ 0xFFFFFFFF) (hd : s.aDesc p = .ok d) (hro : d.ro = false)
    (hslot : pos.toNat % 32 = d.fill) (ht : d.tier = 0) (hone : d.sharedPage = false)
    (hok : s.aPage s.aMaster true (slotPa a d a.kvh d.fill) a.hb = .ok ()) (hm : s.isMem (slotPa a d a.kvh d.fill) = true)
    (hg : s.badAt (slotPa a d a.kvh d.fill) img.length = false) (hs : Straight s 3) :
    ∃ u : State, Gives i s (u.putOpnd w.dst 1) ∧ u.mem = memWriteIf (fun y => !s.isRo y) s.mem (slotPa a d a.kvh d.fill) img ∧
      ∀ q, u.page q = (s.modPage p fun e => { e with seq := e.seq + 2, fill := d.fill + 1 }).page q := by
  obtain ⟨-, -, -, hq, -⟩ := id hreads
  let t : State := { s with seq := s.seq + 1 }
  have hdp : t.page p = d := (State.page_of_aDesc hd).symm
  obtain ⟨beam, r, hi, hread, hr⟩ := readAppend_plain hreads hrow hp hpage hd hro hslot hone
  have hnow : t.appendNow t.me.a r = .ok (.done (t.append a p d.fill img) true) := by
    have hme : t.me.a = a := State.me_of_query hq
    rw [hme]
    exact appendNow_plain hr hpage ((State.aDesc_seq ..).trans hd) hro ht hone ((State.aPage_seq ..).trans hok)
  obtain ⟨b, y, n, happ⟩ := append_eq_tokenStored (s := t) (a := a) (pg := p) (slot := d.fill) (img := img) (by rw [hdp]; exact hm)
    (by rw [hdp]; exact hg)
  rw [hdp] at happ
  let v := t.tokenStored p d.fill (slotPa a d a.kvh d.fill) img b
  have hcourse : Ctx.sameCourse s.ctx (t.append a p d.fill img).ctx := by
    have hagents : v.aXst.agents = s.agents := (State.agents_modTaskOn ..).trans State.agents_tokenStored
    have h : Ctx.sameCourse s.ctx (v.aXst.modMe fun k => { k with mq := k.mq ++ [y] }).ctx :=
      (State.sameCourse_of_agents hagents).trans (sameCourse_modMe v.aXst (fun k => { k with mq := k.mq ++ [y] }) rfl)
    rw [happ]
    exact h
  refine ⟨t.append a p d.fill img, kvapp_completes w s t _ beam r i true hi (.inl ⟨hphase, hread⟩) hnow (hs.of_same hcourse), ?_, fun q => ?_⟩
  · have hmem : v.aXst.mem = memWriteIf (fun y => !s.isRo y) s.mem (slotPa a d a.kvh d.fill) img :=
      (State.mem_aXst v).trans State.mem_tokenStored
    rw [happ]
    exact hmem
  · have hpages : v.aXst.page q = (t.modPage p fun e => { e with seq := e.seq + 2, fill := d.fill + 1 }).page q :=
      (State.page_congr (v.adies_modTaskOn ..) q).trans (State.page_tokenStored q)
    rw [happ]
    exact hpages

end

/-- R286: the token stands in its slot. -/
theorem appendedToken : AppendedToken := by
  intro s i w x pos a img row d p hphase hreads hrow hp hpage hd hro hslot htier hrefc hshared hok hm hg hw hs
  have hone : d.sharedPage = false := by
    rw [Desc.sharedPage, hshared, Bool.or_false]
    exact decide_eq_false (Nat.not_lt.2 hrefc)
  obtain ⟨u, ⟨t, hexec, hseq⟩, hmem, hpages⟩ := gives_appended hphase hreads hrow hp hpage hd hro hslot htier hone hok hm hg hs
  have hmem' : t.mem = memWriteIf (fun y => !s.isRo y) s.mem (slotPa a d a.kvh d.fill) img :=
    hseq.mem.trans ((State.mem_putOpnd ..).trans hmem)
  have hpages' (q : Nat) : t.page q = (s.modPage p fun e => { e with seq := e.seq + 2, fill := d.fill + 1 }).page q :=
    (State.page_congr (congrArg State.adies hseq.module) q).trans ((State.page_congr (adies_putOpnd ..) q).trans (hpages q))
  have hdp : d = s.page p := State.page_of_aDesc hd
  have hpage' : t.page p = { d with seq := d.seq + 2, fill := d.fill + 1 } := by rw [hpages', State.page_modPage_same, ← hdp]
  refine ⟨t, hexec, fun j hj => ?_, ?_, ?_, fun k hk => ?_, ?_, ?_, fun q hne hq hlt => ?_, fun y hy => ?_⟩
  · rw [hseq.getP, hj, State.putOpnd, State.ctx_modCtx]
    exact Ctx.getP_putP_same ..
  · rw [hpage']
  · rw [hpage']
  · rw [hmem', get_memWriteIf_in _ _ _ _ hk, hw k hk]
    rfl
  · rw [hpage']
  · rw [hpage']
  · rw [hpages', State.page_modPage_ne _ _ hne hq hlt]
  · rw [hmem', get_memWriteIf_out _ _ _ _ _ hy]

/-- Settles O34: `appendsComplete` follows `kvapp` through the outcomes of `appendNow`, and `appendedToken` reads the token,
the page and the frame off the state of `tokenStored`. -/
theorem appends : Obligations.Appends := by
  unfold Obligations.Appends
  exact ⟨appendsComplete, appendedToken⟩

end Sys2Proof.Claims
end
